-- ==== Sys2Proof/Word.lean ====
section
/-!
DEFINITION. Word types of the KZ4-512 and the keyed tables that hold its sparse state.
A table lists (key, value) pairs in rising key order; a key it does not list reads as a default.
-/

namespace Sys2Proof

/-- A 64-bit word (R17). -/
abbrev Word := BitVec 64

/-- A byte. -/
abbrev Byte := BitVec 8

/-- A sparse table of values by natural-number key. -/
abbrev Tab (α : Type) := List (Nat × α)

namespace Tab

variable {α : Type}

/-- The value at key k, or d where none is listed. -/
def rd (d : α) : Tab α → Nat → α
  | [], _ => d
  | (k', v) :: t, k => if k' = k then v else rd d t k

/-- The listed value at key k. -/
def find? : Tab α → Nat → Option α
  | [], _ => none
  | (k', v) :: t, k => if k' = k then some v else find? t k

/-- Lists v at key k, replacing what was listed there. -/
def put : Tab α → Nat → α → Tab α
  | [], k, v => [(k, v)]
  | (k', v') :: t, k, v =>
    if k < k' then (k, v) :: (k', v') :: t
    else if k = k' then (k, v) :: t
    else (k', v') :: put t k v

/-- Removes key k. -/
def del : Tab α → Nat → Tab α
  | [], _ => []
  | (k', v') :: t, k => if k' = k then t else (k', v') :: del t k

/-- Lists v at key k, or removes k where v is the default d: the canonical write. -/
def set [DecidableEq α] (d : α) (t : Tab α) (k : Nat) (v : α) : Tab α :=
  if v = d then del t k else put t k v

/-- Keys strictly rise from above a bound. -/
def risesFrom : Option Nat → Tab α → Bool
  | _, [] => true
  | none, (k, _) :: t => risesFrom (some k) t
  | some b, (k, _) :: t => decide (b < k) && risesFrom (some k) t

/-- The canonical form: keys strictly rising, no value equal to the default d. -/
def canon [DecidableEq α] (d : α) (t : Tab α) : Bool :=
  risesFrom none t && t.all (fun e => decide (e.2 ≠ d))

/-- Applies f to the value at key k (the default where none is listed). -/
def upd (d : α) (t : Tab α) (k : Nat) (f : α → α) : Tab α :=
  put t k (f (rd d t k))

end Tab

end Sys2Proof
end

