-- ==== Sys2Proof/Config.lean ====
section
/-!
DEFINITION. Constants of the package (Table 1.2 and the chapters named) and the values the spec leaves open.
-/

namespace Sys2Proof.Config

/-- Compute cores of the package (R18). -/
def cores : Nat := 4096

/-- The highest package core number, service cores included (Table 7.7). -/
def lastCore : Nat := 4111

/-- Store-buffer entries of a core (R181). -/
def sbEntries : Nat := 32

/-- Inbound queue entries of a core (R130). -/
def inboxEntries : Nat := 16

/-- Outbound message buffer entries of a core (R132). -/
def outboxEntries : Nat := 8

/-- Waiter entries of a bank (R153) and of a core's semaphore unit (R370). -/
def waiterEntries : Nat := 64

/-- Entries of an overflow area (R153). -/
def overflowEntries : Nat := 4096

/-- Range scoreboard entries of a core (R173). -/
def boardEntries : Nat := 16

/-- TLB entries of a core (R168). -/
def tlbEntries : Nat := 256

/-- Held ROADD contributions of a word (R328). -/
def heldEntries : Nat := 64

/-- Gated buffer entries of a twin pair (R225). -/
def gatedEntries : Nat := 256

/-- Words of a value the spec leaves open, by use: nothing constrains them. (DESIGN CHOICE, safe: log 4) -/
opaque freeWord : Nat → Word

/-- How long a requester waits for a response, in ns: the spec leaves it open (Table 2.4, STATUS 7). (DESIGN CHOICE, safe: log 7) -/
opaque requestLimit : Nat

/-- The bytes of the identity certificate (R72), which belong to the device. (DESIGN CHOICE, safe: log 7) -/
opaque certByte : Nat → BitVec 8

/-- The bytes of the report's signature (R72), by the digest of what it signs. (DESIGN CHOICE, safe: log 7) -/
opaque sigByte : Nat → Nat → BitVec 8

end Sys2Proof.Config
end

