-- ==== Sys2Proof/Syntax.lean ====
section
/-!
DEFINITION. The steps of the KZ4-512: body instructions, long commands and whole machine steps (spec/opcode_table.json).
-/

namespace Sys2Proof

/-- The PR field: how a body word fires (R259). -/
inductive Pr | always | onTrue | onFalse
  deriving DecidableEq, Repr

/-- An integer width w (R262). -/
inductive Width | w8 | w16 | w32 | w64
  deriving DecidableEq, Repr

/-- A floating-point precision p (R262). -/
inductive Prec | sp | dp
  deriving DecidableEq, Repr

/-- A rounding mode of R240. -/
inductive RMode | rne | rtz | rdn | rup | rna
  deriving DecidableEq, Repr

/-- A rounding field rm; dyn is 0b111, the RMODE of the TSW (R262). -/
inductive Rm | static (m : RMode) | dyn
  deriving DecidableEq, Repr

/-- A vector lane type T (R338). -/
inductive VT | i8 | i16 | i32 | i64 | f32 | f64
  deriving DecidableEq, Repr

/-- A scope code of Table 9.2. -/
inductive Scope | core | square | die | pkg | sys
  deriving DecidableEq, Repr

/-- The operations of AMO and RAMO (R311). -/
inductive AmoOp | add | and | or | xor | min | max | minn | maxn | swap | cas | fadd
  deriving DecidableEq, Repr

/-- The operand type of ROADD (R328). -/
inductive RoTy | i64 | f64 | f32
  deriving DecidableEq, Repr

/-- The relation of VCMP (R345). -/
inductive VCond | eq | lt | le | ltn
  deriving DecidableEq, Repr

/-- The eight words of a long command (R259, R260, R359): f is the 160-bit command field F. -/
structure Long where
  p : Pr
  lsid : Nat
  t : Nat
  wsem : Nat
  wthr : Nat
  ssem : Nat
  sinc : Nat
  flags : Nat
  f : BitVec 160
  deriving DecidableEq, Repr

/-- The three retried flit classes of a port (R34). -/
inductive FlitClass | req | rsp | msg
  deriving DecidableEq, Repr

/-- A Burmir transaction: the header of Table 2.2 and its data. flits is the number of flits it came in; rsvd is nonzero
where a reserved field of the header or of one of its flit headers is. -/
structure Txn where
  op : Nat
  len : Nat
  status : Nat := 0
  tag : Nat := 0
  qtr : Nat := 0
  rhnd : Nat := 0
  rsvd : Nat := 0
  addr : Nat := 0
  data : List Byte := []
  flits : Nat := 1
  deriving DecidableEq, Repr

/-- A start, SPAWN, CALLAT or SEND message (Table 7.7). -/
structure Msg where
  kind : Nat
  p : Bool := false
  t : Bool := false
  lid : Nat := 0
  dpkg : Nat := 0
  dcore : Nat := 0
  origin : Word := 0
  handler : Nat := 0
  retw : Word := 0
  pay : List Word := []
  ident : Nat := 0                   -- identity of the sending operation (R228)
  granted : Nat := 0                 -- a start: the time of its grant (R87)
  resv : Option Nat := none          -- a queued twin message: the reservation whose slot it still holds (R145)
  deriving DecidableEq, Repr

/-- What a remote operation does at its target (R325-R329). -/
inductive RemKind
  | rld | rst | rstf | rpost
  | ramo (op : AmoOp) | rcas | roadd (ty : RoTy) | rvamo (op : AmoOp) (w : Width)
  deriving DecidableEq, Repr

/-- Where a physical access lands: the homes of R179 and the places of R156, R169. -/
inductive Place
  | mem (loc : Nat)                  -- a byte of TCM, square memory or a vault, by linear location
  | debug (core off : Nat)           -- a debug window byte (Table 10.6)
  | peer (pkg core off : Nat)        -- a byte of another package's vault, or of package 255
  deriving DecidableEq, Repr

/-- A remote operation in flight, with the identity of its issuer (R325). -/
structure RemOp where
  kind : RemKind
  place : Place
  a : Word := 0                      -- right operand
  b : Word := 0                      -- RCAS: the new value
  v : BitVec 512 := 0                -- RVAMO operand
  nulls : BitVec 64 := 0
  core : Nat := 0                    -- issuer
  slot : Nat := 0
  fseq : Nat := 0                    -- execution of the issuer's frame
  idx : Nat := 0
  lsid : Nat := 0
  lid : Nat := 0
  slice : Nat := 0
  priv : Bool := false
  pc : Word := 0
  ea : Nat := 0
  ident : Nat := 0                   -- R228
  tid : Nat := 0                     -- issuing thread
  stamp : Nat := 0                   -- serial number at its place in program order
  deriving DecidableEq, Repr

/-- A row of a bank of a core's vault. -/
structure RowName where
  core : Nat
  bank : Nat
  row : Nat
  deriving DecidableEq, Repr

/-- A configuration store image (R71). (DESIGN CHOICE, unsafe: log 5) -/
structure ConfigImage where
  version : Nat
  pkgId : Nat
  roles : List Nat                   -- per port: 0 host, 1 peer, 2 off
  routes : List (Nat × Nat)          -- package id, port
  queueWindow : Nat
  powerLimitW : Nat
  digest : BitVec 512                -- SHAKE256 of the image
  deriving DecidableEq, Repr

/-- A firmware image as the management controller judges it (R70). (DESIGN CHOICE, safe: log 7) -/
structure FwImage where
  version : Nat
  sigOk : Bool
  digest : BitVec 512
  deriving DecidableEq, Repr

/-- A window of the host adapter (Table 2.6). -/
inductive HostWindow | management | request | queue
  deriving DecidableEq, Repr

/-- A PCIe AtomicOp (R37). -/
inductive PcieAtomic | fetchAdd | swap | cas
  deriving DecidableEq, Repr

/-- Every step of the machine: one constructor for each row of spec/opcode_table.json, the encoded rows first.
Body instructions carry the fields of their word: p firing, w width, q precision, m rounding, y lane type,
c condition, scope or code, l LSID (or a bit-field length), i immediate, n count, k register, e exit number,
f offset field, s and t the targets T1 and T0. Machine steps carry what the outside or the schedule supplies. -/
inductive Instr
  -- structural
  | readReg (k s t : Nat)
  | mov (p : Pr) (s t : Nat)
  | mov4 (p : Pr) (s t t3 t2 : Nat)
  | movi (p : Pr) (i t : Nat)
  | const (t i : Nat)
  | consth (t i : Nat)
  | null (p : Pr) (s t : Nat)
  -- integer
  | add (p : Pr) (w : Width) (s t : Nat)
  | sub (p : Pr) (w : Width) (s t : Nat)
  | mul (p : Pr) (w : Width) (s t : Nat)
  | mulh (p : Pr) (w : Width) (s t : Nat)
  | mulhn (p : Pr) (w : Width) (s t : Nat)
  | div (p : Pr) (w : Width) (s t : Nat)
  | divn (p : Pr) (w : Width) (s t : Nat)
  | rem (p : Pr) (w : Width) (s t : Nat)
  | remn (p : Pr) (w : Width) (s t : Nat)
  | and (p : Pr) (w : Width) (s t : Nat)
  | or (p : Pr) (w : Width) (s t : Nat)
  | xor (p : Pr) (w : Width) (s t : Nat)
  | andn (p : Pr) (w : Width) (s t : Nat)
  | shl (p : Pr) (w : Width) (s t : Nat)
  | shr (p : Pr) (w : Width) (s t : Nat)
  | sra (p : Pr) (w : Width) (s t : Nat)
  | rol (p : Pr) (w : Width) (s t : Nat)
  | ror (p : Pr) (w : Width) (s t : Nat)
  | min (p : Pr) (w : Width) (s t : Nat)
  | max (p : Pr) (w : Width) (s t : Nat)
  | minn (p : Pr) (w : Width) (s t : Nat)
  | maxn (p : Pr) (w : Width) (s t : Nat)
  | sel (s t : Nat)
  | clz (p : Pr) (w : Width) (s t : Nat)
  | ctz (p : Pr) (w : Width) (s t : Nat)
  | popc (p : Pr) (w : Width) (s t : Nat)
  | brev (p : Pr) (w : Width) (s t : Nat)
  | bswap (p : Pr) (w : Width) (s t : Nat)
  | abs (p : Pr) (w : Width) (s t : Nat)
  | sext (p : Pr) (w : Width) (s t : Nat)
  | zext (p : Pr) (w : Width) (s t : Nat)
  | bfx (p : Pr) (x : Bool) (l n t : Nat)
  | bfi (p : Pr) (l n t : Nat)
  | kvslot (p : Pr) (s t : Nat)
  | addi (p : Pr) (i t : Nat)
  | muli (p : Pr) (i t : Nat)
  | andi (p : Pr) (i t : Nat)
  | ori (p : Pr) (i t : Nat)
  | xori (p : Pr) (i t : Nat)
  | shli (p : Pr) (n t : Nat)
  | shri (p : Pr) (n t : Nat)
  | srai (p : Pr) (n t : Nat)
  | teq (p : Pr) (w : Width) (s t : Nat)
  | tne (p : Pr) (w : Width) (s t : Nat)
  | tlt (p : Pr) (w : Width) (s t : Nat)
  | tle (p : Pr) (w : Width) (s t : Nat)
  | tltn (p : Pr) (w : Width) (s t : Nat)
  | tlen (p : Pr) (w : Width) (s t : Nat)
  | teqi (p : Pr) (i t : Nat)
  | tnei (p : Pr) (i t : Nat)
  | tlti (p : Pr) (i t : Nat)
  | tlei (p : Pr) (i t : Nat)
  | tltni (p : Pr) (i t : Nat)
  | tleni (p : Pr) (i t : Nat)
  | tbit (p : Pr) (n t : Nat)
  -- floating point
  | fadd (p : Pr) (m : Rm) (q : Prec) (s t : Nat)
  | fsub (p : Pr) (m : Rm) (q : Prec) (s t : Nat)
  | fmul (p : Pr) (m : Rm) (q : Prec) (s t : Nat)
  | fdiv (p : Pr) (m : Rm) (q : Prec) (s t : Nat)
  | fma (m : Rm) (q : Prec) (s t : Nat)
  | fms (m : Rm) (q : Prec) (s t : Nat)
  | fsqrt (p : Pr) (m : Rm) (q : Prec) (s t : Nat)
  | fmin (p : Pr) (q : Prec) (s t : Nat)
  | fmax (p : Pr) (q : Prec) (s t : Nat)
  | fabs (p : Pr) (q : Prec) (s t : Nat)
  | fneg (p : Pr) (q : Prec) (s t : Nat)
  | fsgn (p : Pr) (q : Prec) (s t : Nat)
  | feq (p : Pr) (q : Prec) (s t : Nat)
  | flt (p : Pr) (q : Prec) (s t : Nat)
  | fle (p : Pr) (q : Prec) (s t : Nat)
  | funord (p : Pr) (q : Prec) (s t : Nat)
  | fclass (p : Pr) (q : Prec) (s t : Nat)
  | fcvt (p : Pr) (m : Rm) (q : Prec) (s t : Nat)
  | fcvti (p : Pr) (m : Rm) (q : Prec) (s t : Nat)
  | icvtf (p : Pr) (m : Rm) (q : Prec) (s t : Nat)
  | frnd (p : Pr) (m : Rm) (q : Prec) (s t : Nat)
  -- memory and synchronisation
  | ld (w : Width) (p : Pr) (l i t : Nat)
  | ldS (w : Width) (p : Pr) (l i t : Nat)
  | ldDAcq (p : Pr) (l i t : Nat)
  | st (p : Pr) (l i : Nat) (rel : Bool) (w : Width)
  | ldfe (p : Pr) (l t : Nat)
  | ldff (p : Pr) (l t : Nat)
  | feprobe (p : Pr) (l t : Nat)
  | stef (p : Pr) (l : Nat)
  | stf (p : Pr) (l : Nat)
  | feempty (p : Pr) (l : Nat)
  | amo (p : Pr) (l : Nat) (x : AmoOp) (acq rel : Bool) (t : Nat)
  | binit (p : Pr) (l : Nat)
  | arrive (p : Pr) (l : Nat) (c : Scope) (t : Nat)
  | bwait (p : Pr) (l t : Nat)
  | btest (p : Pr) (l t : Nat)
  | join (p : Pr) (l t : Nat)
  | leave (p : Pr) (l t : Nat)
  | waita (p : Pr) (l t : Nat)
  | notify (p : Pr) (l : Nat) (c : Scope)
  | fence (p : Pr) (l : Nat) (c : Scope)
  | fenceXp (p : Pr) (l : Nat) (c : Scope)
  | fenceLoop (p : Pr) (l : Nat)
  | rowopen (p : Pr) (l : Nat)
  | rowclose (p : Pr) (l : Nat)
  | semwait (p : Pr) (l t : Nat)
  | semsig (p : Pr) (l t : Nat)
  | semset (p : Pr) (l : Nat)
  | rld (p : Pr) (l t : Nat)
  | rst (p : Pr) (l : Nat)
  | rstf (p : Pr) (l : Nat) (c : Scope)
  | rpost (p : Pr) (l : Nat)
  | ramo (p : Pr) (l : Nat) (x : AmoOp) (t : Nat)
  | rcas (l t : Nat)
  | roadd (p : Pr) (l : Nat) (y : RoTy)
  | rvamo (p : Pr) (l : Nat) (o : AmoOp) (w : Width) (t : Nat)
  | spawn (p : Pr) (l t : Nat)
  | callat (l t : Nat)
  | send (p : Pr) (l : Nat)
  | tid (p : Pr) (s t : Nat)
  | whereQ (p : Pr) (s t : Nat)
  | time (p : Pr) (s t : Nat)
  -- exits
  | br (p : Pr) (e f : Nat)
  | bri (p : Pr) (e : Nat)
  | call (p : Pr) (e f : Nat)
  | ret (p : Pr) (e : Nat)
  | loop (p : Pr) (e k f : Nat)
  | migrate (p : Pr) (e f : Nat)
  | trap (p : Pr) (e c f : Nat)
  | doneX (p : Pr) (e : Nat)
  | yieldX (p : Pr) (e f : Nat)
  | breakX (p : Pr) (e f : Nat)
  -- vector
  | vadd (p : Pr) (y : VT) (s t : Nat)
  | vsub (p : Pr) (y : VT) (s t : Nat)
  | vmul (p : Pr) (y : VT) (s t : Nat)
  | vfma (y : VT) (s t : Nat)
  | vmin (p : Pr) (y : VT) (s t : Nat)
  | vmax (p : Pr) (y : VT) (s t : Nat)
  | vabs (p : Pr) (y : VT) (s t : Nat)
  | vneg (p : Pr) (y : VT) (s t : Nat)
  | vand (p : Pr) (y : VT) (s t : Nat)
  | vor (p : Pr) (y : VT) (s t : Nat)
  | vxor (p : Pr) (y : VT) (s t : Nat)
  | vandn (p : Pr) (y : VT) (s t : Nat)
  | vshl (p : Pr) (y : VT) (s t : Nat)
  | vshr (p : Pr) (y : VT) (s t : Nat)
  | vsra (p : Pr) (y : VT) (s t : Nat)
  | vcmp (p : Pr) (c : VCond) (y : VT) (s t : Nat)
  | vsel (y : VT) (s t : Nat)
  | vbcast (p : Pr) (y : VT) (s t : Nat)
  | vext (p : Pr) (y : VT) (s t : Nat)
  | vins (y : VT) (s t : Nat)
  | vshuf (p : Pr) (y : VT) (s t : Nat)
  | vperm (p : Pr) (y : VT) (s t : Nat)
  | vrot (p : Pr) (y : VT) (s t : Nat)
  | vredadd (p : Pr) (y : VT) (s t : Nat)
  | vredmax (p : Pr) (y : VT) (s t : Nat)
  | vredmin (p : Pr) (y : VT) (s t : Nat)
  | vscan (p : Pr) (y : VT) (s t : Nat)
  | vpopc (p : Pr) (y : VT) (s t : Nat)
  | vpfxc (p : Pr) (y : VT) (s t : Nat)
  | vcvt (p : Pr) (c : VT) (y : VT) (s t : Nat)
  | vexp2 (p : Pr) (y : VT) (s t : Nat)
  | vlog2 (p : Pr) (y : VT) (s t : Nat)
  | vrcp (p : Pr) (y : VT) (s t : Nat)
  | vrsqrt (p : Pr) (y : VT) (s t : Nat)
  | vld (p : Pr) (l : Nat) (w : Width) (t : Nat)
  | vst (p : Pr) (l : Nat) (w : Width)
  | vldg (p : Pr) (l : Nat) (w : Width) (t : Nat)
  | vsts (l : Nat) (w : Width)
  | vtld (p : Pr) (l : Nat) (w : Width) (t : Nat)
  | vamo (p : Pr) (l : Nat) (w : Width) (a : AmoOp) (t : Nat)
  -- system
  | csrrd (p : Pr) (l t : Nat)
  | csrwr (p : Pr) (l t : Nat)
  | segld (p : Pr) (l t : Nat)
  | segst (p : Pr) (l t : Nat)
  | wake (p : Pr) (l t : Nat)
  | ctxswap (p : Pr) (l t : Nat)
  | slotpark (p : Pr) (l t : Nat)
  | slotfree (p : Pr) (l t : Nat)
  | tlbinv (p : Pr) (l : Nat)
  | marker (p : Pr) (l t : Nat)
  | qwave (p : Pr) (l t : Nat)
  | twin (p : Pr) (l t : Nat)
  | scrub (p : Pr) (l t : Nat)
  -- long commands
  | mma (c : Long)
  | tileLd (c : Long)
  | tileSt (c : Long)
  | tileCp (c : Long)
  | tileDeal (c : Long)
  | tileResume (c : Long)
  | castDec (c : Long)
  | castPlane (c : Long)
  | castTable (c : Long)
  | xswap (c : Long)
  | pgPromote (c : Long)
  | pgRequant (c : Long)
  | kvAlloc (c : Long)
  | kvFree (c : Long)
  | kvAppend (c : Long)
  | kvEvict (c : Long)
  | pfxMatch (c : Long)
  | pfxInsert (c : Long)
  | pfxUnref (c : Long)
  -- power-up, shutdown, configuration
  | moduleResetRelease
  | squareEnableStep
  | thermalShutdown (die tempC : Nat)
  | flowShutdown (mlPerMin durationMs : Nat)
  | moduleRestart
  | configStoreUpdate (img : ConfigImage) (sigOk : Bool)
  -- the Burmir link
  | linkTraining (port : Nat) (lanes : BitVec 16)
  | linkControlFlit (port : Nat) (cls : FlitClass) (kind seq : Nat)   -- kind 0 ack, 1 nak, 2 busy
  | busyRepeatTimer (port : Nat) (cls : FlitClass)
  | linkAckTimeout (port : Nat) (cls : FlitClass)
  | portDown (port : Nat)
  | rd (port : Nat) (x : Txn)
  | wr (port : Nat) (x : Txn)
  | wrp (port : Nat) (x : Txn)
  | wrf (port : Nat) (x : Txn)
  | hostAmo (port : Nat) (x : Txn)
  | reqcntAdd (port : Nat) (x : Txn)
  | rspackWrite (port : Nat) (x : Txn)
  | rmt (port : Nat) (x : Txn) (op : RemOp)
  | rsv (port : Nat) (x : Txn)
  | unrsv (port : Nat) (x : Txn)
  | msg (port : Nat) (x : Txn) (replayed : Bool)
  | rdrsp (port tag : Nat)
  | ack (port tag : Nat)
  | amorsp (port tag : Nat)
  | rmtrsp (port tag status : Nat) (v : BitVec 512)
  | pack (port : Nat) (core count : Nat)
  | rsvrsp (port tag : Nat) (d : Word)
  | packGatherTimeout (agent src : Nat)
  | pcieMemoryWrite (w : HostWindow) (addr : Nat) (data : List Byte)
  | pcieMemoryRead (w : HostWindow) (addr len : Nat)
  | pcieAtomicop (w : HostWindow) (addr : Nat) (kind : PcieAtomic) (bits : Nat) (a b : Word)
  | frameTableEntryWrite (n : Nat)
  | msiXTrigger (n : Nat)
  -- supervisor requests
  | qsetup (q : Nat)
  | qdisable (q : Nat)
  | framemap (q : Nat)
  | abort (q : Nat)
  | suspend (q : Nat)
  | resume (q : Nat)
  | turnover (q : Nat)
  -- turnover
  | turnoverCmd (value : Word)
  | turnoverScrub (bad : List RowName)
  | turnoverClear
  | turnoverHealth (bad badAgain : List RowName) (badSpare : List RowName)
  | turnoverFirmware (sc pc : FwImage)
  | turnoverAttest (lo hi : BitVec 256) (serial : Word)
  -- dispenser
  | dispenserReadRecord (die q ahead : Nat)
  | recordTake (die e : Nat)
  | guestOffer (die e guest : Nat)
  | guestBatchClaim (die g : Nat)
  | grant (die : Nat)
  | startMessage (n : Nat)
  | cdisChange (die : Nat)
  | sliceEndReport (n : Nat)
  | quiescenceWave (lid unit : Nat)
  | quiescenceWaveReturn (die e : Nat)
  | launchEnd (die e : Nat)
  | launchCompletion (die e : Nat)
  | killWaveReturn (die e : Nat)
  | spillRequest (core lid : Nat)
  | reserveEntryAllocation (core slot : Nat)
  -- threads and messages
  | messageArrival (n : Nat)
  | migrationArrival (n : Nat)
  | reservationRequest (n : Nat)
  | reservationRelease (n : Nat)
  | slotOutComplete (core slot : Nat)
  | threadWake (n : Nat)
  | waiterRetryTimer (core n : Nat)
  | blockFetch (core slot : Nat)
  | blockLock (core slot : Nat)
  | blockCommit (core slot : Nat)
  | faultRaiseTimeout (core slot : Nat)
  | noProgressTimeout (core slot : Nat)
  | storeBufferDrain (core : Nat)
  | remoteOperation (n : Nat)
  | roaddApply (loc : Nat)
  | faultRecord (q : Nat)
  | cutOrder (n : Nat)
  | cutMarker (n : Nat)
  | routerReport (n : Nat)
  | twinComparison (core slot : Nat)
  | replayDivergence (die e unit : Nat)
  | multicastWindowClose (sq n : Nat)
  -- engines
  | engineCommandStart (core slot eng : Nat)
  | engineCommandComplete (core n : Nat)
  | xswapNoPair (core n : Nat)
  | invalidationWaveReturn (core n : Nat)
  -- vaults
  | remapComplete (core : Nat)
  | layerPowerOnComplete (core layer : Nat)
  | refresh (core bank : Nat)
  | rowTimeout (core bank : Nat)
  | layerThrottleSample (core layer : Nat) (tempC : Nat)
  -- power
  | transitionComplete (sq : Nat)
  | currentEstimate (sq ma : Nat)
  | powerMeasurement (mw : Nat)
  | damageSample (district halfDegrees : Nat)
  | damageWindow (district : Nat)
  | hardThresholdPark (district : Nat)
  | idleEntry (sq : Nat)
  | idleExit (die : Nat)
  | heartbeatTimeout (die : Nat)
  | pchb (die : Nat) (v : Word)
  | pcsign (die : Nat) (v : Word)
  | vlpwrWrite (core : Nat) (v : Word)
  | camreqWrite (core : Nat) (v : Word)
  | debugContextWrite (core off : Nat) (v : Word)
  | scmdResume (core slot : Nat)
  | retire (core slot : Nat)
  | kill (core slot : Nat)
  | freeze (core slot : Nat)
  | step (core slot : Nat)
  | registerWrite (core num : Nat) (v : Word)
  -- later rows of the table
  | flitDiscard (port : Nat) (hdr : BitVec 64) (lo hi : BitVec 256) (space : Bool)
  | busyReplay (port : Nat) (cls : FlitClass)
  | requestTimeout (port tag : Nat)
  | entryReuseDelay (die e : Nat)
  | slotLoadComplete (core slot : Nat)
  | layerPowerOffComplete (core layer : Nat)
  | scrubPassComplete (core : Nat) (bad : List RowName)
  deriving DecidableEq, Repr

end Sys2Proof
end

