-- ==== Sys2Proof/WellFormed.lean ====
section
/-!
DEFINITION. Which instructions are well formed: the bounds of each field of a body word (Table 12.3) and the decode
checks that depend on one instruction alone (R257, R263, R264, R289, R298, R341, R353, R359-R361).
-/

namespace Sys2Proof

/-- A target number that Table 12.2 assigns: an input, a register write, or no target. -/
def tgtOk (t : Nat) : Bool := decide (t < 400) || t == 511

/-- A float lane type. -/
def VT.isFloat : VT → Bool
  | .f32 | .f64 => true
  | .i8 | .i16 | .i32 | .i64 => false

/-- The result types of VCVT. -/
def cvtOk : VT → Bool
  | .f32 | .f64 | .i32 | .i64 => true
  | .i8 | .i16 => false

/-- The operations of RVAMO: add to maxn. -/
def AmoOp.simple : AmoOp → Bool
  | .add | .and | .or | .xor | .min | .max | .minn | .maxn => true
  | .swap | .cas | .fadd => false

/-- The operations of VAMO: those of RVAMO, and swap. -/
def AmoOp.lanewise : AmoOp → Bool
  | .swap => true
  | x => x.simple

/-- The commands of Table 16.2. -/
def longListed (eng cmd : Nat) : Bool :=
  match eng with
  | 0 => cmd == 0
  | 1 => decide (cmd < 5)
  | 2 | 3 => decide (cmd < 3)
  | 4 => decide (cmd < 7)
  | _ => false

/-- The flag bits of Table 16.1 a command may set: WT, SG, SGE and the token flags always; BC, TA and MC as the table
allows; and the CF bits the command defines (R377, R397, R398). -/
def longFlagMask (eng cmd : Nat) : Nat :=
  0x3807 + (match eng, cmd with
    | 0, 0 => 0x7C0                                     -- CF[10:6]
    | 1, 0 => 0x38                                      -- MC, TA, BC
    | 1, 1 => 0x08
    | 1, 2 => 0x18
    | 1, 3 => 0x10
    | 1, 4 => 0x18
    | 2, 0 => 0x08
    | 2, 1 => 0x08
    | 3, 2 => 0x3C0                                     -- CF[9:6]: the new KFMT
    | 4, 6 => 0x40                                      -- CF[6]: TREE
    | _, _ => 0)

/-- A flag bit of word 2 of a long command. -/
def Long.flag (c : Long) (n : Nat) : Bool := c.flags.testBit n

/-- The encoding rules of words 1-7 of a long command whose flags lie in mask (R359, R360): the checks that fault
with 0x12 for every command. -/
def longCommonOk (mask : Nat) (c : Long) : Bool :=
  (c.flags &&& mask) == c.flags &&
  (c.flag 0 || (c.wsem == 0 && c.wthr == 0)) &&
  (c.flag 1 || (c.ssem == 0 && c.sinc == 0 && !c.flag 2)) &&
  (!c.flag 11 || c.f.toNat % 2^64 == 0) &&
  (!c.flag 12 || c.f.toNat / 2^64 % 2^64 == 0) &&
  (!c.flag 13 || (c.f.toNat / 2^128 == 0 && c.p == .always))

/-- The encoding rules of a command of Table 16.2: its own flags, and not both Z and K in MMA (R377). -/
def longFieldsOk (eng cmd : Nat) (c : Long) : Bool :=
  longCommonOk (longFlagMask eng cmd) c && !(eng == 0 && c.flag 6 && c.flag 7)

/-- A well-formed long command. -/
def longWf (eng cmd : Nat) (c : Long) : Bool :=
  decide (c.lsid < 32) && tgtOk c.t && decide (c.wsem < 256) && decide (c.wthr < 65536) &&
  decide (c.ssem < 256) && decide (c.sinc < 65536) && decide (c.flags < 65536) && longFieldsOk eng cmd c

/-- A well-formed instruction. A machine step that has no encoding is well formed as it stands. (DEDUCED, unsafe: log 35) -/
def Instr.wf : Instr → Bool
  | .readReg k s t => decide (k < 16) && tgtOk s && tgtOk t
  | .mov _ s t => tgtOk s && tgtOk t
  | .mov4 _ s t t3 t2 => tgtOk s && tgtOk t && tgtOk t3 && tgtOk t2
  | .movi _ i t => decide (i < 16384) && tgtOk t
  | .const t i => tgtOk t && decide (i < 65536)
  | .consth t i => tgtOk t && decide (i < 65536)
  | .null _ s t => tgtOk s && tgtOk t
  | .add _ _ s t => tgtOk s && tgtOk t
  | .sub _ _ s t => tgtOk s && tgtOk t
  | .mul _ _ s t => tgtOk s && tgtOk t
  | .mulh _ _ s t => tgtOk s && tgtOk t
  | .mulhn _ _ s t => tgtOk s && tgtOk t
  | .div _ _ s t => tgtOk s && tgtOk t
  | .divn _ _ s t => tgtOk s && tgtOk t
  | .rem _ _ s t => tgtOk s && tgtOk t
  | .remn _ _ s t => tgtOk s && tgtOk t
  | .and _ _ s t => tgtOk s && tgtOk t
  | .or _ _ s t => tgtOk s && tgtOk t
  | .xor _ _ s t => tgtOk s && tgtOk t
  | .andn _ _ s t => tgtOk s && tgtOk t
  | .shl _ _ s t => tgtOk s && tgtOk t
  | .shr _ _ s t => tgtOk s && tgtOk t
  | .sra _ _ s t => tgtOk s && tgtOk t
  | .rol _ _ s t => tgtOk s && tgtOk t
  | .ror _ _ s t => tgtOk s && tgtOk t
  | .min _ _ s t => tgtOk s && tgtOk t
  | .max _ _ s t => tgtOk s && tgtOk t
  | .minn _ _ s t => tgtOk s && tgtOk t
  | .maxn _ _ s t => tgtOk s && tgtOk t
  | .sel s t => tgtOk s && tgtOk t
  | .clz _ _ s t => tgtOk s && tgtOk t
  | .ctz _ _ s t => tgtOk s && tgtOk t
  | .popc _ _ s t => tgtOk s && tgtOk t
  | .brev _ _ s t => tgtOk s && tgtOk t
  | .bswap _ w s t => tgtOk s && tgtOk t && w != .w8
  | .abs _ _ s t => tgtOk s && tgtOk t
  | .sext _ _ s t => tgtOk s && tgtOk t
  | .zext _ _ s t => tgtOk s && tgtOk t
  | .bfx _ _ l n t => decide (l < 64) && decide (n < 64) && tgtOk t && decide (l + n < 64)
  | .bfi _ l n t => decide (l < 64) && decide (n < 64) && tgtOk t && decide (l + n < 64)
  | .kvslot _ s t => tgtOk s && tgtOk t
  | .addi _ i t => decide (i < 16384) && tgtOk t
  | .muli _ i t => decide (i < 16384) && tgtOk t
  | .andi _ i t => decide (i < 16384) && tgtOk t
  | .ori _ i t => decide (i < 16384) && tgtOk t
  | .xori _ i t => decide (i < 16384) && tgtOk t
  | .shli _ n t => decide (n < 64) && tgtOk t
  | .shri _ n t => decide (n < 64) && tgtOk t
  | .srai _ n t => decide (n < 64) && tgtOk t
  | .teq _ _ s t => tgtOk s && tgtOk t
  | .tne _ _ s t => tgtOk s && tgtOk t
  | .tlt _ _ s t => tgtOk s && tgtOk t
  | .tle _ _ s t => tgtOk s && tgtOk t
  | .tltn _ _ s t => tgtOk s && tgtOk t
  | .tlen _ _ s t => tgtOk s && tgtOk t
  | .teqi _ i t => decide (i < 16384) && tgtOk t
  | .tnei _ i t => decide (i < 16384) && tgtOk t
  | .tlti _ i t => decide (i < 16384) && tgtOk t
  | .tlei _ i t => decide (i < 16384) && tgtOk t
  | .tltni _ i t => decide (i < 16384) && tgtOk t
  | .tleni _ i t => decide (i < 16384) && tgtOk t
  | .tbit _ n t => decide (n < 64) && tgtOk t
  | .fadd _ _ _ s t => tgtOk s && tgtOk t
  | .fsub _ _ _ s t => tgtOk s && tgtOk t
  | .fmul _ _ _ s t => tgtOk s && tgtOk t
  | .fdiv _ _ _ s t => tgtOk s && tgtOk t
  | .fma _ _ s t => tgtOk s && tgtOk t
  | .fms _ _ s t => tgtOk s && tgtOk t
  | .fsqrt _ _ _ s t => tgtOk s && tgtOk t
  | .fmin _ _ s t => tgtOk s && tgtOk t
  | .fmax _ _ s t => tgtOk s && tgtOk t
  | .fabs _ _ s t => tgtOk s && tgtOk t
  | .fneg _ _ s t => tgtOk s && tgtOk t
  | .fsgn _ _ s t => tgtOk s && tgtOk t
  | .feq _ _ s t => tgtOk s && tgtOk t
  | .flt _ _ s t => tgtOk s && tgtOk t
  | .fle _ _ s t => tgtOk s && tgtOk t
  | .funord _ _ s t => tgtOk s && tgtOk t
  | .fclass _ _ s t => tgtOk s && tgtOk t
  | .fcvt _ _ _ s t => tgtOk s && tgtOk t
  | .fcvti _ _ _ s t => tgtOk s && tgtOk t
  | .icvtf _ _ _ s t => tgtOk s && tgtOk t
  | .frnd _ _ _ s t => tgtOk s && tgtOk t
  | .ld _ _ l i t => decide (l < 32) && decide (i < 512) && tgtOk t
  | .ldS w _ l i t => decide (l < 32) && decide (i < 512) && tgtOk t && w != .w64
  | .ldDAcq _ l i t => decide (l < 32) && decide (i < 512) && tgtOk t
  | .st _ l i _ _ => decide (l < 32) && decide (i < 512)
  | .ldfe _ l t => decide (l < 32) && tgtOk t
  | .ldff _ l t => decide (l < 32) && tgtOk t
  | .feprobe _ l t => decide (l < 32) && tgtOk t
  | .stef _ l => decide (l < 32)
  | .stf _ l => decide (l < 32)
  | .feempty _ l => decide (l < 32)
  | .amo p l x _ _ t => decide (l < 32) && tgtOk t && (x != .cas || p == .always)
  | .binit _ l => decide (l < 32)
  | .arrive _ l _ t => decide (l < 32) && tgtOk t
  | .bwait _ l t => decide (l < 32) && tgtOk t
  | .btest _ l t => decide (l < 32) && tgtOk t
  | .join _ l t => decide (l < 32) && tgtOk t
  | .leave _ l t => decide (l < 32) && tgtOk t
  | .waita _ l t => decide (l < 32) && tgtOk t
  | .notify _ l _ => decide (l < 32)
  | .fence _ l _ => decide (l < 32)
  | .fenceXp _ l _ => decide (l < 32)
  | .fenceLoop _ l => decide (l < 32)
  | .rowopen _ l => decide (l < 32)
  | .rowclose _ l => decide (l < 32)
  | .semwait _ l t => decide (l < 32) && tgtOk t
  | .semsig _ l t => decide (l < 32) && tgtOk t
  | .semset _ l => decide (l < 32)
  | .rld _ l t => decide (l < 32) && tgtOk t
  | .rst _ l => decide (l < 32)
  | .rstf _ l _ => decide (l < 32)
  | .rpost _ l => decide (l < 32)
  | .ramo _ l x t => decide (l < 32) && tgtOk t && x != .cas
  | .rcas l t => decide (l < 32) && tgtOk t
  | .roadd _ l _ => decide (l < 32)
  | .rvamo _ l o _ t => decide (l < 32) && tgtOk t && o.simple
  | .spawn _ l t => decide (l < 32) && tgtOk t
  | .callat l t => decide (l < 32) && tgtOk t
  | .send _ l => decide (l < 32)
  | .tid _ s t => tgtOk s && tgtOk t
  | .whereQ _ s t => tgtOk s && tgtOk t
  | .time _ s t => tgtOk s && tgtOk t
  | .br _ e f => decide (e < 8) && decide (f < 1048576)
  | .bri _ e => decide (e < 8)
  | .call _ e f => decide (e < 8) && decide (f < 1048576)
  | .ret _ e => decide (e < 8)
  | .loop _ e k f => decide (e < 8) && decide (k < 16) && decide (f < 65536)
  | .migrate _ e f => decide (e < 8) && decide (f < 1048576)
  | .trap _ e c f => decide (e < 8) && decide (c < 16) && decide (f < 65536)
  | .doneX _ e => decide (e < 8)
  | .yieldX _ e f => decide (e < 8) && decide (f < 65536)
  | .breakX _ e f => decide (e < 8) && decide (f < 65536)
  | .vadd _ _ s t => tgtOk s && tgtOk t
  | .vsub _ _ s t => tgtOk s && tgtOk t
  | .vmul _ _ s t => tgtOk s && tgtOk t
  | .vfma y s t => tgtOk s && tgtOk t && y.isFloat
  | .vmin _ _ s t => tgtOk s && tgtOk t
  | .vmax _ _ s t => tgtOk s && tgtOk t
  | .vabs _ _ s t => tgtOk s && tgtOk t
  | .vneg _ _ s t => tgtOk s && tgtOk t
  | .vand _ y s t => tgtOk s && tgtOk t && !y.isFloat
  | .vor _ y s t => tgtOk s && tgtOk t && !y.isFloat
  | .vxor _ y s t => tgtOk s && tgtOk t && !y.isFloat
  | .vandn _ y s t => tgtOk s && tgtOk t && !y.isFloat
  | .vshl _ y s t => tgtOk s && tgtOk t && !y.isFloat
  | .vshr _ y s t => tgtOk s && tgtOk t && !y.isFloat
  | .vsra _ y s t => tgtOk s && tgtOk t && !y.isFloat
  | .vcmp _ c y s t => tgtOk s && tgtOk t && (c != .ltn || !y.isFloat)
  | .vsel _ s t => tgtOk s && tgtOk t
  | .vbcast _ _ s t => tgtOk s && tgtOk t
  | .vext _ _ s t => tgtOk s && tgtOk t
  | .vins _ s t => tgtOk s && tgtOk t
  | .vshuf _ _ s t => tgtOk s && tgtOk t
  | .vperm _ _ s t => tgtOk s && tgtOk t
  | .vrot _ _ s t => tgtOk s && tgtOk t
  | .vredadd _ _ s t => tgtOk s && tgtOk t
  | .vredmax _ _ s t => tgtOk s && tgtOk t
  | .vredmin _ _ s t => tgtOk s && tgtOk t
  | .vscan _ _ s t => tgtOk s && tgtOk t
  | .vpopc _ y s t => tgtOk s && tgtOk t && !y.isFloat
  | .vpfxc _ y s t => tgtOk s && tgtOk t && !y.isFloat
  | .vcvt _ c y s t => tgtOk s && tgtOk t && cvtOk c && c != y
  | .vexp2 _ y s t => tgtOk s && tgtOk t && y.isFloat
  | .vlog2 _ y s t => tgtOk s && tgtOk t && y.isFloat
  | .vrcp _ y s t => tgtOk s && tgtOk t && y.isFloat
  | .vrsqrt _ y s t => tgtOk s && tgtOk t && y.isFloat
  | .vld _ l _ t => decide (l < 32) && tgtOk t
  | .vst _ l _ => decide (l < 32)
  | .vldg _ l _ t => decide (l < 32) && tgtOk t
  | .vsts l _ => decide (l < 32)
  | .vtld _ l w t => decide (l < 32) && tgtOk t && w != .w64
  | .vamo _ l _ a t => decide (l < 32) && tgtOk t && a.lanewise
  | .csrrd _ l t => decide (l < 32) && tgtOk t
  | .csrwr _ l t => decide (l < 32) && tgtOk t
  | .segld _ l t => decide (l < 32) && tgtOk t
  | .segst _ l t => decide (l < 32) && tgtOk t
  | .wake _ l t => decide (l < 32) && tgtOk t
  | .ctxswap _ l t => decide (l < 32) && tgtOk t
  | .slotpark _ l t => decide (l < 32) && tgtOk t
  | .slotfree _ l t => decide (l < 32) && tgtOk t
  | .tlbinv _ l => decide (l < 32)
  | .marker _ l t => decide (l < 32) && tgtOk t
  | .qwave _ l t => decide (l < 32) && tgtOk t
  | .twin _ l t => decide (l < 32) && tgtOk t
  | .scrub _ l t => decide (l < 32) && tgtOk t
  | .mma c => longWf 0 0 c
  | .tileLd c => longWf 1 0 c
  | .tileSt c => longWf 1 1 c
  | .tileCp c => longWf 1 2 c
  | .tileDeal c => longWf 1 3 c
  | .tileResume c => longWf 1 4 c
  | .castDec c => longWf 2 0 c
  | .castPlane c => longWf 2 1 c
  | .castTable c => longWf 2 2 c
  | .xswap c => longWf 3 0 c
  | .pgPromote c => longWf 3 1 c
  | .pgRequant c => longWf 3 2 c
  | .kvAlloc c => longWf 4 0 c
  | .kvFree c => longWf 4 1 c
  | .kvAppend c => longWf 4 2 c
  | .kvEvict c => longWf 4 3 c
  | .pfxMatch c => longWf 4 4 c
  | .pfxInsert c => longWf 4 5 c
  | .pfxUnref c => longWf 4 6 c
  | _ => true

end Sys2Proof
end

