-- ==== Sys2Proof/Decode.lean ====
section
/-!
DEFINITION. The decoder of body words (R256-R264, Tables 12.3 and 12.4), the encoder, and what each instruction takes
and sends: its class (Table 12.6), inputs, firing field, targets and LSID.
-/

namespace Sys2Proof

/-- Why a word is no instruction: the word-level checks of Table 12.5. -/
inductive Bad
  | opcode                                              -- 0x10
  | sub                                                 -- 0x11
  | field                                               -- 0x12
  | command                                             -- 0x14
  | rounding                                            -- 0x15
  | scope                                               -- 0x16
  | target                                              -- 0x05
  | short                                               -- fewer bytes than one word
  deriving DecidableEq, Repr

/-- The cause code of a failed check (Table 10.5). -/
def Bad.cause : Bad → Nat
  | .opcode => 0x10
  | .sub => 0x11
  | .field => 0x12
  | .command => 0x14
  | .rounding => 0x15
  | .scope => 0x16
  | .target => 0x05
  | .short => 0x0A

/-- The outcome of decoding. -/
abbrev DRes := Except Bad Instr

/-! ## Codes of the enumerated fields -/

/-- PR (R259). -/
def Pr.code : Pr → Nat
  | .always => 0
  | .onTrue => 1
  | .onFalse => 2

/-- w (R262). -/
def Width.code : Width → Nat
  | .w8 => 0
  | .w16 => 1
  | .w32 => 2
  | .w64 => 3

/-- p (R262). -/
def Prec.code : Prec → Nat
  | .sp => 0
  | .dp => 1

/-- A rounding mode (R240). -/
def RMode.code : RMode → Nat
  | .rne => 0
  | .rtz => 1
  | .rdn => 2
  | .rup => 3
  | .rna => 4

/-- rm (R262). -/
def Rm.code : Rm → Nat
  | .static m => m.code
  | .dyn => 7

/-- T (R262). -/
def VT.code : VT → Nat
  | .i8 => 0
  | .i16 => 1
  | .i32 => 2
  | .i64 => 3
  | .f32 => 4
  | .f64 => 5

/-- The sub-operation of VCVT for a result type (R351). -/
def cvtCode : VT → Nat
  | .f32 => 0
  | .f64 => 1
  | .i32 => 2
  | .i64 => 3
  | .i8 | .i16 => 0

/-- A scope code (Table 9.2). -/
def Scope.code : Scope → Nat
  | .core => 0
  | .square => 1
  | .die => 2
  | .pkg => 3
  | .sys => 4

/-- The XOP of an atomic operation (opcode 0x5A). -/
def AmoOp.code : AmoOp → Nat
  | .add => 0
  | .and => 1
  | .or => 2
  | .xor => 3
  | .min => 4
  | .max => 5
  | .minn => 6
  | .maxn => 7
  | .swap => 8
  | .cas => 9
  | .fadd => 10

/-- The XOP of ROADD. -/
def RoTy.code : RoTy → Nat
  | .i64 => 0
  | .f64 => 1
  | .f32 => 2

/-- The sub-operation of VCMP. -/
def VCond.code : VCond → Nat
  | .eq => 0
  | .lt => 1
  | .le => 2
  | .ltn => 3

/-- The relation of a VCMP sub-operation. -/
def vcondOf : Nat → VCond
  | 0 => .eq
  | 1 => .lt
  | 2 => .le
  | _ => .ltn

/-- The width of code w. -/
def widthOf : Nat → Width
  | 0 => .w8
  | 1 => .w16
  | 2 => .w32
  | _ => .w64

/-- The atomic operation of an XOP, where assigned. -/
def amoOf : Nat → Option AmoOp
  | 0 => some .add
  | 1 => some .and
  | 2 => some .or
  | 3 => some .xor
  | 4 => some .min
  | 5 => some .max
  | 6 => some .minn
  | 7 => some .maxn
  | 8 => some .swap
  | 9 => some .cas
  | 10 => some .fadd
  | _ => none

/-- The lane type of code T, where assigned. -/
def vtOf : Nat → Option VT
  | 0 => some .i8
  | 1 => some .i16
  | 2 => some .i32
  | 3 => some .i64
  | 4 => some .f32
  | 5 => some .f64
  | _ => none

/-- The result type of a VCVT sub-operation. -/
def cvtOf : Nat → VT
  | 0 => .f32
  | 1 => .f64
  | 2 => .i32
  | _ => .i64

/-! ## Parts of a word, each with its check -/

/-- Bits lo to lo + n - 1 of a word. -/
def fld (w lo n : Nat) : Nat := w / 2 ^ lo % 2 ^ n

/-- A must-be-zero field (0x12). -/
def mbz (c : Nat) (k : DRes) : DRes := if c = 0 then k else .error .field

/-- A sub-operation field of which only 0 is assigned (0x11). -/
def sub0 (c : Nat) (k : DRes) : DRes := if c = 0 then k else .error .sub

/-- An unassigned sub-operation or type (0x11). -/
def needSub (b : Bool) (k : DRes) : DRes := if b then k else .error .sub

/-- The PR field (0x12 for 0b11). -/
def decPr (w : Nat) (k : Pr → DRes) : DRes :=
  match fld w 23 2 with
  | 0 => k .always
  | 1 => k .onTrue
  | 2 => k .onFalse
  | _ => .error .field

/-- One target (0x05). -/
def decT (t : Nat) (k : Nat → DRes) : DRes := if tgtOk t then k t else .error .target

/-- T1 and T0 of a G-format or R-format word. -/
def decST (w : Nat) (k : Nat → Nat → DRes) : DRes :=
  decT (fld w 9 9) fun s => decT (fld w 0 9) fun t => k s t

/-- T0 where the instruction has no result (0x12). -/
def noT (w : Nat) (k : DRes) : DRes := if fld w 0 9 = 511 then k else .error .field

/-- The precision p (0x11). -/
def decQ (w : Nat) (k : Prec → DRes) : DRes :=
  match fld w 18 2 with
  | 0 => k .sp
  | 1 => k .dp
  | _ => .error .sub

/-- The rounding field rm (0x15). -/
def decM (w : Nat) (k : Rm → DRes) : DRes :=
  match fld w 20 3 with
  | 0 => k (.static .rne)
  | 1 => k (.static .rtz)
  | 2 => k (.static .rdn)
  | 3 => k (.static .rup)
  | 4 => k (.static .rna)
  | 7 => k .dyn
  | _ => .error .rounding

/-- The lane type T of a vector word, of those ok allows (0x11). -/
def decY (w : Nat) (ok : VT → Bool) (k : VT → DRes) : DRes :=
  match vtOf (fld w 18 3) with
  | some y => if ok y then k y else .error .sub
  | none => .error .sub

/-- A scope in AUX[11:9], AUX[12] zero (0x12, 0x16). -/
def decC (w : Nat) (k : Scope → DRes) : DRes :=
  mbz (fld w 12 1) <|
    match fld w 9 3 with
    | 0 => k .core
    | 1 => k .square
    | 2 => k .die
    | 3 => k .pkg
    | 4 => k .sys
    | _ => .error .scope

/-! ## Shapes of words -/

/-- G format, integer width, one sub-operation. -/
def gW (w : Nat) (f : Pr → Width → Nat → Nat → Instr) : DRes :=
  decPr w fun p => decST w fun s t => .ok (f p (widthOf (fld w 18 2)) s t)

/-- G format, XOP all zero but the width. -/
def gW0 (w : Nat) (f : Pr → Width → Nat → Nat → Instr) : DRes := sub0 (fld w 20 3) (gW w f)

/-- G format, precision and rounding. -/
def gQM (w : Nat) (f : Pr → Rm → Prec → Nat → Nat → Instr) : DRes :=
  decQ w fun q => decPr w fun p => decM w fun m => decST w fun s t => .ok (f p m q s t)

/-- G format with a third data operand, precision and rounding: PR is 00. -/
def gQM3 (w : Nat) (f : Rm → Prec → Nat → Nat → Instr) : DRes :=
  decQ w fun q => mbz (fld w 23 2) <| decM w fun m => decST w fun s t => .ok (f m q s t)

/-- G format, precision. -/
def gQ (w : Nat) (f : Pr → Prec → Nat → Nat → Instr) : DRes :=
  decQ w fun q => decPr w fun p => decST w fun s t => .ok (f p q s t)

/-- G format, XOP zero. -/
def gX (w : Nat) (f : Pr → Nat → Nat → Instr) : DRes :=
  decPr w fun p => decST w fun s t => .ok (f p s t)

/-- G format, vector. -/
def gY (w : Nat) (ok : VT → Bool) (f : Pr → VT → Nat → Nat → Instr) : DRes :=
  decY w ok fun y => decPr w fun p => decST w fun s t => .ok (f p y s t)

/-- G format, vector, with a third data operand. -/
def gY3 (w : Nat) (ok : VT → Bool) (f : VT → Nat → Nat → Instr) : DRes :=
  decY w ok fun y => mbz (fld w 23 2) <| decST w fun s t => .ok (f y s t)

/-- I format. -/
def fI (w : Nat) (f : Pr → Nat → Nat → Instr) : DRes :=
  decPr w fun p => decT (fld w 0 9) fun t => .ok (f p (fld w 9 14) t)

/-- I format with a 6-bit number in IMM14[5:0]. -/
def fI6 (w : Nat) (f : Pr → Nat → Nat → Instr) : DRes :=
  decPr w fun p => mbz (fld w 15 8) <| decT (fld w 0 9) fun t => .ok (f p (fld w 9 6) t)

/-- M format, loads. -/
def fM (w : Nat) (f : Pr → Nat → Nat → Nat → Instr) : DRes :=
  decPr w fun p => decT (fld w 0 9) fun t => .ok (f p (fld w 18 5) (fld w 9 9) t)

/-- A format, AUX zero, with a result. -/
def fA (w : Nat) (f : Pr → Nat → Nat → Instr) : DRes :=
  decPr w fun p => mbz (fld w 9 4) <| decT (fld w 0 9) fun t => .ok (f p (fld w 18 5) t)

/-- A format, AUX zero, without a result. -/
def fA0 (w : Nat) (f : Pr → Nat → Instr) : DRes :=
  decPr w fun p => mbz (fld w 9 4) <| noT w <| .ok (f p (fld w 18 5))

/-- A format with a scope, without a result. -/
def fAC0 (w : Nat) (f : Pr → Nat → Scope → Instr) : DRes :=
  decPr w fun p => noT w <| decC w fun c => .ok (f p (fld w 18 5) c)

/-- X format, offset of n bits. -/
def fX (w n : Nat) (f : Pr → Nat → Nat → Instr) : DRes :=
  decPr w fun p => .ok (f p (fld w 20 3) (fld w 0 n))

/-- X format without an offset: the low n bits are zero. -/
def fX0 (w n : Nat) (f : Pr → Nat → Instr) : DRes :=
  decPr w fun p => mbz (fld w 0 n) <| .ok (f p (fld w 20 3))

/-! ## The opcode map, by the high three bits of the opcode -/

/-- Opcodes 0x00-0x0F; next is the word after this one. -/
def dec0 (w next : Nat) : DRes :=
  match fld w 25 4 with
  | 0 => mbz (fld w 22 3) <| decST w fun s t => .ok (.readReg (fld w 18 4) s t)
  | 1 => sub0 (fld w 18 5) <| gX w .mov
  | 2 => sub0 (fld w 18 5) <| decPr w fun p => mbz (fld next 18 14) <| decST w fun s t => decST next fun t3 t2 =>
      .ok (.mov4 p s t t3 t2)
  | 3 => fI w .movi
  | 4 => decT (fld w 16 9) fun t => .ok (.const t (fld w 0 16))
  | 5 => decT (fld w 16 9) fun t => .ok (.consth t (fld w 0 16))
  | 6 => sub0 (fld w 18 5) <| gX w .null
  | _ => .error .opcode

/-- Opcodes 0x10-0x1F. -/
def dec1 (w : Nat) : DRes :=
  match fld w 25 4 with
  | 0 => gW0 w .add
  | 1 => gW0 w .sub
  | 2 => gW0 w .mul
  | 3 => gW0 w .mulh
  | 4 => gW0 w .mulhn
  | 5 => gW0 w .div
  | 6 => gW0 w .divn
  | 7 => gW0 w .rem
  | 8 => gW0 w .remn
  | 9 => gW0 w .and
  | 10 => gW0 w .or
  | 11 => gW0 w .xor
  | 12 => gW0 w .andn
  | 13 => gW0 w .shl
  | 14 => gW0 w .shr
  | _ => gW0 w .sra

/-- Opcodes 0x20-0x2F. -/
def dec2 (w : Nat) : DRes :=
  match fld w 25 4 with
  | 0 => match fld w 20 3 with
    | 0 => gW w .rol
    | 1 => gW w .ror
    | _ => .error .sub
  | 1 => match fld w 20 3 with
    | 0 => gW w .min
    | 1 => gW w .max
    | 2 => gW w .minn
    | 3 => gW w .maxn
    | _ => .error .sub
  | 2 => sub0 (fld w 18 5) <| mbz (fld w 23 2) <| decST w fun s t => .ok (.sel s t)
  | 3 => match fld w 20 3 with
    | 0 => gW w .clz
    | 1 => gW w .ctz
    | 2 => gW w .popc
    | 3 => gW w .brev
    | 4 => needSub (fld w 18 2 != 0) (gW w .bswap)
    | 5 => gW w .abs
    | 6 => gW w .sext
    | _ => gW w .zext
  | 4 => decPr w fun p => mbz (fld w 22 1) <| if fld w 15 6 + fld w 9 6 < 64 then
      decT (fld w 0 9) fun t => .ok (.bfx p (fld w 21 1 == 1) (fld w 15 6) (fld w 9 6) t) else .error .field
  | 5 => decPr w fun p => mbz (fld w 21 2) <| if fld w 15 6 + fld w 9 6 < 64 then
      decT (fld w 0 9) fun t => .ok (.bfi p (fld w 15 6) (fld w 9 6) t) else .error .field
  | 6 => sub0 (fld w 18 5) <| gX w .kvslot
  | 7 => fI w .addi
  | 8 => fI w .muli
  | 9 => fI w .andi
  | 10 => fI w .ori
  | 11 => fI w .xori
  | 12 => fI6 w .shli
  | 13 => fI6 w .shri
  | 14 => fI6 w .srai
  | _ => .error .opcode

/-- Opcodes 0x30-0x3F. -/
def dec3 (w : Nat) : DRes :=
  match fld w 25 4 with
  | 0 => gW0 w .teq
  | 1 => gW0 w .tne
  | 2 => gW0 w .tlt
  | 3 => gW0 w .tle
  | 4 => gW0 w .tltn
  | 5 => gW0 w .tlen
  | 6 => fI w .teqi
  | 7 => fI w .tnei
  | 8 => fI w .tlti
  | 9 => fI w .tlei
  | 10 => fI w .tltni
  | 11 => fI w .tleni
  | 12 => fI6 w .tbit
  | _ => .error .opcode

/-- Opcodes 0x40-0x4F. -/
def dec4 (w : Nat) : DRes :=
  match fld w 25 4 with
  | 0 => gQM w .fadd
  | 1 => gQM w .fsub
  | 2 => gQM w .fmul
  | 3 => gQM w .fdiv
  | 4 => gQM3 w .fma
  | 5 => gQM3 w .fms
  | 6 => gQM w .fsqrt
  | 7 => match fld w 20 3 with
    | 0 => gQ w .fmin
    | 1 => gQ w .fmax
    | _ => .error .sub
  | 8 => match fld w 20 3 with
    | 0 => gQ w .fabs
    | 1 => gQ w .fneg
    | 2 => gQ w .fsgn
    | _ => .error .sub
  | 9 => match fld w 20 3 with
    | 0 => gQ w .feq
    | 1 => gQ w .flt
    | 2 => gQ w .fle
    | 3 => gQ w .funord
    | _ => .error .sub
  | 10 => sub0 (fld w 20 3) (gQ w .fclass)
  | 11 => gQM w .fcvt
  | 12 => gQM w .fcvti
  | 13 => gQM w .icvtf
  | 14 => gQM w .frnd
  | _ => .error .opcode

/-- AMO (opcode 0x5A): AUX[10:9] are acquire and release; CAS takes a third operand. -/
def decAmo (w : Nat) : DRes :=
  match amoOf (fld w 13 5) with
  | none => .error .sub
  | some x => decPr w fun p => if x = .cas ∧ p ≠ .always then .error .field else
      mbz (fld w 11 2) <| decT (fld w 0 9) fun t =>
        .ok (.amo p (fld w 18 5) x (fld w 9 1 == 1) (fld w 10 1 == 1) t)

/-- Opcodes 0x50-0x5F. -/
def dec5 (w : Nat) : DRes :=
  match fld w 25 4 with
  | 0 => fM w (.ld .w8)
  | 1 => fM w (.ld .w16)
  | 2 => fM w (.ld .w32)
  | 3 => fM w (.ld .w64)
  | 4 => fM w (.ldS .w8)
  | 5 => fM w (.ldS .w16)
  | 6 => fM w (.ldS .w32)
  | 7 => fM w .ldDAcq
  | 8 => decPr w fun p => mbz (fld w 3 6) <|
      .ok (.st p (fld w 18 5) (fld w 9 9) (fld w 2 1 == 1) (widthOf (fld w 0 2)))
  | 9 => match fld w 13 5 with
    | 0 => fA w .ldfe
    | 1 => fA w .ldff
    | 2 => fA w .feprobe
    | 3 => fA0 w .stef
    | 4 => fA0 w .stf
    | 5 => fA0 w .feempty
    | _ => .error .sub
  | 10 => decAmo w
  | 11 => match fld w 13 5 with
    | 0 => fA0 w .binit
    | 1 => decPr w fun p => decC w fun c => decT (fld w 0 9) fun t => .ok (.arrive p (fld w 18 5) c t)
    | 2 => fA w .bwait
    | 3 => fA w .btest
    | 4 => fA w .join
    | 5 => fA w .leave
    | 6 => fA w .waita
    | 7 => fAC0 w .notify
    | _ => .error .sub
  | 12 => match fld w 13 5 with
    | 0 => fAC0 w .fence
    | 1 => fAC0 w .fenceXp
    | 2 => fA0 w .fenceLoop
    | _ => .error .sub
  | 13 => match fld w 13 5 with
    | 0 => fA0 w .rowopen
    | 1 => fA0 w .rowclose
    | _ => .error .sub
  | 14 => match fld w 13 5 with
    | 0 => fA w .semwait
    | 1 => fA w .semsig
    | 2 => fA0 w .semset
    | _ => .error .sub
  | _ => .error .opcode

/-- Opcodes 0x60-0x6F. -/
def dec6 (w : Nat) : DRes :=
  match fld w 25 4 with
  | 0 => sub0 (fld w 13 5) (fA w .rld)
  | 1 => match fld w 13 5 with
    | 0 => fA0 w .rst
    | 1 => fAC0 w .rstf
    | 2 => fA0 w .rpost
    | _ => .error .sub
  | 2 => match amoOf (fld w 13 5) with
    | none => .error .sub
    | some x => needSub (x != .cas) (fA w fun p l t => .ramo p l x t)
  | 3 => sub0 (fld w 13 5) <| mbz (fld w 23 2) <| mbz (fld w 9 4) <| decT (fld w 0 9) fun t =>
      .ok (.rcas (fld w 18 5) t)
  | 4 => match fld w 13 5 with
    | 0 => fA0 w fun p l => .roadd p l .i64
    | 1 => fA0 w fun p l => .roadd p l .f64
    | 2 => fA0 w fun p l => .roadd p l .f32
    | _ => .error .sub
  | 5 => match amoOf (fld w 15 3) with
    | none => .error .sub
    | some o => fA w fun p l t => .rvamo p l o (widthOf (fld w 13 2)) t
  | 6 => match fld w 13 5 with
    | 0 => fA w .spawn
    | 1 => mbz (fld w 23 2) <| mbz (fld w 9 4) <| decT (fld w 0 9) fun t => .ok (.callat (fld w 18 5) t)
    | 2 => fA0 w .send
    | _ => .error .sub
  | 7 => match fld w 18 5 with
    | 0 => gX w .tid
    | 1 => gX w .whereQ
    | 2 => gX w .time
    | _ => .error .sub
  | 8 => fX w 20 .br
  | 9 => fX0 w 20 .bri
  | 10 => fX w 20 .call
  | 11 => fX0 w 20 .ret
  | 12 => fX w 16 fun p e f => .loop p e (fld w 16 4) f
  | 13 => fX w 20 .migrate
  | 14 => fX w 16 fun p e f => .trap p e (fld w 16 4) f
  | _ => match fld w 16 4 with
    | 0 => fX0 w 16 .doneX
    | 1 => fX w 16 .yieldX
    | 2 => fX w 16 .breakX
    | _ => .error .sub

/-- Every lane type. -/
def anyT (_ : VT) : Bool := true

/-- The integer lane types. -/
def intT (y : VT) : Bool := !y.isFloat

/-- Opcodes 0x70-0x7A: vector compute words. -/
def decV (w : Nat) : DRes :=
  match fld w 25 4, fld w 21 2 with
  | 0, 0 => gY w anyT .vadd
  | 0, 1 => gY w anyT .vsub
  | 0, 2 => gY w anyT .vmul
  | 0, 3 => gY3 w VT.isFloat .vfma
  | 1, 0 => gY w anyT .vmin
  | 1, 1 => gY w anyT .vmax
  | 1, 2 => gY w anyT .vabs
  | 1, 3 => gY w anyT .vneg
  | 2, 0 => gY w intT .vand
  | 2, 1 => gY w intT .vor
  | 2, 2 => gY w intT .vxor
  | 2, 3 => gY w intT .vandn
  | 3, 0 => gY w intT .vshl
  | 3, 1 => gY w intT .vshr
  | 3, 2 => gY w intT .vsra
  | 4, 0 => gY w anyT fun p y s t => .vcmp p .eq y s t
  | 4, 1 => gY w anyT fun p y s t => .vcmp p .lt y s t
  | 4, 2 => gY w anyT fun p y s t => .vcmp p .le y s t
  | 4, 3 => gY w intT fun p y s t => .vcmp p .ltn y s t
  | 5, 0 => gY3 w anyT .vsel
  | 5, 1 => gY w anyT .vbcast
  | 5, 2 => gY w anyT .vext
  | 5, 3 => gY3 w anyT .vins
  | 6, 0 => gY w anyT .vshuf
  | 6, 1 => gY w anyT .vperm
  | 6, 2 => gY w anyT .vrot
  | 7, 0 => gY w anyT .vredadd
  | 7, 1 => gY w anyT .vredmax
  | 7, 2 => gY w anyT .vredmin
  | 7, 3 => gY w anyT .vscan
  | 8, 0 => gY w intT .vpopc
  | 8, 1 => gY w intT .vpfxc
  | 9, n => gY w (fun y => cvtOf n != y) fun p y s t => .vcvt p (cvtOf n) y s t
  | 10, 0 => gY w VT.isFloat .vexp2
  | 10, 1 => gY w VT.isFloat .vlog2
  | 10, 2 => gY w VT.isFloat .vrcp
  | 10, 3 => gY w VT.isFloat .vrsqrt
  | _, _ => .error .sub

/-- Opcode 0x7B: vector memory words. -/
def decVM (w : Nat) : DRes :=
  let v := widthOf (fld w 13 2)
  match fld w 15 3 with
  | 0 => fA w fun p l t => .vld p l v t
  | 1 => fA0 w fun p l => .vst p l v
  | 2 => fA w fun p l t => .vldg p l v t
  | 3 => mbz (fld w 23 2) <| mbz (fld w 9 4) <| noT w <| .ok (.vsts (fld w 18 5) v)
  | 4 => needSub (v != .w64) (fA w fun p l t => .vtld p l v t)
  | 5 => match amoOf (fld w 9 4) with
    | some a => needSub a.lanewise (decPr w fun p => decT (fld w 0 9) fun t => .ok (.vamo p (fld w 18 5) v a t))
    | none => .error .sub
  | _ => .error .sub

/-- Opcode 0x7C: system words. -/
def decSys (w : Nat) : DRes :=
  match fld w 13 5 with
  | 0 => fA w .csrrd
  | 1 => fA w .csrwr
  | 2 => fA w .segld
  | 3 => fA w .segst
  | 4 => fA w .wake
  | 5 => fA w .ctxswap
  | 6 => fA w .slotpark
  | 7 => fA w .slotfree
  | 8 => fA0 w .tlbinv
  | 9 => fA w .marker
  | 10 => fA w .qwave
  | 11 => fA w .twin
  | 12 => fA w .scrub
  | _ => .error .sub

/-- The constructor of a command of Table 16.2. -/
def longOf (eng cmd : Nat) : Option (Long → Instr) :=
  match eng, cmd with
  | 0, 0 => some .mma
  | 1, 0 => some .tileLd
  | 1, 1 => some .tileSt
  | 1, 2 => some .tileCp
  | 1, 3 => some .tileDeal
  | 1, 4 => some .tileResume
  | 2, 0 => some .castDec
  | 2, 1 => some .castPlane
  | 2, 2 => some .castTable
  | 3, 0 => some .xswap
  | 3, 1 => some .pgPromote
  | 3, 2 => some .pgRequant
  | 4, 0 => some .kvAlloc
  | 4, 1 => some .kvFree
  | 4, 2 => some .kvAppend
  | 4, 3 => some .kvEvict
  | 4, 4 => some .pfxMatch
  | 4, 5 => some .pfxInsert
  | 4, 6 => some .pfxUnref
  | _, _ => none

/-- Word n of the words that follow, zero past their end. -/
def nth (ws : List Nat) (n : Nat) : Nat := ws.getD n 0

/-- Opcode 0x7F: a long command of word w and the seven words ws. -/
def decLong (w : Nat) (ws : List Nat) : DRes :=
  decPr w fun p =>
    let eng := fld w 14 3
    let cmd := fld w 17 6
    let c : Long :=
      { p := p, lsid := fld w 9 5, t := fld w 0 9,
        wsem := fld (nth ws 0) 24 8, wthr := fld (nth ws 0) 8 16, ssem := fld (nth ws 0) 0 8,
        sinc := fld (nth ws 1) 16 16, flags := fld (nth ws 1) 0 16,
        f := BitVec.ofNat 160 (nth ws 2 + nth ws 3 * 2^32 + nth ws 4 * 2^64 + nth ws 5 * 2^96 + nth ws 6 * 2^128) }
    match longOf eng cmd with
    | none => if longCommonOk 0x3FFF c then .error .command else .error .field
    | some f => if longFieldsOk eng cmd c then decT c.t fun _ => .ok (f c) else .error .field

/-- Decodes the instruction that begins with word w, with the words ws after it. (DEDUCED, unsafe: log 35) -/
def decodeWord (w : Nat) (ws : List Nat) : DRes :=
  match fld w 29 3 with
  | 0 => dec0 w (nth ws 0)
  | 1 => dec1 w
  | 2 => dec2 w
  | 3 => dec3 w
  | 4 => dec4 w
  | 5 => dec5 w
  | 6 => dec6 w
  | _ =>
    match fld w 25 4 with
    | 11 => decVM w
    | 12 => decSys w
    | 13 => .error .opcode
    | 14 => .error .sub
    | 15 => decLong w ws
    | _ => decV w

/-- How many words the instruction of opcode word w has (R260). -/
def wordCount (w : Nat) : Nat :=
  if fld w 25 7 = 2 then 2 else if fld w 25 7 = 127 then 8 else 1

/-! ## Bytes -/

/-- The number that little-endian bytes hold. -/
def leNat : List Byte → Nat
  | [] => 0
  | b :: bs => b.toNat + 256 * leNat bs

/-- Little-endian bytes of a number. -/
def leBytes : Nat → Nat → List Byte
  | 0, _ => []
  | n + 1, v => BitVec.ofNat 8 v :: leBytes n (v / 256)

/-- The 32-bit words of a byte list; a last part shorter than four bytes is dropped. -/
def wordsOf : List Byte → List Nat
  | a :: b :: c :: d :: t => leNat [a, b, c, d] :: wordsOf t
  | _ => []

/-- Decodes bytes: the first instruction and the bytes after it. -/
def decode (bs : List Byte) : Except Bad (Instr × List Byte) :=
  match wordsOf bs with
  | [] => .error .short
  | w :: ws =>
    match decodeWord w ws with
    | .error e => .error e
    | .ok i => if ws.length + 1 < wordCount w then .error .short else .ok (i, bs.drop (4 * wordCount w))

/-- The instruction of the words w (bit 0 the least of the first word; 32-bit words, zero above nbits). -/
def decodeTableWord (nbits w : Nat) : Option Instr :=
  let v := w % 2 ^ nbits
  match decodeWord (fld v 0 32) [fld v 32 32, fld v 64 32, fld v 96 32, fld v 128 32, fld v 160 32, fld v 192 32,
      fld v 224 32] with
  | .ok i => some i
  | .error _ => none

/-! ## The encoder -/

/-- The eight words of a long command. -/
def encLong (eng cmd : Nat) (c : Long) : List Nat :=
  [0xFE000000 + c.p.code * 0x800000 + cmd * 0x20000 + eng * 0x4000 + c.lsid * 0x200 + c.t,
   c.wsem * 0x1000000 + c.wthr * 0x100 + c.ssem,
   c.sinc * 0x10000 + c.flags,
   fld c.f.toNat 0 32, fld c.f.toNat 32 32, fld c.f.toNat 64 32, fld c.f.toNat 96 32, fld c.f.toNat 128 32]

/-- The words of an instruction (Table 12.4); a machine step has none. -/
def encode : Instr → List Nat
  | .readReg k s t => [0x00000000 + k * 0x40000 + s * 0x200 + t]
  | .mov p s t => [0x02000000 + p.code * 0x800000 + s * 0x200 + t]
  | .mov4 p s t t3 t2 => [0x04000000 + p.code * 0x800000 + s * 0x200 + t, t3 * 0x200 + t2]
  | .movi p i t => [0x06000000 + p.code * 0x800000 + i * 0x200 + t]
  | .const t i => [0x08000000 + t * 0x10000 + i]
  | .consth t i => [0x0A000000 + t * 0x10000 + i]
  | .null p s t => [0x0C000000 + p.code * 0x800000 + s * 0x200 + t]
  | .add p w s t => [0x20000000 + p.code * 0x800000 + w.code * 0x40000 + s * 0x200 + t]
  | .sub p w s t => [0x22000000 + p.code * 0x800000 + w.code * 0x40000 + s * 0x200 + t]
  | .mul p w s t => [0x24000000 + p.code * 0x800000 + w.code * 0x40000 + s * 0x200 + t]
  | .mulh p w s t => [0x26000000 + p.code * 0x800000 + w.code * 0x40000 + s * 0x200 + t]
  | .mulhn p w s t => [0x28000000 + p.code * 0x800000 + w.code * 0x40000 + s * 0x200 + t]
  | .div p w s t => [0x2A000000 + p.code * 0x800000 + w.code * 0x40000 + s * 0x200 + t]
  | .divn p w s t => [0x2C000000 + p.code * 0x800000 + w.code * 0x40000 + s * 0x200 + t]
  | .rem p w s t => [0x2E000000 + p.code * 0x800000 + w.code * 0x40000 + s * 0x200 + t]
  | .remn p w s t => [0x30000000 + p.code * 0x800000 + w.code * 0x40000 + s * 0x200 + t]
  | .and p w s t => [0x32000000 + p.code * 0x800000 + w.code * 0x40000 + s * 0x200 + t]
  | .or p w s t => [0x34000000 + p.code * 0x800000 + w.code * 0x40000 + s * 0x200 + t]
  | .xor p w s t => [0x36000000 + p.code * 0x800000 + w.code * 0x40000 + s * 0x200 + t]
  | .andn p w s t => [0x38000000 + p.code * 0x800000 + w.code * 0x40000 + s * 0x200 + t]
  | .shl p w s t => [0x3A000000 + p.code * 0x800000 + w.code * 0x40000 + s * 0x200 + t]
  | .shr p w s t => [0x3C000000 + p.code * 0x800000 + w.code * 0x40000 + s * 0x200 + t]
  | .sra p w s t => [0x3E000000 + p.code * 0x800000 + w.code * 0x40000 + s * 0x200 + t]
  | .rol p w s t => [0x40000000 + p.code * 0x800000 + w.code * 0x40000 + s * 0x200 + t]
  | .ror p w s t => [0x40100000 + p.code * 0x800000 + w.code * 0x40000 + s * 0x200 + t]
  | .min p w s t => [0x42000000 + p.code * 0x800000 + w.code * 0x40000 + s * 0x200 + t]
  | .max p w s t => [0x42100000 + p.code * 0x800000 + w.code * 0x40000 + s * 0x200 + t]
  | .minn p w s t => [0x42200000 + p.code * 0x800000 + w.code * 0x40000 + s * 0x200 + t]
  | .maxn p w s t => [0x42300000 + p.code * 0x800000 + w.code * 0x40000 + s * 0x200 + t]
  | .sel s t => [0x44000000 + s * 0x200 + t]
  | .clz p w s t => [0x46000000 + p.code * 0x800000 + w.code * 0x40000 + s * 0x200 + t]
  | .ctz p w s t => [0x46100000 + p.code * 0x800000 + w.code * 0x40000 + s * 0x200 + t]
  | .popc p w s t => [0x46200000 + p.code * 0x800000 + w.code * 0x40000 + s * 0x200 + t]
  | .brev p w s t => [0x46300000 + p.code * 0x800000 + w.code * 0x40000 + s * 0x200 + t]
  | .bswap p w s t => [0x46400000 + p.code * 0x800000 + w.code * 0x40000 + s * 0x200 + t]
  | .abs p w s t => [0x46500000 + p.code * 0x800000 + w.code * 0x40000 + s * 0x200 + t]
  | .sext p w s t => [0x46600000 + p.code * 0x800000 + w.code * 0x40000 + s * 0x200 + t]
  | .zext p w s t => [0x46700000 + p.code * 0x800000 + w.code * 0x40000 + s * 0x200 + t]
  | .bfx p x l n t => [0x48000000 + p.code * 0x800000 + x.toNat * 0x200000 + l * 0x8000 + n * 0x200 + t]
  | .bfi p l n t => [0x4A000000 + p.code * 0x800000 + l * 0x8000 + n * 0x200 + t]
  | .kvslot p s t => [0x4C000000 + p.code * 0x800000 + s * 0x200 + t]
  | .addi p i t => [0x4E000000 + p.code * 0x800000 + i * 0x200 + t]
  | .muli p i t => [0x50000000 + p.code * 0x800000 + i * 0x200 + t]
  | .andi p i t => [0x52000000 + p.code * 0x800000 + i * 0x200 + t]
  | .ori p i t => [0x54000000 + p.code * 0x800000 + i * 0x200 + t]
  | .xori p i t => [0x56000000 + p.code * 0x800000 + i * 0x200 + t]
  | .shli p n t => [0x58000000 + p.code * 0x800000 + n * 0x200 + t]
  | .shri p n t => [0x5A000000 + p.code * 0x800000 + n * 0x200 + t]
  | .srai p n t => [0x5C000000 + p.code * 0x800000 + n * 0x200 + t]
  | .teq p w s t => [0x60000000 + p.code * 0x800000 + w.code * 0x40000 + s * 0x200 + t]
  | .tne p w s t => [0x62000000 + p.code * 0x800000 + w.code * 0x40000 + s * 0x200 + t]
  | .tlt p w s t => [0x64000000 + p.code * 0x800000 + w.code * 0x40000 + s * 0x200 + t]
  | .tle p w s t => [0x66000000 + p.code * 0x800000 + w.code * 0x40000 + s * 0x200 + t]
  | .tltn p w s t => [0x68000000 + p.code * 0x800000 + w.code * 0x40000 + s * 0x200 + t]
  | .tlen p w s t => [0x6A000000 + p.code * 0x800000 + w.code * 0x40000 + s * 0x200 + t]
  | .teqi p i t => [0x6C000000 + p.code * 0x800000 + i * 0x200 + t]
  | .tnei p i t => [0x6E000000 + p.code * 0x800000 + i * 0x200 + t]
  | .tlti p i t => [0x70000000 + p.code * 0x800000 + i * 0x200 + t]
  | .tlei p i t => [0x72000000 + p.code * 0x800000 + i * 0x200 + t]
  | .tltni p i t => [0x74000000 + p.code * 0x800000 + i * 0x200 + t]
  | .tleni p i t => [0x76000000 + p.code * 0x800000 + i * 0x200 + t]
  | .tbit p n t => [0x78000000 + p.code * 0x800000 + n * 0x200 + t]
  | .fadd p m q s t => [0x80000000 + p.code * 0x800000 + m.code * 0x100000 + q.code * 0x40000 + s * 0x200 + t]
  | .fsub p m q s t => [0x82000000 + p.code * 0x800000 + m.code * 0x100000 + q.code * 0x40000 + s * 0x200 + t]
  | .fmul p m q s t => [0x84000000 + p.code * 0x800000 + m.code * 0x100000 + q.code * 0x40000 + s * 0x200 + t]
  | .fdiv p m q s t => [0x86000000 + p.code * 0x800000 + m.code * 0x100000 + q.code * 0x40000 + s * 0x200 + t]
  | .fma m q s t => [0x88000000 + m.code * 0x100000 + q.code * 0x40000 + s * 0x200 + t]
  | .fms m q s t => [0x8A000000 + m.code * 0x100000 + q.code * 0x40000 + s * 0x200 + t]
  | .fsqrt p m q s t => [0x8C000000 + p.code * 0x800000 + m.code * 0x100000 + q.code * 0x40000 + s * 0x200 + t]
  | .fmin p q s t => [0x8E000000 + p.code * 0x800000 + q.code * 0x40000 + s * 0x200 + t]
  | .fmax p q s t => [0x8E100000 + p.code * 0x800000 + q.code * 0x40000 + s * 0x200 + t]
  | .fabs p q s t => [0x90000000 + p.code * 0x800000 + q.code * 0x40000 + s * 0x200 + t]
  | .fneg p q s t => [0x90100000 + p.code * 0x800000 + q.code * 0x40000 + s * 0x200 + t]
  | .fsgn p q s t => [0x90200000 + p.code * 0x800000 + q.code * 0x40000 + s * 0x200 + t]
  | .feq p q s t => [0x92000000 + p.code * 0x800000 + q.code * 0x40000 + s * 0x200 + t]
  | .flt p q s t => [0x92100000 + p.code * 0x800000 + q.code * 0x40000 + s * 0x200 + t]
  | .fle p q s t => [0x92200000 + p.code * 0x800000 + q.code * 0x40000 + s * 0x200 + t]
  | .funord p q s t => [0x92300000 + p.code * 0x800000 + q.code * 0x40000 + s * 0x200 + t]
  | .fclass p q s t => [0x94000000 + p.code * 0x800000 + q.code * 0x40000 + s * 0x200 + t]
  | .fcvt p m q s t => [0x96000000 + p.code * 0x800000 + m.code * 0x100000 + q.code * 0x40000 + s * 0x200 + t]
  | .fcvti p m q s t => [0x98000000 + p.code * 0x800000 + m.code * 0x100000 + q.code * 0x40000 + s * 0x200 + t]
  | .icvtf p m q s t => [0x9A000000 + p.code * 0x800000 + m.code * 0x100000 + q.code * 0x40000 + s * 0x200 + t]
  | .frnd p m q s t => [0x9C000000 + p.code * 0x800000 + m.code * 0x100000 + q.code * 0x40000 + s * 0x200 + t]
  | .ld w p l i t => [0xA0000000 + w.code * 0x2000000 + p.code * 0x800000 + l * 0x40000 + i * 0x200 + t]
  | .ldS w p l i t => [0xA8000000 + w.code * 0x2000000 + p.code * 0x800000 + l * 0x40000 + i * 0x200 + t]
  | .ldDAcq p l i t => [0xAE000000 + p.code * 0x800000 + l * 0x40000 + i * 0x200 + t]
  | .st p l i rel w => [0xB0000000 + p.code * 0x800000 + l * 0x40000 + i * 0x200 + rel.toNat * 0x4 + w.code]
  | .ldfe p l t => [0xB2000000 + p.code * 0x800000 + l * 0x40000 + t]
  | .ldff p l t => [0xB2002000 + p.code * 0x800000 + l * 0x40000 + t]
  | .feprobe p l t => [0xB2004000 + p.code * 0x800000 + l * 0x40000 + t]
  | .stef p l => [0xB20061FF + p.code * 0x800000 + l * 0x40000]
  | .stf p l => [0xB20081FF + p.code * 0x800000 + l * 0x40000]
  | .feempty p l => [0xB200A1FF + p.code * 0x800000 + l * 0x40000]
  | .amo p l x acq rel t => [0xB4000000 + p.code * 0x800000 + l * 0x40000 + x.code * 0x2000 + (acq.toNat + 2 * rel.toNat) * 0x200 + t]
  | .binit p l => [0xB60001FF + p.code * 0x800000 + l * 0x40000]
  | .arrive p l c t => [0xB6002000 + p.code * 0x800000 + l * 0x40000 + c.code * 0x200 + t]
  | .bwait p l t => [0xB6004000 + p.code * 0x800000 + l * 0x40000 + t]
  | .btest p l t => [0xB6006000 + p.code * 0x800000 + l * 0x40000 + t]
  | .join p l t => [0xB6008000 + p.code * 0x800000 + l * 0x40000 + t]
  | .leave p l t => [0xB600A000 + p.code * 0x800000 + l * 0x40000 + t]
  | .waita p l t => [0xB600C000 + p.code * 0x800000 + l * 0x40000 + t]
  | .notify p l c => [0xB600E1FF + p.code * 0x800000 + l * 0x40000 + c.code * 0x200]
  | .fence p l c => [0xB80001FF + p.code * 0x800000 + l * 0x40000 + c.code * 0x200]
  | .fenceXp p l c => [0xB80021FF + p.code * 0x800000 + l * 0x40000 + c.code * 0x200]
  | .fenceLoop p l => [0xB80041FF + p.code * 0x800000 + l * 0x40000]
  | .rowopen p l => [0xBA0001FF + p.code * 0x800000 + l * 0x40000]
  | .rowclose p l => [0xBA0021FF + p.code * 0x800000 + l * 0x40000]
  | .semwait p l t => [0xBC000000 + p.code * 0x800000 + l * 0x40000 + t]
  | .semsig p l t => [0xBC002000 + p.code * 0x800000 + l * 0x40000 + t]
  | .semset p l => [0xBC0041FF + p.code * 0x800000 + l * 0x40000]
  | .rld p l t => [0xC0000000 + p.code * 0x800000 + l * 0x40000 + t]
  | .rst p l => [0xC20001FF + p.code * 0x800000 + l * 0x40000]
  | .rstf p l c => [0xC20021FF + p.code * 0x800000 + l * 0x40000 + c.code * 0x200]
  | .rpost p l => [0xC20041FF + p.code * 0x800000 + l * 0x40000]
  | .ramo p l x t => [0xC4000000 + p.code * 0x800000 + l * 0x40000 + x.code * 0x2000 + t]
  | .rcas l t => [0xC6000000 + l * 0x40000 + t]
  | .roadd p l y => [0xC80001FF + p.code * 0x800000 + l * 0x40000 + y.code * 0x2000]
  | .rvamo p l o w t => [0xCA000000 + p.code * 0x800000 + l * 0x40000 + o.code * 0x8000 + w.code * 0x2000 + t]
  | .spawn p l t => [0xCC000000 + p.code * 0x800000 + l * 0x40000 + t]
  | .callat l t => [0xCC002000 + l * 0x40000 + t]
  | .send p l => [0xCC0041FF + p.code * 0x800000 + l * 0x40000]
  | .tid p s t => [0xCE000000 + p.code * 0x800000 + s * 0x200 + t]
  | .whereQ p s t => [0xCE040000 + p.code * 0x800000 + s * 0x200 + t]
  | .time p s t => [0xCE080000 + p.code * 0x800000 + s * 0x200 + t]
  | .br p e f => [0xD0000000 + p.code * 0x800000 + e * 0x100000 + f]
  | .bri p e => [0xD2000000 + p.code * 0x800000 + e * 0x100000]
  | .call p e f => [0xD4000000 + p.code * 0x800000 + e * 0x100000 + f]
  | .ret p e => [0xD6000000 + p.code * 0x800000 + e * 0x100000]
  | .loop p e k f => [0xD8000000 + p.code * 0x800000 + e * 0x100000 + k * 0x10000 + f]
  | .migrate p e f => [0xDA000000 + p.code * 0x800000 + e * 0x100000 + f]
  | .trap p e c f => [0xDC000000 + p.code * 0x800000 + e * 0x100000 + c * 0x10000 + f]
  | .doneX p e => [0xDE000000 + p.code * 0x800000 + e * 0x100000]
  | .yieldX p e f => [0xDE010000 + p.code * 0x800000 + e * 0x100000 + f]
  | .breakX p e f => [0xDE020000 + p.code * 0x800000 + e * 0x100000 + f]
  | .vadd p y s t => [0xE0000000 + p.code * 0x800000 + y.code * 0x40000 + s * 0x200 + t]
  | .vsub p y s t => [0xE0200000 + p.code * 0x800000 + y.code * 0x40000 + s * 0x200 + t]
  | .vmul p y s t => [0xE0400000 + p.code * 0x800000 + y.code * 0x40000 + s * 0x200 + t]
  | .vfma y s t => [0xE0600000 + y.code * 0x40000 + s * 0x200 + t]
  | .vmin p y s t => [0xE2000000 + p.code * 0x800000 + y.code * 0x40000 + s * 0x200 + t]
  | .vmax p y s t => [0xE2200000 + p.code * 0x800000 + y.code * 0x40000 + s * 0x200 + t]
  | .vabs p y s t => [0xE2400000 + p.code * 0x800000 + y.code * 0x40000 + s * 0x200 + t]
  | .vneg p y s t => [0xE2600000 + p.code * 0x800000 + y.code * 0x40000 + s * 0x200 + t]
  | .vand p y s t => [0xE4000000 + p.code * 0x800000 + y.code * 0x40000 + s * 0x200 + t]
  | .vor p y s t => [0xE4200000 + p.code * 0x800000 + y.code * 0x40000 + s * 0x200 + t]
  | .vxor p y s t => [0xE4400000 + p.code * 0x800000 + y.code * 0x40000 + s * 0x200 + t]
  | .vandn p y s t => [0xE4600000 + p.code * 0x800000 + y.code * 0x40000 + s * 0x200 + t]
  | .vshl p y s t => [0xE6000000 + p.code * 0x800000 + y.code * 0x40000 + s * 0x200 + t]
  | .vshr p y s t => [0xE6200000 + p.code * 0x800000 + y.code * 0x40000 + s * 0x200 + t]
  | .vsra p y s t => [0xE6400000 + p.code * 0x800000 + y.code * 0x40000 + s * 0x200 + t]
  | .vcmp p c y s t => [0xE8000000 + p.code * 0x800000 + c.code * 0x200000 + y.code * 0x40000 + s * 0x200 + t]
  | .vsel y s t => [0xEA000000 + y.code * 0x40000 + s * 0x200 + t]
  | .vbcast p y s t => [0xEA200000 + p.code * 0x800000 + y.code * 0x40000 + s * 0x200 + t]
  | .vext p y s t => [0xEA400000 + p.code * 0x800000 + y.code * 0x40000 + s * 0x200 + t]
  | .vins y s t => [0xEA600000 + y.code * 0x40000 + s * 0x200 + t]
  | .vshuf p y s t => [0xEC000000 + p.code * 0x800000 + y.code * 0x40000 + s * 0x200 + t]
  | .vperm p y s t => [0xEC200000 + p.code * 0x800000 + y.code * 0x40000 + s * 0x200 + t]
  | .vrot p y s t => [0xEC400000 + p.code * 0x800000 + y.code * 0x40000 + s * 0x200 + t]
  | .vredadd p y s t => [0xEE000000 + p.code * 0x800000 + y.code * 0x40000 + s * 0x200 + t]
  | .vredmax p y s t => [0xEE200000 + p.code * 0x800000 + y.code * 0x40000 + s * 0x200 + t]
  | .vredmin p y s t => [0xEE400000 + p.code * 0x800000 + y.code * 0x40000 + s * 0x200 + t]
  | .vscan p y s t => [0xEE600000 + p.code * 0x800000 + y.code * 0x40000 + s * 0x200 + t]
  | .vpopc p y s t => [0xF0000000 + p.code * 0x800000 + y.code * 0x40000 + s * 0x200 + t]
  | .vpfxc p y s t => [0xF0200000 + p.code * 0x800000 + y.code * 0x40000 + s * 0x200 + t]
  | .vcvt p c y s t => [0xF2000000 + p.code * 0x800000 + cvtCode c * 0x200000 + y.code * 0x40000 + s * 0x200 + t]
  | .vexp2 p y s t => [0xF4000000 + p.code * 0x800000 + y.code * 0x40000 + s * 0x200 + t]
  | .vlog2 p y s t => [0xF4200000 + p.code * 0x800000 + y.code * 0x40000 + s * 0x200 + t]
  | .vrcp p y s t => [0xF4400000 + p.code * 0x800000 + y.code * 0x40000 + s * 0x200 + t]
  | .vrsqrt p y s t => [0xF4600000 + p.code * 0x800000 + y.code * 0x40000 + s * 0x200 + t]
  | .vld p l w t => [0xF6000000 + p.code * 0x800000 + l * 0x40000 + w.code * 0x2000 + t]
  | .vst p l w => [0xF60081FF + p.code * 0x800000 + l * 0x40000 + w.code * 0x2000]
  | .vldg p l w t => [0xF6010000 + p.code * 0x800000 + l * 0x40000 + w.code * 0x2000 + t]
  | .vsts l w => [0xF60181FF + l * 0x40000 + w.code * 0x2000]
  | .vtld p l w t => [0xF6020000 + p.code * 0x800000 + l * 0x40000 + w.code * 0x2000 + t]
  | .vamo p l w a t => [0xF6028000 + p.code * 0x800000 + l * 0x40000 + w.code * 0x2000 + a.code * 0x200 + t]
  | .csrrd p l t => [0xF8000000 + p.code * 0x800000 + l * 0x40000 + t]
  | .csrwr p l t => [0xF8002000 + p.code * 0x800000 + l * 0x40000 + t]
  | .segld p l t => [0xF8004000 + p.code * 0x800000 + l * 0x40000 + t]
  | .segst p l t => [0xF8006000 + p.code * 0x800000 + l * 0x40000 + t]
  | .wake p l t => [0xF8008000 + p.code * 0x800000 + l * 0x40000 + t]
  | .ctxswap p l t => [0xF800A000 + p.code * 0x800000 + l * 0x40000 + t]
  | .slotpark p l t => [0xF800C000 + p.code * 0x800000 + l * 0x40000 + t]
  | .slotfree p l t => [0xF800E000 + p.code * 0x800000 + l * 0x40000 + t]
  | .tlbinv p l => [0xF80101FF + p.code * 0x800000 + l * 0x40000]
  | .marker p l t => [0xF8012000 + p.code * 0x800000 + l * 0x40000 + t]
  | .qwave p l t => [0xF8014000 + p.code * 0x800000 + l * 0x40000 + t]
  | .twin p l t => [0xF8016000 + p.code * 0x800000 + l * 0x40000 + t]
  | .scrub p l t => [0xF8018000 + p.code * 0x800000 + l * 0x40000 + t]
  | .mma c => encLong 0 0 c
  | .tileLd c => encLong 1 0 c
  | .tileSt c => encLong 1 1 c
  | .tileCp c => encLong 1 2 c
  | .tileDeal c => encLong 1 3 c
  | .tileResume c => encLong 1 4 c
  | .castDec c => encLong 2 0 c
  | .castPlane c => encLong 2 1 c
  | .castTable c => encLong 2 2 c
  | .xswap c => encLong 3 0 c
  | .pgPromote c => encLong 3 1 c
  | .pgRequant c => encLong 3 2 c
  | .kvAlloc c => encLong 4 0 c
  | .kvFree c => encLong 4 1 c
  | .kvAppend c => encLong 4 2 c
  | .kvEvict c => encLong 4 3 c
  | .pfxMatch c => encLong 4 4 c
  | .pfxInsert c => encLong 4 5 c
  | .pfxUnref c => encLong 4 6 c
  | _ => []

/-! ## What an instruction takes and sends -/

/-- The classes of Table 12.6. -/
inductive OpClass | compute | load | sync | perform | commit | message | command | exit | event
  deriving DecidableEq, Repr

/-- An instruction's class, its left and right inputs, whether the predicate input is a third data operand, its PR,
its targets in the order of delivery (R259), and its LSID. -/
structure Shape where
  cls : OpClass
  l : Bool
  r : Bool
  d : Bool
  pr : Pr
  targets : List Nat
  lsid : Option Nat
  deriving DecidableEq, Repr

/-- The shape of a long command: its inputs are those its flags name (R359). -/
def longShape (c : Long) : Shape :=
  ⟨.command, c.flag 11, c.flag 12, c.flag 13, c.p, [c.t], some c.lsid⟩

/-- The shape of an instruction (Tables 12.4 and 12.6). -/
def Instr.shape : Instr → Shape
  | .readReg _ s t => ⟨.compute, false, false, false, .always, [t, s], none⟩
  | .mov p s t => ⟨.compute, true, false, false, p, [t, s], none⟩
  | .mov4 p s t t3 t2 => ⟨.compute, true, false, false, p, [t, s, t2, t3], none⟩
  | .movi p _ t => ⟨.compute, false, false, false, p, [t], none⟩
  | .const t _ => ⟨.compute, false, false, false, .always, [t], none⟩
  | .consth t _ => ⟨.compute, true, false, false, .always, [t], none⟩
  | .null p s t => ⟨.compute, false, false, false, p, [t, s], none⟩
  | .add p _ s t => ⟨.compute, true, true, false, p, [t, s], none⟩
  | .sub p _ s t => ⟨.compute, true, true, false, p, [t, s], none⟩
  | .mul p _ s t => ⟨.compute, true, true, false, p, [t, s], none⟩
  | .mulh p _ s t => ⟨.compute, true, true, false, p, [t, s], none⟩
  | .mulhn p _ s t => ⟨.compute, true, true, false, p, [t, s], none⟩
  | .div p _ s t => ⟨.compute, true, true, false, p, [t, s], none⟩
  | .divn p _ s t => ⟨.compute, true, true, false, p, [t, s], none⟩
  | .rem p _ s t => ⟨.compute, true, true, false, p, [t, s], none⟩
  | .remn p _ s t => ⟨.compute, true, true, false, p, [t, s], none⟩
  | .and p _ s t => ⟨.compute, true, true, false, p, [t, s], none⟩
  | .or p _ s t => ⟨.compute, true, true, false, p, [t, s], none⟩
  | .xor p _ s t => ⟨.compute, true, true, false, p, [t, s], none⟩
  | .andn p _ s t => ⟨.compute, true, true, false, p, [t, s], none⟩
  | .shl p _ s t => ⟨.compute, true, true, false, p, [t, s], none⟩
  | .shr p _ s t => ⟨.compute, true, true, false, p, [t, s], none⟩
  | .sra p _ s t => ⟨.compute, true, true, false, p, [t, s], none⟩
  | .rol p _ s t => ⟨.compute, true, true, false, p, [t, s], none⟩
  | .ror p _ s t => ⟨.compute, true, true, false, p, [t, s], none⟩
  | .min p _ s t => ⟨.compute, true, true, false, p, [t, s], none⟩
  | .max p _ s t => ⟨.compute, true, true, false, p, [t, s], none⟩
  | .minn p _ s t => ⟨.compute, true, true, false, p, [t, s], none⟩
  | .maxn p _ s t => ⟨.compute, true, true, false, p, [t, s], none⟩
  | .sel s t => ⟨.compute, true, true, true, .always, [t, s], none⟩
  | .clz p _ s t => ⟨.compute, true, false, false, p, [t, s], none⟩
  | .ctz p _ s t => ⟨.compute, true, false, false, p, [t, s], none⟩
  | .popc p _ s t => ⟨.compute, true, false, false, p, [t, s], none⟩
  | .brev p _ s t => ⟨.compute, true, false, false, p, [t, s], none⟩
  | .bswap p _ s t => ⟨.compute, true, false, false, p, [t, s], none⟩
  | .abs p _ s t => ⟨.compute, true, false, false, p, [t, s], none⟩
  | .sext p _ s t => ⟨.compute, true, false, false, p, [t, s], none⟩
  | .zext p _ s t => ⟨.compute, true, false, false, p, [t, s], none⟩
  | .bfx p _ _ _ t => ⟨.compute, true, false, false, p, [t], none⟩
  | .bfi p _ _ t => ⟨.compute, true, true, false, p, [t], none⟩
  | .kvslot p s t => ⟨.compute, true, true, false, p, [t, s], none⟩
  | .addi p _ t => ⟨.compute, true, false, false, p, [t], none⟩
  | .muli p _ t => ⟨.compute, true, false, false, p, [t], none⟩
  | .andi p _ t => ⟨.compute, true, false, false, p, [t], none⟩
  | .ori p _ t => ⟨.compute, true, false, false, p, [t], none⟩
  | .xori p _ t => ⟨.compute, true, false, false, p, [t], none⟩
  | .shli p _ t => ⟨.compute, true, false, false, p, [t], none⟩
  | .shri p _ t => ⟨.compute, true, false, false, p, [t], none⟩
  | .srai p _ t => ⟨.compute, true, false, false, p, [t], none⟩
  | .teq p _ s t => ⟨.compute, true, true, false, p, [t, s], none⟩
  | .tne p _ s t => ⟨.compute, true, true, false, p, [t, s], none⟩
  | .tlt p _ s t => ⟨.compute, true, true, false, p, [t, s], none⟩
  | .tle p _ s t => ⟨.compute, true, true, false, p, [t, s], none⟩
  | .tltn p _ s t => ⟨.compute, true, true, false, p, [t, s], none⟩
  | .tlen p _ s t => ⟨.compute, true, true, false, p, [t, s], none⟩
  | .teqi p _ t => ⟨.compute, true, false, false, p, [t], none⟩
  | .tnei p _ t => ⟨.compute, true, false, false, p, [t], none⟩
  | .tlti p _ t => ⟨.compute, true, false, false, p, [t], none⟩
  | .tlei p _ t => ⟨.compute, true, false, false, p, [t], none⟩
  | .tltni p _ t => ⟨.compute, true, false, false, p, [t], none⟩
  | .tleni p _ t => ⟨.compute, true, false, false, p, [t], none⟩
  | .tbit p _ t => ⟨.compute, true, false, false, p, [t], none⟩
  | .fadd p _ _ s t => ⟨.compute, true, true, false, p, [t, s], none⟩
  | .fsub p _ _ s t => ⟨.compute, true, true, false, p, [t, s], none⟩
  | .fmul p _ _ s t => ⟨.compute, true, true, false, p, [t, s], none⟩
  | .fdiv p _ _ s t => ⟨.compute, true, true, false, p, [t, s], none⟩
  | .fma _ _ s t => ⟨.compute, true, true, true, .always, [t, s], none⟩
  | .fms _ _ s t => ⟨.compute, true, true, true, .always, [t, s], none⟩
  | .fsqrt p _ _ s t => ⟨.compute, true, false, false, p, [t, s], none⟩
  | .fmin p _ s t => ⟨.compute, true, true, false, p, [t, s], none⟩
  | .fmax p _ s t => ⟨.compute, true, true, false, p, [t, s], none⟩
  | .fabs p _ s t => ⟨.compute, true, false, false, p, [t, s], none⟩
  | .fneg p _ s t => ⟨.compute, true, false, false, p, [t, s], none⟩
  | .fsgn p _ s t => ⟨.compute, true, true, false, p, [t, s], none⟩
  | .feq p _ s t => ⟨.compute, true, true, false, p, [t, s], none⟩
  | .flt p _ s t => ⟨.compute, true, true, false, p, [t, s], none⟩
  | .fle p _ s t => ⟨.compute, true, true, false, p, [t, s], none⟩
  | .funord p _ s t => ⟨.compute, true, true, false, p, [t, s], none⟩
  | .fclass p _ s t => ⟨.compute, true, false, false, p, [t, s], none⟩
  | .fcvt p _ _ s t => ⟨.compute, true, false, false, p, [t, s], none⟩
  | .fcvti p _ _ s t => ⟨.compute, true, false, false, p, [t, s], none⟩
  | .icvtf p _ _ s t => ⟨.compute, true, false, false, p, [t, s], none⟩
  | .frnd p _ _ s t => ⟨.compute, true, false, false, p, [t, s], none⟩
  | .ld _ p l _ t => ⟨.load, true, false, false, p, [t], (some l)⟩
  | .ldS _ p l _ t => ⟨.load, true, false, false, p, [t], (some l)⟩
  | .ldDAcq p l _ t => ⟨.sync, true, false, false, p, [t], (some l)⟩
  | .st p l _ _ _ => ⟨.commit, true, true, false, p, [], (some l)⟩
  | .ldfe p l t => ⟨.perform, true, false, false, p, [t], (some l)⟩
  | .ldff p l t => ⟨.sync, true, false, false, p, [t], (some l)⟩
  | .feprobe p l t => ⟨.sync, true, false, false, p, [t], (some l)⟩
  | .stef p l => ⟨.perform, true, true, false, p, [], (some l)⟩
  | .stf p l => ⟨.commit, true, true, false, p, [], (some l)⟩
  | .feempty p l => ⟨.commit, true, false, false, p, [], (some l)⟩
  | .amo p l x _ _ t => ⟨.perform, true, true, (x == .cas), p, [t], (some l)⟩
  | .binit p l => ⟨.commit, true, true, false, p, [], (some l)⟩
  | .arrive p l _ t => ⟨.perform, true, false, false, p, [t], (some l)⟩
  | .bwait p l t => ⟨.sync, true, false, false, p, [t], (some l)⟩
  | .btest p l t => ⟨.sync, true, false, false, p, [t], (some l)⟩
  | .join p l t => ⟨.perform, true, false, false, p, [t], (some l)⟩
  | .leave p l t => ⟨.perform, true, false, false, p, [t], (some l)⟩
  | .waita p l t => ⟨.sync, true, true, false, p, [t], (some l)⟩
  | .notify p l _ => ⟨.commit, true, true, false, p, [], (some l)⟩
  | .fence p l _ => ⟨.commit, false, false, false, p, [], (some l)⟩
  | .fenceXp p l _ => ⟨.commit, false, false, false, p, [], (some l)⟩
  | .fenceLoop p l => ⟨.commit, false, false, false, p, [], (some l)⟩
  | .rowopen p l => ⟨.commit, true, false, false, p, [], (some l)⟩
  | .rowclose p l => ⟨.commit, true, false, false, p, [], (some l)⟩
  | .semwait p l t => ⟨.sync, true, true, false, p, [t], (some l)⟩
  | .semsig p l t => ⟨.perform, true, true, false, p, [t], (some l)⟩
  | .semset p l => ⟨.commit, true, true, false, p, [], (some l)⟩
  | .rld p l t => ⟨.load, true, false, false, p, [t], (some l)⟩
  | .rst p l => ⟨.commit, true, true, false, p, [], (some l)⟩
  | .rstf p l _ => ⟨.commit, true, true, false, p, [], (some l)⟩
  | .rpost p l => ⟨.commit, true, true, false, p, [], (some l)⟩
  | .ramo p l _ t => ⟨.perform, true, true, false, p, [t], (some l)⟩
  | .rcas l t => ⟨.perform, true, true, true, .always, [t], (some l)⟩
  | .roadd p l _ => ⟨.perform, true, true, false, p, [], (some l)⟩
  | .rvamo p l _ _ t => ⟨.perform, true, true, false, p, [t], (some l)⟩
  | .spawn p l t => ⟨.message, true, true, false, p, [t], (some l)⟩
  | .callat l t => ⟨.message, true, true, true, .always, [t], (some l)⟩
  | .send p l => ⟨.message, true, true, false, p, [], (some l)⟩
  | .tid p s t => ⟨.compute, false, false, false, p, [t, s], none⟩
  | .whereQ p s t => ⟨.compute, false, false, false, p, [t, s], none⟩
  | .time p s t => ⟨.compute, false, false, false, p, [t, s], none⟩
  | .br p _ _ => ⟨.exit, false, false, false, p, [], none⟩
  | .bri p _ => ⟨.exit, true, false, false, p, [], none⟩
  | .call p _ _ => ⟨.exit, false, false, false, p, [], none⟩
  | .ret p _ => ⟨.exit, true, false, false, p, [], none⟩
  | .loop p _ _ _ => ⟨.exit, false, false, false, p, [], none⟩
  | .migrate p _ _ => ⟨.exit, true, false, false, p, [], none⟩
  | .trap p _ _ _ => ⟨.exit, false, false, false, p, [], none⟩
  | .doneX p _ => ⟨.exit, false, false, false, p, [], none⟩
  | .yieldX p _ _ => ⟨.exit, false, false, false, p, [], none⟩
  | .breakX p _ _ => ⟨.exit, false, false, false, p, [], none⟩
  | .vadd p _ s t => ⟨.compute, true, true, false, p, [t, s], none⟩
  | .vsub p _ s t => ⟨.compute, true, true, false, p, [t, s], none⟩
  | .vmul p _ s t => ⟨.compute, true, true, false, p, [t, s], none⟩
  | .vfma _ s t => ⟨.compute, true, true, true, .always, [t, s], none⟩
  | .vmin p _ s t => ⟨.compute, true, true, false, p, [t, s], none⟩
  | .vmax p _ s t => ⟨.compute, true, true, false, p, [t, s], none⟩
  | .vabs p _ s t => ⟨.compute, true, false, false, p, [t, s], none⟩
  | .vneg p _ s t => ⟨.compute, true, false, false, p, [t, s], none⟩
  | .vand p _ s t => ⟨.compute, true, true, false, p, [t, s], none⟩
  | .vor p _ s t => ⟨.compute, true, true, false, p, [t, s], none⟩
  | .vxor p _ s t => ⟨.compute, true, true, false, p, [t, s], none⟩
  | .vandn p _ s t => ⟨.compute, true, true, false, p, [t, s], none⟩
  | .vshl p _ s t => ⟨.compute, true, true, false, p, [t, s], none⟩
  | .vshr p _ s t => ⟨.compute, true, true, false, p, [t, s], none⟩
  | .vsra p _ s t => ⟨.compute, true, true, false, p, [t, s], none⟩
  | .vcmp p _ _ s t => ⟨.compute, true, true, false, p, [t, s], none⟩
  | .vsel _ s t => ⟨.compute, true, true, true, .always, [t, s], none⟩
  | .vbcast p _ s t => ⟨.compute, true, false, false, p, [t, s], none⟩
  | .vext p _ s t => ⟨.compute, true, true, false, p, [t, s], none⟩
  | .vins _ s t => ⟨.compute, true, true, true, .always, [t, s], none⟩
  | .vshuf p _ s t => ⟨.compute, true, true, false, p, [t, s], none⟩
  | .vperm p _ s t => ⟨.compute, true, true, false, p, [t, s], none⟩
  | .vrot p _ s t => ⟨.compute, true, true, false, p, [t, s], none⟩
  | .vredadd p _ s t => ⟨.compute, true, false, false, p, [t, s], none⟩
  | .vredmax p _ s t => ⟨.compute, true, false, false, p, [t, s], none⟩
  | .vredmin p _ s t => ⟨.compute, true, false, false, p, [t, s], none⟩
  | .vscan p _ s t => ⟨.compute, true, false, false, p, [t, s], none⟩
  | .vpopc p _ s t => ⟨.compute, true, false, false, p, [t, s], none⟩
  | .vpfxc p _ s t => ⟨.compute, true, false, false, p, [t, s], none⟩
  | .vcvt p _ _ s t => ⟨.compute, true, false, false, p, [t, s], none⟩
  | .vexp2 p _ s t => ⟨.compute, true, false, false, p, [t, s], none⟩
  | .vlog2 p _ s t => ⟨.compute, true, false, false, p, [t, s], none⟩
  | .vrcp p _ s t => ⟨.compute, true, false, false, p, [t, s], none⟩
  | .vrsqrt p _ s t => ⟨.compute, true, false, false, p, [t, s], none⟩
  | .vld p l _ t => ⟨.load, true, false, false, p, [t], (some l)⟩
  | .vst p l _ => ⟨.commit, true, true, false, p, [], (some l)⟩
  | .vldg p l _ t => ⟨.load, true, true, false, p, [t], (some l)⟩
  | .vsts l _ => ⟨.commit, true, true, true, .always, [], (some l)⟩
  | .vtld p l _ t => ⟨.load, true, true, false, p, [t], (some l)⟩
  | .vamo p l _ _ t => ⟨.perform, true, true, false, p, [t], (some l)⟩
  | .csrrd p l t => ⟨.sync, true, false, false, p, [t], (some l)⟩
  | .csrwr p l t => ⟨.perform, true, true, false, p, [t], (some l)⟩
  | .segld p l t => ⟨.perform, true, true, false, p, [t], (some l)⟩
  | .segst p l t => ⟨.perform, true, true, false, p, [t], (some l)⟩
  | .wake p l t => ⟨.perform, true, false, false, p, [t], (some l)⟩
  | .ctxswap p l t => ⟨.perform, true, true, false, p, [t], (some l)⟩
  | .slotpark p l t => ⟨.perform, true, false, false, p, [t], (some l)⟩
  | .slotfree p l t => ⟨.perform, true, false, false, p, [t], (some l)⟩
  | .tlbinv p l => ⟨.perform, true, false, false, p, [], (some l)⟩
  | .marker p l t => ⟨.perform, true, false, false, p, [t], (some l)⟩
  | .qwave p l t => ⟨.perform, true, false, false, p, [t], (some l)⟩
  | .twin p l t => ⟨.perform, true, false, false, p, [t], (some l)⟩
  | .scrub p l t => ⟨.perform, true, false, false, p, [t], (some l)⟩
  | .mma c => longShape c
  | .tileLd c => longShape c
  | .tileSt c => longShape c
  | .tileCp c => longShape c
  | .tileDeal c => longShape c
  | .tileResume c => longShape c
  | .castDec c => longShape c
  | .castPlane c => longShape c
  | .castTable c => longShape c
  | .xswap c => longShape c
  | .pgPromote c => longShape c
  | .pgRequant c => longShape c
  | .kvAlloc c => longShape c
  | .kvFree c => longShape c
  | .kvAppend c => longShape c
  | .kvEvict c => longShape c
  | .pfxMatch c => longShape c
  | .pfxInsert c => longShape c
  | .pfxUnref c => longShape c
  | _ => ⟨.event, false, false, false, .always, [], none⟩

/-- Whether input k (0 left, 1 right, 2 predicate) exists (R258). -/
def Shape.has (h : Shape) : Nat → Bool
  | 0 => h.l
  | 1 => h.r
  | 2 => h.d || h.pr != .always
  | _ => false

end Sys2Proof
end

