-- ==== Sys2Proof/Machine/State.lean ====
section
/-!
DEFINITION. The state of the KZ4-512: everything the spec gives the machine, as plain data, and its value at module reset.
-/

namespace Sys2Proof.Machine

/-- The slot states of Table 7.4. -/
inductive SlotState | free | load | run | park | frozen | out
  deriving DecidableEq, Repr

/-- The frame states of Table 7.5. -/
inductive FrameState | idle | fetch | spec | exec | commit
  deriving DecidableEq, Repr

/-- A thread's architected context (Table 7.1). -/
structure Ctx where
  g : Tab Word := []
  pc : Word := 0
  tsw : Word := 0
  wait : Word := 0
  seg : Tab (BitVec 128) := []
  deriving DecidableEq, Repr

/-- A fault on its way to being raised: the fields of Table 10.1 that its source knows.
migrate names the owning core of an access that would migrate the thread (R312). -/
structure FaultD where
  cause : Nat
  index : Nat := 0
  lsid : Nat := 0
  iv : Bool := true
  addr : Nat := 0
  migrate : Option Nat := none
  maddr : Nat := 0
  deriving DecidableEq, Repr

/-- A token (R265-R267, R339). mem marks poison from a poisoned word, whose cause the reached output decides. -/
inductive Tok
  | val (v : Word)
  | vec (v : BitVec 512) (nulls : BitVec 64)
  | null
  | poison (f : FaultD) (mem : Bool)
  deriving DecidableEq, Repr

/-- A part of an ordinary or vector store: raw bytes, through which port; or one element of a format view. -/
inductive Part
  | raw (loop : Bool) (cells : List Host.Cell)
  | elem (view sq off : Nat) (v : BitVec 32)
  deriving DecidableEq, Repr

/-- What a store-buffer entry does when it drains (R181). -/
inductive SbOp
  | data (parts : List Part)
  | stf (loc : Nat) (v : Word)
  | feempty (loc : Nat)
  | notify (loc : Nat) (v : Word) (scope : Scope)
  | binit (loc : Nat) (expa : Nat) (expb : Nat)
  | semset (sem n : Nat)
  | remote (op : RemOp) (scope : Scope)
  | row (opens : Bool) (loc : Nat)
  | fence (kind : Nat) (scope : Scope)
  deriving DecidableEq, Repr

/-- One store-buffer entry: the slot it belongs to, its path, its block and place in it. -/
structure SbEntry where
  slot : Nat
  op : SbOp
  rel : Bool := false
  loopback : Bool := false
  pc : Word := 0
  index : Nat := 0
  lsid : Nat := 0
  lid : Nat := 0
  ea : Nat := 0
  width : Nat := 0                             -- bytes, for the fingerprint (R226)
  data : Nat := 0
  lanes : List (Nat × Nat) := []               -- a scatter: address and bytes of each lane, for the watchpoint (R214)
  sent : Bool := false
  stamp : Nat := 0                             -- serial number at its entry
  ident : Nat := 0                             -- identity (R228)
  tid : Nat := 0                               -- its thread
  deriving DecidableEq, Repr

/-- How a command ended: the fields of Table 16.3 and, where it writes a record, its fault address. -/
structure CmdEnd where
  code : Nat := 0
  cause : Nat := 0
  addr : Nat := 0
  cnt : Nat := 0
  pois : Bool := false
  redo : Bool := false
  noprog : Bool := false
  sat : Bool := false
  ovf : Bool := false
  nan : Bool := false
  deriving DecidableEq, Repr

/-- The single read of a multicast group (R175): the value of each source element and whether it is poisoned, up to the
end that the read meets. -/
structure SharedRead where
  vals : List (Nat × Bool)
  stop : Option CmdEnd
  deriving DecidableEq, Repr

/-- A long command as released: its words, its issuer's segments and identity (R359-R366). -/
structure Cmd where
  eng : Nat
  cmd : Nat
  slot : Nat
  ticket : Nat
  wsem : Nat := 0
  wthr : Nat := 0
  ssem : Nat := 0
  sinc : Nat := 0
  flags : Nat := 0
  f : BitVec 160 := 0
  seg : Tab (BitVec 128) := []
  priv : Bool := false
  lid : Nat := 0
  pc : Word := 0
  index : Nat := 0
  lsid : Nat := 0
  stamp : Nat := 0                             -- serial number at its release
  took : Bool := false                         -- its semaphore count is taken (R365, R370)
  started : Bool := false
  startedAt : Nat := 0
  desc : BitVec 1024 := 0                      -- tile descriptor as read at the start (R371)
  early : Option CmdEnd := none                -- an end decided at the start
  matched : Bool := false                      -- XSWAP: the exchange is done
  wave : Bool := false                         -- page move: the invalidation wave has returned
  leaf : Option (Nat × Nat × Nat) := none      -- PG.PROMOTE: where its leaf entry lies, and the page's byte 0 and size (R176)
  tid : Nat := 0                               -- its thread
  shared : Option SharedRead := none           -- what its multicast group has read (R175)
  again : List Nat := []                       -- elements read from a row under remap, read again after it (R160)
  deriving DecidableEq, Repr

/-- What an instruction of class K, M or E leaves for the commit of its block (R274). -/
inductive Pend
  | store (e : SbEntry)
  | post (op : RemOp)
  | message (m : Msg) (handle : Option Nat) (bounced : Bool)
  | command (c : Cmd)
  | nulled
  | done
  deriving DecidableEq, Repr

/-- The exit that fired (R276). -/
inductive ExitKind
  | br | bri (target : Word) | call | ret (target : Word) | loop (k : Nat)
  | migrate (owner : Nat) | trap (code : Nat) | done | yieldX | breakX
  deriving DecidableEq, Repr

structure ExitFired where
  kind : ExitKind
  off : Int := 0
  idx : Nat := 0
  deriving DecidableEq, Repr

/-- A load of a block that has been performed (R179, R180): its path, the bytes it read, and of those that no store of its
block supplied, the values its path gives and, outside the vaults beside a pending store, the values at their home. -/
structure LoadRec where
  remote : Bool := false
  reads : List Nat := []
  got : List Host.Cell := []
  home : List Host.Cell := []
  deriving DecidableEq, Repr

/-- A block frame (R117) and the state of its execution (R265-R275). Operand tokens are keyed by target number. -/
structure Frame where
  st : FrameState := .idle
  pc : Word := 0
  header : BitVec 128 := 0
  body : List (BitVec 32) := []
  held : Option FaultD := none                -- fault found at fetch or decode
  ops : Tab Tok := []
  regs : Tab Tok := []
  fired : Tab Bool := []                      -- true: fired; false: predicate did not match
  issued : List Nat := []                     -- words that have issued, fired or waiting (R119)
  pend : Tab Pend := []                       -- resolved LSIDs
  loads : Tab LoadRec := []                   -- performed loads, by LSID
  waitAll : List Nat := []                    -- LSIDs of loads that wait in a replay (R269)
  kept : Tab Tok := []                        -- results of synchronising reads, kept over a replay (R271)
  checked : Bool := false                     -- the performing operation's address has passed its checks
  asked : Tab Nat := []                       -- word waiting for an answer: request serial
  exits : List ExitFired := []
  exit2 : Option FaultD := none
  faults : List FaultD := []                  -- faults at commit outputs
  lock : Bool := false
  flags : BitVec 5 := 0
  segNew : Tab (BitVec 128) := []             -- SEGLD (R401)
  tswNew : Option Word := none                -- CSRWR of the TSW (R400)
  gph : Option Bool := none                   -- ARRIVE (R322)
  age : Nat := 0                              -- serial number at its entry into EXEC (R119)
  deriving DecidableEq, Repr

/-- A committed message that has not left its core: with a handle one that is sent into its reservation, without one an
entry of the outbound message buffer (R130, R132, R198). -/
structure Outgoing where
  msg : Msg
  handle : Option Nat
  slot : Nat
  stamp : Nat                                  -- serial number at its commit
  tid : Nat := 0                               -- its thread
  deriving DecidableEq, Repr

/-- A twin pair's comparison state, held with each copy (R225-R227). -/
structure TwinState where
  chk : Ctx := {}
  chkPmask : BitVec 16 := 0                    -- PMASK of the checkpoint
  chkBad : BitVec 16 := 0                      -- and its registers with an uncorrectable error
  chkLost : Bool := false
  fp : BitVec 64 := 0xFFFFFFFFFFFFFFFF
  mism : Nat := 0
  blocks : Nat := 0
  gated : List SbEntry := []
  gatedCmds : List Cmd := []
  gatedMsgs : List Outgoing := []              -- messages behind the gated stores (R198)
  passing : Bool := false                      -- compared equal; the gated buffer is being released
  forced : Bool := false
  faultRec : Option FaultD := none
  seq : Nat := 0                               -- blocks committed since the thread was loaded
  fwd : Tab Tok := []                          -- the shadow's: values forwarded by block and word
  asks : List (Nat × Nat × Nat × Nat) := []    -- the primary's: TWIN issuers: core, slot, fseq, word
  deriving DecidableEq, Repr

/-- One barrel slot (R116). -/
structure Slot where
  st : SlotState := .free
  halt : Bool := false
  ctx : Ctx := {}
  slice : Option Nat := none
  pmask : BitVec 16 := 0
  badRegs : BitVec 16 := 0                     -- registers with an uncorrectable error not yet scrubbed (R217)
  frec : BitVec 256 := 0
  migr : Nat := 0
  frame : Frame := {}
  next : Frame := {}
  fseq : Nat := 0                              -- executions of frames
  parkSeq : Nat := 0
  parkedAt : Nat := 0
  htSeq : Nat := 0
  residence : Nat := 0
  ordinal : Nat := 0
  stepping : Bool := false
  frozenBy : Nat := 0                          -- cause that froze it, 0 where it is not known (R214, R227)
  skipBrk : Bool := false
  outTo : Option Nat := none                   -- OUT: destination core; none with OUT: the context store
  outEntry : Option Nat := none                -- reserve entry of a spill
  outMate : Option Nat := none                 -- and that of its shadow
  spilling : Bool := false                     -- a victim waiting for its reserve entry
  maddr : Nat := 0
  wakeup : Bool := false                       -- a wake that arrived in OUT
  held : Bool := false                         -- FREE but held by a reservation or claim
  stop : Nat := 0                              -- pending at its block boundary: 1 SLOTPARK, 2 kill, 3 FREEZE, 5 DONE and
                                               -- 6 YIELD of a twin
  htStop : Bool := false                       -- and the parking of R111
  swapBy : Option (Nat × Nat × Nat) := none    -- slot and execution whose CTXSWAP waits for this slot's commit (R118)
  tid : Nat := 0                               -- its thread, unique in the package
  lost : Bool := false                         -- loaded from a frame with a poisoned word (R217)
  recDue : Nat := 0                            -- cause of the record due once it is FROZEN: 0xD3, 0xD4, or 6 for the
                                               -- record in frec, rewritten from a cut (R206, R223)
  twin : Option TwinState := none
  pair : Nat := 0                              -- number that the two copies of a twin share (R144)
  skipped : Bool := false                      -- had a ready instruction and issued none in the last cycle (R119)
  deriving DecidableEq, Repr

/-- A context frame (Table 7.6). A full HDR is `full`. -/
structure CtxFrame where
  full : Bool := true
  lid : Nat := 0
  twin : Bool := false
  dcore : Nat := 0
  origin : Word := 0
  maddr : Nat := 0
  slice : Option Nat := none
  ctx : Ctx := {}
  pmask : BitVec 16 := 0
  next : Nat := 0                              -- NEXT: the runnable list's next entry number + 1, or 0 (R125)
  ident : Nat := 0
  lost : Bool := false                         -- a word other than G0-G15 was poisoned (R217)
  bad : BitVec 16 := 0                         -- registers whose words were poisoned when the frame was read (R217)
  due : Nat := 0                               -- cause of a record that is due where the thread arrives (R206)
  tid : Nat := 0                               -- its thread; 0 where it is not known
  deriving DecidableEq, Repr

/-- A context in the store, with its reserve entry (none: of no launch) and its key, unique in the package. -/
structure Stored where
  frame : CtxFrame
  entry : Option Nat := none
  key : Nat := 0
  deriving DecidableEq, Repr

/-- A context out of its slot: its launch, reserve entry, key, and for a twin the entry of its shadow (R125, R144). -/
structure RunRef where
  lid : Nat
  entry : Option Nat
  key : Nat
  mate : Option Nat := none
  migr : Nat := 0
  stepping : Bool := false
  ht : Bool := false                           -- parked under R111
  kind : Nat := 0                              -- its KIND, 0 once its wake has come
  htSeq : Nat := 0
  due : Nat := 0                               -- cause of a record that is due once it is FROZEN in a slot (R206)
  tid : Nat := 0                               -- its thread
  deriving DecidableEq, Repr

/-- A waiter of a bank or of a semaphore (R153, R370). who names core and slot; entry a spilled context. -/
structure Waiter where
  loc : Nat
  kind : Nat
  core : Nat
  slot : Nat
  entry : Option Nat := none
  lid : Nat := 0
  overflow : Bool := false
  deriving DecidableEq, Repr

/-- A TLB translation (R168): root, page base, page size, leaf entry. -/
structure TlbEntry where
  root : Nat
  page : Nat
  size : Nat
  leaf : Word
  deriving DecidableEq, Repr

/-- A range scoreboard entry (R173), or the guard of an MMA (R380), by ticket. -/
structure Ranges where
  ticket : Nat
  ranges : List (Nat × Nat)                    -- lowest, highest byte
  guard : Bool := false
  stamp : Nat := 0                             -- serial number at its release
  deriving DecidableEq, Repr

/-- The tile kept in the matrix array (R379). kind 0 FP32, 1 FP64, 2 i32. -/
structure KeptTile where
  lid : Nat
  kind : Nat
  elems : Tab Word
  pois : List Nat
  deriving DecidableEq, Repr

/-- A SENT/RECV pair with its generation tag (R142). -/
structure Pair where
  gen : Nat := 0
  sent : Nat := 0
  recv : Nat := 0
  deriving DecidableEq, Repr

/-- A reservation held at a core: a queue entry or a slot (R130). -/
structure Resv where
  handle : Nat
  slot : Option Nat
  twin : Bool := false                         -- held in both cores of a pair (R145)
  deriving DecidableEq, Repr

/-- A compute core or service core. -/
structure Core where
  slots : Tab Slot := []
  sroot : Word := 0
  mseg : Tab (BitVec 128) := []
  ibrk : Word := 0
  dwatch : Word := 0
  sems : Tab Nat := []
  semWaiters : List Waiter := []
  lastTicket : Nat := 0
  sb : List SbEntry := []
  outbox : List Outgoing := []
  posts : List RemOp := []                     -- posted writes behind a fence or release of their thread (R183)
  inbox : List Msg := []
  resv : List Resv := []
  store : List Stored := []
  runnable : List RunRef := []
  spilled : List RunRef := []                  -- spilled from this core and still waiting
  servedQueue : Bool := false
  counts : Tab Pair := []
  tlb : List TlbEntry := []
  board : List Ranges := []
  cmds : List Cmd := []
  array : Option KeptTile := none
  tables : Tab Word := []
  retry : List (Nat × Waiter) := []            -- due time, waiter
  opreq : Nat := 8
  opreqNew : Nat := 8                          -- stored under hardware control (R112)
  deriving DecidableEq, Repr

/-- A page being moved (R176): its old and new vault offsets. -/
structure Move where
  ticket : Nat
  core : Nat                                   -- issuing core
  page : Nat
  new : Nat
  size : Nat
  deriving DecidableEq, Repr

/-- A vault and its controller (R157-R162). Rows are bank * 2048 + row. -/
structure Vault where
  wovf : Word := 0
  on : BitVec 8 := 0xFF
  busy : BitVec 8 := 0
  lock : BitVec 8 := 0
  camRes : Nat := 0
  camBank : Nat := 0
  camRow : Nat := 0
  cam : List (Nat × Nat × Nat) := []           -- bank, row, spare
  badSpares : List (Nat × Nat) := []
  retired : List (Nat × Nat) := []
  candidates : List (Nat × Nat) := []
  openRows : Tab (Nat × Nat) := []             -- bank: row, last access time
  refreshRow : Tab Nat := []
  temps : Tab Nat := []
  throttled : BitVec 8 := 0
  moving : List Move := []
  scrub : Option (Nat × Nat × Nat × Nat × Nat) := none   -- pass, core, slot, fseq, word
  ecnt : Nat := 0
  deriving DecidableEq, Repr

/-- Held ROADD contributions and the highest slice applied at a word (R328). -/
structure RoWord where
  maxApplied : Nat := 0
  held : List RemOp := []
  deriving DecidableEq, Repr

/-- A square: its operating point control (Table 6.2) and idle state (R108). -/
structure Square where
  on : Bool := false
  ibud : Nat := 0xFFFF
  cap : Nat := 28
  ibudNew : Nat := 0xFFFF
  capNew : Nat := 28
  cur : Nat := 8
  tgt : Nat := 8
  transTo : Nat := 8
  stretch : Nat := 0
  overB : Bool := false
  trans : Bool := false
  idle : Bool := false
  quietSince : Option Nat := none
  exitSince : Option Nat := none
  mcast : List (List (Nat × Nat) × Nat) := []  -- open multicast groups: (core, ticket) members, opening time
  grant : Nat := 4                              -- the core that the vector unit granted last (R342)
  deriving DecidableEq, Repr

/-- A district's damage state (Table 6.4, R110); damage in 1/256 us. -/
structure District where
  tmax : Nat := 0
  level : Nat := 0
  d : Nat := 0
  bucket : Nat := 0
  window : List Nat := []                      -- latest first; buckets not listed are zero
  deriving DecidableEq, Repr

/-- The launch record fields (Table 3.9). -/
structure LaunchRec where
  prio : Nat := 0
  irq : Bool := false
  indep : Bool := false
  abortOnFault : Bool := false
  replay : Bool := false
  mould : Bool := false
  twin : Bool := false
  det : Bool := false
  ctxres : Nat := 0
  sigd : Int := 0
  deps : List Int := []
  larea : Nat := 0
  segt : Nat := 0
  dmask : BitVec 64 := 0
  argp : Word := 0
  slices : Nat := 1
  entry : Nat := 0
  deriving DecidableEq, Repr

/-- The launch entry states of Table 5.1; guest: the entry holds a guest's shadow (R80). -/
inductive EntryState | ended | waiting | active | draining | ending | guest
  deriving DecidableEq, Repr

/-- One recorded mould entry (Table 10.16). -/
structure MouldEntry where
  kind : Nat
  unit : Nat
  a : Nat
  b : Word
  deriving DecidableEq, Repr

/-- Traffic in flight on the mesh (Table 1.6). -/
inductive Packet
  | start (die lid slice core : Nat) (twin : Bool) (m : Msg)
  | msg (src : Nat) (m : Msg) (handle : Option Nat)
  | migr (src core : Nat) (f : CtxFrame) (migr : Nat) (stepping : Bool)
  | resvReq (core slot fseq idx : Nat) (m : Msg)
  | resvRel (src core handle : Nat)
  | remote (op : RemOp)
  | sliceEnd (lid slice : Nat) (retired : Bool)
  | wake (w : Waiter)
  | fault (q : Nat) (r : BitVec 256)
  | cutOrder (sq lid : Nat)
  | cutMarker (src dst net lid : Nat)
  | cutReport (sq lid lack : Nat)
  | spill (core lid : Nat)
  | claim (core lid : Nat)
  deriving DecidableEq, Repr

/-- A launch table entry (R74), or a guest's shadow of one (R80). -/
structure Entry where
  st : EntryState := .ended
  gen : Nat := 0
  endedAt : Nat := 0
  avail : Bool := true                         -- not ended within the last 1 ms
  order : Nat := 0                             -- serial number at the read of its record
  queue : Nat := 0
  lrec : LaunchRec := {}
  root : Nat := 0
  segs : Tab (BitVec 128) := []
  next : Nat := 0
  returned : List Nat := []
  lseq : Nat := 0
  tstart : Nat := 0
  tend : Nat := 0
  started : Bool := false
  ended : List (Nat × Nat) := []               -- slices that have ended, as ranges [lo, hi)
  retired : Nat := 0
  faults : Nat := 0
  cause : Nat := 0
  discarded : Nat := 0
  withheld : Nat := 0
  waves : Nat := 0
  wave : Option (Nat × Nat × Nat) := none      -- wave in flight: SENT, RECV totals, start time
  waveSeen : List Nat := []                    -- cores and ports (8,192 + port) that the wave has passed (R143)
  lastWave : Option (Nat × Nat) := none
  waveDue : Nat := 0
  quiescent : Bool := false
  reserve : List Nat := []                     -- reserve entries in use
  taken : List (Nat × Packet) := []            -- messages taken into a cut, by router, in arrival order (R220)
  cutRecs : Tab (BitVec 256) := []             -- records of frozen threads in a cut, by entry (R223)
  cutEntries : List Nat := []                  -- reserve entries that the cut has filled
  cutSeen : List Nat := []                     -- routers that an order or a first marker has reached (R220)
  cutSent : List Nat := []                     -- routers that have sent their markers and not yet written their state
  cutIn : List (Nat × Nat × Nat) := []         -- markers that have arrived: from, at, network
  forced : Option Nat := none                  -- final status of a forced end
  killWave : Bool := false
  status : Nat := 0                            -- decided by R95
  guests : List Nat := []
  held : Bool := false                         -- dispensing held by a cut (R220)
  suspended : Bool := false
  cutWait : List Nat := []                     -- routers that have not reported
  cutLack : Nat := 0
  cutAsk : Option (Nat × Nat × Nat × Nat) := none   -- MARKER issuer: core, slot, fseq, word
  cutReq : Option (Nat × Nat × Word) := none   -- SUSPEND request: quarter, number, word 0
  f4 : Bool := false
  f5 : Bool := false
  recording : Bool := false
  units : Tab (List MouldEntry) := []          -- replay: entries each unit still expects
  trunc : Bool := false                        -- the mould replayed is truncated
  unmetSince : Tab Nat := []
  freeRun : Bool := false                      -- enforcement has stopped
  seqs : Tab Nat := []                         -- mould: next chunk sequence number per unit
  chunks : Tab (Nat × Nat) := []               -- mould: chunk offset and next slot per unit
  ords : Tab Nat := []                         -- mould: ordinals per unit
  deriving DecidableEq, Repr

/-- A guest's shadow entry (R80, R81): the home launch and its claimed batches. -/
structure Guest where
  home : Nat
  homeEntry : Nat
  shadow : Nat                                 -- its entry in the guest's table
  indices : List Nat := []
  returned : List Nat := []
  deriving DecidableEq, Repr

/-- What the dispenser keeps of a queue. -/
structure QueueSt where
  early : List Nat := []                       -- record numbers read early (R78)
  lastSeen : Bool := false                     -- EN as last seen
  f0 : Bool := false
  credit : Nat := 0
  ageFrom : Option Nat := none
  deriving DecidableEq, Repr

/-- A die: its dispenser (R74-R100) and its power registers (06_). -/
structure Die where
  dqbase : Word := 0
  table : Tab Entry := []
  guests : List Guest := []
  queues : Tab QueueSt := []
  ptr : Tab Nat := []
  corePtr : Nat := 0
  ordinal : Nat := 0                           -- grants made on the die
  cycleAt : Nat := 0                           -- time of the mesh cycle of the last GRANT
  cycleGrants : Nat := 4                       -- grants made in it, 4 once it grants no more (R85)
  cands : List Nat := []                       -- its candidates, one for each open slot at its start (R82)
  cdis : List Nat := []                        -- cores out of dispensing
  cdisUsed : List Nat := []                    -- as sampled at the start of the mesh cycle (R82, R93)
  f3 : Bool := false
  hard : Nat := 1500000
  soft : Nat := 1200000
  tref : Nat := 95
  hardNew : Nat := 1500000
  softNew : Nat := 1200000
  trefNew : Nat := 95
  hw : Bool := false
  lastPchb : Nat := 0
  exitUs : Nat := 0                            -- the us of the last idle exits
  exits : Nat := 0                             -- idle exits in that us
  deriving DecidableEq, Repr

/-- A flit (R30): the header of Table 2.1 and the 64 payload bytes. -/
structure Flit where
  hdr : BitVec 64
  pay : List Byte
  deriving DecidableEq, Repr

/-- A flit that its sender holds for replay (R34), and how often a negative acknowledgement has replayed it (R35). -/
structure HeldFlit where
  seq : Nat
  flit : Flit
  replays : Nat := 0
  deriving DecidableEq, Repr

/-- The sender side of a class (R34): next SEQ, replay buffer, and the SEQ and time of a busy indication. -/
structure TxSide where
  seq : Nat := 0
  buf : List HeldFlit := []
  replayFrom : Nat := 0
  busySince : Option Nat := none
  lastAck : Nat := 0
  deriving DecidableEq, Repr

/-- The receiver side of a class: expected SEQ, discarding for space since, what it last sent. -/
structure RxSide where
  expect : Nat := 0
  full : Option Nat := none
  part : Nat := 0                              -- accepted flits of a transaction that has not arrived whole
  out : List (Nat × Nat) := []                 -- link-control words sent: kind, SEQ
  deriving DecidableEq, Repr

/-- A reservation a port holds for a peer (R43). -/
structure PortResv where
  handle : Nat
  core : Nat
  coreHandle : Nat
  deriving DecidableEq, Repr

/-- An outstanding request of a port: its tag and the operation that waits for the response. -/
structure Outstanding where
  tag : Nat
  op : Option RemOp := none
  msgFor : Option (Nat × Nat × Nat × Nat) := none    -- RSV: core, slot, fseq, word
  sentAt : Nat := 0
  posted : Bool := false
  deriving DecidableEq, Repr

/-- A Burmir port (R29-R35, R43, R129). (DEDUCED, unsafe: log 45) -/
structure Port where
  up : Bool := false
  lanes : BitVec 16 := 0                       -- the lanes in use
  attempts : Nat := 0
  retryAt : Nat := 0                           -- training is not retried before (R29)
  tx : Tab TxSide := []
  rx : Tab RxSide := []
  errs : Nat := 0
  pimp : Word := 0
  resv : List PortResv := []
  pending : List Outstanding := []
  nextTag : Nat := 0
  counts : Tab Pair := []
  cutHeld : List (Msg × Nat) := []
  arrivals : Nat := 0
  outq : List Txn := []                        -- transactions sent on the link
  wire : List Flit := []                       -- flits put on the link and not acknowledged, replays included
  held : List Txn := []                        -- waiting for room in a replay buffer (R34)
  msgsOut : List (Nat × Nat × Nat) := []       -- MSG not acknowledged: last SEQ, sending core, launch (R142)
  deriving DecidableEq, Repr

/-- The host side of a request the adapter has outstanding. -/
structure HostReq where
  tag : Nat
  qtr : Nat
  port : Nat
  op : Nat
  sentAt : Nat := 0
  rsp : Option Txn := none
  deriving DecidableEq, Repr

/-- A PCIe completion the host has received: tag, status (0 success, 1 unsupported request, 2 completer abort), data. -/
structure PcieCpl where
  tag : Nat
  status : Nat
  data : List Byte := []
  deriving DecidableEq, Repr

/-- The host adapter card (R37, R38, R47). -/
structure Adapter where
  frames : Tab Word := []
  nextTag : Nat := 0
  outstanding : List HostReq := []
  sent : List (Nat × Txn) := []                -- transactions on the link: port
  cpls : List PcieCpl := []
  msix : List Nat := []                        -- vectors raised, latest first
  qport : Tab Nat := []                        -- port each quarter uses
  waiting : List (Nat × Txn) := []             -- transactions of a quarter that waits to move to another port (R37)
  answers : List (Nat × Nat × Nat) := []       -- RMTs performed by the adapter: port, TAG, STATUS of the RMTRSP (R47)
  deriving DecidableEq, Repr

/-- How far a service core is in the first of its host transactions (R36): the words performed, the bytes read and the
STATUS so far. -/
structure HostPart where
  done : Nat := 0
  buf : List Byte := []
  st : Nat := 0
  deriving DecidableEq, Repr

/-- A service core's firmware state: its frame table copy and request handling (R45-R51). -/
structure Svc where
  frames : Tab Word := []
  taken : Nat := 0
  rsps : List (Nat × Word × Word × Word) := []  -- responses held: request number, its word 0, result, word 2
  held : Bool := false                         -- held in reset (R63)
  inFlight : List (Nat × Txn) := []            -- accepted host transactions not yet performed, by port (R46)
  part : HostPart := {}                        -- how far the first of them is
  deriving DecidableEq, Repr

/-- Where the power-up and turnover sequences stand (R22, R63). -/
inductive Phase
  | held | shutdown | powering (step : Nat) | quiesced | scrubbed | cleared | tested | loaded | ready
  deriving DecidableEq, Repr

/-- The management controller (R28, 04_). (DESIGN CHOICE, unsafe: log 5) -/
structure Mgmt where
  phase : Phase := .held
  state : Nat := 0
  count : Nat := 0
  fail : Nat := 0
  tenantReg : Word := 0
  nonceReg : BitVec 256 := 0
  tenant : Word := 0
  nonce : BitVec 256 := 0
  tstart : Nat := 0
  tend : Nat := 0
  running : Bool := false                      -- a turnover is running
  config : ConfigImage := ⟨0, 0, [0, 1, 1, 1, 1, 1, 1, 1], [], 0, 3000, 0⟩
  configNew : Option ConfigImage := none       -- accepted, for the turnover that starts next (R71)
  configDue : Option ConfigImage := none       -- for the turnover that runs
  arcnt : Nat := 0
  raises : Nat := 0
  fwok : Bool := false
  scfw : BitVec 512 := 0
  pcfw : BitVec 512 := 0
  repairs : Nat := 0
  frames : List Word := []                     -- retired frame list
  framesTotal : Nat := 0
  layersOff : Nat := 0
  ovf : Bool := false
  report : Tab Byte := []                      -- bytes 0x000-0x1FF of Table 4.4
  events : List (Nat × Nat) := []              -- event log: code, detail
  repairLog : List (Nat × Nat × Nat × Nat) := []
  flowLowSince : Option Nat := none
  staging : Tab Byte := []
  deriving DecidableEq, Repr

/-- Package power (R21, R107): excess energy in nJ, last measurement in mW, additional stretch of every square. -/
structure Power where
  e : Nat := 0
  mw : Nat := 0
  extra : Nat := 0
  deriving DecidableEq, Repr

/-- Gathered posted writes of one source core at an agent (R42): src is 8192 times the port (8: within the package)
plus the core. -/
structure Gather where
  agent : Nat
  src : Nat
  ops : List RemOp                             -- the gathered writes
  since : Nat
  deriving DecidableEq, Repr

/-- A scheduled choice: which agent moves next, or an input from outside. -/
inductive Choice
  | event (i : Instr)
  | run (core slot : Nat)
  | cycle (square : Nat)                       -- a core cycle of a square: Issue (R119, R342)
  | issue (core slot word : Nat)               -- one of its instructions issues
  | tick (ns : Nat)
  | tlbDrop (core n : Nat)
  | portRead (core addr : Nat)                 -- the core's port keeps a read buffer for a vault word (R192)
  | eccFix (core : Nat)                        -- a single-bit error corrected (R152)
  | eccLost (loc : Nat)                        -- an uncorrectable error in a word (R152)
  | regLost (core slot k : Nat)                -- an uncorrectable register error (R217)
  | chkLost (core slot : Nat)                  -- a twin checkpoint lost (R227)
  deriving DecidableEq, Repr

/-- Memory: bytes by linear location, in canonical form with 0 for an unlisted byte, and the full and
poisoned words by word number (location div 8), in canonical form with false. -/
structure Memory where
  bytes : List Host.Cell := []
  full : Tab Bool := []
  pois : Tab Bool := []
  deriving DecidableEq, Repr

/-- A word a core's port holds in a read buffer: location and value, and the asynchronous-path writes to the word since
(R192). -/
structure ReadBuf where
  core : Nat
  loc : Nat
  v : Word
  after : List Nat := []
  deriving DecidableEq, Repr

/-- A write of the asynchronous path to a word that some port holds in a read buffer, and who observes it (R186, R192,
R193): its number, its command and thread; the threads that observe it and those whose releases cover it; the threads that
have fenced it, and those that have read a word that carries it; the words, messages, semaphores (core, number, by a
release) and barrier objects (location, by a release, flipped) that carry it. -/
structure AsyncWrite where
  n : Nat
  loc : Nat
  core : Nat
  ticket : Nat
  tid : Nat
  acq : List Nat := []
  cover : List Nat := []
  fenced : List Nat := []
  near : List Nat := []
  words : List Nat := []
  carried : List Nat := []
  sems : List (Nat × Nat × Bool) := []
  objs : List (Nat × Bool × Bool) := []
  deriving DecidableEq, Repr

/-- A posted or off-die write that is not acknowledged (R179): its core, launch and thread, its place, and where it stands
in program order. -/
structure Unack where
  core : Nat
  lid : Nat
  tid : Nat
  place : Place
  posted : Bool
  stamp : Nat
  deriving DecidableEq, Repr

/-- The cursor: the thread that runs, the body word being executed, and the word from which the next is sought. -/
structure Cursor where
  core : Nat := 0
  slot : Nat := 0
  word : Nat := 0
  scan : Nat := 0
  deriving DecidableEq, Repr

/-- The machine. -/
structure State where
  agenda : List Choice := []
  cursor : Cursor := {}
  fresh : Nat := 0
  serial : Nat := 0
  time : Nat := 0
  mem : Memory := {}
  cores : Tab Core := []
  vaults : Tab Vault := []
  squares : Tab Square := []
  districts : Tab District := []
  dies : Tab Die := []
  ports : Tab Port := []
  svcs : Tab Svc := []
  adapter : Adapter := {}
  mgmt : Mgmt := {}
  power : Power := {}
  net : List Packet := []
  waiters : List Waiter := []
  ro : Tab RoWord := []
  gathers : List Gather := []
  readBufs : List ReadBuf := []
  async : List AsyncWrite := []
  unack : List Unack := []
  outTids : Tab Nat := []                      -- thread of a context that CTXSWAP has written, by its frame's location
  deriving DecidableEq, Repr

/-- The machine right after module reset, before the management controller releases it (R22): every field at its
reset value; registers and memory without a stated one are zero or empty (log 1, 2). (DESIGN CHOICE, unsafe: log 1) -/
def State.reset : State := {}

/-- Reasons a step stops with a fault. The machine's own faults are next states (R204), so no step stops with one. -/
inductive Fault
  /-- An access to a linear location outside every memory. Raised by no meaning: R146, R155 and R169 place every access
  in a memory first. Safe: it would be a byte the machine does not have. -/
  | noSuchByte (loc : Nat)
  deriving DecidableEq, Repr

/-- Reasons a step is refused. -/
inductive Refusal
  /-- Raised by no meaning; kept for an arm without a meaning. Safe: nothing is claimed of such an instruction. -/
  | notModelled (mnemonic : String)
  deriving DecidableEq, Repr

end Sys2Proof.Machine
end

