-- ==== Sys2Proof/Machine/Bits.lean ====
section
/-!
DEFINITION. Bit fields, sign extension, the numbering of cores (R14, R15), linear memory locations (R16, R146, R157) and
the fields of segment images (Table 8.2).
-/

namespace Sys2Proof.Machine

/-- Bits hi to lo of a number. -/
def bits (v hi lo : Nat) : Nat := v / 2 ^ lo % 2 ^ (hi + 1 - lo)

/-- Bits hi to lo of a word. -/
def wbits (w : Word) (hi lo : Nat) : Nat := bits w.toNat hi lo

/-- A word of a number, modulo 2^64. -/
def word (n : Nat) : Word := BitVec.ofNat 64 n

/-- A number with bits hi to lo replaced by v. -/
def putBits (x hi lo v : Nat) : Nat :=
  x - bits x hi lo * 2 ^ lo + v % 2 ^ (hi + 1 - lo) * 2 ^ lo

/-- A word with bits hi to lo replaced by v. -/
def wput (w : Word) (hi lo v : Nat) : Word := word (putBits w.toNat hi lo v)

/-- The signed value of the low n bits (R11). -/
def sgn (n v : Nat) : Int :=
  let u := v % 2 ^ n
  if 2 * u < 2 ^ n then (u : Int) else (u : Int) - (2 ^ n : Nat)

/-- An integer truncated to n bits. -/
def trunc (n : Nat) (v : Int) : Nat := (v % ((2 ^ n : Nat) : Int)).toNat

/-- An integer as a 64-bit word. -/
def wordOfInt (v : Int) : Word := word (trunc 64 v)

/-- ceil (a / b). -/
def ceilDiv (a b : Nat) : Nat := (a + b - 1) / b

/-- The number of ones among the low n bits. -/
def popcount : Nat → Nat → Nat
  | 0, _ => 0
  | n + 1, v => v % 2 + popcount n (v / 2)

/-- The index of the lowest one among bits i to i + n - 1. -/
def lowestSet (v : Nat) : Nat → Nat → Option Nat
  | 0, _ => none
  | n + 1, i => if v.testBit i then some i else lowestSet v n (i + 1)

/-! ## Cores (Table 1.1) -/

/-- A service core. -/
def isSvc (c : Nat) : Bool := decide (4096 ≤ c)

/-- The die of a core. -/
def dieOf (c : Nat) : Nat := if c < 4096 then c / 1024 else (c - 4096) / 4

/-- The module position of a die (R13). -/
def diePos (d : Nat) : Nat × Nat := (d % 2, d / 2)

/-- The dies that traffic from die a to die b reaches, in order (R13): the horizontal edge first, then the vertical one. -/
def dieRoute (a b : Nat) : List Nat :=
  (if (diePos a).1 = (diePos b).1 then [] else [(diePos b).1 + 2 * (diePos a).2]) ++
    (if (diePos a).2 = (diePos b).2 then [] else [b])

/-- Core x on its die. -/
def coreX (c : Nat) : Nat := c % 32

/-- Core y on its die. -/
def coreY (c : Nat) : Nat := c / 32 % 32

/-- The package number of the core at (x, y) of die d. -/
def coreAt (d x y : Nat) : Nat := d * 1024 + y * 32 + x

/-- The square, numbered over the package: die * 256 + number on the die. A service core's router belongs to the
square of its quarter nearest the die centre (R15). -/
def squareOf (c : Nat) : Nat :=
  if c < 4096 then dieOf c * 256 + coreY c / 2 * 16 + coreX c / 2
  else dieOf c * 256 + (if c % 4 / 2 = 0 then 7 else 8) * 16 + (if c % 2 = 0 then 7 else 8)

/-- The core index within its square. -/
def coreIndex (c : Nat) : Nat := coreY c % 2 * 2 + coreX c % 2

/-- The core of index i in square sq. -/
def coreOfSquare (sq i : Nat) : Nat := coreAt (sq / 256) (sq % 16 * 2 + i % 2) (sq / 16 % 16 * 2 + i / 2)

/-- The routers of a die from (x, y) to (x', y'), the first left out: along x, then along y (R19). -/
def routersTo (d x y x' y' : Nat) : List (Nat × Nat × Nat) :=
  let line := fun (a b : Nat) => if a ≤ b then (List.range (b - a)).map fun i => a + i + 1
    else (List.range (a - b)).map fun i => a - i - 1
  (line x x').map (fun i => (d, i, y)) ++ (line y y').map fun j => (d, x', j)

/-- The router of a die's edge that faces die e, for a packet at (x, y): the packet crosses in its row or column (R19). (DESIGN CHOICE, unsafe: log 85) -/
def edgeRouter (d e x y : Nat) : Nat × Nat :=
  if (diePos d).1 = (diePos e).1 then (x, if (diePos d).2 < (diePos e).2 then 15 else 0)
  else (if (diePos d).1 < (diePos e).1 then 15 else 0, y)

/-- The routers (die, x, y) that a packet from (x, y) of die d crosses through dies ds to (x', y') of the last of them. -/
def routeThrough (d x y : Nat) : List Nat → Nat → Nat → List (Nat × Nat × Nat)
  | [], x', y' => routersTo d x y x' y'
  | e :: ds, x', y' =>
    let o := edgeRouter d e x y
    let i := edgeRouter e d o.1 o.2
    routersTo d x y o.1 o.2 ++ (e, i.1, i.2) :: routeThrough e i.1 i.2 ds x' y'

/-- The path of a packet from one square's router to another's: fixed by the two (R13, R19). -/
def meshRoute (a b : Nat) : List (Nat × Nat × Nat) :=
  routeThrough (a / 256) (a % 16) (a / 16 % 16) (dieRoute (a / 256) (b / 256)) (b % 16) (b / 16 % 16)

/-- The routers on the path of a packet between two squares' routers, the first left out. -/
def squaresTo (a b : Nat) : List Nat := (meshRoute a b).map fun r => r.1 * 256 + r.2.2 * 16 + r.2.1

/-- The routers next to a square's router: on its die, and across the edges that face the neighbouring dies (R19). -/
def routerNeighbours (sq : Nat) : List Nat :=
  let d := sq / 256
  let x := (diePos d).1 * 16 + sq % 16
  let y := (diePos d).2 * 16 + sq / 16 % 16
  let at_ := fun (x y : Nat) => (x / 16 + 2 * (y / 16)) * 256 + y % 16 * 16 + x % 16
  (if 0 < x then [at_ (x - 1) y] else []) ++ (if x < 31 then [at_ (x + 1) y] else []) ++
    (if 0 < y then [at_ x (y - 1)] else []) ++ (if y < 31 then [at_ x (y + 1)] else [])

/-- The router on its die's outer edge that a port joins. (DESIGN CHOICE, unsafe: log 65) -/
def portRouter (p : Nat) : Nat :=
  let d := p / 2 % 4
  d * 256 + (if p % 2 = 0 then 4 else 11) * 16 + (if (diePos d).1 = 0 then 0 else 15)

/-- The four cores of a square. -/
def squareCores (sq : Nat) : List Nat := [coreOfSquare sq 0, coreOfSquare sq 1, coreOfSquare sq 2, coreOfSquare sq 3]

/-- The package district of a core. -/
def districtOf (c : Nat) : Nat := dieOf c * 16 + coreY c / 8 * 4 + coreX c / 8

/-- The package district of a square. -/
def districtOfSquare (sq : Nat) : Nat := sq / 256 * 16 + sq / 16 % 16 / 4 * 4 + sq % 16 / 4

/-- The package quarter of a core. -/
def quarterOf (c : Nat) : Nat := if c < 4096 then dieOf c * 4 + coreY c / 16 * 2 + coreX c / 16 else c - 4096

/-- The other core of a twin pair (R14). -/
def twinCore (c : Nat) : Nat := if c % 2 = 0 then c + 1 else c - 1

/-! ## Linear locations: vaults from 0, TCMs from 2^39, square memories from 2^40 -/

/-- A byte of the vault of core c. -/
def vaultLoc (c off : Nat) : Nat := c * 2 ^ 27 + off

/-- A byte of the TCM of core c. -/
def tcmLoc (c off : Nat) : Nat := 2 ^ 39 + c * 2 ^ 17 + off

/-- A byte of the memory of square sq. -/
def sqLoc (sq off : Nat) : Nat := 2 ^ 40 + sq * 2 ^ 20 + off

/-- The core whose vault holds a location, with the vault offset. -/
def vaultOf (loc : Nat) : Option (Nat × Nat) :=
  if loc < 2 ^ 39 then some (loc / 2 ^ 27, loc % 2 ^ 27) else none

/-- Whether a linear location is a byte of the package (R18). -/
def locExists (loc : Nat) : Bool :=
  decide (loc < 2 ^ 39) || (decide (2 ^ 39 ≤ loc) && decide (loc < 2 ^ 39 + 4112 * 2 ^ 17)) ||
    (decide (2 ^ 40 ≤ loc) && decide (loc < 2 ^ 40 + 1024 * 2 ^ 20))

/-- The bank that holds a location, as a number unique in the package (R151, R157). -/
def bankOf (loc : Nat) : Nat :=
  if loc < 2 ^ 39 then loc / 2 ^ 27 * 32 + loc % 2 ^ 27 / 2 ^ 24 * 4 + loc / 2 ^ 11 % 4
  else if loc < 2 ^ 40 then 2 ^ 20 + (loc - 2 ^ 39) / 2 ^ 17 * 16 + loc / 8 % 16
  else 2 ^ 21 + (loc - 2 ^ 40) / 2 ^ 20 * 32 + loc / 8 % 32

/-- The core that performs operations at a location: its vault's agent, the TCM's core, or core index 0 of the square. -/
def ownerOf (loc : Nat) : Nat :=
  if loc < 2 ^ 39 then loc / 2 ^ 27
  else if loc < 2 ^ 40 then (loc - 2 ^ 39) / 2 ^ 17
  else coreOfSquare ((loc - 2 ^ 40) / 2 ^ 20) 0

/-- The die of a location. -/
def dieOfLoc (loc : Nat) : Nat := dieOf (ownerOf loc)

/-- The layer of a vault location (Table 8.8). -/
def layerOf (loc : Nat) : Nat := loc % 2 ^ 27 / 2 ^ 24

/-- The row of a vault location. -/
def rowOf (loc : Nat) : Nat := loc / 2 ^ 13 % 2 ^ 11

/-- The bank number 0-31 of a vault location in its vault. -/
def vbankOf (loc : Nat) : Nat := layerOf loc * 4 + loc / 2 ^ 11 % 4

/-- The vault offset of byte b of a row of a bank (Table 8.8). -/
def rowOff (bank row b : Nat) : Nat := bank / 4 * 2 ^ 24 + row * 2 ^ 13 + bank % 4 * 2 ^ 11 + b

/-! ## Segments (Table 8.2) -/

/-- BASE. -/
def segBase (g : BitVec 128) : Nat := bits g.toNat 55 0

/-- LIMIT. -/
def segLimit (g : BitVec 128) : Nat := bits g.toNat 103 56

/-- A right: 104 R, 105 W, 106 X, 107 A, 108 M, 109 V, 110 G, 111 P. -/
def segBit (g : BitVec 128) (n : Nat) : Bool := g.toNat.testBit n

/-- The reserved field of an image is zero (R9, R147). -/
def segOk (g : BitVec 128) : Bool := bits g.toNat 127 112 == 0

/-! ## The TSW (Table 7.2) -/

/-- PRIV. -/
def tswPriv (t : Word) : Bool := t.toNat.testBit 63

/-- TWIN. -/
def tswTwin (t : Word) : Bool := t.toNat.testBit 62

/-- SHADOW. -/
def tswShadow (t : Word) : Bool := t.toNat.testBit 61

/-- DZT. -/
def tswDzt (t : Word) : Bool := t.toNat.testBit 60

/-- LID. -/
def tswLid (t : Word) : Nat := wbits t 55 40

/-- RMODE. -/
def tswRmode (t : Word) : Nat := wbits t 36 34

/-- GPH. -/
def tswGph (t : Word) : Bool := t.toNat.testBit 32

/-- A TSW without its reserved bits (R8). -/
def tswKeep (t : Word) : Word :=
  t &&& BitVec.ofNat 64 (2 ^ 64 - 1 - (15 * 2 ^ 56 + 7 * 2 ^ 37 + (2 ^ 27 - 1) * 2 ^ 5))

/-- The reserved bits of a TSW are zero and its RMODE is not a reserved value. -/
def tswOk (t : Word) : Bool := tswKeep t == t && decide (wbits t 36 34 ≤ 4)

/-- The TSW of a new thread: PRIV, TWIN, LID, all else 0 (R128). -/
def tswOf (priv twin : Bool) (lid : Nat) : Word :=
  word (priv.toNat * 2 ^ 63 + twin.toNat * 2 ^ 62 + lid % 2 ^ 16 * 2 ^ 40)

/-- The TSW a write of v leaves in place of old: PRIV, DZT, RMODE, GW, GPH and FLAGS are written, TWIN, SHADOW and LID
kept; a write with RMODE 5-7 or a reserved bit set is refused (R114, R8). -/
def tswWritten (old v : Word) : Word :=
  let keep := old.toNat &&& (2 ^ 62 + 2 ^ 61 + 0xFFFF * 2 ^ 40)
  let mask := 2 ^ 63 + 2 ^ 60 + 7 * 2 ^ 34 + 2 ^ 33 + 2 ^ 32 + 31
  word (keep + (v.toNat &&& mask))

/-- A write of v to the TSW is refused by R114. -/
def tswRefused (v : Word) : Bool :=
  decide (5 ≤ wbits v 36 34) || (tswShadow v && !tswTwin v) ||
    wbits v 59 56 != 0 || wbits v 39 37 != 0 || wbits v 31 5 != 0

end Sys2Proof.Machine
end

