-- ==== Sys2Proof/Machine/Keccak.lean ====
section
/-!
DEFINITION. SHAKE256, by which the management controller measures (R72).
-/

namespace Sys2Proof.Machine

/-- A state of the permutation: lane (x, y) at place x + 5y. -/
abbrev Lanes := List Word

/-- The place of a lane, each coordinate modulo 5. -/
def lanePos (x y : Nat) : Nat := x % 5 + 5 * (y % 5)

/-- A lane. -/
def Lanes.at (a : Lanes) (x y : Nat) : Word := a.getD (lanePos x y) 0

/-- A state from the value of each lane. -/
def Lanes.of (f : Nat → Nat → Word) : Lanes := (List.range 25).map fun i => f (i % 5) (i / 5)

/-- The parity of the column x. -/
def Lanes.parity (a : Lanes) (x : Nat) : Word := (List.range 5).foldl (fun p y => p ^^^ a.at x y) 0

/-- The walk over the 24 lanes other than (0, 0), from (1, 0): the places with the rotation that each takes, the t-th the
sum of 1 to t + 1. (PRESUMED, unsafe: log 64) -/
def laneTurns : List (Nat × Nat) :=
  ((List.range 24).foldl (fun (p : List (Nat × Nat) × Nat × Nat) t =>
    let (ps, x, y) := p
    (ps ++ [(lanePos x y, (t + 1) * (t + 2) / 2 % 64)], y, (2 * x + 3 * y) % 5)) ([], 1, 0)).1

/-- A shift of the register of 8 bits that feeds bits 0, 4, 5 and 6 back. -/
def feedback (r : Nat) : Nat := if r < 128 then 2 * r else (2 * r - 256) ^^^ 0x71

/-- The constants of the 24 rounds: each takes seven bits of the register, bit j at place 2^j - 1. (PRESUMED, unsafe: log 64) -/
def roundConsts : List Word :=
  ((List.range 24).foldl (fun (p : List Word × Nat) _ =>
    let (c, r) := (List.range 7).foldl (fun (q : Nat × Nat) j =>
      (q.1 + q.2 % 2 * 2 ^ (2 ^ j - 1), feedback q.2)) (0, p.2)
    (p.1 ++ [word c], r)) ([], 1)).1

/-- Every lane takes the parities of the columns beside it. -/
def Lanes.spread (a : Lanes) : Lanes :=
  let ps := (List.range 5).map a.parity
  Lanes.of fun x y => a.at x y ^^^ ps.getD ((x + 4) % 5) 0 ^^^ (ps.getD ((x + 1) % 5) 0).rotateLeft 1

/-- Lane (x, y), turned, goes to (y, 2x + 3y). -/
def Lanes.move (a : Lanes) (turns : List (Nat × Nat)) : Lanes :=
  Lanes.of fun x y =>
    let u := (x + 3 * y) % 5
    (a.at u x).rotateLeft (((turns.find? fun p => p.1 == lanePos u x).map (·.2)).getD 0)

/-- Every lane takes what the next two of its row give. -/
def Lanes.mix (a : Lanes) : Lanes := Lanes.of fun x y => a.at x y ^^^ (a.at (x + 2) y &&& ~~~a.at (x + 1) y)

/-- The permutation: the rounds in turn, each ending with its constant in lane (0, 0). (PRESUMED, unsafe: log 64) -/
def Lanes.permute (a : Lanes) : Lanes :=
  let turns := laneTurns
  roundConsts.foldl (fun a k =>
    let b := ((a.spread).move turns).mix
    b.set 0 (b.at 0 0 ^^^ k)) a

/-- Blocks of 136 bytes, the last padded; fuel bounds them. -/
def padBlocks : Nat → List Byte → List (List Byte)
  | 0, _ => []
  | n + 1, bs =>
    if bs.length < 136 then
      let z := bs ++ [0x1F] ++ List.replicate (135 - bs.length) 0
      [z.set 135 (z.getD 135 0 ||| 0x80)]
    else bs.take 136 :: padBlocks n (bs.drop 136)

/-- A block taken into the state. -/
def absorb (a : Lanes) (bs : List Byte) : Lanes :=
  Lanes.permute (a.zipIdx.map fun (w, i) => if i < 17 then w ^^^ word (leNat ((bs.drop (8 * i)).take 8)) else w)

/-- SHAKE256 with n bytes of output, up to 136. (PRESUMED, unsafe: log 64) -/
def shake256 (bs : List Byte) (n : Nat) : List Byte :=
  (((padBlocks (bs.length + 1) bs).foldl absorb (List.replicate 25 0)).flatMap fun w => leBytes 8 w.toNat).take n

end Sys2Proof.Machine
end

