-- ==== Sys2Proof/Machine/Seen.lean ====
section
/-!
DEFINITION. Scopes (Table 9.2), the read buffers of the ports (R192), and which writes of the asynchronous path a thread
observes: through releases and acquires (R186, R187), fences (R188, R192), semaphores, messages and barrier objects (R193).
-/

namespace Sys2Proof.Machine

/-! ## Scopes (Table 9.2) -/

/-- Whether a scope, for a thread on core c, contains a location of the package. -/
def scopeLoc (c : Nat) (x : Scope) (loc : Nat) : Bool :=
  let o := ownerOf loc
  let own := decide (loc < 2 ^ 40) && o == c
  match x with
  | .core => own
  | .square => own || (!isSvc c && !isSvc o && squareOf o == squareOf c)
  | .die => dieOf o == dieOf c
  | .pkg | .sys => true

/-- Whether a scope contains a place. -/
def scopeHas (c : Nat) (x : Scope) : Place → Bool
  | .mem loc => scopeLoc c x loc
  | .debug _ _ => x == .pkg || x == .sys
  | .peer _ _ _ => x == .sys

/-- The aligned word of a location. -/
def wordLoc (loc : Nat) : Nat := loc / 8 * 8

/-! ## Read buffers (R192) -/

/-- The read buffers that remain, with the writes that any of them has missed. -/
def State.keepBufs (s : State) (f : ReadBuf → Bool) : State :=
  let bs := s.readBufs.filter f
  { s with readBufs := bs, async := s.async.filter fun w => bs.any (·.after.contains w.n) }

/-- Writes on the ordinary and remote paths update every port: no buffer of a written word remains. -/
def State.dropReadBufs (s : State) (locs : List Nat) : State :=
  s.keepBufs fun b => !locs.any fun l => wordLoc l == b.loc

/-- Whether the port may answer thread t from a buffer: it misses no write that the thread observes. -/
def State.mayAnswer (s : State) (t : Nat) (b : ReadBuf) : Bool :=
  !s.async.any fun w => b.after.contains w.n && w.acq.contains t

/-- The read buffer from which core c's port answers thread t for a word. -/
def State.bufFor (s : State) (c t loc : Nat) : Option ReadBuf :=
  s.readBufs.find? fun b => b.core == c && b.loc == wordLoc loc && s.mayAnswer t b

/-- A byte as core c's port gives it to thread t: from a read buffer, or from its home. -/
def State.portByte (s : State) (c t loc : Nat) : Byte :=
  match s.bufFor c t loc with
  | some b => BitVec.ofNat 8 (b.v.toNat / 2 ^ (8 * (loc % 8)))
  | none => Tab.rd 0 s.mem.bytes loc

/-- Core c's port takes a word into a read buffer. -/
def State.takeBuf (s : State) (c loc v : Nat) : State :=
  { s with readBufs := s.readBufs ++ [{ core := c, loc := wordLoc loc, v := word v }] }

/-! ## Who observes a write -/

/-- Adds a number to a list once. -/
def addOnce (x : Nat) (l : List Nat) : List Nat := if l.contains x then l else l ++ [x]

/-- Thread t observes a write; cover: its releases cover it too. -/
def AsyncWrite.observe (t : Nat) (cover : Bool) (w : AsyncWrite) : AsyncWrite :=
  { w with acq := addOnce t w.acq, cover := if cover then addOnce t w.cover else w.cover }

/-- Whether a release of thread t on core c at scope x covers a write (R186 steps 1 and 2). -/
def AsyncWrite.covered (w : AsyncWrite) (c t : Nat) (x : Scope) : Bool := w.cover.contains t && scopeLoc c x w.loc

/-- Changes what is known of the writes of the asynchronous path. -/
def State.mapAsync (s : State) (f : AsyncWrite → AsyncWrite) : State := { s with async := s.async.map f }

/-- A command of core c writes a byte of a word on the asynchronous path: a port that holds the word keeps its older value. (DEDUCED, unsafe: log 75) -/
def State.asyncWrite (s : State) (c : Nat) (x : Cmd) (loc : Nat) : State :=
  if s.readBufs.any (·.loc == wordLoc loc) then
    let add := fun (b : ReadBuf) => if b.loc = wordLoc loc then { b with after := b.after ++ [s.serial] } else b
    { s with
      readBufs := s.readBufs.map add
      async := s.async ++ [{ n := s.serial, loc := wordLoc loc, core := c, ticket := x.ticket, tid := x.tid }]
      serial := s.serial + 1 }
  else s

/-- Thread t reads a word through core c's port, or at its home: what it has read it observes from then on (R179), and
what the word carries it has come near to. (DEDUCED, unsafe: log 75) -/
def State.noteRead (s : State) (port : Option Nat) (t loc : Nat) : State :=
  let old := match port.bind fun c => s.bufFor c t loc with
    | some b => b.after
    | none => []
  s.mapAsync fun w =>
    let w := if w.loc = wordLoc loc ∧ !old.contains w.n then w.observe t false else w
    if w.words.contains (wordLoc loc) then { w with near := addOnce t w.near } else w

/-- An acquire of thread t reads a word at its home (R186, R187). (DEDUCED, unsafe: log 75) -/
def State.acquireWord (s : State) (t loc : Nat) : State :=
  (s.noteRead none t loc).mapAsync fun w => if w.words.contains (wordLoc loc) then w.observe t true else w

/-- A release of thread t on core c at scope x writes a word; derived: an atomic, whose value goes on from the one before. (DEDUCED, unsafe: log 75) -/
def State.releaseWord (s : State) (c t : Nat) (x : Scope) (derived : Bool) (loc : Nat) : State :=
  s.mapAsync fun w =>
    { w with words := if w.covered c t x then addOnce (wordLoc loc) w.words
                      else if derived then w.words else w.words.filter (· != wordLoc loc) }

/-- A store of thread t that is no release writes words: they carry what it has fenced (R187, R188). (DEDUCED, unsafe: log 75) -/
def State.storeWords (s : State) (t : Nat) (locs : List Nat) : State :=
  s.mapAsync fun w =>
    { w with words := locs.foldl (fun l a => if w.fenced.contains t then addOnce (wordLoc a) l
                                             else l.filter (· != wordLoc a)) w.words }

/-- FENCE of thread t on core c at scope x: an acquire of what it has read, and a release (R187, R188). (DEDUCED, unsafe: log 75) -/
def State.fenceAt (s : State) (c t : Nat) (x : Scope) : State :=
  s.mapAsync fun w =>
    let w := if w.near.contains t then w.observe t true else w
    if w.covered c t x then { w with fenced := addOnce t w.fenced } else w

/-- FENCE.XP of thread t: it observes every write performed before, and its releases cover those of its commands (R192). -/
def State.fenceXp (s : State) (t : Nat) : State := s.mapAsync fun w => w.observe t (w.tid == t)

/-- A thread of which nothing is known observes every write. (DEDUCED, unsafe: log 75) -/
def State.observeAll (s : State) (t : Nat) : State := s.mapAsync (AsyncWrite.observe t false)

/-- A release of thread t on core c leaves with a message or a remote operation of identity id. -/
def State.carry (s : State) (c t : Nat) (x : Scope) (id : Nat) : State :=
  s.mapAsync fun w => if w.covered c t x then { w with carried := addOnce id w.carried } else w

/-- A release that left with a remote operation writes its word. -/
def State.carriedTo (s : State) (id loc : Nat) : State :=
  s.mapAsync fun w =>
    { w with words := if w.carried.contains id then addOnce (wordLoc loc) w.words
                      else w.words.filter (· != wordLoc loc) }

/-- A handler thread starts from a message (R187, R198). -/
def State.acquireMsg (s : State) (t id : Nat) : State :=
  s.mapAsync fun w => if w.carried.contains id then w.observe t true else w

/-- SEMSIG of thread t, a release at scope DIE (R187). -/
def State.releaseSem (s : State) (c t sem : Nat) : State :=
  s.mapAsync fun w => if w.covered c t .die then { w with sems := w.sems ++ [(c, sem, true)] } else w

/-- The completion signal of a command of core c (R192). -/
def State.signalSem (s : State) (c ticket sem : Nat) : State :=
  s.mapAsync fun w => if w.core = c ∧ w.ticket = ticket then { w with sems := w.sems ++ [(c, sem, false)] } else w

/-- SEMWAIT of thread t returns (R187, R192). -/
def State.acquireSem (s : State) (c t sem : Nat) : State :=
  s.mapAsync fun w =>
    if w.sems.any fun x => x.1 == c && x.2.1 == sem then
      w.observe t (w.sems.any fun x => x.1 == c && x.2.1 == sem && x.2.2)
    else w

/-- ARRIVE of thread t on core c at scope x is counted in the object at loc (R187, R193). -/
def State.releaseObj (s : State) (c t : Nat) (x : Scope) (loc : Nat) : State :=
  s.mapAsync fun w => if w.covered c t x then { w with objs := w.objs ++ [(loc, true, false)] } else w

/-- Bytes of a command of core c are counted in the object at loc (R193). -/
def State.countObj (s : State) (c ticket loc : Nat) : State :=
  s.mapAsync fun w =>
    if w.core = c ∧ w.ticket = ticket ∧ !w.objs.contains (loc, false, false) then
      { w with objs := w.objs ++ [(loc, false, false)] }
    else w

/-- The phase of the object at loc flips: what it has counted can be acquired. -/
def State.flipObj (s : State) (loc : Nat) : State :=
  s.mapAsync fun w => { w with objs := w.objs.map fun x => if x.1 = loc then (x.1, x.2.1, true) else x }

/-- The object at loc is initialised. -/
def State.newObj (s : State) (loc : Nat) : State :=
  s.mapAsync fun w => { w with objs := w.objs.filter (·.1 != loc) }

/-- BWAIT or BTEST of thread t observes a flip of the object at loc (R193). -/
def State.acquireObj (s : State) (t loc : Nat) : State :=
  s.mapAsync fun w =>
    if w.objs.any fun x => x.1 == loc && x.2.2 then
      w.observe t (w.objs.any fun x => x.1 == loc && x.2.1 && x.2.2)
    else w

/-- A command of core c retires: the core's threads see what it has written (R173, R192). -/
def State.retireBufs (s : State) (c ticket : Nat) : State :=
  s.keepBufs fun b => !(b.core == c && s.async.any fun w => b.after.contains w.n && w.core == c && w.ticket == ticket)

end Sys2Proof.Machine
end

