-- ==== Sys2Proof/Machine/Ops.lean ====
section
/-!
DEFINITION. The named operations over the state: memory words with their full/empty and poison bits, cores, slots and
frames; waiters and wakes (R121, R122, R153); fault records and the taking of a fault (R203-R206, R213, R217); the
handing of slots to waiting work (R125); barrier objects (R138, R139) and ordered additions (R328).
-/

namespace Sys2Proof.Machine

/-- The outcome of a meaning. -/
abbrev Res := Host.Outcome State Fault Refusal

/-! ## Memory -/

/-- The byte at a location; an unlisted byte is zero (log 2). (DESIGN CHOICE, unsafe: log 2) -/
def Memory.byte (m : Memory) (loc : Nat) : Byte := Tab.rd 0 m.bytes loc

/-- Writes a byte, keeping the canonical form. (DESIGN CHOICE, unsafe: log 2) -/
def Memory.setByte (m : Memory) (loc : Nat) (b : Byte) : Memory := { m with bytes := Tab.set 0 m.bytes loc b }

/-- n bytes from loc as a number, little-endian (R4). -/
def Memory.read (m : Memory) : Nat → Nat → Nat
  | _, 0 => 0
  | loc, n + 1 => (m.byte loc).toNat + 256 * m.read (loc + 1) n

/-- Writes the low n bytes of v at loc, little-endian (R4). -/
def Memory.write (m : Memory) : Nat → Nat → Nat → Memory
  | _, 0, _ => m
  | loc, n + 1, v => (m.setByte loc (BitVec.ofNat 8 v)).write (loc + 1) n (v / 256)

/-- The full/empty bit of the word that holds a location (R17). -/
def Memory.isFull (m : Memory) (loc : Nat) : Bool := Tab.rd false m.full (loc / 8)

/-- Sets the full/empty bit of the word that holds a location. -/
def Memory.setFull (m : Memory) (loc : Nat) (b : Bool) : Memory := { m with full := Tab.set false m.full (loc / 8) b }

/-- The poison bit of the word that holds a location (R17). -/
def Memory.isPois (m : Memory) (loc : Nat) : Bool := Tab.rd false m.pois (loc / 8)

/-- Sets the poison bit of the word that holds a location. -/
def Memory.setPois (m : Memory) (loc : Nat) (b : Bool) : Memory := { m with pois := Tab.set false m.pois (loc / 8) b }

/-- The canonical form of memory: addresses strictly rising, no entry equal to what an unlisted one reads as. (DESIGN CHOICE, unsafe: log 2) -/
def Memory.wf (m : Memory) : Bool := Tab.canon 0 m.bytes && Tab.canon false m.full && Tab.canon false m.pois

/-- A byte of memory. -/
def State.byte (s : State) (loc : Nat) : Byte := s.mem.byte loc

/-- n bytes of memory as a number. -/
def State.rdMem (s : State) (loc n : Nat) : Nat := s.mem.read loc n

/-- A 64-bit word of memory. -/
def State.rdWord (s : State) (loc : Nat) : Word := word (s.mem.read loc 8)

/-- Writes n bytes of memory. -/
def State.wrMem (s : State) (loc n v : Nat) : State := { s with mem := s.mem.write loc n v }

/-- A write of a whole aligned word replaces it and clears its poison (R152). -/
def State.wrWord (s : State) (loc : Nat) (v : Word) : State :=
  { s with mem := (s.mem.write loc 8 v.toNat).setPois loc false }

/-- Sets the full/empty bit of a word. -/
def State.setFull (s : State) (loc : Nat) (b : Bool) : State := { s with mem := s.mem.setFull loc b }

/-- Sets the poison bit of a word. -/
def State.setPois (s : State) (loc : Nat) (b : Bool) : State := { s with mem := s.mem.setPois loc b }

/-- Whether any of n bytes from loc lies in a poisoned word. -/
def State.anyPois (s : State) (loc n : Nat) : Bool :=
  (List.range ((loc % 8 + n + 7) / 8)).any fun i => s.mem.isPois (wordLoc loc + 8 * i)

/-! ## Cores, slots and frames -/

/-- Core c. -/
def State.core (s : State) (c : Nat) : Core := Tab.rd {} s.cores c

/-- Changes core c. -/
def State.updCore (s : State) (c : Nat) (f : Core → Core) : State := { s with cores := Tab.upd {} s.cores c f }

/-- Slot k of core c. -/
def State.slot (s : State) (c k : Nat) : Slot := Tab.rd {} (s.core c).slots k

/-- Changes slot k of core c. -/
def State.updSlot (s : State) (c k : Nat) (f : Slot → Slot) : State :=
  s.updCore c fun x => { x with slots := Tab.upd {} x.slots k f }

/-- Changes the current frame of a slot. -/
def State.updFrame (s : State) (c k : Nat) (f : Frame → Frame) : State :=
  s.updSlot c k fun x => { x with frame := f x.frame }

/-- Vault controller c. -/
def State.vault (s : State) (c : Nat) : Vault := Tab.rd {} s.vaults c

/-- Changes vault controller c. -/
def State.updVault (s : State) (c : Nat) (f : Vault → Vault) : State := { s with vaults := Tab.upd {} s.vaults c f }

/-- Square sq. -/
def State.square (s : State) (sq : Nat) : Square := Tab.rd {} s.squares sq

/-- Changes square sq. -/
def State.updSquare (s : State) (sq : Nat) (f : Square → Square) : State :=
  { s with squares := Tab.upd {} s.squares sq f }

/-- District d of the package. -/
def State.district (s : State) (d : Nat) : District := Tab.rd {} s.districts d

/-- Die d. -/
def State.die (s : State) (d : Nat) : Die := Tab.rd {} s.dies d

/-- Changes die d. -/
def State.updDie (s : State) (d : Nat) (f : Die → Die) : State := { s with dies := Tab.upd {} s.dies d f }

/-- Port p. -/
def State.port (s : State) (p : Nat) : Port := Tab.rd {} s.ports p

/-- Changes port p. -/
def State.updPort (s : State) (p : Nat) (f : Port → Port) : State := { s with ports := Tab.upd {} s.ports p f }

/-- General register Gk of a context. -/
def Ctx.reg (x : Ctx) (k : Nat) : Word := Tab.rd 0 x.g k

/-- Writes Gk. -/
def Ctx.setReg (x : Ctx) (k : Nat) (v : Word) : Ctx := { x with g := x.g.put k v }

/-- Segment register Sk of a context. -/
def Ctx.segReg (x : Ctx) (k : Nat) : BitVec 128 := Tab.rd 0 x.seg k

/-- Writes Sk. -/
def Ctx.setSeg (x : Ctx) (k : Nat) (v : BitVec 128) : Ctx := { x with seg := x.seg.put k v }

/-- WAIT.KIND (Table 7.3). -/
def waitKind (w : Word) : Nat := wbits w 63 60

/-- WAIT of a kind and address. -/
def waitOf (kind addr : Nat) : Word := word (kind * 2 ^ 60 + addr % 2 ^ 56)

/-- HT, bit 59 of WAIT (R111). -/
def waitHt (w : Word) : Bool := w.toNat.testBit 59

/-- Counts one use of the package's serial numbers. (DESIGN CHOICE, unsafe: log 59) -/
def State.nextSerial (s : State) : State := { s with serial := s.serial + 1 }

/-- Sends a packet on the mesh. -/
def State.send (s : State) (p : Packet) : State := { s with net := s.net ++ [p] }

/-- The package id (R71). -/
def State.pkg (s : State) : Nat := s.mgmt.config.pkgId

/-! ## Launches by id (R75) -/

/-- The home die of a launch id. -/
def lidDie (lid : Nat) : Nat := bits lid 15 14

/-- The entry number of a launch id. -/
def lidEntry (lid : Nat) : Nat := bits lid 13 5

/-- The generation of a launch id. -/
def lidGen (lid : Nat) : Nat := bits lid 4 0

/-- The launch id of entry e of die d in generation g. -/
def lidOf (d e g : Nat) : Nat := d * 2 ^ 14 + e * 2 ^ 5 + g

/-- Launch entry e of die d. -/
def State.entryAt (s : State) (d e : Nat) : Entry := Tab.rd {} (s.die d).table e

/-- Changes launch entry e of die d. -/
def State.updEntry (s : State) (d e : Nat) (f : Entry → Entry) : State :=
  s.updDie d fun x => { x with table := Tab.upd {} x.table e f }

/-- The launch entry of an id. -/
def State.entry (s : State) (lid : Nat) : Entry := s.entryAt (lidDie lid) (lidEntry lid)

/-- Changes the launch entry of an id. -/
def State.updLaunch (s : State) (lid : Nat) (f : Entry → Entry) : State := s.updEntry (lidDie lid) (lidEntry lid) f

/-- A launch id that names a live entry of its generation. -/
def State.lidLive (s : State) (lid : Nat) : Bool :=
  (s.entry lid).st != .ended && (s.entry lid).st != .guest && (s.entry lid).gen == lidGen lid

/-! ## Layers (R162, Table 8.11) -/

/-- A core whose square the power-up sequence has not enabled yet: its vault layers have no power (R23). -/
def State.unpowered (s : State) (c : Nat) : Bool :=
  match s.mgmt.phase with
  | .powering _ => !(s.square (squareOf c)).on
  | _ => false

/-- A vault location on a powered-off layer; one that is powering off still completes the accesses in flight (R162). -/
def State.layerOff (s : State) (loc : Nat) : Bool :=
  match vaultOf loc with
  | some (c, _) =>
    (!(s.vault c).on.toNat.testBit (layerOf loc) && !(s.vault c).busy.toNat.testBit (layerOf loc)) || s.unpowered c
  | none => false

/-- A vault location on a layer that is powering on: accesses wait. -/
def State.layerBusy (s : State) (loc : Nat) : Bool :=
  match vaultOf loc with
  | some (c, _) => (s.vault c).on.toNat.testBit (layerOf loc) && (s.vault c).busy.toNat.testBit (layerOf loc)
  | none => false

/-- An access to a vault location opens its row and restarts the row's count (R158). -/
def State.touchRow (s : State) (loc : Nat) : State :=
  match vaultOf loc with
  | some (c, _) => s.updVault c fun v => { v with openRows := v.openRows.put (vbankOf loc) (rowOf loc, s.time) }
  | none => s

/-! ## Waiters (R153) and wakes (R122) -/

/-- The waiter entry of a thread that waits at loc (for kind 5, the semaphore number). -/
def mkWaiter (s : State) (c k loc kind : Nat) : Waiter :=
  { loc := loc, kind := kind, core := c, slot := k, lid := tswLid (s.slot c k).ctx.tsw }

/-- The core whose vault holds a bank's overflow area (R153 item 2); a service core's TCM has none. (DESIGN CHOICE, unsafe: log 54) -/
def overflowCore (loc : Nat) : Option Nat :=
  let c := ownerOf loc
  if isSvc c then none else some c

/-- Registers a waiter at its bank, in the overflow area, or for an unregistered wake 1 us later (R153). (DESIGN CHOICE, unsafe: log 54) -/
def State.register (s : State) (w : Waiter) : State :=
  let here := s.waiters.filter fun x => bankOf x.loc == bankOf w.loc && !x.overflow
  if here.length < Config.waiterEntries then { s with waiters := s.waiters ++ [w] }
  else
    let late := s.updCore w.core fun x => { x with retry := x.retry ++ [(s.time + 1000, w)] }
    match overflowCore w.loc with
    | none => late
    | some c =>
      let spilled := s.waiters.filter fun x => x.overflow && overflowCore x.loc == some c
      if (s.vault c).wovf.toNat.testBit 0 && decide (spilled.length < Config.overflowEntries) then
        { s with waiters := s.waiters ++ [{ w with overflow := true }] }
      else late

/-- Registers a SEMWAIT at the semaphore unit of its core (R370). -/
def State.registerSem (s : State) (w : Waiter) : State :=
  s.updCore w.core fun x =>
    if (x.semWaiters.filter (·.kind == 5)).length < Config.waiterEntries then { x with semWaiters := x.semWaiters ++ [w] }
    else { x with retry := x.retry ++ [(s.time + 1000, w)] }

/-- Sends wakes, in order. -/
def State.sendWakes (s : State) (ws : List Waiter) : State := { s with net := s.net ++ ws.map Packet.wake }

/-- Wakes every waiter of the word at loc whose kind is listed, in order of registration (R153 item 4). -/
def State.wakeWord (s : State) (loc : Nat) (kinds : List Nat) : State :=
  let hit := fun (w : Waiter) => wordLoc w.loc == wordLoc loc && kinds.contains w.kind
  { s with waiters := s.waiters.filter (fun w => !hit w) }.sendWakes (s.waiters.filter hit)

/-- Wakes the WAITA waiters of a 64-byte line (Table 14.2). -/
def State.wakeLine (s : State) (loc : Nat) : State :=
  let hit := fun (w : Waiter) => w.loc / 64 == loc / 64 && w.kind == 3
  { s with waiters := s.waiters.filter (fun w => !hit w) }.sendWakes (s.waiters.filter hit)

/-- Wakes the BWAIT waiters of an object (Table 14.2). -/
def State.wakeObject (s : State) (loc : Nat) : State :=
  let hit := fun (w : Waiter) => w.loc == loc && w.kind == 4
  { s with waiters := s.waiters.filter (fun w => !hit w) }.sendWakes (s.waiters.filter hit)

/-- Removes the waiter entries of a thread in a slot. -/
def State.dropWaiters (s : State) (c k : Nat) : State :=
  let mine := fun (w : Waiter) => w.core == c && w.slot == k && w.entry == none
  let s := { s with waiters := s.waiters.filter (fun w => !mine w) }
  s.updCore c fun x =>
    { x with semWaiters := x.semWaiters.filter (fun w => !mine w)
             retry := x.retry.filter (fun r => !mine r.2) }

/-- Makes the waiter entries and the wakes on their way of a slot's thread name its reserve entry (R122). -/
def State.moveWaiters (s : State) (c k : Nat) (e : Option Nat) : State :=
  let mv : Waiter → Waiter := fun w =>
    if w.core == c && w.slot == k && w.entry == none then { w with entry := e } else w
  let mp : Packet → Packet := fun p => match p with
    | Packet.wake w => Packet.wake (mv w)
    | p => p
  let s := { s with waiters := s.waiters.map mv, net := s.net.map mp }
  s.updCore c fun x =>
    { x with semWaiters := x.semWaiters.map mv, retry := x.retry.map fun (r : Nat × Waiter) => (r.1, mv r.2) }

/-- A full/empty word becomes full: the waiters of kinds 1 and 3 wake (Table 14.2). -/
def State.wakeFull (s : State) (loc : Nat) : State := s.wakeWord loc [1, 3]

/-- Writes a word and sets it full: STF, STEF, RSTF, a status word, FRTAIL (Table 14.2). -/
def State.storeFull (s : State) (loc : Nat) (v : Word) : State := ((s.wrWord loc v).setFull loc true).wakeFull loc

/-! ## The link side of a package (R40) -/

/-- Roles of a port in the configuration store (R29): 0 host, 1 peer, 2 off. -/
def State.role (s : State) (p : Nat) : Nat := s.mgmt.config.roles.getD p 2

/-- The port of a package id: its route, to a peer-role port, or for 255 the lowest host-role port that is up (R40). -/
def State.route (s : State) (pkg : Nat) : Option Nat :=
  if pkg = 255 then [0, 1, 2, 3, 4, 5, 6, 7].find? fun p => s.role p == 0 && (s.port p).up
  else (s.mgmt.config.routes.find? fun r => r.1 == pkg && s.role r.2 == 1).map (·.2)

/-- The class of a transaction's flits (Table 2.3): 0 REQ, 1 RSP, 2 MSG. -/
def txnClass (op : Nat) : Nat := if op = 0x40 then 2 else if 0x80 ≤ op then 1 else 0

/-- A transaction that expects a response from the service core. -/
def txnReads (x : Txn) : Bool := x.op != 3 && x.op != 4

/-- The data bytes that a transaction carries: none in an RD or an ACK, whose LEN field counts something else (R31,
Table 2.3). -/
def txnData (x : Txn) : Nat := if x.op = 0x01 ∨ x.op = 0x81 then 0 else x.len

/-- The flits of a transaction (R31). (DESIGN CHOICE, unsafe: log 61) -/
def txnFlits (x : Txn) : Nat := ceilDiv (16 + txnData x) 64

/-- The transaction header (Table 2.2). The reserved bits [91:76] and [63:56] are the two parts of rsvd. -/
def txnHdr (x : Txn) : Nat :=
  x.op % 2 ^ 8 * 2 ^ 120 + x.len % 2 ^ 9 * 2 ^ 111 + x.status % 2 ^ 3 * 2 ^ 108 + x.tag % 2 ^ 12 * 2 ^ 96 +
    x.qtr % 2 ^ 4 * 2 ^ 92 + x.rsvd % 2 ^ 16 * 2 ^ 76 + x.rhnd % 2 ^ 12 * 2 ^ 64 + x.rsvd / 2 ^ 16 % 2 ^ 8 * 2 ^ 56 +
    x.addr % 2 ^ 56

/-- A transaction's bytes: header and data (R31). -/
def txnBytes (x : Txn) : List Byte := leBytes 16 (txnHdr x) ++ x.data

/-! ## Flits (R30) -/

/-- One step of the CRC-16 of R30 on n bits of v, the highest first. -/
def crc16Bits : Nat → Nat → Nat → Nat
  | 0, _, c => c
  | n + 1, v, c =>
    let d := (c * 2) % 2 ^ 16
    crc16Bits n v (if (c / 2 ^ 15 + v / 2 ^ n) % 2 = 1 then d ^^^ 0x1021 else d)

/-- LCRC (Table 2.1): CRC-16 over header bits [47:0], the highest first, then the payload bytes in order. (DESIGN CHOICE, unsafe: log 61) -/
def lcrc (hdr : Nat) (pay : List Byte) : Nat :=
  pay.foldl (fun c b => crc16Bits 8 b.toNat c) (crc16Bits 48 (hdr % 2 ^ 48) 0xFFFF)

/-- A flit of Table 2.1. -/
def mkFlit (seq cls pos dpkg spkg : Nat) (pay : List Byte) : Flit :=
  let h := seq % 2 ^ 12 * 2 ^ 36 + cls % 4 * 2 ^ 34 + pos % 4 * 2 ^ 32 + dpkg % 2 ^ 8 * 2 ^ 24 + spkg % 2 ^ 8 * 2 ^ 16
  ⟨BitVec.ofNat 64 (lcrc h pay * 2 ^ 48 + h), pay⟩

/-- SEQ of a flit header. -/
def flitSeq (h : BitVec 64) : Nat := wbits h 47 36

/-- CLASS of a flit header. -/
def flitClass (h : BitVec 64) : Nat := wbits h 35 34

/-- Whether the LCRC of a flit checks. -/
def lcrcOk (h : BitVec 64) (pay : List Byte) : Bool := wbits h 63 48 == lcrc h.toNat pay

/-- POS of flit i of n. -/
def flitPos (i n : Nat) : Nat := if n = 1 then 0 else if i = 0 then 1 else if i + 1 = n then 3 else 2

/-- The package at the other end of a port: the adapter, or the lowest package id routed to the port. (DESIGN CHOICE, unsafe: log 61) -/
def State.farPkg (s : State) (p : Nat) : Nat :=
  if s.role p = 0 then 255 else ((s.mgmt.config.routes.find? fun r => r.2 == p).map (·.1)).getD 0

/-- The flits of a transaction from a sequence number on, the last one filled with zeros (R31). (DESIGN CHOICE, unsafe: log 61) -/
def flitsOf (seq cls dpkg spkg : Nat) (x : Txn) : List HeldFlit :=
  let n := txnFlits x
  let bs := txnBytes x ++ List.replicate 64 0
  (List.range n).map fun i =>
    let q := (seq + i) % 4096
    { seq := q, flit := mkFlit q cls (flitPos i n) dpkg spkg ((bs.drop (64 * i)).take 64) }

/-- The side of a port that sends a class. -/
def Port.txSide (t : Port) (k : Nat) : TxSide := Tab.rd {} t.tx k

/-- Puts a transaction's flits on the link, into the replay buffer of its class (R34). A MSG is kept until it is
acknowledged, by the core and launch of its sender (R142). -/
def Port.emit (t : Port) (now dpkg spkg : Nat) (x : Txn) : Port :=
  let k := txnClass x.op
  let a := t.txSide k
  let fs := flitsOf a.seq k dpkg spkg x
  let origin := leNat ((x.data.drop 8).take 8)
  { t with
    tx := t.tx.put k { a with
      seq := (a.seq + txnFlits x) % 4096, buf := a.buf ++ fs
      lastAck := if a.buf.isEmpty then now else a.lastAck }
    outq := t.outq ++ [x]
    wire := t.wire ++ fs.map (·.flit)
    msgsOut := if k = 2 then t.msgsOut ++ [((fs.map (·.seq)).getLastD 0, bits origin 12 0, bits origin 47 32)]
      else t.msgsOut }

/-- Whether the replay buffer of a class has room for a transaction, and none of the class waits for it. -/
def Port.hasRoom (t : Port) (x : Txn) : Bool :=
  decide ((t.txSide (txnClass x.op)).buf.length + txnFlits x ≤ 512) &&
    !t.held.any fun y => txnClass y.op == txnClass x.op

/-- Sends a transaction on a port's link. (DEDUCED, unsafe: log 19) (DESIGN CHOICE, unsafe: log 61) -/
def State.linkSend (s : State) (p : Nat) (x : Txn) : State :=
  s.updPort p fun t =>
    if !t.up then t else if t.hasRoom x then t.emit s.time (s.farPkg p) s.pkg x else { t with held := t.held ++ [x] }

/-- A transaction that releases a peer's reservation (UNRSV, R43). -/
def unrsvTxn (h : Nat) : Txn :=
  { op := 0x22, len := 8, data := leBytes 8 (h % 2 ^ 12) }

/-! ## Parking and abandoning (R118, R121) -/

/-- A replay that is enforced. -/
def Entry.enforcing (e : Entry) : Bool := e.lrec.replay && !e.freeRun

/-- An operation of a launch whose replay takes its response from the mould (R231) is not sent. -/
def State.peerHeld (s : State) (lid : Nat) : Bool := lid != 0 && (s.entry lid).enforcing

/-- Releases one reservation of a message from core c: at a core of the package, or at a peer's port (R130, R43), which a
replay has not asked (R231). -/
def State.unreserve (s : State) (c : Nat) (m : Msg) (h : Nat) : State :=
  if m.dpkg == s.pkg then s.send (.resvRel c m.dcore h)
  else if s.peerHeld m.lid then s
  else match s.route m.dpkg with
    | some p => s.linkSend p (unrsvTxn h)
    | none => s

/-- Releases the reservations an abandoned block holds (R118, R130): messages that were accepted and not sent. -/
def State.releaseResv (s : State) (c k : Nat) : State :=
  (s.slot c k).frame.pend.foldl (fun s e => match e.2 with
    | Pend.message m (some h) _ => s.unreserve c m h
    | _ => s) s

/-- The slot of the other core of a pair that holds the copy of the thread in slot k of core c. -/
def State.twinSlot (s : State) (c k : Nat) : Option Nat :=
  let x := s.slot c k
  [0, 1, 2, 3].find? fun j =>
    let y := s.slot (twinCore c) j
    y.twin.isSome && x.twin.isSome && y.pair == x.pair && y.slice == x.slice && tswLid y.ctx.tsw == tswLid x.ctx.tsw &&
      tswShadow y.ctx.tsw != tswShadow x.ctx.tsw && y.st != .free

/-- Discards both frames of a slot. -/
def Slot.noFrames (x : Slot) : Slot := { x with frame := {}, next := {}, fseq := x.fseq + 1 }

/-- Abandons the block of a slot: nothing is released, both frames are discarded, the PC stays (R118). The shadow of a
twin's primary abandons its copy with it (R225). -/
def State.abandon (s : State) (c k : Nat) : State :=
  let other := if tswShadow (s.slot c k).ctx.tsw then none else s.twinSlot c k
  let s := (s.releaseResv c k).updSlot c k Slot.noFrames
  match other with
  | some j => s.updSlot (twinCore c) j fun y =>
      { y.noFrames with twin := y.twin.map fun t => { t with fwd := t.fwd.filter fun e => decide (e.1 < t.seq * 128) } }
  | none => s

/-- Changes the slot of a thread and, for a twin, that of its other copy: the two move together (R144). -/
def State.both (s : State) (c k : Nat) (f : Slot → Slot) : State :=
  let other := s.twinSlot c k
  let s := s.updSlot c k f
  match other with
  | some j => s.updSlot (twinCore c) j f
  | none => s

/-- A new WAIT, under HT where the old one is (R111). -/
def keepHt (old new : Word) : Word := new ||| (old &&& word (2 ^ 59))

/-- Parks a thread: its block is abandoned, WAIT names the wait (R121). -/
def State.park (s : State) (c k kind addr : Nat) : State :=
  ((s.abandon c k).both c k fun x =>
    { x with st := .park, ctx := { x.ctx with wait := waitOf kind addr }, parkSeq := s.serial
             parkedAt := s.time }).nextSerial

/-! ## Fault records (R203) -/

/-- A fault record of the layout of Table 10.1. -/
def mkRecord (detail addr pc cause lid src eng : Nat) (iv : Bool) (index lsid slot core time : Nat) : BitVec 256 :=
  BitVec.ofNat 256 (detail % 2 ^ 8 * 2 ^ 248 + addr % 2 ^ 56 * 2 ^ 192 + pc % 2 ^ 56 * 2 ^ 128 + cause % 2 ^ 8 * 2 ^ 120 +
    lid % 2 ^ 16 * 2 ^ 104 + src % 2 ^ 3 * 2 ^ 101 + eng % 2 ^ 3 * 2 ^ 98 + iv.toNat * 2 ^ 97 + index % 2 ^ 7 * 2 ^ 90 +
    lsid % 2 ^ 5 * 2 ^ 85 + slot % 4 * 2 ^ 83 + core % 2 ^ 13 * 2 ^ 64 + time % 2 ^ 64)

/-- CAUSE of a record. -/
def recCause (r : BitVec 256) : Nat := bits r.toNat 127 120

/-- LID of a record. -/
def recLid (r : BitVec 256) : Nat := bits r.toNat 119 104

/-- Whether a cause carries its fault address: classes 2-6 and 0xD2 (Table 10.1). -/
def causeHasAddr (cause : Nat) : Bool := (decide (0x20 ≤ cause) && decide (cause ≤ 0x6F)) || cause == 0xD2

/-- The record of a fault of slot k of core c. -/
def threadRecord (s : State) (c k src pc : Nat) (f : FaultD) : BitVec 256 :=
  mkRecord 0 (if causeHasAddr f.cause then f.addr else 0) pc f.cause (tswLid (s.slot c k).ctx.tsw) src 0 f.iv
    (if f.iv then f.index else 0) (if f.iv then f.lsid else 0) k c s.time

/-- Sends a record to the ring of the quarter of core c (R206). -/
def State.sendRecord (s : State) (c : Nat) (r : BitVec 256) : State := s.send (.fault (quarterOf c) r)

/-- A record for a thread that continues (SRC 2, R204): FREC is written and the record sent. -/
def State.recordFor (s : State) (c k pc lid : Nat) (f : FaultD) : State :=
  let r := mkRecord 0 (if causeHasAddr f.cause then f.addr else 0) pc f.cause lid 2 0 f.iv f.index f.lsid k c s.time
  (s.updSlot c k fun x => { x with frec := r }).sendRecord c r

/-! ## Taking a fault (R205, R206, R217) -/

/-- Whether a cause parks its thread instead of freezing it (R170). -/
def parksThread (cause : Nat) : Bool := decide (0x30 ≤ cause) && decide (cause ≤ 0x3F)

/-- The scrub of a register bank (R217): registers that cannot be corrected are written zero and marked in PMASK. (DEDUCED, unsafe: log 55) -/
def scrubRegs (x : Slot) : Slot :=
  { x with
    ctx := (List.range 16).foldl (fun y k => if x.badRegs.toNat.testBit k then y.setReg k 0 else y) x.ctx
    pmask := x.pmask ||| x.badRegs
    badRegs := 0 }

/-- Takes a fault of the thread in slot k of core c, PC pc: the block is abandoned, the thread frozen (KIND 9), or parked
for a translation fault (KIND 6), FREC and the record written. Poison at a commit output scrubs the registers. -/
def State.takeFault (s : State) (c k pc : Nat) (f : FaultD) : State :=
  let scrub := decide (0x60 ≤ f.cause) && decide (f.cause ≤ 0x63)
  let f := if scrub && (s.slot c k).badRegs != 0 then { f with cause := 0x65 } else f
  let src := if parksThread f.cause then 1 else 0
  let r := threadRecord s c k src pc f
  let s := s.abandon c k
  let s := s.updSlot c k fun x =>
    let x := if scrub then scrubRegs x else x
    { x with
      stop := if parksThread f.cause || x.stop == 2 then x.stop else 0
      htStop := parksThread f.cause && x.htStop
      st := if parksThread f.cause then .park else .frozen
      ctx := { x.ctx with pc := word pc, wait := if parksThread f.cause then waitOf 6 f.addr else waitOf 9 0 }
      frec := r
      frozenBy := f.cause
      parkSeq := s.serial
      parkedAt := s.time
      stepping := false }
  s.nextSerial.sendRecord c r

/-- A thread leaves for another core: its block is abandoned and its slot enters OUT (R135). -/
def State.leaveFor (s : State) (c k owner maddr : Nat) : State :=
  (s.abandon c k).updSlot c k fun x =>
    { x with st := .out, outTo := some owner, maddr := maddr, migr := x.migr + 1 }

/-- The fault that a block raises in place of an access that would migrate (R137, R312). -/
def noMigration (x : Slot) (c : Nat) (f : FaultD) : FaultD :=
  if x.twin.isSome then { f with cause := 0x42, migrate := none }
  else if isSvc c then { f with cause := 0x46, migrate := none }
  else if 16 ≤ x.migr then { f with cause := 0x44, migrate := none }
  else f

/-- A fault of the block in a slot is raised: an access that a segment lets migrate migrates instead (R312); a copy of a
twin pair waits for the comparison of the pair (R227); any other thread takes the fault. -/
def State.raise (s : State) (c k : Nat) (f : FaultD) : State :=
  let x := s.slot c k
  let f := if f.migrate.isSome then noMigration x c f else f
  match x.twin with
  | some _ => s.updSlot c k fun x => { x with twin := x.twin.map fun t =>
      { t with faultRec := some (t.faultRec.getD f), forced := true } }
  | none =>
    match f.migrate with
    | some owner => s.leaveFor c k owner f.maddr
    | none => s.takeFault c k x.ctx.pc.toNat f

/-- A fault of an operation that only the primary of a pair performs is the fault of both copies (R225, R227). -/
def State.raiseOut (s : State) (c k : Nat) (f : FaultD) : State :=
  match if (s.slot c k).twin.isSome then s.twinSlot c k else none with
  | some j => (s.raise c k f).raise (twinCore c) j f
  | none => s.raise c k f

/-- A thread becomes runnable again: WAIT clears and the block at PC is fetched (R122, R213). Under HT a thread is parked
until R111 releases it. -/
def State.makeRunnable (s : State) (c k : Nat) : State :=
  s.both c k fun x =>
    if waitHt x.ctx.wait then { x with st := .park, ctx := { x.ctx with wait := word (2 ^ 59) } }
    else { x with st := .run, frame := {}, next := {}, spilling := false, ctx := { x.ctx with wait := 0 } }

/-- The return from a fault: RESUME or WAKE of a FROZEN thread, or one parked with KIND 6 or 8 (R213). A thread frozen
by 0xD1 runs its block without the breakpoint (R214). -/
def State.resumeSlot (s : State) (c k : Nat) : State :=
  (s.both c k fun x =>
    { x with
      skipBrk := x.st == .frozen && x.frozenBy == 0xD1
      twin := x.twin.map fun t => if x.frozenBy = 0xC0 then { t with mism := 0 } else t }).makeRunnable c k

/-- The states RESUME is allowed in (Table 10.8). -/
def mayResume (x : Slot) : Bool :=
  x.st == .frozen || (x.st == .park && (waitKind x.ctx.wait == 6 || waitKind x.ctx.wait == 8))

/-! ## Counts of messages (R142) -/

/-- Changes the pair of a launch, clearing it first for another generation. -/
def countUpd (t : Tab Pair) (lid : Nat) (f : Pair → Pair) : Tab Pair :=
  let p := Tab.rd {} t (lid / 32)
  t.put (lid / 32) (f (if p.gen == lidGen lid then p else { gen := lidGen lid }))

/-- A core counts a message sent; launch id 0 is counted in no pair (R405). -/
def State.countSent (s : State) (c lid : Nat) : State :=
  if lid = 0 then s else s.updCore c fun x =>
    { x with counts := countUpd x.counts lid fun p => { p with sent := (p.sent + 1) % 2 ^ 32 } }

/-- A core counts a message received. -/
def State.countRecv (s : State) (c lid : Nat) : State :=
  if lid = 0 then s else s.updCore c fun x =>
    { x with counts := countUpd x.counts lid fun p => { p with recv := (p.recv + 1) % 2 ^ 32 } }

/-! ## The end of slices (R94, R141) -/

/-- Removes ranges: whether a slice index has ended. -/
def inRanges (rs : List (Nat × Nat)) (i : Nat) : Bool := rs.any fun r => decide (r.1 ≤ i) && decide (i < r.2)

/-- Adds an index to a list of ranges, lowest first, joining neighbours. -/
def addRange : List (Nat × Nat) → Nat → List (Nat × Nat)
  | [], i => [(i, i + 1)]
  | (a, b) :: t, i =>
    if i + 1 < a then (i, i + 1) :: (a, b) :: t
    else if i + 1 = a then (i, b) :: t
    else if i < b then (a, b) :: t
    else if i = b then
      match t with
      | (a', b') :: t' => if a' = b + 1 then (a, b') :: t' else (a, b + 1) :: t
      | [] => [(a, b + 1)]
    else (a, b) :: addRange t i

/-- The lowest slice index that has not ended; none once all have ended or the launch is being ended (R328). -/
def Entry.lowest (e : Entry) : Option Nat :=
  if e.st == .ending || e.st == .ended || e.st == .guest then none
  else
    let low := match e.ended with
      | (0, b) :: _ => b
      | _ => 0
    if low < e.lrec.slices then some low else none

/-- The slice of a thread ends at its home dispenser (R94): once per index (R141). -/
def State.endSlice (s : State) (lid slice : Nat) (retired : Bool) : State :=
  s.updLaunch lid fun e =>
    if inRanges e.ended slice then e
    else { e with ended := addRange e.ended slice, retired := e.retired + retired.toNat }

/-! ## Freeing a slot and giving it to waiting work (R125) -/

/-- A FREE slot that no reservation or claim holds. -/
def slotOpen (x : Slot) : Bool := x.st == .free && !x.held

/-- The lowest open slot of a core. -/
def State.openSlot (s : State) (c : Nat) : Option Nat :=
  [0, 1, 2, 3].find? fun k => slotOpen (s.slot c k)

/-- Whether a core has a FREE slot at all. -/
def State.anyFree (s : State) (c : Nat) : Bool := [0, 1, 2, 3].any fun k => (s.slot c k).st == .free

/-- The segment images a message's thread starts with (R128, R405). -/
def State.msgSegs (s : State) (c : Nat) (m : Msg) : Tab (BitVec 128) :=
  if m.p || m.lid == 0 then (s.core c).mseg else (s.entry m.lid).segs

/-- The context of a thread that a message starts (R128). -/
def State.msgCtx (s : State) (c : Nat) (m : Msg) : Ctx :=
  let segs := s.msgSegs c m
  let g : Tab Word := []
  let g := Tab.set 0 g 0 (word m.kind)
  let g := Tab.set 0 g 1 m.origin
  let g := (List.range 4).foldl (fun g i => Tab.set 0 g (2 + i) (m.pay.getD i 0)) g
  { g := Tab.set 0 g 15 m.retw
    seg := segs
    pc := word ((segBase (Tab.rd 0 segs 0) + m.handler * 16) % 2 ^ 56)
    tsw := tswOf m.p m.t m.lid
    wait := 0 }

/-- The context of a granted slice (R86): ARGP, slice index and entry block. -/
def State.startCtx (s : State) (m : Msg) : Ctx :=
  let segs := (s.entry m.lid).segs
  let g := Tab.set 0 (Tab.set 0 [] 1 m.origin) 0 m.retw
  { g := g
    seg := segs
    pc := word ((segBase (Tab.rd 0 segs 0) + m.handler * 16) % 2 ^ 56)
    tsw := tswOf false m.t m.lid
    wait := 0 }

/-- A context enters a slot, which is in LOAD (Table 7.4). -/
def State.loadSlot (s : State) (c k : Nat) (x : Ctx) (slice : Option Nat) (pmask : BitVec 16) (migr : Nat)
    (stepping : Bool) : State :=
  (s.updSquare (squareOf c) fun q => if isSvc c then q else { q with quietSince := none }).updSlot c k fun old =>
    { old with
      st := .load, ctx := x, slice := slice, pmask := pmask, badRegs := 0, migr := migr, stepping := stepping
      frame := {}, next := {}, fseq := old.fseq + 1, residence := old.residence + 1, ordinal := 0
      held := false, stop := 0, htStop := false, frozenBy := 0, skipBrk := false, wakeup := false, lost := false, swapBy := none
      twin := if tswTwin x.tsw then some { chk := x, chkPmask := pmask } else none }

/-- The twin copy of a context: the shadow has SHADOW set (R144). -/
def shadowCtx (x : Ctx) : Ctx := { x with tsw := x.tsw ||| word (2 ^ 61) }

/-- The two copies of a twin share a new number (R144). -/
def State.pairUp (s : State) (c k k' : Nat) : State :=
  ((s.updSlot c k fun x => { x with pair := s.serial }).updSlot (twinCore c) k' fun x =>
    { x with pair := s.serial, tid := (s.slot c k).tid }).nextSerial

/-- The thread in a slot, and its shadow, is a new one. -/
def State.newThread (s : State) (c k : Nat) : State := (s.both c k fun x => { x with tid := s.serial + 1 }).nextSerial

/-- Loads a thread, and its shadow into slot k' of the other core of the pair when it is a twin (R144). -/
def State.loadThread (s : State) (c k k' : Nat) (x : Ctx) (slice : Option Nat) (pmask : BitVec 16) (migr : Nat)
    (stepping : Bool) : State :=
  let s := s.loadSlot c k x slice pmask migr stepping
  (if tswTwin x.tsw then (s.loadSlot (twinCore c) k' (shadowCtx x) slice pmask migr stepping).pairUp c k k' else s).newThread c k

/-- The open slots for a thread at core c: its own and, for a twin, one in the other core of the pair. -/
def State.slotsFor (s : State) (c : Nat) (twin : Bool) : Option (Nat × Nat) :=
  match s.openSlot c with
  | none => none
  | some k => if twin then (s.openSlot (twinCore c)).map fun k' => (k, k') else some (k, 0)

/-- A word of a context frame: its value, zero where the frame is not mapped, and whether it is poisoned. -/
def State.frWord (s : State) (L : Nat → Option Nat) (off : Nat) : Word × Bool :=
  match L off with
  | some loc => (s.rdWord loc, s.mem.isPois loc)
  | none => (0, false)

/-- A word of a frame, or zero where it is poisoned (R217). -/
def State.frGood (s : State) (L : Nat → Option Nat) (off : Nat) : Word :=
  let (v, p) := s.frWord L off
  if p then 0 else v

/-- The registers whose words in a frame are poisoned: they are marked in PMASK (R217). -/
def State.frMarks (s : State) (L : Nat → Option Nat) : BitVec 16 :=
  BitVec.ofNat 16 ((List.range 16).foldl (fun a k => if (s.frWord L (0x28 + 8 * k)).2 then a + 2 ^ k else a) 0)

/-- Reads the context frame whose bytes lie where L says (Table 7.6). HDR names the launch and the pair of the thread;
a poisoned word other than G0-G15 is loaded as zero and marks the frame as lost (R217). Reserved bits read as zero (R8). (DEDUCED, unsafe: log 33) -/
def State.readFrame (s : State) (L : Nat → Option Nat) : CtxFrame :=
  let hdr := (s.frWord L 0).1
  let slice := s.frGood L 0x20
  let offs := [0x20, 0xA8, 0xB0, 0xB8] ++ (List.range 16).map fun k => 0xC0 + 8 * k
  let tsw := s.frGood L 0xB0
  { full := match L 0 with
      | some loc => s.mem.isFull loc
      | none => false
    lid := wbits hdr 55 40
    twin := hdr.toNat.testBit 58
    dcore := wbits hdr 28 16
    origin := (s.frWord L 8).1
    maddr := ((s.frWord L 0x10).1).toNat
    slice := if slice.toNat.testBit 63 then some (wbits slice 31 0) else none
    pmask := s.frMarks L
    next := ((s.frWord L 0x18).1).toNat
    bad := s.frMarks L
    lost := offs.any fun o => (s.frWord L o).2
    ctx :=
      { g := (List.range 16).foldl (fun t k => Tab.set 0 t k (s.frGood L (0x28 + 8 * k))) []
        pc := word (wbits (s.frGood L 0xA8) 55 4 * 16)
        tsw := tswKeep (wput (wput tsw 55 40 (wbits hdr 55 40)) 62 62 (wbits hdr 58 58))
        wait := wput (s.frGood L 0xB8) 58 56 0
        seg := (List.range 8).foldl (fun t k =>
          let lo := s.frWord L (0xC0 + 16 * k)
          let hi := s.frWord L (0xC8 + 16 * k)
          Tab.set 0 t k (if lo.2 || hi.2 then 0 else BitVec.ofNat 128 (wbits hi.1 47 0 * 2 ^ 64 + lo.1.toNat))) [] } }

/-- Word 0 of the header of a context frame (Table 7.7, KIND 4). -/
def frameHdr (f : CtxFrame) (pkg : Nat) : Word :=
  word (4 * 2 ^ 60 + (tswPriv f.ctx.tsw).toNat * 2 ^ 59 + f.twin.toNat * 2 ^ 58 + f.lid % 2 ^ 16 * 2 ^ 40 +
    pkg % 2 ^ 8 * 2 ^ 32 + f.dcore % 2 ^ 13 * 2 ^ 16)

/-- A SLICE word (R141). -/
def sliceWord : Option Nat → Word
  | some i => word (2 ^ 63 + i % 2 ^ 32)
  | none => 0

/-- A write of a word by the hardware: it wakes no waiter (Table 14.2), and no read buffer keeps the word. -/
def State.dispWrite (s : State) (loc : Nat) (v : Word) : State := ((s.dropReadBufs [loc]).wrWord loc v).touchRow loc

/-- The rows of a frame's first and last word are opened (R158). -/
def State.touchFrame (s : State) (L : Nat → Option Nat) : State :=
  ([0, 0x138].filterMap L).foldl State.touchRow s

/-- The 40 words of a context frame (Table 7.6). -/
def frameWords (f : CtxFrame) (pkg : Nat) : List Word :=
  [frameHdr f pkg, f.origin, word f.maddr, word f.next, sliceWord f.slice] ++
  (List.range 16).map f.ctx.reg ++ [f.ctx.pc, f.ctx.tsw, f.ctx.wait] ++
  (List.range 8).flatMap fun k => [word (f.ctx.segReg k).toNat, word ((f.ctx.segReg k).toNat / 2 ^ 64)]

/-- Writes a context frame where L says, its HDR full or empty (R124, R218); a register that PMASK marks is written
poisoned. -/
def State.writeFrame (s : State) (L : Nat → Option Nat) (f : CtxFrame) : State :=
  let s := ((frameWords f s.pkg).zipIdx).foldl (fun s (v, i) =>
    match L (8 * i) with
    | some loc => ((s.dispWrite loc v).setPois loc (decide (5 ≤ i) && decide (i < 21) && f.pmask.toNat.testBit (i - 5)))
    | none => s) s
  match L 0 with
  | some loc => s.setFull loc f.full
  | none => s

/-! ## Barrier objects (R138, R139) -/

/-- The fields of a barrier object (Table 7.9), as one 256-bit number. -/
def State.barrier (s : State) (loc : Nat) : Nat := s.rdMem loc 32

/-- A barrier object that operations accept: in a vault, 32-byte aligned, reserved bits zero (R138). -/
def State.barrierOk (s : State) (loc : Nat) : Bool :=
  decide (loc < 2 ^ 39) && loc % 32 == 0 && bits (s.barrier loc) 223 193 == 0

/-- FlipCheck (R139): the phase flips when both counts are met; surplus carries over. -/
def flipCheck (b : Nat) : Nat × Bool :=
  let expa := bits b 63 32; let arra := bits b 31 0
  let expb := bits b 127 64; let cntb := bits b 191 128
  if (expa ≠ 0 ∨ expb ≠ 0) ∧ expa ≤ arra ∧ expb ≤ cntb then
    let b := putBits b 31 0 (arra - expa)
    let b := putBits b 191 128 (cntb - expb)
    let b := putBits b 192 192 (1 - bits b 192 192)
    (putBits b 255 224 (bits b 255 224 + 1), true)
  else (b, false)

/-- The words of a barrier object. -/
def objWords (loc : Nat) : List Nat := [loc, loc + 8, loc + 16, loc + 24]

/-- Writes a barrier object after a change and applies FlipCheck once, waking the BWAIT waiters on a flip (R139). The
words' full/empty and poison bits stay. -/
def State.barrierSet (s : State) (loc b : Nat) : State :=
  let (b, flipped) := flipCheck b
  let s := s.wrMem loc 32 b
  if flipped then (s.flipObj loc).wakeObject loc else s

/-- An operation of a thread writes a barrier object: no port keeps an older value (R179, R180). -/
def State.barrierPut (s : State) (loc b : Nat) : State := (s.dropReadBufs (objWords loc)).barrierSet loc b

/-- An engine counts bytes in an object (R139). job: the core and command, whose write of each word that changes is of the
asynchronous path (R192). -/
def State.barrierCount (s : State) (job : Option (Nat × Cmd)) (loc n : Nat) : State :=
  let b := s.barrier loc
  let b' := putBits b 191 128 (min (2 ^ 64 - 1) (bits b 191 128 + n))
  let s := match job with
    | some (c, x) => [0, 1, 2, 3].foldl (fun (s : State) i =>
        if bits b (64 * i + 63) (64 * i) = bits (flipCheck b').1 (64 * i + 63) (64 * i) then s
        else s.asyncWrite c x (loc + 8 * i)) s
    | none => s
  s.barrierSet loc b'

/-! ## Packets and their order (R19) -/

/-- The core field of a fault record. -/
def recCore (r : BitVec 256) : Nat := bits r.toNat 76 64

/-- The network of a packet, its source and its destination, for the packets that keep an order: 0 MSG, 1 REQ, 2 MSG from
a dispenser, 3 CTL. Ports are 8192 and up, dispensers 16384 and up, routers 20480 and up; a request to another package
goes to the port of its route. -/
def State.packetKey (s : State) : Packet → Option (Nat × Nat × Nat)
  | .msg src m _ => some (0, src, m.dcore)
  | .migr src c _ _ _ => some (0, src, c)
  | .resvReq c _ _ _ m => some (0, c, m.dcore)
  | .resvRel src c _ => some (0, src, c)
  | .remote op => match op.place with
    | .mem loc => some (1, op.core, ownerOf loc)
    | .debug c _ => some (1, op.core, c)
    | .peer p _ _ => some (1, op.core, 8192 + (s.route p).getD 8)
  | .start _ _ _ c _ _ => some (2, 0, c)
  | .fault q r => some (3, recCore r, 4096 + q)
  | .cutOrder sq lid => some (3, 16384 + lidDie lid, 20480 + sq)
  | .cutReport sq lid _ => some (3, 20480 + sq, 16384 + lidDie lid)
  | .spill c _ => some (3, 16384 + dieOf c, c)
  | .claim c lid => some (3, c, 16384 + lidDie lid)
  | .sliceEnd _ _ _ | .wake _ | .cutMarker _ _ _ _ => none

/-- Packet n of the mesh, when no earlier packet of its network, source and destination is still on its way. -/
def State.packet? (s : State) (n : Nat) : Option Packet :=
  match s.net[n]? with
  | none => none
  | some p => match s.packetKey p with
    | none => some p
    | some key => if (s.net.take n).any (fun q => s.packetKey q == some key) then none else some p

/-- Removes packet n. -/
def State.dropPacket (s : State) (n : Nat) : State := { s with net := s.net.eraseIdx n }

end Sys2Proof.Machine
end

