-- ==== Sys2Proof/Machine/Operands.lean ====
section
/-!
DEFINITION. Operand tokens and firing (R257-R259, R265-R267, R339), delivery of results, address tokens (R261), the
checks of R148, translation (R163-R168) and the placement of accesses (R155, R156, R169, R325).
-/

namespace Sys2Proof.Machine

/-! ## Tokens -/

/-- A poison token. -/
def Tok.isPoison : Tok → Bool
  | .poison _ _ => true
  | _ => false

/-- A token as a scalar: a vector token is read as its bits [63:0] (R339). -/
def Tok.w : Tok → Word
  | .val v => v
  | .vec v _ => BitVec.ofNat 64 v.toNat
  | .null | .poison _ _ => 0

/-- Whether a scalar input sees a null: the null token, or a vector with one of bytes 0-7 null (R339). -/
def Tok.isNull : Tok → Bool
  | .null => true
  | .vec _ n => n.toNat % 2 ^ 8 != 0
  | .val _ | .poison _ _ => false

/-- A token as a vector (R339). -/
def Tok.v : Tok → BitVec 512
  | .val v => BitVec.ofNat 512 v.toNat
  | .vec v _ => v
  | .null | .poison _ _ => 0

/-- The null mask of a token as a vector: a scalar null sets all 64 bits (R339). -/
def Tok.nulls : Tok → BitVec 64
  | .vec _ n => n
  | .null => BitVec.ofNat 64 (2 ^ 64 - 1)
  | .val _ | .poison _ _ => 0

/-- A truth value as a token. -/
def tokBool (b : Bool) : Tok := .val (if b then 1 else 0)

/-! ## The instructions of a frame -/

/-- The instructions that begin in a body from word i on, with the index of their first word; words that a MOV4 or a
long command spans are passed over (R260). -/
def instrsFrom : List Nat → Nat → Nat → List (Nat × Instr)
  | [], _, _ => []
  | _ :: ws, i, n + 1 => instrsFrom ws (i + 1) n
  | w :: ws, i, 0 =>
    match decodeWord w ws with
    | .ok x => (i, x) :: instrsFrom ws (i + 1) (wordCount w - 1)
    | .error _ => instrsFrom ws (i + 1) (wordCount w - 1)

/-- The body words as numbers. -/
def Frame.words (f : Frame) : List Nat := f.body.map (·.toNat)

/-- The instructions of a block, by word index. -/
def Frame.instrs (f : Frame) : List (Nat × Instr) := instrsFrom f.words 0 0

/-- The instruction that begins at word i. -/
def Frame.instrAt (f : Frame) (i : Nat) : Option Instr :=
  match f.words.drop i with
  | [] => none
  | w :: ws => (decodeWord w ws).toOption

/-- The LSID of the instruction at word i, 0 where it has none (Table 10.1). -/
def Frame.lsidAt (f : Frame) (i : Nat) : Nat :=
  match f.instrAt i with
  | some x => x.shape.lsid.getD 0
  | none => 0

/-- The token on input k (0 left, 1 right, 2 predicate) of word i. -/
def Frame.input (f : Frame) (i k : Nat) : Option Tok := f.ops.find? (3 * i + k)

/-- Adds a fault that reached a commit output. -/
def Frame.addFault (f : Frame) (d : FaultD) : Frame := { f with faults := f.faults ++ [d] }

/-! ## The current instruction -/

/-- The core of the cursor. -/
def State.cc (s : State) : Nat := s.cursor.core

/-- The slot of the cursor. -/
def State.ck (s : State) : Nat := s.cursor.slot

/-- The word index of the cursor. -/
def State.ci (s : State) : Nat := s.cursor.word

/-- The slot the cursor names. -/
def State.cur (s : State) : Slot := s.slot s.cc s.ck

/-- Changes the slot the cursor names. -/
def State.updCur (s : State) (f : Slot → Slot) : State := s.updSlot s.cc s.ck f

/-- Changes the current frame of the cursor's slot. -/
def State.updF (s : State) (f : Frame → Frame) : State := s.updFrame s.cc s.ck f

/-! ## Firing (R265-R267) -/

/-- What the inputs of an instruction say. -/
inductive Got
  | wait                                                -- an input has not arrived, or the word has fired
  | mismatch                                            -- the predicate does not match
  | poison (d : FaultD) (mem : Bool)                    -- a poisoned input: the one of lower origin index
  | null                                                -- a null firing predicate
  | vals (l r p : Tok)                                  -- data tokens; .val 0 for an input the instruction lacks
  deriving DecidableEq, Repr

/-- The poison of lower origin index of two tokens (R267). -/
def pickPoison (a b : Tok) : Tok :=
  match a, b with
  | .poison d m, .poison d' m' => if d'.index < d.index then .poison d' m' else .poison d m
  | .poison d m, _ => .poison d m
  | _, b => b

/-- The tokens of the inputs a shape has; none while one is missing. -/
def inputsOf (h : Shape) (f : Frame) (i : Nat) : Option (Tok × Tok × Tok) :=
  let get := fun k => if h.has k then f.input i k else some (.val 0)
  match get 0, get 1, get 2 with
  | some l, some r, some p => some (l, r, p)
  | _, _, _ => none

/-- The firing rule of word i of a frame (R265, R266, R267). A predicate that has arrived with a value that does not
match decides at once; otherwise every input must have arrived. -/
def gather (h : Shape) (f : Frame) (i : Nat) : Got :=
  if f.fired.find? i != none then .wait
  else
    let skip := match h.pr, f.input i 2 with
      | .always, _ | _, none => false
      | p, some t => !t.isPoison && !t.isNull && (t.w.toNat.testBit 0 != (p == Pr.onTrue))
    if skip then .mismatch
    else match inputsOf h f i with
      | none => .wait
      | some (l, r, p) =>
        match pickPoison (pickPoison l r) p with
        | .poison d m => .poison d m
        | _ => if h.pr != Pr.always && p.isNull then .null else .vals l r (if h.d then p else .val 0)

/-- Marks word i as fired, or as not firing. -/
def Frame.mark (f : Frame) (i : Nat) (b : Bool) : Frame := { f with fired := f.fired.put i b }

/-- The cause a poison takes at a commit output (R267): that of its source, or of the output for poisoned memory. -/
def poisonCause (d : FaultD) (mem : Bool) (out : Nat) : FaultD := if mem then { d with cause := out } else d

/-- The cause poisoned memory takes at input k of an instruction, where that input is a commit output (R267). (DEDUCED, unsafe: log 56) -/
def outCause (c : OpClass) (k : Nat) : Option Nat :=
  match c with
  | .sync | .perform | .commit | .message => some 0x61
  | .load => if k = 0 then some 0x61 else none
  | .exit => some 0x62
  | .command => some 0x63
  | .compute | .event => none

/-- The fault a poison raises on reaching input t (R267). (DEDUCED, unsafe: log 56) -/
def Frame.outFault (f : Frame) (t : Nat) (x : Tok) : Option FaultD :=
  match x, f.instrAt (t / 3) with
  | .poison d m, some i => (outCause i.shape.cls (t % 3)).map (poisonCause d m)
  | _, _ => none

/-- Delivers a token to one target: an input or a register write; a second token faults with 0x06 (R265), and poison
that reaches a commit output is a fault of the block (R267). -/
def Frame.deliver1 (f : Frame) (src : Nat) (t : Nat) (x : Tok) : Frame :=
  if t < 384 then
    if (f.ops.find? t).isSome then f.addFault { cause := 0x06, index := t / 3, lsid := f.lsidAt (t / 3) }
    else
      let f := { f with ops := f.ops.put t x }
      match f.outFault t x with
      | some d => f.addFault d
      | none => f
  else if t < 400 then
    if (f.regs.find? (t - 384)).isSome then f.addFault { cause := 0x06, index := src, lsid := f.lsidAt src }
    else
      let f := { f with regs := f.regs.put (t - 384) x }
      match x with
      | .poison d m => f.addFault (poisonCause d m 0x60)
      | _ => f
  else f

/-- Delivers a result to the targets, in order (R259). -/
def Frame.deliver (f : Frame) (src : Nat) (ts : List Nat) (x : Tok) : Frame :=
  ts.foldl (fun f t => f.deliver1 src t x) f

/-- ORs FP flags into those of the block (R240). -/
def Frame.orFlags (f : Frame) (n : Nat) : Frame := { f with flags := f.flags ||| BitVec.ofNat 5 n }

/-- The current instruction fires with a result for its targets and FP flags. -/
def State.fireWith (s : State) (i : Instr) (x : Tok) (flags : Nat) : State :=
  s.updF fun f => ((f.mark s.ci true).deliver s.ci i.shape.targets x).orFlags flags

/-- The current instruction does not fire: its predicate does not match. (DEDUCED, unsafe: log 43) -/
def State.skipWord (s : State) : State := s.updF fun f => f.mark s.ci false

/-- A class C instruction (Table 12.6): poison and a null predicate pass through; otherwise g computes its result and FP
flags from the slot and the data tokens. -/
def compute (i : Instr) (g : Slot → Tok → Tok → Tok → Tok × Nat) (s : State) : State :=
  match gather i.shape s.cur.frame s.ci with
  | .wait => s
  | .mismatch => s.skipWord
  | .poison d m => s.fireWith i (.poison d m) 0
  | .null => s.fireWith i .null 0
  | .vals l r p => s.fireWith i (g s.cur l r p).1 (g s.cur l r p).2

/-- A class C instruction with scalar inputs: a null on any input gives null (R266). -/
def scalar (i : Instr) (g : Slot → Word → Word → Word → Tok × Nat) (s : State) : State :=
  compute i (fun x l r p =>
    if l.isNull || r.isNull || p.isNull then (.null, 0) else g x l.w r.w p.w) s

/-- A scalar instruction whose result is a word, without flags. -/
def wordOp (i : Instr) (g : Word → Word → Word → Word) (s : State) : State :=
  scalar i (fun _ l r p => (.val (g l r p), 0)) s

/-! ## Address tokens (R261) and the checks of R148 -/

/-- The access kinds of Table 8.3. -/
inductive AKind | fetch | load | store | atomic | rload | rstore | ratomic | engRead | engWrite
  deriving DecidableEq, Repr

/-- The class-3 kind. -/
def AKind.code : AKind → Nat
  | .fetch => 0
  | .load => 1
  | .store => 2
  | .atomic => 3
  | .rload | .rstore | .ratomic => 4
  | .engRead => 5
  | .engWrite => 6

/-- The rights (R, W, X, A) an access kind needs of its segment. -/
def AKind.rights : AKind → Bool × Bool × Bool × Bool
  | .fetch => (false, false, true, false)
  | .load | .rload | .engRead => (true, false, false, false)
  | .store | .rstore | .engWrite => (false, true, false, false)
  | .atomic | .ratomic => (true, true, false, true)

/-- SegRights of R148. -/
def segRights (k : AKind) (g : BitVec 128) : Bool :=
  let (r, w, x, a) := k.rights
  (!r || segBit g 104) && (!w || segBit g 105) && (!x || segBit g 106) && (!a || segBit g 107)

/-- A leaf grants the access: every page right of Table 8.3, and U for an unprivileged thread (R167). -/
def pageRights (k : AKind) (priv : Bool) (e : Nat) : Bool :=
  let (r, w, x, _) := k.rights
  (!r || e.testBit 61) && (!w || e.testBit 60) && (!x || e.testBit 59) && (priv || e.testBit 58)

/-- The regions of Table 8.1. -/
inductive Region | tcm | square | view (v : Nat) | virt | mesh | hole (n : Nat)
  deriving DecidableEq, Repr

/-- The region of an effective address; square memory and the views are holes for a service core (R146). -/
def regionOf (svc : Bool) (ea : Nat) : Region :=
  if ea < 0x20000 then .tcm
  else if ea < 0x100000 then .hole 0
  else if ea < 0x200000 then (if svc then .hole 1 else .square)
  else if ea < 0x1000000 then .hole 2
  else if ea < 0x2000000 then (if svc then .hole 3 else .view ((ea - 0x1000000) / 0x100000))
  else if ea < 0xFF000000000000 then .virt
  else .mesh

/-- The core a mesh-coordinate address names (Table 8.7). -/
def meshCore (ea : Nat) : Nat :=
  if ea.testBit 37 then 4096 + bits ea 39 38 * 4 + bits ea 28 27
  else bits ea 39 38 * 1024 + bits ea 36 32 * 32 + bits ea 31 27

/-- A mesh-coordinate address treated as a hole (R155). -/
def meshHole (ea : Nat) : Bool :=
  let size := match bits ea 26 24 with
    | 0 => 0x20000
    | 1 => 0x100000
    | 2 => 0x10000
    | _ => 0
  decide (size ≤ bits ea 23 0) ||
    (ea.testBit 37 && (bits ea 36 32 != 0 || bits ea 31 29 != 0 || bits ea 26 24 == 1))

/-- Whose segments and privilege an access uses. -/
structure Who where
  core : Nat
  segs : Tab (BitVec 128)
  priv : Bool
  root : Nat                                   -- root table address, 0 for none
  deriving DecidableEq, Repr

/-- The procedure Address of R148: the effective address, or a fault with its address. -/
def address (a : Who) (k off n u : Nat) (kind : AKind) : Except FaultD Nat :=
  let g := Tab.rd 0 a.segs k
  let flt := fun (c : Nat) => (Except.error { cause := c, addr := (segBase g + off) % 2 ^ 56 } : Except FaultD Nat)
  let ea := segBase g + off
  let svc := isSvc a.core
  let r := regionOf svc ea
  if segBit g 111 && !a.priv then flt 0x27
  else if 2 ^ 48 ≤ off ∨ segLimit g < off + n - 1 then flt 0x20
  else if !segRights kind g then flt 0x22
  else if 2 ^ 56 ≤ ea + n - 1 then flt 0x21
  else if ea % u ≠ 0 then flt 0x25
  else if r ≠ regionOf svc (ea + n - 1) then flt 0x28
  else match r with
    | .hole _ => flt 0x26
    | .mesh =>
      if meshHole ea || meshHole (ea + n - 1) then flt 0x26
      else if !segBit g 110 then flt 0x23
      else if kind = .fetch then flt 0x29
      else .ok ea
    | .view _ => if !segBit g 109 then flt 0x23 else if kind = .fetch then flt 0x29 else .ok ea
    | .square => if kind = .fetch then flt 0x29 else .ok ea
    | .tcm | .virt => .ok ea

/-- The segment number of an address token (R261). -/
def tokSeg (t : Word) : Nat := wbits t 63 61

/-- The offset of an address token (R261). -/
def tokOff (t : Word) : Nat := wbits t 60 0

/-- The address token of an M-format access: the token plus the scaled IMM9 (R261). -/
def mTok (t : Word) (imm size : Nat) : Word := t + wordOfInt (sgn 9 imm * size)

/-! ## Translation (R163-R168) -/

/-- Index(va, lvl) of Table 8.13. -/
def pageIndex (va lvl : Nat) : Nat :=
  match lvl with
  | 0 => bits va 55 47
  | 1 => bits va 46 38
  | 2 => bits va 37 29
  | 3 => bits va 28 21
  | _ => bits va 20 16

/-- A physical vault address as a location; none outside the package's vault memory. -/
def physLoc (t : Nat) : Option Nat :=
  if t < 2 ^ 40 ∧ t / 2 ^ 27 % 2 = 0 then some (vaultLoc (t / 2 ^ 28) (t % 2 ^ 27)) else none

/-- A malformed entry (R166). -/
def malformed (e lvl : Nat) : Bool :=
  bits e 57 56 != 0 || bits e 47 40 != 0 || e.testBit 27 ||
  (if e.testBit 62 then
    decide (lvl < 3) || (lvl == 4 && bits e 15 0 != 0) || (lvl == 3 && bits e 20 0 != 0)
   else
    lvl == 4 || bits e 61 58 != 0 || bits e 55 48 != 0 ||
    (if lvl < 2 then bits e 11 0 != 0 else if lvl == 2 then bits e 10 0 != 0 else bits e 7 0 != 0))

/-- What a walk answers that waits for a layer which is powering on (R162): no cause code. -/
def walkWaits (va : Nat) : FaultD := { cause := 0x100, addr := va }

/-- An access that waits with its walk. -/
def FaultD.waits (d : FaultD) : Bool := d.cause == 0x100

/-- A token that stands for an access which waits with its walk. -/
def Tok.waits : Tok → Bool
  | .poison d _ => d.waits
  | _ => false

/-- The walk of R165 over the levels listed: the leaf and its page size. -/
def walkFrom (s : State) (va : Nat) (kind : AKind) : List Nat → Nat → Except FaultD (Nat × Nat)
  | [], _ => .error { cause := 0x37, addr := va }
  | lvl :: ls, t =>
    match physLoc t with
    | none => .error { cause := 0x3F, addr := va }
    | some base =>
      if s.layerOff base then .error { cause := 0x3F, addr := va }
      else if s.layerBusy base then .error (walkWaits va)
      else
        let loc := base + pageIndex va lvl * 8
        let e := s.rdMem loc 8
        if s.mem.isPois loc then .error { cause := 0x37, addr := va, maddr := 1 }
        else if !e.testBit 63 then .error { cause := 0x30 + kind.code, addr := va }
        else if malformed e lvl then .error { cause := 0x37, addr := va }
        else if e.testBit 62 then .ok (e, if lvl = 3 then 2 ^ 21 else 2 ^ 16)
        else walkFrom s va kind ls (bits e 39 0)

/-- The locations of the entries that a walk reads (R158, R165). -/
def walkReads (s : State) (va : Nat) : List Nat → Nat → List Nat
  | [], _ => []
  | lvl :: ls, t =>
    match physLoc t with
    | none => []
    | some base =>
      if s.layerOff base || s.layerBusy base then []
      else
        let loc := base + pageIndex va lvl * 8
        let e := s.rdMem loc 8
        if s.mem.isPois loc || !e.testBit 63 || malformed e lvl || e.testBit 62 then [loc]
        else loc :: walkReads s va ls (bits e 39 0)

/-- The walk of R165. A walk that reads a poisoned entry marks its fault in maddr (R421). -/
def walk (s : State) (root va : Nat) (kind : AKind) : Except FaultD (Nat × Nat) := walkFrom s va kind [0, 1, 2, 3, 4] root

/-- The translation a TLB holds for a root and address. -/
def tlbFind (t : List TlbEntry) (root va : Nat) : Option TlbEntry :=
  t.find? fun e => e.root == root && e.page == va / e.size * e.size

/-- A physical byte: in this package's vaults, or in another package (255 the host adapter). -/
inductive Phys
  | here (loc : Nat)
  | far (pkg core off : Nat)
  deriving DecidableEq, Repr

/-- The byte a leaf gives (R167). -/
def leafPhys (pkg e va size : Nat) : Phys :=
  if bits e 55 48 = pkg then .here (vaultLoc (bits e 39 28) (bits e 26 0 + va % size))
  else .far (bits e 55 48) (bits e 39 28) (bits e 26 0 + va % size)

/-- Translates one address at core c (R163, R167, R168): through the core's TLB, which keeps a successful walk; a full
TLB drops its oldest entry. (DESIGN CHOICE, unsafe: log 58) -/
def translate (s : State) (a : Who) (va : Nat) (kind : AKind) : Except FaultD Phys × State :=
  let done := fun (e size : Nat) =>
    if pageRights kind a.priv e then (Except.ok (leafPhys s.pkg e va size) : Except FaultD Phys)
    else .error { cause := 0x38 + kind.code, addr := va }
  match tlbFind (s.core a.core).tlb a.root va with
  | some t => (done t.leaf.toNat t.size, s)
  | none =>
    let t := (walkReads s va [0, 1, 2, 3, 4] a.root).foldl State.touchRow s
    match walk s a.root va kind with
    | .error d => (.error d, t)
    | .ok (e, size) =>
      (done e size, t.updCore a.core fun x =>
        { x with tlb := ({ root := a.root, page := va / size * size, size := size, leaf := word e } ::
          x.tlb).take Config.tlbEntries })

/-- Pieces of an access, one per 64 KiB frame it touches: where the piece starts, its first byte's address, its bytes. -/
structure Piece where
  phys : Phys
  ea : Nat
  len : Nat
  deriving DecidableEq, Repr

/-- Translates n bytes from ea, page by page (R170, R171); fuel bounds the pages. -/
def translateAll (a : Who) (kind : AKind) : Nat → State → Nat → Nat → Except FaultD (List Piece) × State
  | 0, s, _, _ => (.ok [], s)
  | fuel + 1, s, ea, n =>
    if n = 0 then (.ok [], s)
    else
      let len := min n (2 ^ 16 - ea % 2 ^ 16)
      match translate s a ea kind with
      | (.error d, s) => (.error d, s)
      | (.ok p, s) =>
        match translateAll a kind fuel s (ea + len) (n - len) with
        | (.error d, s) => (.error d, s)
        | (.ok ps, s) => (.ok (⟨p, ea, len⟩ :: ps), s)

/-- No root: a table in no vault. -/
def noRoot : Nat := 2 ^ 48

/-- The root table of a thread: its launch's, or SROOT for a thread of no launch, where 0 is no table (R163, R400, Table
16.18). -/
def State.rootOf (s : State) (c lid : Nat) : Nat :=
  if lid = 0 then (if (s.core c).sroot = 0 then noRoot else (s.core c).sroot.toNat) else (s.entry lid).root

/-- The core whose memory port a thread's accesses use: a shadow computes the addresses of its primary (R225). (DEDUCED, unsafe: log 29) -/
def State.accCore (s : State) (c k : Nat) : Nat :=
  if tswShadow (s.slot c k).ctx.tsw then twinCore c else c

/-- The segments, privilege and root of the thread in a slot. -/
def State.who (s : State) (c k : Nat) : Who :=
  let x := (s.slot c k).ctx
  { core := s.accCore c k, segs := x.seg, priv := tswPriv x.tsw, root := s.rootOf (s.accCore c k) (tswLid x.tsw) }

/-! ## Ordinary accesses (R154, R156, R169) -/

/-- An ordinary access that passed its checks: its effective address, the location of each byte, whether it goes through
the loop-back port, and the view it lands on with the window offset. -/
structure Acc where
  ea : Nat
  locs : List Nat
  loop : Bool := false
  view : Option (Nat × Nat) := none
  deriving DecidableEq, Repr

/-- Consecutive locations. -/
def locRange (loc n : Nat) : List Nat := (List.range n).map (loc + ·)

/-- The window step e of a view (R154). (DEDUCED, unsafe: log 37) -/
def viewStep (v : Nat) : Nat := if v = 1 ∨ v = 2 then 2 else if v = 9 ∨ v = 10 then 4 else 1

/-- Places the pieces of a translated ordinary access (R169): the own vault, or a fault; an access that a segment with M
allows to migrate names the owning core (R312). -/
def placePieces (c : Nat) (m : Bool) : List Piece → Except FaultD (List Nat)
  | [] => .ok []
  | p :: ps =>
    match p.phys with
    | .far _ _ _ => .error { cause := 0x43, addr := p.ea }
    | .here loc =>
      if loc / 2 ^ 27 ≠ c then
        if isSvc c then .error { cause := 0x46, addr := p.ea }
        else .error { cause := 0x40, addr := p.ea, migrate := if m then some (loc / 2 ^ 27) else none, maddr := p.ea }
      else match placePieces c m ps with
        | .error d => .error d
        | .ok ls => .ok (locRange loc p.len ++ ls)

/-- An ordinary access: Address, the view rules of R154 for an access of lanes elements (w32 when its scalar or lane
width is 32 bits), translation and placement. onView is the cause with which an instruction is refused on a view
(R313); none for an instruction that views allow. -/
def ordAccess (s : State) (a : Who) (t : Word) (n u : Nat) (kind : AKind) (w32 : Bool) (lanes : Nat)
    (onView : Option Nat) : Except FaultD Acc × State :=
  let g := Tab.rd 0 a.segs (tokSeg t)
  let (n', u') := match onView, regionOf (isSvc a.core) (segBase g + tokOff t) with
    | none, .view v => if 1 ≤ v ∧ v ≤ 10 then (viewStep v * lanes, viewStep v) else (n, u)
    | _, _ => (n, u)
  match address a (tokSeg t) (tokOff t) n' u' kind with
  | .error d => (.error d, s)
  | .ok ea =>
    let bad := fun (c : Nat) => ((.error { cause := c, addr := ea } : Except FaultD Acc), s)
    match regionOf (isSvc a.core) ea with
    | .hole _ => bad 0x26
    | .tcm => (.ok ⟨ea, locRange (tcmLoc a.core ea) n', false, none⟩, s)
    | .square => (.ok ⟨ea, locRange (sqLoc (squareOf a.core) (ea % 2 ^ 20)) n', false, none⟩, s)
    | .view v =>
      match onView with
      | some c => bad c
      | none =>
        if v = 0 then (.ok ⟨ea, locRange (sqLoc (squareOf a.core) (ea % 2 ^ 20)) n', false, none⟩, s)
        else if 10 < v ∨ !w32 ∨ (v = 10 ∧ kind = .store) then bad 0x24
        else (.ok ⟨ea, [], false, some (v, ea % 2 ^ 20)⟩, s)
    | .virt =>
      match translateAll a kind 3 s ea n' with
      | (.error d, s) => (.error d, s)
      | (.ok ps, s) =>
        match placePieces a.core (segBit g 108) ps with
        | .error d => (.error d, s)
        | .ok ls => (.ok ⟨ea, ls, false, none⟩, s)
    | .mesh =>
      if bits ea 47 40 ≠ s.pkg then bad 0x47
      else if bits ea 26 24 = 0 ∧ meshCore ea = a.core then
        (.ok ⟨ea, locRange (tcmLoc a.core (bits ea 23 0)) n', true, none⟩, s)
      else if bits ea 26 24 = 1 ∧ !isSvc a.core ∧ squareOf (meshCore ea) = squareOf a.core then
        (.ok ⟨ea, locRange (sqLoc (squareOf a.core) (bits ea 23 0)) n', true, none⟩, s)
      else bad 0x41

/-! ## Remote accesses and barrier objects (R156, R323, R325) -/

/-- The place of a mesh-coordinate address (R156). -/
def meshPlace (ea : Nat) : Place :=
  match bits ea 26 24 with
  | 0 => .mem (tcmLoc (meshCore ea) (bits ea 23 0))
  | 1 => .mem (sqLoc (squareOf (meshCore ea)) (bits ea 23 0))
  | _ => .debug (meshCore ea) (bits ea 23 0)

/-- A byte of a fault ring: slice threads cannot reach it (R207). (DESIGN CHOICE, unsafe: log 67) -/
def ringPlace : Place → Bool
  | .mem loc => isSvc (ownerOf loc) && decide (loc < 2 ^ 40) && decide (0x7FE0 ≤ loc % 2 ^ 17) && decide (loc % 2 ^ 17 < 0x10000)
  | _ => false

/-- A remote access: Address, then the place of its first byte (R325). dbg: the operation may reach a debug window. -/
def remAccess (s : State) (a : Who) (t : Word) (n u : Nat) (kind : AKind) (dbg : Bool) :
    Except FaultD (Nat × Place) × State :=
  match address a (tokSeg t) (tokOff t) n u kind with
  | .error d => (.error d, s)
  | .ok ea =>
    let bad := fun (c : Nat) => ((.error { cause := c, addr := ea } : Except FaultD (Nat × Place)), s)
    match regionOf (isSvc a.core) ea with
    | .hole _ => bad 0x26
    | .view _ => bad 0x24
    | .tcm => (.ok (ea, .mem (tcmLoc a.core ea)), s)
    | .square => (.ok (ea, .mem (sqLoc (squareOf a.core) (ea % 2 ^ 20))), s)
    | .virt =>
      match translate s a ea kind with
      | (.error d, s) => (.error d, s)
      | (.ok (.here loc), s) => (.ok (ea, .mem loc), s)
      | (.ok (.far p c off), s) =>
        if (s.route p).isNone then (.error { cause := 0x45, addr := ea }, s) else (.ok (ea, .peer p c off), s)
    | .mesh =>
      if bits ea 47 40 ≠ s.pkg then bad 0x47
      else if bits ea 26 24 = 2 then
        if !a.priv then bad 0x27 else if !dbg then bad 0x86 else (.ok (ea, meshPlace ea), s)
      else if !a.priv && ringPlace (meshPlace ea) then bad 0x27
      else (.ok (ea, meshPlace ea), s)

/-- The location of a barrier object (R323): any vault of the package; elsewhere or misaligned 0x70. -/
def barAccess (s : State) (a : Who) (t : Word) : Except FaultD (Nat × Nat) × State :=
  match address a (tokSeg t) (tokOff t) 32 1 .atomic with
  | .error d => (.error d, s)
  | .ok ea =>
    let bad := fun (c : Nat) => ((.error { cause := c, addr := ea } : Except FaultD (Nat × Nat)), s)
    match regionOf (isSvc a.core) ea with
    | .virt =>
      if ea % 32 ≠ 0 then bad 0x70
      else match translate s a ea .atomic with
        | (.error d, s) => (.error d, s)
        | (.ok (.here loc), s) => (.ok (ea, loc), s)
        | (.ok (.far _ _ _), s) => (.error { cause := 0x43, addr := ea }, s)
    | .mesh => if bits ea 47 40 ≠ s.pkg then bad 0x47 else bad 0x70
    | .hole _ => bad 0x26
    | .tcm | .square | .view _ => bad 0x70

/-! ## The watchpoint (R214) -/

/-- Whether an access of n bytes from ea touches the word that DWATCH of core c watches, for a read or a write. (DEDUCED, unsafe: log 50) -/
def watchHit (s : State) (c ea n : Nat) (rd wr : Bool) : Bool :=
  let d := (s.core c).dwatch
  ((wr && d.toNat.testBit 63) || (rd && d.toNat.testBit 62)) &&
    decide (ea / 8 ≤ wbits d 55 3) && decide (wbits d 55 3 ≤ (ea + n - 1) / 8)

end Sys2Proof.Machine
end

