-- ==== Sys2Proof/Machine/Flags.lean ====
section
/-!
DEFINITION. The floating-point flags (R114, R240) and the choice of the rounding mode (R262, R287).
-/

namespace Sys2Proof.Machine

/-- Invalid, bit 4 of FLAGS (R114). -/
def fInvalid : Nat := 16

/-- Divide by zero, bit 3. -/
def fDivZero : Nat := 8

/-- Overflow, bit 2. -/
def fOverflow : Nat := 4

/-- Underflow, bit 1. -/
def fUnderflow : Nat := 2

/-- Inexact, bit 0. -/
def fInexact : Nat := 1

/-- A flag that is set when b holds. -/
def flagIf (b : Bool) (f : Nat) : Nat := if b then f else 0

/-- The rounding mode of an RMODE value; the TSW holds 0-4 only (R114). -/
def modeOf : Nat → RMode
  | 0 => .rne
  | 1 => .rtz
  | 2 => .rdn
  | 3 => .rup
  | _ => .rna

/-- RMODE as it stands when an instruction fires (R287). -/
def Slot.rmode (x : Slot) : RMode := modeOf (tswRmode x.ctx.tsw)

/-- The mode a rounding field selects. -/
def Slot.mode (x : Slot) : Rm → RMode
  | .static m => m
  | .dyn => x.rmode

/-- DZT as it stands when an instruction fires (R293). -/
def Slot.dzt (x : Slot) : Bool := tswDzt x.ctx.tsw

end Sys2Proof.Machine
end

