-- ==== Sys2Proof/Machine/Float.lean ====
section
/-!
DEFINITION. Floating-point formats and arithmetic: decoding (R234, R235), rounding (R240), Narrow (R241), conversions to
integers (R242, R308), the operations of R301-R310 and of R352. A finite value is a sign, a magnitude m and an exponent
e, worth m * 2^e; a sticky bit says that the exact magnitude lies strictly between m * 2^e and (m + 1) * 2^e.
-/

namespace Sys2Proof.Machine

/-- A format of Table 11.1: mantissa width, exponent width, bias, whether it has infinities and NaNs of an all-ones
exponent; E4M3 has one NaN pattern only, E2M1 none (R235). -/
structure Fmt where
  man : Nat
  exp : Nat
  bias : Nat
  inf : Bool := true
  oneNan : Bool := false
  deriving DecidableEq, Repr

/-- FP64. -/
def fp64 : Fmt := { man := 52, exp := 11, bias := 1023 }

/-- FP32. -/
def fp32 : Fmt := { man := 23, exp := 8, bias := 127 }

/-- BF16. -/
def bf16 : Fmt := { man := 7, exp := 8, bias := 127 }

/-- FP16. -/
def fp16 : Fmt := { man := 10, exp := 5, bias := 15 }

/-- FP8 E5M2. -/
def e5m2 : Fmt := { man := 2, exp := 5, bias := 15 }

/-- FP8 E4M3. -/
def e4m3 : Fmt := { man := 3, exp := 4, bias := 7, inf := false, oneNan := true }

/-- FP4 E2M1. -/
def e2m1 : Fmt := { man := 1, exp := 2, bias := 1, inf := false }

/-- The format of a precision. -/
def qFmt : Prec → Fmt
  | .sp => fp32
  | .dp => fp64

/-- The bits of a format below its sign. -/
def Fmt.low (f : Fmt) : Nat := f.man + f.exp

/-- The encoding of the sign. -/
def Fmt.sign (f : Fmt) (neg : Bool) : Nat := if neg then 2 ^ f.low else 0

/-- The magnitude bits of infinity. -/
def Fmt.infBits (f : Fmt) : Nat := (2 ^ f.exp - 1) * 2 ^ f.man

/-- The magnitude bits of the largest finite value. -/
def Fmt.maxBits (f : Fmt) : Nat :=
  if f.inf then f.infBits - 1 else if f.oneNan then 2 ^ f.low - 2 else 2 ^ f.low - 1

/-- The canonical NaN (R235). -/
def Fmt.nan (f : Fmt) : Nat := if f.oneNan then 2 ^ f.low - 1 else f.infBits + 2 ^ (f.man - 1)

/-- The exponent of the last bit of a subnormal. -/
def Fmt.emin (f : Fmt) : Int := 1 - (f.bias : Int) - (f.man : Int)

/-- A decoded value. -/
inductive FVal
  | nan (signalling : Bool)
  | inf (neg : Bool)
  | fin (neg : Bool) (m : Nat) (e : Int)
  deriving DecidableEq, Repr

/-- The value of an encoding (R234, R235). -/
def Fmt.decode (f : Fmt) (b : Nat) : FVal :=
  let neg := b.testBit f.low
  let e := b / 2 ^ f.man % 2 ^ f.exp
  let m := b % 2 ^ f.man
  if f.inf && e == 2 ^ f.exp - 1 then
    if m = 0 then .inf neg else .nan (!m.testBit (f.man - 1))
  else if f.oneNan && b % 2 ^ f.low == 2 ^ f.low - 1 then .nan false
  else if e = 0 then .fin neg m f.emin
  else .fin neg (2 ^ f.man + m) (f.emin + e - 1)

/-- The sign of a value. -/
def FVal.neg : FVal → Bool
  | .nan _ => false
  | .inf n => n
  | .fin n _ _ => n

/-- Whether a value is a NaN. -/
def FVal.isNan : FVal → Bool
  | .nan _ => true
  | _ => false

/-- Whether a value is a signalling NaN. -/
def FVal.isSnan : FVal → Bool
  | .nan q => q
  | _ => false

/-- Whether a value is infinite. -/
def FVal.isInf : FVal → Bool
  | .inf _ => true
  | _ => false

/-- Whether a value is a zero. -/
def FVal.isZero : FVal → Bool
  | .fin _ 0 _ => true
  | _ => false

/-- The value with its sign inverted. -/
def FVal.negate : FVal → FVal
  | .nan q => .nan q
  | .inf n => .inf (!n)
  | .fin n m e => .fin (!n) m e

/-! ## Rounding (R240) -/

/-- The number of bits of a magnitude. -/
def bitLen (m : Nat) : Nat := if m = 0 then 0 else Nat.log2 m + 1

/-- m * 2^-k rounded to an integer in a mode, with the exact value beyond m when sticky; and whether it is inexact. -/
def roundShift (mode : RMode) (neg : Bool) (m k : Nat) (sticky : Bool) : Nat × Bool :=
  let q := m / 2 ^ k
  let r := m % 2 ^ k
  let inexact := r != 0 || sticky
  let atHalf := k != 0 && r == 2 ^ (k - 1)
  let above := k != 0 && decide (2 ^ (k - 1) < r)
  let up := match mode with
    | .rne => above || (atHalf && (sticky || q % 2 == 1))
    | .rna => above || atHalf
    | .rtz => false
    | .rdn => neg && inexact
    | .rup => !neg && inexact
  (q + up.toNat, inexact)

/-- Rounds m * 2^e to multiples of 2^l. -/
def roundAt (mode : RMode) (neg : Bool) (m : Nat) (e : Int) (sticky : Bool) (l : Int) : Nat × Bool :=
  if l ≤ e then (m * 2 ^ (e - l).toNat, sticky) else roundShift mode neg m (l - e).toNat sticky

/-- The exponent of the last bit of a p-bit significand for m * 2^e. -/
def lsbOf (p : Nat) (m : Nat) (e : Int) : Int := e + bitLen m - p

/-- RoundToFormat (R241): the magnitude bits, which pass maxBits on an overflow, and whether it is inexact. -/
def Fmt.roundMag (f : Fmt) (mode : RMode) (neg : Bool) (m : Nat) (e : Int) (sticky : Bool) : Nat × Bool :=
  let l := max (lsbOf (f.man + 1) m e) f.emin
  let (y, x) := roundAt mode neg m e sticky l
  ((l - f.emin).toNat * 2 ^ f.man + y, x)

/-- Tininess after rounding: the result rounded without a lower exponent bound lies below the smallest normal (R240). (DEDUCED, unsafe: log 36) -/
def Fmt.tiny (f : Fmt) (mode : RMode) (neg : Bool) (m : Nat) (e : Int) (sticky : Bool) : Bool :=
  let l := lsbOf (f.man + 1) m e
  let y := (roundAt mode neg m e sticky l).1
  decide (l + bitLen y ≤ f.emin + f.man)

/-- TowardZero of R241. -/
def towardZero (mode : RMode) (neg : Bool) : Bool :=
  match mode with
  | .rtz => true
  | .rdn => !neg
  | .rup => neg
  | .rne | .rna => false

/-- The flags of a result with the given tininess (R240). -/
def roundFlags (inexact tiny : Bool) : Nat := flagIf inexact fInexact + flagIf (inexact && tiny) fUnderflow

/-- Rounds a finite value to a format: its bits and flags (R240, R241, the last row of R302). (DEDUCED, unsafe: log 36) -/
def Fmt.round (f : Fmt) (mode : RMode) (sat : Bool) (neg : Bool) (m : Nat) (e : Int) (sticky : Bool) : Nat × Nat :=
  if m = 0 ∧ !sticky then (f.sign neg, 0)
  else
    let (y, x) := f.roundMag mode neg m e sticky
    if f.maxBits < y then
      let big := if sat || (!f.inf && !f.oneNan) || towardZero mode neg then f.sign neg + f.maxBits
        else if f.oneNan then f.nan else f.sign neg + f.infBits
      (big, fOverflow + fInexact)
    else (f.sign neg + y, roundFlags x (f.tiny mode neg m e sticky))

/-- Narrow (R241). -/
def Fmt.narrow (f : Fmt) (mode : RMode) (sat : Bool) : FVal → Nat × Nat
  | .nan q => if !f.inf && !f.oneNan then (0, fInvalid) else (f.nan, flagIf q fInvalid)
  | .inf n => if sat || !f.inf then (f.sign n + f.maxBits, 0) else (f.sign n + f.infBits, 0)
  | .fin n m e =>
    if m = 0 then (f.sign n, 0)
    else
    let (y, x) := f.roundMag mode n m e false
    if f.maxBits < y then f.round mode sat n m e false
    else (f.sign n + y, roundFlags x (decide (y < 2 ^ f.man)))

/-! ## Arithmetic (R301, R302) -/

/-- A canonical NaN with invalid set. -/
def Fmt.bad (f : Fmt) : Nat × Nat := (f.nan, fInvalid)

/-- An infinity. -/
def Fmt.infinity (f : Fmt) (neg : Bool) : Nat := f.sign neg + f.infBits

/-- The signed magnitude of a finite value in units of 2^e', e' at most its exponent. -/
def alignTo (neg : Bool) (m : Nat) (e e' : Int) : Int :=
  let v : Int := (m * 2 ^ (e - e').toNat : Nat)
  if neg then -v else v

/-- The sum of two values that are no NaNs. -/
def Fmt.addVals (f : Fmt) (mode : RMode) : FVal → FVal → Nat × Nat
  | .inf a, .inf b => if a = b then (f.infinity a, 0) else f.bad
  | .inf a, _ => (f.infinity a, 0)
  | _, .inf b => (f.infinity b, 0)
  | .fin a m e, .fin b m' e' =>
    let l := min e e'
    let v := alignTo a m e l + alignTo b m' e' l
    if v = 0 then
      if m = 0 ∧ m' = 0 ∧ a = b then (f.sign a, 0) else (f.sign (mode == .rdn), 0)
    else f.round mode false (decide (v < 0)) v.natAbs l false
  | _, _ => (f.nan, 0)

/-- The exact product of two values that are no NaNs and not infinity and zero. -/
def mulVals : FVal → FVal → FVal
  | .fin a m e, .fin b m' e' => .fin (a != b) (m * m') (e + e')
  | x, y => .inf (x.neg != y.neg)

/-- Infinity times zero. -/
def infTimesZero (a b : FVal) : Bool := (a.isInf && b.isZero) || (a.isZero && b.isInf)

/-- Rounds a value to its format. -/
def Fmt.ofVal (f : Fmt) (mode : RMode) : FVal → Nat × Nat
  | .nan q => (f.nan, flagIf q fInvalid)
  | .inf n => (f.infinity n, 0)
  | .fin n m e => f.round mode false n m e false

/-- Invalid when any of three values is a signalling NaN. -/
def sigFlag (a b c : FVal) : Nat := flagIf (a.isSnan || b.isSnan || c.isSnan) fInvalid

/-- FADD. -/
def Fmt.add (f : Fmt) (mode : RMode) (x y : Nat) : Nat × Nat :=
  let a := f.decode x; let b := f.decode y
  if a.isNan || b.isNan then (f.nan, sigFlag a b b) else f.addVals mode a b

/-- FSUB. -/
def Fmt.sub (f : Fmt) (mode : RMode) (x y : Nat) : Nat × Nat :=
  let a := f.decode x; let b := f.decode y
  if a.isNan || b.isNan then (f.nan, sigFlag a b b) else f.addVals mode a b.negate

/-- FMUL. -/
def Fmt.mul (f : Fmt) (mode : RMode) (x y : Nat) : Nat × Nat :=
  let a := f.decode x; let b := f.decode y
  if a.isNan || b.isNan then (f.nan, sigFlag a b b)
  else if infTimesZero a b then f.bad
  else f.ofVal mode (mulVals a b)

/-- FMA, and FMS with the third value negated. -/
def Fmt.fma (f : Fmt) (mode : RMode) (negC : Bool) (x y z : Nat) : Nat × Nat :=
  let a := f.decode x; let b := f.decode y; let c := f.decode z
  if infTimesZero a b then f.bad
  else if a.isNan || b.isNan || c.isNan then (f.nan, sigFlag a b c)
  else f.addVals mode (mulVals a b) (if negC then c.negate else c)

/-- FDIV. -/
def Fmt.div (f : Fmt) (mode : RMode) (x y : Nat) : Nat × Nat :=
  let a := f.decode x; let b := f.decode y
  let neg := a.neg != b.neg
  match a, b with
  | .nan _, _ | _, .nan _ => (f.nan, sigFlag a b b)
  | .inf _, .inf _ => f.bad
  | .inf _, _ => (f.infinity neg, 0)
  | _, .inf _ => (f.sign neg, 0)
  | .fin _ m e, .fin _ m' e' =>
    if m' = 0 then (if m = 0 then f.bad else (f.infinity neg, fDivZero))
    else
      let k := bitLen m' + f.man + 3
      f.round mode false neg (m * 2 ^ k / m') (e - e' - k) (m * 2 ^ k % m' != 0)

/-- The integer square root, bit by bit from bit n - 1 of the result. -/
def isqrtFrom (x : Nat) : Nat → Nat → Nat
  | 0, r => r
  | n + 1, r => isqrtFrom x n (if (r + 2 ^ n) * (r + 2 ^ n) ≤ x then r + 2 ^ n else r)

/-- The integer square root. -/
def isqrt (x : Nat) : Nat := isqrtFrom x (bitLen x / 2 + 1) 0

/-- FSQRT. -/
def Fmt.sqrt (f : Fmt) (mode : RMode) (x : Nat) : Nat × Nat :=
  match f.decode x with
  | .nan q => (f.nan, flagIf q fInvalid)
  | .inf n => if n then f.bad else (f.infinity false, 0)
  | .fin n m e =>
    if m = 0 then (f.sign n, 0)
    else if n then f.bad
    else
      let k := 2 * (f.man + 3) + (e % 2).toNat
      let v := m * 2 ^ k
      f.round mode false false (isqrt v) ((e - k) / 2) (isqrt v * isqrt v != v)

/-! ## Minimum, maximum, signs, classes and comparisons (R303-R306) -/

/-- The order of two values that are no NaNs. -/
def ltVals : FVal → FVal → Bool
  | .inf a, .inf b => a && !b
  | .inf a, _ => a
  | _, .inf b => !b
  | .fin a m e, .fin b m' e' =>
    let l := min e e'
    decide (alignTo a m e l < alignTo b m' e' l)
  | _, _ => false

/-- Equality of two values that are no NaNs; zeros are equal. -/
def eqVals (a b : FVal) : Bool := !a.isNan && !b.isNan && !ltVals a b && !ltVals b a

/-- FMIN or FMAX: minimumNumber or maximumNumber of IEEE 754-2019, -0 below +0 (R303). -/
def Fmt.minMax (f : Fmt) (isMax : Bool) (x y : Nat) : Nat × Nat :=
  let a := f.decode x; let b := f.decode y
  let flags := sigFlag a b b
  if a.isNan && b.isNan then (f.nan, flags)
  else if a.isNan then (y, flags)
  else if b.isNan then (x, flags)
  else
    let less := ltVals a b || (eqVals a b && a.neg && !b.neg)
    let more := ltVals b a || (eqVals a b && b.neg && !a.neg)
    if isMax then (if less then y else x, 0) else (if more then y else x, 0)

/-- FABS, FNEG or FSGN: x with its sign bit replaced (R304); NaN gives the canonical NaN. -/
def Fmt.setSign (f : Fmt) (x : Nat) (neg : Bool) (flags : Nat) : Nat × Nat :=
  if (f.decode x).isNan then (f.nan, flags) else (f.sign neg + x % 2 ^ f.low, flags)

/-- FCLASS (R305). -/
def Fmt.fclass (f : Fmt) (x : Nat) : Nat :=
  match f.decode x with
  | .nan q => if q then 2 ^ 8 else 2 ^ 9
  | .inf n => if n then 1 else 2 ^ 7
  | .fin n m _ =>
    if m = 0 then (if n then 2 ^ 3 else 2 ^ 4)
    else if m < 2 ^ f.man then (if n then 2 ^ 2 else 2 ^ 5)
    else if n then 2 else 2 ^ 6

/-- The relations of R306. -/
inductive FRel | eq | lt | le | unord
  deriving DecidableEq, Repr

/-- FEQ, FLT, FLE and FUNORD (R306). -/
def Fmt.rel (f : Fmt) (r : FRel) (x y : Nat) : Bool × Nat :=
  let a := f.decode x; let b := f.decode y
  let sig := sigFlag a b b
  let nan := a.isNan || b.isNan
  match r with
  | .unord => (nan, sig)
  | .eq => (eqVals a b, sig)
  | .lt => if nan then (false, fInvalid) else (ltVals a b, 0)
  | .le => if nan then (false, fInvalid) else (!ltVals b a, 0)

/-! ## Conversions (R242, R307-R310, R351) -/

/-- A value rounded to an integer of n bits, clamped (R242, R308). -/
def FVal.toInt (v : FVal) (mode : RMode) (n : Nat) : Int × Nat :=
  let lo : Int := -((2 ^ (n - 1) : Nat) : Int)
  let hi : Int := (2 ^ (n - 1) : Nat) - 1
  match v with
  | .nan _ => (0, fInvalid)
  | .inf neg => (if neg then lo else hi, fInvalid)
  | .fin neg m e =>
    let (y, x) := roundAt mode neg m e false 0
    let i : Int := if neg then -(y : Int) else y
    if i < lo then (lo, fInvalid) else if hi < i then (hi, fInvalid) else (i, flagIf x fInexact)

/-- An integer converted to a format (R309). -/
def Fmt.ofInt (f : Fmt) (mode : RMode) (i : Int) : Nat × Nat := f.round mode false (decide (i < 0)) i.natAbs 0 false

/-- FCVT to f from the other precision (R307). -/
def Fmt.convert (f g : Fmt) (mode : RMode) (x : Nat) : Nat × Nat := f.narrow mode false (g.decode x)

/-- FRND (R310). -/
def Fmt.integral (f : Fmt) (mode : RMode) (x : Nat) : Nat × Nat :=
  match f.decode x with
  | .nan q => (f.nan, flagIf q fInvalid)
  | .inf _ => (x, 0)
  | .fin neg m e =>
    let (y, inexact) := roundAt mode neg m e false 0
    if !inexact then (x, 0) else ((f.round mode false neg y 0 false).1, fInexact)

/-! ## Transcendentals and reciprocals (R352, Table 15.6) -/

/-- VRCP: the correctly rounded reciprocal. -/
def Fmt.rcp (f : Fmt) (mode : RMode) (x : Nat) : Nat × Nat :=
  match f.decode x with
  | .nan q => (f.nan, flagIf q fInvalid)
  | .inf n => (f.sign n, 0)
  | .fin n m e =>
    if m = 0 then (f.infinity n, fDivZero)
    else
      let k := bitLen m + f.man + 3
      f.round mode false n (2 ^ k / m) (-e - k) (2 ^ k % m != 0)

/-- VRSQRT: the correctly rounded reciprocal of the square root. -/
def Fmt.rsqrt (f : Fmt) (mode : RMode) (x : Nat) : Nat × Nat :=
  match f.decode x with
  | .nan q => (f.nan, flagIf q fInvalid)
  | .inf n => if n then f.bad else (f.sign false, 0)
  | .fin n m e =>
    if m = 0 then (f.infinity n, fDivZero)
    else if n then f.bad
    else
      let k := bitLen m + 2 * (f.man + 4) + ((e + bitLen m) % 2).toNat
      let y := isqrt (2 ^ k / m)
      f.round mode false false y ((-e - k) / 2) (y * y * m != 2 ^ k)

/-- Fraction bits of the fixed-point arithmetic of VEXP2. -/
def expBits : Nat := 288

/-- ln 2 in units of 2^-expBits, from below: the sum of 1 / (k 2^k). -/
def ln2 : Nat := (List.range 300).foldl (fun a k => a + 2 ^ expBits / ((k + 1) * 2 ^ (k + 1))) 0

/-- The sum of t^i / i! from i = 0, in units of 2^-expBits, from below. -/
def expSum (t : Nat) : Nat :=
  ((List.range 72).foldl (fun (a : Nat × Nat) i =>
    let term := a.2 * t / ((i + 1) * 2 ^ expBits)
    (a.1 + term, term)) (2 ^ expBits, 2 ^ expBits)).1

/-- VEXP2: 2^x correctly rounded. The exact value of a dyadic x that is no integer is irrational, so it lies inside a cell
of the 2^-160 grid; the sums' error is below 2^-270. -/
def Fmt.exp2 (f : Fmt) (mode : RMode) (x : Nat) : Nat × Nat :=
  match f.decode x with
  | .nan q => (f.nan, flagIf q fInvalid)
  | .inf n => if n then (f.sign false, 0) else (f.infinity false, 0)
  | .fin n m e =>
    if m = 0 then f.round mode false false 1 0 false
    else if e + bitLen m < -82 then                      -- |x| below 2^-82
      f.round mode false false (if n then 2 ^ 80 - 1 else 2 ^ 80) (-80) true
    else if 12 < e + bitLen m then                       -- |x| at least 2^12: beyond every format
      if n then f.round mode false false 1 (-4096) true else f.round mode false false 1 4096 true
    else
      let v := alignTo n m (max e (-200)) (-200)         -- x in units of 2^-200
      let i := v / ((2 ^ 200 : Nat) : Int)
      let fr := (v % ((2 ^ 200 : Nat) : Int)).toNat
      if fr = 0 then f.round mode false false 1 i false
      else f.round mode false false (expSum (fr * ln2 / 2 ^ 200) / 2 ^ (expBits - 160)) (i - 160) true

/-- Binary digits of log2 of r / 2^640, 1 < r / 2^640 < 2, by repeated squaring. -/
def log2Digits : Nat → Nat → Nat → Nat
  | 0, _, acc => acc
  | n + 1, r, acc =>
    let q := r * r / 2 ^ 640
    if 2 ^ 641 ≤ q then log2Digits n (q / 2) (2 * acc + 1) else log2Digits n q (2 * acc)

/-- VLOG2: log2 x correctly rounded. The exact value of a dyadic x that is no power of two is irrational, so 256 fraction
digits and a sticky bit decide every rounding. -/
def Fmt.log2 (f : Fmt) (mode : RMode) (x : Nat) : Nat × Nat :=
  match f.decode x with
  | .nan q => (f.nan, flagIf q fInvalid)
  | .inf n => if n then f.bad else (f.infinity false, 0)
  | .fin n m e =>
    if m = 0 then (f.infinity true, fDivZero)
    else if n then f.bad
    else
      let i := e + bitLen m - 1
      if m = 2 ^ (bitLen m - 1) then f.round mode false (decide (i < 0)) i.natAbs 0 false
      else
        let d := log2Digits 256 (m * 2 ^ (641 - bitLen m)) 0
        if 0 ≤ i then f.round mode false false (i.natAbs * 2 ^ 256 + d) (-256) true
        else f.round mode false true (i.natAbs * 2 ^ 256 - d - 1) (-256) true

end Sys2Proof.Machine
end

