-- ==== Sys2Proof/Machine/Scalar.lean ====
section
/-!
DEFINITION. Scalar instructions: structural (R290), integer (R291-R300), floating point (R301-R310). Each is of class C:
compute and scalar give the firing rules, the meaning here gives the result.
-/

namespace Sys2Proof.Machine

/-- The bits of a width. -/
def wBits (w : Width) : Nat := 8 * 2 ^ w.code

/-- The low w bits of a token (R286). -/
def lowW (w : Width) (x : Word) : Nat := x.toNat % 2 ^ (wBits w)

/-- The S() value of the low w bits. -/
def sgnW (w : Width) (x : Word) : Int := sgn (wBits w) x.toNat

/-- A result of width w, zero-extended (R286). -/
def outW (w : Width) (v : Int) : Word := word (trunc (wBits w) v)

/-- A two-input operation on unsigned values. -/
def opU (w : Width) (f : Nat → Nat → Nat) (l r _ : Word) : Word := outW w (f (lowW w l) (lowW w r) : Nat)

/-- A two-input operation on signed values. -/
def opS (w : Width) (f : Int → Int → Int) (l r _ : Word) : Word := outW w (f (sgnW w l) (sgnW w r))

/-- A comparison of width w. -/
def cmpU (w : Width) (f : Nat → Nat → Bool) (l r _ : Word) : Word := if f (lowW w l) (lowW w r) then 1 else 0

/-- A signed comparison of width w. -/
def cmpS (w : Width) (f : Int → Int → Bool) (l r _ : Word) : Word := if f (sgnW w l) (sgnW w r) then 1 else 0

/-- The I-format immediate, sign-extended (R263). -/
def simm (i : Nat) : Int := sgn 14 i

/-- A word as a signed value. -/
def sgn64 (x : Word) : Int := sgn 64 x.toNat

/-- SHL (R295): the count is the whole right token. -/
def shlBits (n a k : Nat) : Nat := if n ≤ k then 0 else a * 2 ^ k % 2 ^ n

/-- SHR (R295). -/
def shrBits (n a k : Nat) : Nat := if n ≤ k then 0 else a / 2 ^ k

/-- SRA (R295). -/
def sraBits (n a k : Nat) : Nat := trunc n (sgn n a / ((2 ^ min k (n - 1) : Nat) : Int))

/-- ROL (R292). -/
def rolBits (n a k : Nat) : Nat := (a * 2 ^ (k % n) + a / 2 ^ (n - k % n)) % 2 ^ n

/-- ROR (R292). -/
def rorBits (n a k : Nat) : Nat := (a / 2 ^ (k % n) + a * 2 ^ (n - k % n)) % 2 ^ n

/-- |S(a)| as n bits. -/
def absBits (n a : Nat) : Nat := (sgn n a).natAbs % 2 ^ n

/-- The S()-smaller of two values, a on equality. -/
def minS (n a b : Nat) : Nat := if sgn n a ≤ sgn n b then a else b

/-- The S()-larger of two values, a on equality. -/
def maxS (n a b : Nat) : Nat := if sgn n b ≤ sgn n a then a else b

/-- Leading zeros of n bits. -/
def clzBits (n a : Nat) : Nat := n - bitLen a

/-- Trailing zeros of n bits. -/
def ctzBits (n a : Nat) : Nat := (lowestSet a n 0).getD n

/-- Bits reversed. -/
def brevBits : Nat → Nat → Nat
  | 0, _ => 0
  | n + 1, a => a % 2 * 2 ^ n + brevBits n (a / 2)

/-- Bytes reversed. -/
def bswapBytes : Nat → Nat → Nat
  | 0, _ => 0
  | n + 1, a => a % 256 * 256 ^ n + bswapBytes n (a / 256)

/-- The results of a division and its remainder (R293). -/
inductive DivOp | quot | rem
  deriving DecidableEq, Repr

/-- Signed division truncated toward zero, its remainder with the sign of the dividend (R293). -/
def divS (w : Width) (o : DivOp) (l r : Word) : Word :=
  match o with
  | .quot => outW w ((sgnW w l).tdiv (sgnW w r))
  | .rem => outW w ((sgnW w l).tmod (sgnW w r))

/-- Unsigned division. -/
def divU (w : Width) (o : DivOp) (l r : Word) : Word :=
  match o with
  | .quot => outW w (lowW w l / lowW w r : Nat)
  | .rem => outW w (lowW w l % lowW w r : Nat)

/-- A division: by zero it gives all ones or the dividend, or under DZT a poison of cause 0xB0 or 0xB1 (R293). -/
def divTok (w : Width) (o : DivOp) (dzt : Bool) (i : Nat) (f : Word → Word → Word) (l r : Word) : Tok :=
  if lowW w r = 0 then
    if dzt then .poison { cause := if o == .quot then 0xB0 else 0xB1, index := i } false
    else .val (match o with
      | .quot => outW w (-1)
      | .rem => outW w (lowW w l : Nat))
  else .val (f l r)

/-- BFX: bits [p + len - 1 : p] (R298). -/
def bfxBits (sx : Bool) (p len : Nat) (l : Word) : Word :=
  let f := l.toNat / 2 ^ p % 2 ^ len
  if sx then wordOfInt (sgn len f) else word f

/-- BFI (R298). -/
def bfiBits (p len : Nat) (l r : Word) : Word := word (putBits l.toNat (p + len - 1) p (r.toNat % 2 ^ len))

/-- KVSLOT (R299). -/
def kvslotOf (l r : Word) : Word :=
  let p := wbits r 5 0
  let slot := (wbits r 31 16 + popcount p l.toNat) % 2 ^ 16
  word ((if l.toNat.testBit p then 0 else 2 ^ 63) + slot)

/-- The token of a READ: poison 0x60 for a register that PMASK marks (R290), and poison for one with an uncorrectable
error that no scrub has found yet (R217). -/
def readTok (x : Slot) (k i : Nat) : Tok :=
  if x.badRegs.toNat.testBit k then .poison { cause := 0x60, index := i } true
  else if x.pmask.toNat.testBit k then .poison { cause := 0x60, index := i } false
  else .val (x.ctx.reg k)

/-- The bits of an operand at a precision (R287). -/
def lowQ (q : Prec) (x : Word) : Nat := x.toNat % 2 ^ ((qFmt q).low + 1)

/-- A floating-point result as a token with its flags. -/
def fres (r : Nat × Nat) : Tok × Nat := (.val (word r.1), r.2)

/-- A truth value with flags. -/
def fbool (r : Bool × Nat) : Tok × Nat := (tokBool r.1, r.2)

/-- The flag of a signalling NaN operand (R304). -/
def snanFlag (q : Prec) (l r : Word) : Nat :=
  sigFlag ((qFmt q).decode (lowQ q l)) ((qFmt q).decode (lowQ q r)) ((qFmt q).decode (lowQ q r))

/-- The other precision. -/
def otherQ : Prec → Prec
  | .sp => .dp
  | .dp => .sp

/-! ## Meanings -/

/-- READ (R265, R290). (DEDUCED, unsafe: log 55) (DEDUCED, unsafe: log 56) -/
def execReadReg (k s1 t : Nat) (s : State) : Res :=
  .next (compute (.readReg k s1 t) (fun x _ _ _ => (readTok x k s.ci, 0)) s)

/-- MOV: any token passes unchanged (R290). -/
def execMov (p : Pr) (s1 t : Nat) (s : State) : Res :=
  .next (compute (.mov p s1 t) (fun _ l _ _ => (l, 0)) s)

/-- MOV4: to its four targets in order (R290). -/
def execMov4 (p : Pr) (s1 t t3 t2 : Nat) (s : State) : Res :=
  .next (compute (.mov4 p s1 t t3 t2) (fun _ l _ _ => (l, 0)) s)

/-- MOVI (R290). -/
def execMovi (p : Pr) (i t : Nat) (s : State) : Res :=
  .next (wordOp (.movi p i t) (fun _ _ _ => wordOfInt (simm i)) s)

/-- CONST (R290). -/
def execConst (t i : Nat) (s : State) : Res :=
  .next (wordOp (.const t i) (fun _ _ _ => wordOfInt (sgn 16 i)) s)

/-- CONSTH (R290). -/
def execConsth (t i : Nat) (s : State) : Res :=
  .next (wordOp (.consth t i) (fun l _ _ => word (l.toNat * 2 ^ 16 + i)) s)

/-- NULL (R290). -/
def execNull (p : Pr) (s1 t : Nat) (s : State) : Res :=
  .next (compute (.null p s1 t) (fun _ _ _ _ => (.null, 0)) s)

/-- ADD (R291). -/
def execAdd (p : Pr) (w : Width) (s1 t : Nat) (s : State) : Res :=
  .next (wordOp (.add p w s1 t) (opU w (· + ·)) s)

/-- SUB (R291). -/
def execSub (p : Pr) (w : Width) (s1 t : Nat) (s : State) : Res :=
  .next (wordOp (.sub p w s1 t) (opS w (· - ·)) s)

/-- MUL (R291). -/
def execMul (p : Pr) (w : Width) (s1 t : Nat) (s : State) : Res :=
  .next (wordOp (.mul p w s1 t) (opU w (· * ·)) s)

/-- MULH (R291). -/
def execMulh (p : Pr) (w : Width) (s1 t : Nat) (s : State) : Res :=
  .next (wordOp (.mulh p w s1 t) (opS w (fun a b => a * b / ((2 ^ (wBits w) : Nat) : Int))) s)

/-- MULHN (R291). -/
def execMulhn (p : Pr) (w : Width) (s1 t : Nat) (s : State) : Res :=
  .next (wordOp (.mulhn p w s1 t) (opU w (fun a b => a * b / 2 ^ (wBits w))) s)

/-- DIV (R293). -/
def execDiv (p : Pr) (w : Width) (s1 t : Nat) (s : State) : Res :=
  .next (scalar (.div p w s1 t) (fun x l r _ => (divTok w .quot x.dzt s.ci (divS w .quot) l r, 0)) s)

/-- DIVN (R293). -/
def execDivn (p : Pr) (w : Width) (s1 t : Nat) (s : State) : Res :=
  .next (scalar (.divn p w s1 t) (fun x l r _ => (divTok w .quot x.dzt s.ci (divU w .quot) l r, 0)) s)

/-- REM (R293). -/
def execRem (p : Pr) (w : Width) (s1 t : Nat) (s : State) : Res :=
  .next (scalar (.rem p w s1 t) (fun x l r _ => (divTok w .rem x.dzt s.ci (divS w .rem) l r, 0)) s)

/-- REMN (R293). -/
def execRemn (p : Pr) (w : Width) (s1 t : Nat) (s : State) : Res :=
  .next (scalar (.remn p w s1 t) (fun x l r _ => (divTok w .rem x.dzt s.ci (divU w .rem) l r, 0)) s)

/-- AND (R291). -/
def execAnd (p : Pr) (w : Width) (s1 t : Nat) (s : State) : Res :=
  .next (wordOp (.and p w s1 t) (opU w (· &&& ·)) s)

/-- OR (R291). -/
def execOr (p : Pr) (w : Width) (s1 t : Nat) (s : State) : Res :=
  .next (wordOp (.or p w s1 t) (opU w (· ||| ·)) s)

/-- XOR (R291). -/
def execXor (p : Pr) (w : Width) (s1 t : Nat) (s : State) : Res :=
  .next (wordOp (.xor p w s1 t) (opU w (· ^^^ ·)) s)

/-- ANDN (R291). -/
def execAndn (p : Pr) (w : Width) (s1 t : Nat) (s : State) : Res :=
  .next (wordOp (.andn p w s1 t) (opU w (fun a b => a &&& (2 ^ (wBits w) - 1 - b))) s)

/-- SHL (R295). -/
def execShl (p : Pr) (w : Width) (s1 t : Nat) (s : State) : Res :=
  .next (wordOp (.shl p w s1 t) (fun l r _ => word (shlBits (wBits w) (lowW w l) r.toNat)) s)

/-- SHR (R295). -/
def execShr (p : Pr) (w : Width) (s1 t : Nat) (s : State) : Res :=
  .next (wordOp (.shr p w s1 t) (fun l r _ => word (shrBits (wBits w) (lowW w l) r.toNat)) s)

/-- SRA (R295). -/
def execSra (p : Pr) (w : Width) (s1 t : Nat) (s : State) : Res :=
  .next (wordOp (.sra p w s1 t) (fun l r _ => word (sraBits (wBits w) (lowW w l) r.toNat)) s)

/-- ROL (R292). -/
def execRol (p : Pr) (w : Width) (s1 t : Nat) (s : State) : Res :=
  .next (wordOp (.rol p w s1 t) (fun l r _ => word (rolBits (wBits w) (lowW w l) r.toNat)) s)

/-- ROR (R292). -/
def execRor (p : Pr) (w : Width) (s1 t : Nat) (s : State) : Res :=
  .next (wordOp (.ror p w s1 t) (fun l r _ => word (rorBits (wBits w) (lowW w l) r.toNat)) s)

/-- MIN (R292). -/
def execMin (p : Pr) (w : Width) (s1 t : Nat) (s : State) : Res :=
  .next (wordOp (.min p w s1 t) (opU w (minS (wBits w))) s)

/-- MAX (R292). -/
def execMax (p : Pr) (w : Width) (s1 t : Nat) (s : State) : Res :=
  .next (wordOp (.max p w s1 t) (opU w (maxS (wBits w))) s)

/-- MINN (R292). -/
def execMinn (p : Pr) (w : Width) (s1 t : Nat) (s : State) : Res :=
  .next (wordOp (.minn p w s1 t) (opU w (Nat.min)) s)

/-- MAXN (R292). -/
def execMaxn (p : Pr) (w : Width) (s1 t : Nat) (s : State) : Res :=
  .next (wordOp (.maxn p w s1 t) (opU w (Nat.max)) s)

/-- SEL (R296). -/
def execSel (s1 t : Nat) (s : State) : Res :=
  .next (wordOp (.sel s1 t) (fun l r p => if p.toNat.testBit 0 then l else r) s)

/-- CLZ (R294). -/
def execClz (p : Pr) (w : Width) (s1 t : Nat) (s : State) : Res :=
  .next (wordOp (.clz p w s1 t) (fun l _ _ => word (clzBits (wBits w) (lowW w l))) s)

/-- CTZ (R294). -/
def execCtz (p : Pr) (w : Width) (s1 t : Nat) (s : State) : Res :=
  .next (wordOp (.ctz p w s1 t) (fun l _ _ => word (ctzBits (wBits w) (lowW w l))) s)

/-- POPC (R294). -/
def execPopc (p : Pr) (w : Width) (s1 t : Nat) (s : State) : Res :=
  .next (wordOp (.popc p w s1 t) (fun l _ _ => word (popcount (wBits w) (lowW w l))) s)

/-- BREV (R294). -/
def execBrev (p : Pr) (w : Width) (s1 t : Nat) (s : State) : Res :=
  .next (wordOp (.brev p w s1 t) (fun l _ _ => word (brevBits (wBits w) (lowW w l))) s)

/-- BSWAP (R294). -/
def execBswap (p : Pr) (w : Width) (s1 t : Nat) (s : State) : Res :=
  .next (wordOp (.bswap p w s1 t) (fun l _ _ => word (bswapBytes ((wBits w) / 8) (lowW w l))) s)

/-- ABS (R294). -/
def execAbs (p : Pr) (w : Width) (s1 t : Nat) (s : State) : Res :=
  .next (wordOp (.abs p w s1 t) (fun l _ _ => word (absBits (wBits w) (lowW w l))) s)

/-- SEXT (R294). -/
def execSext (p : Pr) (w : Width) (s1 t : Nat) (s : State) : Res :=
  .next (wordOp (.sext p w s1 t) (fun l _ _ => wordOfInt (sgnW w l)) s)

/-- ZEXT (R294). -/
def execZext (p : Pr) (w : Width) (s1 t : Nat) (s : State) : Res :=
  .next (wordOp (.zext p w s1 t) (fun l _ _ => word (lowW w l)) s)

/-- BFX (R298): position n, length l + 1. -/
def execBfx (p : Pr) (x : Bool) (l n t : Nat) (s : State) : Res :=
  .next (wordOp (.bfx p x l n t) (fun a _ _ => bfxBits x n (l + 1) a) s)

/-- BFI (R298): position n, length l + 1. -/
def execBfi (p : Pr) (l n t : Nat) (s : State) : Res :=
  .next (wordOp (.bfi p l n t) (fun a b _ => bfiBits n (l + 1) a b) s)

/-- KVSLOT (R299). -/
def execKvslot (p : Pr) (s1 t : Nat) (s : State) : Res :=
  .next (wordOp (.kvslot p s1 t) (fun l r _ => kvslotOf l r) s)

/-- ADDI (R297). -/
def execAddi (p : Pr) (i t : Nat) (s : State) : Res :=
  .next (wordOp (.addi p i t) (fun l _ _ => wordOfInt (sgn64 l + simm i)) s)

/-- MULI (R297). -/
def execMuli (p : Pr) (i t : Nat) (s : State) : Res :=
  .next (wordOp (.muli p i t) (fun l _ _ => wordOfInt (sgn64 l * simm i)) s)

/-- ANDI (R297). -/
def execAndi (p : Pr) (i t : Nat) (s : State) : Res :=
  .next (wordOp (.andi p i t) (fun l _ _ => l &&& wordOfInt (simm i)) s)

/-- ORI (R297). -/
def execOri (p : Pr) (i t : Nat) (s : State) : Res :=
  .next (wordOp (.ori p i t) (fun l _ _ => l ||| wordOfInt (simm i)) s)

/-- XORI (R297). -/
def execXori (p : Pr) (i t : Nat) (s : State) : Res :=
  .next (wordOp (.xori p i t) (fun l _ _ => l ^^^ wordOfInt (simm i)) s)

/-- SHLI (R297). -/
def execShli (p : Pr) (n t : Nat) (s : State) : Res :=
  .next (wordOp (.shli p n t) (fun l _ _ => word (shlBits 64 l.toNat n)) s)

/-- SHRI (R297). -/
def execShri (p : Pr) (n t : Nat) (s : State) : Res :=
  .next (wordOp (.shri p n t) (fun l _ _ => word (shrBits 64 l.toNat n)) s)

/-- SRAI (R297). -/
def execSrai (p : Pr) (n t : Nat) (s : State) : Res :=
  .next (wordOp (.srai p n t) (fun l _ _ => word (sraBits 64 l.toNat n)) s)

/-- TEQ (R300). -/
def execTeq (p : Pr) (w : Width) (s1 t : Nat) (s : State) : Res :=
  .next (wordOp (.teq p w s1 t) (cmpU w (· == ·)) s)

/-- TNE (R300). -/
def execTne (p : Pr) (w : Width) (s1 t : Nat) (s : State) : Res :=
  .next (wordOp (.tne p w s1 t) (cmpU w (· != ·)) s)

/-- TLT (R300). -/
def execTlt (p : Pr) (w : Width) (s1 t : Nat) (s : State) : Res :=
  .next (wordOp (.tlt p w s1 t) (cmpS w (fun a b => decide (a < b))) s)

/-- TLE (R300). -/
def execTle (p : Pr) (w : Width) (s1 t : Nat) (s : State) : Res :=
  .next (wordOp (.tle p w s1 t) (cmpS w (fun a b => decide (a ≤ b))) s)

/-- TLTN (R300). -/
def execTltn (p : Pr) (w : Width) (s1 t : Nat) (s : State) : Res :=
  .next (wordOp (.tltn p w s1 t) (cmpU w (fun a b => decide (a < b))) s)

/-- TLEN (R300). -/
def execTlen (p : Pr) (w : Width) (s1 t : Nat) (s : State) : Res :=
  .next (wordOp (.tlen p w s1 t) (cmpU w (fun a b => decide (a ≤ b))) s)

/-- TEQI (R300). -/
def execTeqi (p : Pr) (i t : Nat) (s : State) : Res :=
  .next (wordOp (.teqi p i t) (fun l _ _ => if sgn64 l == simm i then 1 else 0) s)

/-- TNEI (R300). -/
def execTnei (p : Pr) (i t : Nat) (s : State) : Res :=
  .next (wordOp (.tnei p i t) (fun l _ _ => if sgn64 l != simm i then 1 else 0) s)

/-- TLTI (R300). -/
def execTlti (p : Pr) (i t : Nat) (s : State) : Res :=
  .next (wordOp (.tlti p i t) (fun l _ _ => if decide (sgn64 l < simm i) then 1 else 0) s)

/-- TLEI (R300). -/
def execTlei (p : Pr) (i t : Nat) (s : State) : Res :=
  .next (wordOp (.tlei p i t) (fun l _ _ => if decide (sgn64 l ≤ simm i) then 1 else 0) s)

/-- TLTNI (R300). -/
def execTltni (p : Pr) (i t : Nat) (s : State) : Res :=
  .next (wordOp (.tltni p i t) (fun l _ _ => if decide (l.toNat < i) then 1 else 0) s)

/-- TLENI (R300). -/
def execTleni (p : Pr) (i t : Nat) (s : State) : Res :=
  .next (wordOp (.tleni p i t) (fun l _ _ => if decide (l.toNat ≤ i) then 1 else 0) s)

/-- TBIT (R300). -/
def execTbit (p : Pr) (n t : Nat) (s : State) : Res :=
  .next (wordOp (.tbit p n t) (fun l _ _ => if l.toNat.testBit n then 1 else 0) s)

/-- FADD (R301, R302). -/
def execFadd (p : Pr) (m : Rm) (q : Prec) (s1 t : Nat) (s : State) : Res :=
  .next (scalar (.fadd p m q s1 t) (fun x l r _ =>
    fres ((qFmt q).add (x.mode m) (lowQ q l) (lowQ q r))) s)

/-- FSUB (R301, R302). -/
def execFsub (p : Pr) (m : Rm) (q : Prec) (s1 t : Nat) (s : State) : Res :=
  .next (scalar (.fsub p m q s1 t) (fun x l r _ =>
    fres ((qFmt q).sub (x.mode m) (lowQ q l) (lowQ q r))) s)

/-- FMUL (R301, R302). -/
def execFmul (p : Pr) (m : Rm) (q : Prec) (s1 t : Nat) (s : State) : Res :=
  .next (scalar (.fmul p m q s1 t) (fun x l r _ =>
    fres ((qFmt q).mul (x.mode m) (lowQ q l) (lowQ q r))) s)

/-- FDIV (R301, R302). -/
def execFdiv (p : Pr) (m : Rm) (q : Prec) (s1 t : Nat) (s : State) : Res :=
  .next (scalar (.fdiv p m q s1 t) (fun x l r _ =>
    fres ((qFmt q).div (x.mode m) (lowQ q l) (lowQ q r))) s)

/-- FMA: the product is not rounded (R301, R302). -/
def execFma (m : Rm) (q : Prec) (s1 t : Nat) (s : State) : Res :=
  .next (scalar (.fma m q s1 t) (fun x l r c =>
    fres ((qFmt q).fma (x.mode m) false (lowQ q l) (lowQ q r) (lowQ q c))) s)

/-- FMS: the product is not rounded (R301, R302). -/
def execFms (m : Rm) (q : Prec) (s1 t : Nat) (s : State) : Res :=
  .next (scalar (.fms m q s1 t) (fun x l r c =>
    fres ((qFmt q).fma (x.mode m) true (lowQ q l) (lowQ q r) (lowQ q c))) s)

/-- FSQRT (R301, R302). -/
def execFsqrt (p : Pr) (m : Rm) (q : Prec) (s1 t : Nat) (s : State) : Res :=
  .next (scalar (.fsqrt p m q s1 t) (fun x l _ _ => fres ((qFmt q).sqrt (x.mode m) (lowQ q l))) s)

/-- FMIN (R303). -/
def execFmin (p : Pr) (q : Prec) (s1 t : Nat) (s : State) : Res :=
  .next (scalar (.fmin p q s1 t) (fun _ l r _ => fres ((qFmt q).minMax false (lowQ q l) (lowQ q r))) s)

/-- FMAX (R303). -/
def execFmax (p : Pr) (q : Prec) (s1 t : Nat) (s : State) : Res :=
  .next (scalar (.fmax p q s1 t) (fun _ l r _ => fres ((qFmt q).minMax true (lowQ q l) (lowQ q r))) s)

/-- FABS (R304). -/
def execFabs (p : Pr) (q : Prec) (s1 t : Nat) (s : State) : Res :=
  .next (scalar (.fabs p q s1 t) (fun _ l _ _ =>
    fres ((qFmt q).setSign (lowQ q l) false (snanFlag q l l))) s)

/-- FNEG (R304). -/
def execFneg (p : Pr) (q : Prec) (s1 t : Nat) (s : State) : Res :=
  .next (scalar (.fneg p q s1 t) (fun _ l _ _ =>
    fres ((qFmt q).setSign (lowQ q l) (!(lowQ q l).testBit (qFmt q).low) (snanFlag q l l))) s)

/-- FSGN (R304). -/
def execFsgn (p : Pr) (q : Prec) (s1 t : Nat) (s : State) : Res :=
  .next (scalar (.fsgn p q s1 t) (fun _ l r _ =>
    fres ((qFmt q).setSign (lowQ q l) ((lowQ q r).testBit (qFmt q).low) (snanFlag q l r))) s)

/-- FEQ (R306). -/
def execFeq (p : Pr) (q : Prec) (s1 t : Nat) (s : State) : Res :=
  .next (scalar (.feq p q s1 t) (fun _ l r _ => fbool ((qFmt q).rel .eq (lowQ q l) (lowQ q r))) s)

/-- FLT (R306). -/
def execFlt (p : Pr) (q : Prec) (s1 t : Nat) (s : State) : Res :=
  .next (scalar (.flt p q s1 t) (fun _ l r _ => fbool ((qFmt q).rel .lt (lowQ q l) (lowQ q r))) s)

/-- FLE (R306). -/
def execFle (p : Pr) (q : Prec) (s1 t : Nat) (s : State) : Res :=
  .next (scalar (.fle p q s1 t) (fun _ l r _ => fbool ((qFmt q).rel .le (lowQ q l) (lowQ q r))) s)

/-- FUNORD (R306). -/
def execFunord (p : Pr) (q : Prec) (s1 t : Nat) (s : State) : Res :=
  .next (scalar (.funord p q s1 t) (fun _ l r _ => fbool ((qFmt q).rel .unord (lowQ q l) (lowQ q r))) s)

/-- FCLASS (R305). -/
def execFclass (p : Pr) (q : Prec) (s1 t : Nat) (s : State) : Res :=
  .next (scalar (.fclass p q s1 t) (fun _ l _ _ => fres ((qFmt q).fclass (lowQ q l), 0)) s)

/-- FCVT: q is the result's precision (R307). -/
def execFcvt (p : Pr) (m : Rm) (q : Prec) (s1 t : Nat) (s : State) : Res :=
  .next (scalar (.fcvt p m q s1 t) (fun x l _ _ =>
    fres ((qFmt q).convert (qFmt (otherQ q)) (x.mode m) (lowQ (otherQ q) l))) s)

/-- FCVTI (R308). -/
def execFcvti (p : Pr) (m : Rm) (q : Prec) (s1 t : Nat) (s : State) : Res :=
  .next (scalar (.fcvti p m q s1 t) (fun x l _ _ =>
    let r := ((qFmt q).decode (lowQ q l)).toInt (x.mode m) 64
    (.val (wordOfInt r.1), r.2)) s)

/-- ICVTF (R309). -/
def execIcvtf (p : Pr) (m : Rm) (q : Prec) (s1 t : Nat) (s : State) : Res :=
  .next (scalar (.icvtf p m q s1 t) (fun x l _ _ => fres ((qFmt q).ofInt (x.mode m) (sgn64 l))) s)

/-- FRND (R310). -/
def execFrnd (p : Pr) (m : Rm) (q : Prec) (s1 t : Nat) (s : State) : Res :=
  .next (scalar (.frnd p m q s1 t) (fun x l _ _ => fres ((qFmt q).integral (x.mode m) (lowQ q l))) s)

end Sys2Proof.Machine
end

