-- ==== Sys2Proof/Machine/Vector.lean ====
section
/-!
DEFINITION. Vector computation (R338-R352): lanes and their nulls, lane-wise operations, movement, reductions,
conversions and the functions of R352.
-/

namespace Sys2Proof.Machine

/-- The lane width of a type (R338). -/
def vBits : VT → Nat
  | .i8 => 8
  | .i16 => 16
  | .i32 | .f32 => 32
  | .i64 | .f64 => 64

/-- The lanes of w bits of a token; none for a null lane (R339). -/
def lanes (w : Nat) (t : Tok) : List (Option Nat) :=
  (List.range (512 / w)).map fun i =>
    if t.nulls.toNat / 2 ^ (i * (w / 8)) % 2 ^ (w / 8) != 0 then none else some (t.v.toNat / 2 ^ (i * w) % 2 ^ w)

/-- The numbers a list of lanes packs to: the values, and the null mask with every byte of a null lane set. -/
def packLanes (w : Nat) : List (Option Nat) → Nat × Nat
  | [] => (0, 0)
  | x :: xs =>
    let (v, n) := packLanes w xs
    match x with
    | some a => (a % 2 ^ w + 2 ^ w * v, 2 ^ (w / 8) * n)
    | none => (2 ^ w * v, 2 ^ (w / 8) - 1 + 2 ^ (w / 8) * n)

/-- The token of a list of lanes; bits above them are zero and not null. -/
def vecTok (w : Nat) (ls : List (Option Nat)) : Tok :=
  let (v, n) := packLanes w ls
  .vec (BitVec.ofNat 512 v) (BitVec.ofNat 64 n)

/-- A token of lanes with their flags, ORed over the lanes that are not null (R340). -/
def vecFlags (w : Nat) (ls : List (Option (Nat × Nat))) : Tok × Nat :=
  (vecTok w (ls.map fun x => x.map (·.1)), ls.foldl (fun a x => a ||| (x.map (·.2)).getD 0) 0)

/-- A value without flags. -/
def noFlag (v : Nat) : Nat × Nat := (v, 0)

/-- A lane-wise operation of one input. -/
def lane1 (y : VT) (f : Nat → Nat × Nat) (l : Tok) : Tok × Nat :=
  vecFlags (vBits y) ((lanes (vBits y) l).map fun a => a.map f)

/-- A lane-wise operation of two inputs: a lane is null when either is (R339). -/
def lane2 (y : VT) (f : Nat → Nat → Nat × Nat) (l r : Tok) : Tok × Nat :=
  vecFlags (vBits y) (List.zipWith (fun a b => match a, b with
    | some a, some b => some (f a b)
    | _, _ => none) (lanes (vBits y) l) (lanes (vBits y) r))

/-- The float format of a lane type; used for float types only. -/
def vFmt : VT → Fmt
  | .f64 => fp64
  | _ => fp32

/-- Chooses by the kind of lane. -/
def byKind (y : VT) (int flt : α) : α := if y.isFloat then flt else int

/-- VADD, VSUB and VMUL on lanes (Table 15.2). -/
def vaddLane (y : VT) (m : RMode) (a b : Nat) : Nat × Nat :=
  byKind y (noFlag ((a + b) % 2 ^ vBits y)) ((vFmt y).add m a b)

/-- VSUB on lanes. -/
def vsubLane (y : VT) (m : RMode) (a b : Nat) : Nat × Nat :=
  byKind y (noFlag ((2 ^ vBits y + a - b) % 2 ^ vBits y)) ((vFmt y).sub m a b)

/-- VMUL on lanes. -/
def vmulLane (y : VT) (m : RMode) (a b : Nat) : Nat × Nat :=
  byKind y (noFlag (a * b % 2 ^ vBits y)) ((vFmt y).mul m a b)

/-- VMIN on lanes. -/
def vminLane (y : VT) (a b : Nat) : Nat × Nat := byKind y (noFlag (minS (vBits y) a b)) ((vFmt y).minMax false a b)

/-- VMAX on lanes. -/
def vmaxLane (y : VT) (a b : Nat) : Nat × Nat := byKind y (noFlag (maxS (vBits y) a b)) ((vFmt y).minMax true a b)

/-- VABS on lanes. -/
def vabsLane (y : VT) (a : Nat) : Nat × Nat :=
  let v := (vFmt y).decode a
  byKind y (noFlag (absBits (vBits y) a)) ((vFmt y).setSign a false (sigFlag v v v))

/-- VNEG on lanes. -/
def vnegLane (y : VT) (a : Nat) : Nat × Nat :=
  let v := (vFmt y).decode a
  byKind y (noFlag ((2 ^ vBits y - a) % 2 ^ vBits y)) ((vFmt y).setSign a (!a.testBit (vFmt y).low) (sigFlag v v v))

/-- The relation of VCMP on lanes: all ones when it holds (R345). -/
def vcmpLane (c : VCond) (y : VT) (a b : Nat) : Nat × Nat :=
  let n := vBits y
  let (h, fl) : Bool × Nat := match c, y.isFloat with
    | .eq, true => (vFmt y).rel .eq a b
    | .lt, true => (vFmt y).rel .lt a b
    | .le, true => (vFmt y).rel .le a b
    | .eq, false => (a == b, 0)
    | .lt, false => (decide (sgn n a < sgn n b), 0)
    | .le, false => (decide (sgn n a ≤ sgn n b), 0)
    | .ltn, _ => (decide (a < b), 0)
  (if h then 2 ^ n - 1 else 0, fl)

/-- VFMA: a lane is null when any of its three is (R343). -/
def vfmaOf (y : VT) (m : RMode) (l r c : Tok) : Tok × Nat :=
  let w := vBits y
  vecFlags w (List.zipWith (fun ab c => match ab, c with
    | (some a, some b), some c => some ((vFmt y).fma m false a b c)
    | _, _ => none) ((lanes w l).zip (lanes w r)) (lanes w c))

/-- VSEL (R346): the lane that is not chosen has no effect. -/
def vselOf (y : VT) (l r p : Tok) : Tok :=
  let w := vBits y
  let ls := lanes w l
  let rs := lanes w r
  vecTok w ((lanes w p).zipIdx.map fun (x, i) => match x with
    | none => none
    | some m => if m % 2 = 1 then ls.getD i none else rs.getD i none)

/-- Result lanes from source lanes: lane i is source lane f i. -/
def moveLanes (y : VT) (f : Nat → Nat) (l : Tok) : Tok :=
  let w := vBits y
  let ls := lanes w l
  vecTok w ((List.range (512 / w)).map fun i => ls.getD (f i) none)

/-- A token of lanes that are all null. -/
def allNull (y : VT) : Tok := vecTok (vBits y) (List.replicate (512 / vBits y) none)

/-- VBCAST (Table 15.3). -/
def vbcastOf (y : VT) (l : Tok) : Tok :=
  if l.isNull then allNull y else vecTok (vBits y) (List.replicate (512 / vBits y) (some (l.w.toNat % 2 ^ vBits y)))

/-- VEXT. -/
def vextOf (y : VT) (l r : Tok) : Tok :=
  if r.isNull then .null
  else match (lanes (vBits y) l).getD (r.w.toNat % (512 / vBits y)) none with
    | none => .null
    | some a => .val (word a)

/-- VINS. -/
def vinsOf (y : VT) (l r p : Tok) : Tok :=
  let w := vBits y
  if p.isNull then allNull y
  else vecTok w ((lanes w l).set (p.w.toNat % (512 / w)) (if r.isNull then none else some (r.w.toNat % 2 ^ w)))

/-- The source lane of a VSHUF pattern (Table 15.5). -/
def vshufLane (n pat i : Nat) : Nat :=
  match pat with
  | 0 => n - 1 - i
  | 1 => if i < n / 2 then 2 * i else 2 * (i - n / 2) + 1
  | 2 => if i % 2 = 0 then i / 2 else n / 2 + (i - 1) / 2
  | _ => if i % 2 = 0 then i + 1 else i - 1

/-- VSHUF. -/
def vshufOf (y : VT) (l r : Tok) : Tok :=
  if r.isNull then allNull y else moveLanes y (vshufLane (512 / vBits y) (r.w.toNat % 4)) l

/-- VROT. -/
def vrotOf (y : VT) (l r : Tok) : Tok :=
  if r.isNull then allNull y
  else moveLanes y (fun i => (i + r.w.toNat % (512 / vBits y)) % (512 / vBits y)) l

/-- VPERM. -/
def vpermOf (y : VT) (l r : Tok) : Tok :=
  let w := vBits y
  let ls := lanes w l
  vecTok w ((lanes w r).map fun x => match x with
    | none => none
    | some k => ls.getD (k % (512 / w)) none)

/-- Combine of R348, with flags. -/
def combine (op : Nat → Nat → Nat × Nat) : Option Nat × Nat → Option Nat × Nat → Option Nat × Nat
  | (some a, f), (some b, g) => (some (op a b).1, f ||| g ||| (op a b).2)
  | (some a, f), (none, g) => (some a, f ||| g)
  | (none, f), (y, g) => (y, f ||| g)

/-- One level of the tree of R348: neighbours combine. -/
def combinePairs (op : Nat → Nat → Nat × Nat) : List (Option Nat × Nat) → List (Option Nat × Nat)
  | x :: y :: t => combine op x y :: combinePairs op t
  | t => t

/-- The tree of R348, over n levels. -/
def reduceTree (op : Nat → Nat → Nat × Nat) : Nat → List (Option Nat × Nat) → List (Option Nat × Nat)
  | 0, t => t
  | n + 1, t => reduceTree op n (combinePairs op t)

/-- A reduction to a scalar: null if every lane was (R348). -/
def reduceLanes (y : VT) (op : Nat → Nat → Nat × Nat) (l : Tok) : Tok × Nat :=
  match reduceTree op 6 ((lanes (vBits y) l).map fun a => (a, 0)) with
  | (some v, f) :: _ => (.val (word v), f)
  | _ => (.null, 0)

/-- The running sum of R349: the sum so far, over the lanes in order. -/
def scanLanes (op : Nat → Nat → Nat × Nat) : Option Nat → List (Option Nat) → List (Option (Nat × Nat))
  | _, [] => []
  | acc, none :: t => none :: scanLanes op acc t
  | none, some a :: t => some (a, 0) :: scanLanes op (some a) t
  | some x, some a :: t => some (op x a) :: scanLanes op (some (op x a).1) t

/-- The exclusive prefix counts of R350. -/
def prefixCounts (w : Nat) : Nat → List (Option Nat) → List (Option Nat)
  | _, [] => []
  | acc, none :: t => none :: prefixCounts w acc t
  | acc, some a :: t => some (acc % 2 ^ w) :: prefixCounts w (acc + popcount w a) t

/-- One lane of VCVT from type y to type d (R351). -/
def cvtLane (y d : VT) (m : RMode) (a : Nat) : Nat × Nat :=
  match y.isFloat, d.isFloat with
  | true, true => (vFmt d).convert (vFmt y) m a
  | true, false =>
    let r := ((vFmt y).decode a).toInt m (vBits d)
    (trunc (vBits d) r.1, r.2)
  | false, true => (vFmt d).ofInt m (sgn (vBits y) a)
  | false, false =>
    let i := sgn (vBits y) a
    let lo : Int := -((2 ^ (vBits d - 1) : Nat) : Int)
    let hi : Int := (2 ^ (vBits d - 1) : Nat) - 1
    noFlag (trunc (vBits d) (max lo (min hi i)))

/-- VCVT: the lanes that both types have. -/
def vcvtOf (y d : VT) (m : RMode) (l : Tok) : Tok × Nat :=
  let n := 512 / max (vBits y) (vBits d)
  vecFlags (vBits d) (((lanes (vBits y) l).take n).map fun a => a.map (cvtLane y d m))

/-! ## Meanings -/

/-- VADD (R343). -/
def execVadd (p : Pr) (y : VT) (s1 t : Nat) (s : State) : Res :=
  .next (compute (.vadd p y s1 t) (fun x l r _ => lane2 y (vaddLane y x.rmode) l r) s)

/-- VSUB (R343). -/
def execVsub (p : Pr) (y : VT) (s1 t : Nat) (s : State) : Res :=
  .next (compute (.vsub p y s1 t) (fun x l r _ => lane2 y (vsubLane y x.rmode) l r) s)

/-- VMUL (R343). -/
def execVmul (p : Pr) (y : VT) (s1 t : Nat) (s : State) : Res :=
  .next (compute (.vmul p y s1 t) (fun x l r _ => lane2 y (vmulLane y x.rmode) l r) s)

/-- VFMA: a lane is null when any of its three is (R343). -/
def execVfma (y : VT) (s1 t : Nat) (s : State) : Res :=
  .next (compute (.vfma y s1 t) (fun x l r c =>
    vfmaOf y x.rmode l r c) s)

/-- VMIN (R343). -/
def execVmin (p : Pr) (y : VT) (s1 t : Nat) (s : State) : Res :=
  .next (compute (.vmin p y s1 t) (fun _ l r _ => lane2 y (vminLane y) l r) s)

/-- VMAX (R343). -/
def execVmax (p : Pr) (y : VT) (s1 t : Nat) (s : State) : Res :=
  .next (compute (.vmax p y s1 t) (fun _ l r _ => lane2 y (vmaxLane y) l r) s)

/-- VABS (R343). -/
def execVabs (p : Pr) (y : VT) (s1 t : Nat) (s : State) : Res :=
  .next (compute (.vabs p y s1 t) (fun _ l _ _ => lane1 y (vabsLane y) l) s)

/-- VNEG (R343). -/
def execVneg (p : Pr) (y : VT) (s1 t : Nat) (s : State) : Res :=
  .next (compute (.vneg p y s1 t) (fun _ l _ _ => lane1 y (vnegLane y) l) s)

/-- VAND (R343). -/
def execVand (p : Pr) (y : VT) (s1 t : Nat) (s : State) : Res :=
  .next (compute (.vand p y s1 t) (fun _ l r _ => lane2 y (fun a b => noFlag (a &&& b)) l r) s)

/-- VOR (R343). -/
def execVor (p : Pr) (y : VT) (s1 t : Nat) (s : State) : Res :=
  .next (compute (.vor p y s1 t) (fun _ l r _ => lane2 y (fun a b => noFlag (a ||| b)) l r) s)

/-- VXOR (R343). -/
def execVxor (p : Pr) (y : VT) (s1 t : Nat) (s : State) : Res :=
  .next (compute (.vxor p y s1 t) (fun _ l r _ => lane2 y (fun a b => noFlag (a ^^^ b)) l r) s)

/-- VANDN (R343). -/
def execVandn (p : Pr) (y : VT) (s1 t : Nat) (s : State) : Res :=
  .next (compute (.vandn p y s1 t) (fun _ l r _ => lane2 y (fun a b => noFlag (a &&& (2 ^ vBits y - 1 - b))) l r) s)

/-- VSHL (R343). -/
def execVshl (p : Pr) (y : VT) (s1 t : Nat) (s : State) : Res :=
  .next (compute (.vshl p y s1 t) (fun _ l r _ => lane2 y (fun a b => noFlag (shlBits (vBits y) a b)) l r) s)

/-- VSHR (R343). -/
def execVshr (p : Pr) (y : VT) (s1 t : Nat) (s : State) : Res :=
  .next (compute (.vshr p y s1 t) (fun _ l r _ => lane2 y (fun a b => noFlag (shrBits (vBits y) a b)) l r) s)

/-- VSRA (R343). -/
def execVsra (p : Pr) (y : VT) (s1 t : Nat) (s : State) : Res :=
  .next (compute (.vsra p y s1 t) (fun _ l r _ => lane2 y (fun a b => noFlag (sraBits (vBits y) a b)) l r) s)

/-- VCMP (R345). -/
def execVcmp (p : Pr) (c : VCond) (y : VT) (s1 t : Nat) (s : State) : Res :=
  .next (compute (.vcmp p c y s1 t) (fun _ l r _ => lane2 y (vcmpLane c y) l r) s)

/-- VSEL (R346). -/
def execVsel (y : VT) (s1 t : Nat) (s : State) : Res :=
  .next (compute (.vsel y s1 t) (fun _ l r p => (vselOf y l r p, 0)) s)

/-- VBCAST (R347). -/
def execVbcast (p : Pr) (y : VT) (s1 t : Nat) (s : State) : Res :=
  .next (compute (.vbcast p y s1 t) (fun _ l _ _ => (vbcastOf y l, 0)) s)

/-- VEXT (R347). -/
def execVext (p : Pr) (y : VT) (s1 t : Nat) (s : State) : Res :=
  .next (compute (.vext p y s1 t) (fun _ l r _ => (vextOf y l r, 0)) s)

/-- VINS (R347). -/
def execVins (y : VT) (s1 t : Nat) (s : State) : Res :=
  .next (compute (.vins y s1 t) (fun _ l r p => (vinsOf y l r p, 0)) s)

/-- VSHUF (R347). -/
def execVshuf (p : Pr) (y : VT) (s1 t : Nat) (s : State) : Res :=
  .next (compute (.vshuf p y s1 t) (fun _ l r _ => (vshufOf y l r, 0)) s)

/-- VPERM (R347). -/
def execVperm (p : Pr) (y : VT) (s1 t : Nat) (s : State) : Res :=
  .next (compute (.vperm p y s1 t) (fun _ l r _ => (vpermOf y l r, 0)) s)

/-- VROT (R347). -/
def execVrot (p : Pr) (y : VT) (s1 t : Nat) (s : State) : Res :=
  .next (compute (.vrot p y s1 t) (fun _ l r _ => (vrotOf y l r, 0)) s)

/-- VREDADD (R348). -/
def execVredadd (p : Pr) (y : VT) (s1 t : Nat) (s : State) : Res :=
  .next (compute (.vredadd p y s1 t) (fun x l _ _ => reduceLanes y (vaddLane y x.rmode) l) s)

/-- VREDMAX (R348). -/
def execVredmax (p : Pr) (y : VT) (s1 t : Nat) (s : State) : Res :=
  .next (compute (.vredmax p y s1 t) (fun _ l _ _ => reduceLanes y (vmaxLane y) l) s)

/-- VREDMIN (R348). -/
def execVredmin (p : Pr) (y : VT) (s1 t : Nat) (s : State) : Res :=
  .next (compute (.vredmin p y s1 t) (fun _ l _ _ => reduceLanes y (vminLane y) l) s)

/-- VSCAN (R349). -/
def execVscan (p : Pr) (y : VT) (s1 t : Nat) (s : State) : Res :=
  .next (compute (.vscan p y s1 t) (fun x l _ _ =>
    vecFlags (vBits y) (scanLanes (vaddLane y x.rmode) none (lanes (vBits y) l))) s)

/-- VPOPC (R350). -/
def execVpopc (p : Pr) (y : VT) (s1 t : Nat) (s : State) : Res :=
  .next (compute (.vpopc p y s1 t) (fun _ l _ _ => lane1 y (fun a => noFlag (popcount (vBits y) a)) l) s)

/-- VPFXC (R350). -/
def execVpfxc (p : Pr) (y : VT) (s1 t : Nat) (s : State) : Res :=
  .next (compute (.vpfxc p y s1 t) (fun _ l _ _ =>
    (vecTok (vBits y) (prefixCounts (vBits y) 0 (lanes (vBits y) l)), 0)) s)

/-- VCVT from y to c (R351). -/
def execVcvt (p : Pr) (c y : VT) (s1 t : Nat) (s : State) : Res :=
  .next (compute (.vcvt p c y s1 t) (fun x l _ _ => vcvtOf y c x.rmode l) s)

/-- VEXP2 (R352). -/
def execVexp2 (p : Pr) (y : VT) (s1 t : Nat) (s : State) : Res :=
  .next (compute (.vexp2 p y s1 t) (fun x l _ _ => lane1 y ((vFmt y).exp2 x.rmode) l) s)

/-- VLOG2 (R352). -/
def execVlog2 (p : Pr) (y : VT) (s1 t : Nat) (s : State) : Res :=
  .next (compute (.vlog2 p y s1 t) (fun x l _ _ => lane1 y ((vFmt y).log2 x.rmode) l) s)

/-- VRCP (R352). -/
def execVrcp (p : Pr) (y : VT) (s1 t : Nat) (s : State) : Res :=
  .next (compute (.vrcp p y s1 t) (fun x l _ _ => lane1 y ((vFmt y).rcp x.rmode) l) s)

/-- VRSQRT (R352). -/
def execVrsqrt (p : Pr) (y : VT) (s1 t : Nat) (s : State) : Res :=
  .next (compute (.vrsqrt p y s1 t) (fun x l _ _ => lane1 y ((vFmt y).rsqrt x.rmode) l) s)

end Sys2Proof.Machine
end

