-- ==== Sys2Proof/Machine/Views.lean ====
section
/-!
DEFINITION. Element formats (R237), MX scales (R238, R239), plane form (R244), coded FP8 streams (R246-R249) and the
format views (R154, R243, R245, R250). A view is read and written in the memory of square sq.
-/

namespace Sys2Proof.Machine

/-! ## Element formats (Table 11.2) -/

/-- An assigned format code. -/
def fmtOk (c : Nat) : Bool := decide (c < 10)

/-- An integer format. -/
def fmtInt (c : Nat) : Bool := c == 6 || c == 7

/-- An MX format. -/
def fmtMx (c : Nat) : Bool := c == 0 || c == 3

/-- The floating-point format of a code; used for float codes only. -/
def codeFmt : Nat → Fmt
  | 0 => e2m1
  | 1 => e5m2
  | 2 | 3 => e4m3
  | 4 => bf16
  | 5 => fp16
  | 9 => fp64
  | _ => fp32

/-- Significand planes, or bits of an integer. -/
def codeWidth (c : Nat) : Nat := if fmtInt c then 8 else (codeFmt c).man + 1

/-- Bytes of an element's exponent in the exponent area. -/
def expBytes (c : Nat) : Nat := if fmtInt c then 0 else if c = 9 then 2 else 1

/-- Sign planes. -/
def signPlanes (c : Nat) : Nat := if fmtInt c then 0 else 1

/-- Bytes of a plane group (Table 11.2). -/
def groupBytes (c : Nat) : Nat :=
  64 * (signPlanes c + codeWidth c) + 512 * expBytes c + (if fmtMx c then 64 else 0)

/-- Bits of one raw element in memory. -/
def codeBits (c : Nat) : Nat := if fmtInt c then 8 else (codeFmt c).low + 1

/-- An element's value: an integer, or a float. -/
inductive Elem
  | int (i : Int)
  | flt (v : FVal)
  deriving DecidableEq, Repr

/-- A value times the E8M0 scale X (R238). -/
def scaleBy (x : Nat) : FVal → FVal
  | .fin n m e => if x = 255 then .nan false else .fin n m (e + x - 127)
  | v => if x = 255 then .nan false else v

/-- A value divided by 2^(X - 127). -/
def unscaleBy (x : Nat) : FVal → FVal
  | .fin n m e => .fin n m (e - (x - 127))
  | v => v

/-- The value of a raw element with scale X (127 where the format has none). -/
def elemOf (c x raw : Nat) : Elem :=
  if c = 6 then .int (sgn 8 raw)
  else if c = 7 then .int (raw % 256 : Nat)
  else .flt (if fmtMx c then scaleBy x ((codeFmt c).decode raw) else (codeFmt c).decode raw)

/-- An element as presented: FP32 rounded RNE, or i32 (R243). -/
def Elem.shown : Elem → Nat
  | .int i => trunc 32 i
  | .flt v => (fp32.narrow .rne false v).1

/-- A presented value as stored: Narrow with RNE and saturation, or a clamp (R243). -/
def storedOf (c x v : Nat) : Nat :=
  if c = 6 then trunc 8 (max (-128) (min 127 (sgn 32 v)))
  else if c = 7 then trunc 8 (max 0 (min 255 (sgn 32 v)))
  else if fmtMx c then
    if x = 255 then (if c = 0 then 0 else 0x7F)
    else ((codeFmt c).narrow .rne true (unscaleBy x (fp32.decode v))).1
  else ((codeFmt c).narrow .rne true (fp32.decode v)).1

/-! ## Plane form (R244) -/

/-- Bit j of the plane at off. -/
def planeBit (rd : Nat → Nat) (off j : Nat) : Nat := rd (off + j / 8) / 2 ^ (j % 8) % 2

/-- The significand of element j, most significant plane first, over n planes from off. -/
def planeSig (rd : Nat → Nat) (j : Nat) : Nat → Nat → Nat
  | _, 0 => 0
  | off, n + 1 => planeBit rd off j * 2 ^ n + planeSig rd j (off + 64) n

/-- Element j of the group that rd reads, its exponent field and significand as held; scales applied. -/
def planeElem (rd : Nat → Nat) (c j : Nat) : Elem :=
  let w := codeWidth c
  if fmtInt c then
    let v := planeSig rd j 0 w
    .int (if c = 6 then sgn 8 v else (v : Int))
  else
    let f := codeFmt c
    let neg := planeBit rd 0 j == 1
    let sig := planeSig rd j 64 w
    let ea := 64 * (1 + w) + expBytes c * j
    let e := if c = 9 then (rd ea + 256 * rd (ea + 1)) % 2 ^ 11 else rd ea % 2 ^ f.exp
    let man := sig % 2 ^ f.man
    let v : FVal :=
      if f.inf && e == 2 ^ f.exp - 1 then (if man = 0 then .inf neg else .nan false)
      else if f.oneNan && e == 2 ^ f.exp - 1 && man == 2 ^ f.man - 1 then .nan false
      else .fin neg sig (f.emin + max e 1 - 1)
    .flt (if fmtMx c then scaleBy (rd (64 * (1 + w) + 512 + j % 32)) v else v)

/-- The bits of a raw element of code c in plane form: offset in the group, bit, value; exponent bytes separately. -/
def planeBits (c j raw : Nat) : List (Nat × Nat × Nat) :=
  let w := codeWidth c
  let at_ := fun p => p * 64 + j / 8
  if fmtInt c then (List.range w).map fun p => (at_ p, j % 8, raw / 2 ^ (w - 1 - p) % 2)
  else
    let f := codeFmt c
    let e := raw / 2 ^ f.man % 2 ^ f.exp
    let sig := raw % 2 ^ f.man + (if e = 0 then 0 else 2 ^ f.man)
    (0 + j / 8, j % 8, raw / 2 ^ f.low % 2) ::
      (List.range w).map fun p => (at_ (1 + p), j % 8, sig / 2 ^ (w - 1 - p) % 2)

/-- The exponent bytes of a raw element: offset in the group and value. -/
def planeExp (c j raw : Nat) : List (Nat × Nat) :=
  let f := codeFmt c
  let e := raw / 2 ^ f.man % 2 ^ f.exp
  (List.range (expBytes c)).map fun b => (64 * (1 + codeWidth c) + expBytes c * j + b, e / 256 ^ b % 256)

/-- The offsets in its group that element j touches. -/
def planeTouch (c j : Nat) : List Nat :=
  (List.range (signPlanes c + codeWidth c)).map (fun p => p * 64 + j / 8) ++
    (List.range (expBytes c)).map fun b => 64 * (1 + codeWidth c) + expBytes c * j + b

/-! ## Coded FP8 streams (R246-R249) -/

/-- One byte of CRC-16, most significant bit first. -/
def crcBits (poly top : Nat) : Nat → Nat → Nat
  | 0, c => c
  | n + 1, c => crcBits poly top n (if c / top % 2 = 1 then (c * 2 % (2 * top)) ^^^ poly else c * 2 % (2 * top))

/-- CRC-16 of R246 over bytes. -/
def crc16 (bs : List Nat) : Nat := bs.foldl (fun c b => crcBits 0x1021 0x8000 8 (c ^^^ (b * 256))) 0xFFFF

/-- L(s) of a code-length word (R248). -/
def codeLen (t : Word) (s : Nat) : Nat := wbits t (4 * s + 3) (4 * s)

/-- Symbols with a code, by ascending length, then symbol. -/
def codeOrder (t : Word) : List Nat :=
  (List.range 9).flatMap fun l => if l = 0 then [] else (List.range 16).filter fun s => codeLen t s == l

/-- The canonical codes: symbol, length, code (R248). -/
def codesFrom (t : Word) : List Nat → Nat → Nat → List (Nat × Nat × Nat)
  | [], _, _ => []
  | s :: ss, prev, code =>
    let c := code * 2 ^ (codeLen t s - prev)
    (s, codeLen t s, c % 2 ^ codeLen t s) :: codesFrom t ss (codeLen t s) (c + 1)

/-- The codes of a table. -/
def codesOf (t : Word) : List (Nat × Nat × Nat) :=
  match codeOrder t with
  | [] => []
  | s :: ss => codesFrom t (s :: ss) (codeLen t s) 0

/-- A code-length word that CAST.TABLE accepts: no length above 8, a Kraft sum of at most 1 (R248). -/
def codeLensOk (t : Word) : Bool :=
  (List.range 16).all (fun s => decide (codeLen t s ≤ 8)) &&
    decide ((List.range 16).foldl (fun a s => a + (if codeLen t s = 0 then 0 else 2 ^ (8 - codeLen t s))) 0 ≤ 256)

/-- One symbol from a bit string: the code read so far and its length. -/
def symFrom (cs : List (Nat × Nat × Nat)) : Nat → Nat → Nat → List Bool → Option (Nat × List Bool)
  | 0, _, _, _ => none
  | _, _, _, [] => none
  | n + 1, len, code, b :: bs =>
    let code := code * 2 + b.toNat
    match cs.find? fun e => e.2.1 == len + 1 && e.2.2 == code with
    | some e => some (e.1, bs)
    | none => symFrom cs n (len + 1) code bs

/-- n symbols from a bit string. -/
def symsFrom (cs : List (Nat × Nat × Nat)) : Nat → List Bool → Option (List Nat × List Bool)
  | 0, bs => some ([], bs)
  | n + 1, bs => match symFrom cs 8 0 0 bs with
    | none => none
    | some (s, bs) => (symsFrom cs n bs).map fun r => (s :: r.1, r.2)

/-- The bits of a byte, bit 7 first. -/
def byteBits (b : Nat) : List Bool := [7, 6, 5, 4, 3, 2, 1, 0].map fun i => b.testBit i

/-- Decodes the block that rd reads from 0, with the tables of a caster: its E4M3 elements and its length, or the
cause of the first failing check (R249). -/
def codedBlock (rd : Nat → Nat) (tables : Nat → Word) : Except Nat (List Nat × Nat) :=
  let h := (List.range 8).foldl (fun a i => a + rd i * 256 ^ i) 0
  let count := bits h 14 8
  let clen := bits h 30 24
  if bits h 7 0 ≠ 0xC8 ∨ bits h 47 31 ≠ 0 ∨ bits h 15 15 ≠ 0 ∨ count = 0 ∨ 64 < count ∨ 64 < clen then .error 0x91
  else
    let t := tables (bits h 19 16)
    if t = 0 then .error 0x93
    else
      let raw := (List.range 32).map fun i => rd (8 + i)
      let coded := (List.range clen).map fun i => rd (40 + i)
      if crc16 ((List.range 6).map rd ++ raw ++ coded) ≠ bits h 63 48 then .error 0x90
      else match symsFrom (codesOf t) count (coded.flatMap byteBits) with
        | none => .error 0x92
        | some (ss, rest) =>
          if 8 ≤ rest.length ∨ rest.any id then .error 0x92
          else .ok (ss.zipIdx.map (fun (s, i) =>
              let nib := raw.getD (i / 2) 0 / 16 ^ (i % 2) % 16
              nib / 8 * 128 + (bits h 23 20 + s) % 16 * 8 + nib % 8),
            (40 + clen + 7) / 8 * 8)

/-- The bytes of a coded block that a reader reads: header, raw and coded sections. -/
def codedSpan (rd : Nat → Nat) : Nat := 40 + min 64 (rd 3 % 128)

/-! ## Views (R154, R239, R243, R245, R250) -/

/-- A byte of the memory of square sq. -/
def sqByte (m : Memory) (sq b : Nat) : Nat := (m.byte (sqLoc sq b)).toNat

/-- The format code a view presents (Table 8.6); view 9 takes it from the offset. -/
def viewCode (v off : Nat) : Nat :=
  match v with
  | 1 => 4
  | 2 => 5
  | 3 | 10 => 2
  | 4 => 1
  | 5 => 3
  | 6 => 0
  | 7 => 6
  | 8 => 7
  | _ => bits off 19 16

/-- The checks of one element's offset: R239 for view 5, R245 for view 9. (DEDUCED, unsafe: log 37) -/
def viewFault (v off : Nat) : Option Nat :=
  if v = 5 ∧ 0xF8000 ≤ off then some 0x26
  else if v = 9 then
    let f := bits off 19 16
    if 9 ≤ f then some 0x24
    else if 0x100000 < (bits off 15 11 + 1) * groupBytes f then some 0x26
    else none
  else none

/-- The E8M0 scale of the element at an offset of views 5 and 6. -/
def viewScale (m : Memory) (v sq off : Nat) : Nat :=
  if v = 5 ∨ v = 6 then sqByte m sq (0xF8000 + off / 32) else 127

/-- Element e of the coded stream from byte b of the square memory, over fuel blocks (R250). (DEDUCED, unsafe: log 37) -/
def codedElem (m : Memory) (sq : Nat) (tables : Nat → Word) : Nat → Nat → Nat → Except (Nat × Bool) Nat
  | 0, _, _ => .error (0x26, false)
  | n + 1, b, e =>
    let rd := fun i => sqByte m sq (b + i)
    if 0x100000 < b + 40 ∨ 0x100000 < b + codedSpan rd then .error (0x26, false)
    else if (List.range ((codedSpan rd + 7) / 8)).any fun i => m.isPois (sqLoc sq (b + 8 * i)) then .error (0, true)
    else match codedBlock rd tables with
      | .error c => .error (c, false)
      | .ok (es, len) => if e < es.length then .ok (es.getD e 0) else codedElem m sq tables n (b + len) (e - es.length)

/-- The value a view presents at a window offset: the presented bits, or a cause and whether it is a poisoned word. -/
def viewRead (m : Memory) (tables : Nat → Word) (v sq off : Nat) : Except (Nat × Bool) Nat :=
  match v with
  | 1 | 2 => .ok (elemOf (viewCode v off) 127 (sqByte m sq off + 256 * sqByte m sq (off + 1))).shown
  | 6 => .ok (elemOf 0 (viewScale m v sq off) (sqByte m sq (off / 2) / 16 ^ (off % 2) % 16)).shown
  | 9 =>
    let f := bits off 19 16
    .ok (planeElem (fun i => sqByte m sq (bits off 15 11 * groupBytes f + i)) f (bits off 10 2)).shown
  | 10 => (codedElem m sq tables 0x8000 0 (off / 4)).map fun raw => (elemOf 2 127 raw).shown
  | _ => .ok (elemOf (viewCode v off) (viewScale m v sq off) (sqByte m sq off)).shown

/-- The stored bytes of one element of a view (R154); those of view 10 lie in its coded block. -/
def viewTouch (v sq off : Nat) : List Nat :=
  match v with
  | 1 | 2 => [sqLoc sq off, sqLoc sq (off + 1)]
  | 6 => [sqLoc sq (off / 2)]
  | 9 =>
    let f := bits off 19 16
    (planeTouch f (bits off 10 2)).map fun i => sqLoc sq (bits off 15 11 * groupBytes f + i)
  | _ => [sqLoc sq off]

/-- The byte of the scale with which an element of an MX view is read: its shared scale, or that of the trailer of its plane
group (R239, R244). -/
def viewScaleAt (v sq off : Nat) : List Nat :=
  let f := bits off 19 16
  if v = 5 ∨ v = 6 then [sqLoc sq (0xF8000 + off / 32)]
  else if v = 9 ∧ fmtMx f then
    [sqLoc sq (bits off 15 11 * groupBytes f + 64 * (1 + codeWidth f) + 512 + bits off 10 2 % 32)]
  else []

/-- The stored bytes that a load of an element reads (R154): its own and its scale. -/
def viewSources (v sq off : Nat) : List Nat := viewTouch v sq off ++ viewScaleAt v sq off

/-- The stored bytes of the coded blocks that a walk to element e reads, from byte b of the square memory over fuel blocks
(R154, R250). -/
def codedTouch (m : Memory) (sq : Nat) (tables : Nat → Word) : Nat → Nat → Nat → List Nat
  | 0, _, _ => []
  | n + 1, b, e =>
    let rd := fun i => sqByte m sq (b + i)
    let here := ((List.range (codedSpan rd)).filter fun i => decide (b + i < 0x100000)).map fun i => sqLoc sq (b + i)
    match codedBlock rd tables with
    | .error _ => here
    | .ok (es, len) => if e < es.length then here else here ++ codedTouch m sq tables n (b + len) (e - es.length)

/-- Bytes to store: location, value, and whether the whole byte is written. -/
abbrev Cells := List (Nat × Byte × Bool)

/-- Writes the value a view presents at a window offset (R243, R245): the stored bytes after it. -/
def viewCells (m : Memory) (v sq off val : Nat) : Cells :=
  let b8 := fun (x : Nat) => BitVec.ofNat 8 x
  let raw := storedOf (viewCode v off) (viewScale m v sq off) val
  match v with
  | 1 | 2 => [(sqLoc sq off, b8 raw, true), (sqLoc sq (off + 1), b8 (raw / 256), true)]
  | 6 => [(sqLoc sq (off / 2), b8 (putBits (sqByte m sq (off / 2)) (off % 2 * 4 + 3) (off % 2 * 4) raw), false)]
  | 9 =>
    let f := bits off 19 16
    let g := bits off 15 11 * groupBytes f
    let x := if fmtMx f then sqByte m sq (g + 64 * (1 + codeWidth f) + 512 + bits off 10 2 % 32) else 127
    let raw := storedOf f x val
    (planeBits f (bits off 10 2) raw).map (fun (o, i, v) =>
      (sqLoc sq (g + o), b8 (putBits (sqByte m sq (g + o)) i i v), false)) ++
      (planeExp f (bits off 10 2) raw).map fun (o, v) => (sqLoc sq (g + o), b8 v, true)
  | _ => [(sqLoc sq off, b8 raw, true)]

/-- Puts bytes into memory. -/
def Memory.putCells (m : Memory) (cs : Cells) : Memory := cs.foldl (fun m c => m.setByte c.1 c.2.1) m

/-- The bytes that a view store of several lanes leaves, lane after lane; both nibbles of a byte written make it whole. -/
def viewStore (m : Memory) (v sq : Nat) : List (Nat × BitVec 32) → Cells → Cells
  | [], acc => acc
  | (off, val) :: ls, acc =>
    let cs := viewCells m v sq off val.toNat
    let m := m.putCells cs
    let acc := cs.foldl (fun (a : Cells) c =>
      match a.find? (·.1 == c.1) with
      | some old => a.map fun o => if o.1 == c.1 then (c.1, c.2.1, c.2.2 || old.2.2 || v == 6) else o
      | none => a ++ [c]) acc
    viewStore m v sq ls acc

end Sys2Proof.Machine
end

