-- ==== Sys2Proof/Machine/Access.lean ====
section
/-!
DEFINITION. Stores as they are built (R261, R312-R317, R321, R324, R326, R354, R355), what loads see of pending stores
(R181, R202, R269, R358), the port's stalls (R173, R380, Table 8.11) and the replay of a frame (R269).
-/

namespace Sys2Proof.Machine

/-! ## What a store writes -/

/-- A location that stands for a place: its own in the package, and one past every memory for a debug window or a byte of
another package. -/
def placeLoc : Place → Nat
  | .mem loc => loc
  | .debug c o => 2 ^ 50 + c * 2 ^ 24 + o
  | .peer p c o => 2 ^ 52 + p * 2 ^ 40 + c * 2 ^ 28 + o

/-- The eight bytes of a word as bytes to store. -/
def wordCells (loc : Nat) (v : Word) : Cells := (leBytes 8 v.toNat).zipIdx.map fun (b, i) => (loc + i, b, true)

/-- The image that BINIT writes (R321). -/
def binitImage (expa expb : Nat) : Nat := expa % 2 ^ 32 * 2 ^ 32 + expb % 2 ^ 32 * 2 ^ 64

/-- The bytes a part writes on memory m. -/
def Part.cellsOn (m : Memory) : Part → Cells
  | .raw _ cs => cs.map fun (l, b) => (l, b, true)
  | .elem v sq off x => viewStore m v sq [(off, x)] []

/-- The bytes a list of parts writes on memory m, in order; elements of one view may share a byte. -/
def partsCells (m : Memory) : List Part → Cells → Cells
  | [], acc => acc
  | .raw l cs :: ps, acc =>
    let cs := Part.cellsOn m (.raw l cs)
    partsCells (m.putCells cs) ps (acc.filter (fun a => !cs.any (·.1 == a.1)) ++ cs)
  | .elem v sq off x :: ps, acc =>
    let acc := viewStore m v sq [(off, x)] acc
    partsCells (m.putCells acc) ps acc

/-- The bytes an operation writes on memory m. -/
def SbOp.cellsOn (m : Memory) : SbOp → Cells
  | .data ps => partsCells m ps []
  | .stf loc v | .notify loc v _ => wordCells loc v
  | .binit loc a b => (leBytes 32 (binitImage a b)).zipIdx.map fun (x, i) => (loc + i, x, true)
  | .remote op _ => wordCells (placeLoc op.place) op.a
  | .feempty _ | .semset _ _ | .row _ _ | .fence _ _ => []

/-- The bytes a part touches through a port: the loop-back port, or the other (R202). -/
def Part.touch (loop : Bool) : Part → List Nat
  | .raw l cs => if l = loop then cs.map (·.1) else []
  | .elem v sq off _ => if loop then [] else viewTouch v sq off

/-- The bytes a store-buffer entry touches through a port. -/
def SbEntry.touch (e : SbEntry) (loop : Bool) : List Nat :=
  match e.op with
  | .data ps => ps.flatMap (Part.touch loop)
  | op => if e.loopback ≠ loop then [] else
    match op with
    | .stf loc _ | .notify loc _ _ => locRange loc 8
    | .binit loc _ _ => locRange loc 32
    | .remote op _ => locRange (placeLoc op.place) 8
    | _ => []

/-- The bytes a store-buffer entry touches through either port. -/
def SbEntry.touchAll (e : SbEntry) : List Nat := e.touch false ++ e.touch true

/-- The bytes an entry's access touches: those it writes, or the word of a FEEMPTY. -/
def SbEntry.reach (e : SbEntry) : List Nat :=
  match e.op with
  | .feempty loc => locRange loc 8
  | _ => e.touchAll

/-- The stores of an entry, in the order in which they are performed: a scatter's lanes one by one (R355, R358). -/
def SbEntry.narrow (e : SbEntry) : List SbEntry :=
  match e.op with
  | .data ps => if e.lanes.isEmpty then [e] else
      (ps.zip e.lanes).map fun x => { e with op := .data [x.1], ea := x.2.1, width := x.2.2, lanes := [] }
  | _ => [e]

/-- The address of the first store of an entry that meets a powered-off layer (Table 8.11). -/
def State.offAt (s : State) (e : SbEntry) : Option Nat := (e.narrow.find? (·.reach.any s.layerOff)).map (·.ea)

/-- A fence in the store buffer: no later access of its thread is performed before it (R188, R202). -/
def SbOp.isFence : SbOp → Bool
  | .fence _ _ => true
  | _ => false

/-- An operation that accesses memory, which a watchpoint can cover: no fence, no semaphore's value. (DEDUCED, unsafe: log 50) -/
def SbOp.accesses : SbOp → Bool
  | .fence _ _ | .semset _ _ => false
  | .data _ | .stf _ _ | .feempty _ | .notify _ _ _ | .binit _ _ _ | .remote _ _ | .row _ _ => true

/-- A store of the remote path. -/
def SbOp.isRemote : SbOp → Bool
  | .remote _ _ => true
  | _ => false

/-! ## The port of a core (R173, R380, Table 8.11) -/

/-- What the port does with an access; park names the command whose guard it meets. -/
inductive PortSays | go | wait | park (ticket : Nat) | off
  deriving DecidableEq, Repr

/-- Whether bytes overlap a scoreboard entry. -/
def Ranges.hits (r : Ranges) (locs : List Nat) : Bool :=
  r.ranges.any fun x => locs.any fun l => decide (x.1 ≤ l) && decide (l ≤ x.2)

/-- The port's answer to an ordinary access of core c that touches bytes: a powered-off layer, a layer powering on, the
D range of an MMA, a range of a command in flight. -/
def State.portSays (s : State) (c : Nat) (locs : List Nat) : PortSays :=
  if locs.any s.layerOff then .off
  else if locs.any s.layerBusy then .wait
  else match (s.core c).board.find? (·.hits locs) with
    | some r => if r.guard then .park r.ticket else .wait
    | none => .go

/-- The command whose guard lies over the bytes of a store (R380). -/
def State.guardOf (s : State) (c : Nat) (locs : List Nat) : Option Nat :=
  ((s.core c).board.find? fun r => r.guard && r.hits locs).map (·.ticket)

/-- Parks a thread on the guard of a command, whose end wakes it (R380). -/
def State.parkGuard (s : State) (c k ea ticket : Nat) : State :=
  let w := mkWaiter s c k ticket 7
  (s.park c k 7 ea).updCore c fun x => { x with semWaiters := x.semWaiters ++ [w] }

/-! ## Building stores -/

/-- What a class K instruction leaves, or its fault. -/
abbrev Built := Except FaultD Pend

/-- The entry of the instruction at the cursor, its operation to be filled in. -/
def State.entryOf (s : State) (l : Nat) : SbEntry :=
  { slot := s.ck, op := .data [], pc := s.cur.ctx.pc, index := s.ci, lsid := l, lid := tswLid s.cur.ctx.tsw
    tid := s.cur.tid }

/-- The remote operation of the instruction at the cursor. -/
def State.remOf (s : State) (kind : RemKind) (l : Nat) (place : Place) (ea : Nat) : RemOp :=
  { kind := kind, place := place, core := s.cc, slot := s.ck, fseq := s.cur.fseq, idx := s.ci, lsid := l
    lid := tswLid s.cur.ctx.tsw, priv := tswPriv s.cur.ctx.tsw, pc := s.cur.ctx.pc, ea := ea, tid := s.cur.tid }

/-- The bytes of a width. -/
def wBytes (w : Width) : Nat := wBits w / 8

/-- ST (R315). -/
def buildSt (w : Width) (rel : Bool) (l imm : Nat) (s : State) (a : Who) (t d : Tok) : Built × State :=
  if t.isNull || d.isNull then (.ok .nulled, s)
  else
    let n := wBytes w
    match ordAccess s a (mTok t.w imm n) n n .store (w == .w32) 1 none with
    | (.error f, s) => (.error f, s)
    | (.ok acc, s) =>
      let e := { s.entryOf l with rel := rel, ea := acc.ea, width := n, data := d.w.toNat % 2 ^ (8 * n) }
      match acc.view with
      | some (v, off) =>
        match viewFault v off with
        | some c => (.error { cause := c, addr := acc.ea }, s)
        | none => (.ok (.store { e with op := .data [.elem v (squareOf a.core) off (BitVec.ofNat 32 d.w.toNat)] }), s)
      | none => (.ok (.store { e with op := .data [.raw acc.loop (acc.locs.zip (leBytes n d.w.toNat))] }), s)

/-- The one-word synchronising stores: f makes the operation from the word's location. -/
def buildWord (l : Nat) (s : State) (a : Who) (t : Tok) (rel : Bool) (d : Nat) (f : Nat → SbOp) : Built × State :=
  match ordAccess s a t.w 8 8 .store false 1 (some 0x74) with
  | (.error e, s) => (.error e, s)
  | (.ok acc, s) =>
    (.ok (.store { s.entryOf l with
      rel := rel, op := f (acc.locs.headD 0), loopback := acc.loop, ea := acc.ea, width := 8, data := d }), s)

/-- STF (R317). -/
def buildStf (l : Nat) (s : State) (a : Who) (t d : Tok) : Built × State :=
  if t.isNull || d.isNull then (.ok .nulled, s) else buildWord l s a t true d.w.toNat (.stf · d.w)

/-- FEEMPTY (R317). -/
def buildFeempty (l : Nat) (s : State) (a : Who) (t : Tok) : Built × State :=
  if t.isNull then (.ok .nulled, s) else buildWord l s a t false 0 .feempty

/-- NOTIFY (R324). -/
def buildNotify (l : Nat) (c : Scope) (s : State) (a : Who) (t d : Tok) : Built × State :=
  if t.isNull || d.isNull then (.ok .nulled, s) else buildWord l s a t true d.w.toNat (.notify · d.w c)

/-- BINIT (R321, R323). -/
def buildBinit (l : Nat) (s : State) (a : Who) (t d : Tok) : Built × State :=
  if t.isNull || d.isNull then (.ok .nulled, s)
  else match barAccess s a t.w with
    | (.error e, s) => (.error e, s)
    | (.ok (ea, loc), s) =>
      (.ok (.store { s.entryOf l with
        op := .binit loc (wbits d.w 31 0) (wbits d.w 63 32), ea := ea, width := 32
        data := binitImage (wbits d.w 31 0) (wbits d.w 63 32) }), s)

/-- ROWOPEN and ROWCLOSE (R316): an address that is no vault byte leaves nothing to do. -/
def buildRow (opens : Bool) (l : Nat) (s : State) (a : Who) (t : Tok) : Built × State :=
  if t.isNull then (.ok .nulled, s)
  else match ordAccess s a t.w 1 1 .store false 1 (some 0) with
    | (.error e, s) => if e.cause = 0 then (.ok .done, s) else (.error e, s)
    | (.ok acc, s) =>
      let loc := acc.locs.headD 0
      if (vaultOf loc).isNone then (.ok .done, s)
      else (.ok (.store { s.entryOf l with op := .row opens loc, ea := acc.ea }), s)

/-- RST and RSTF (R326); only RST reaches a debug window (R325). -/
def buildRst (full : Bool) (c : Scope) (l : Nat) (s : State) (a : Who) (t d : Tok) : Built × State :=
  if t.isNull || d.isNull then (.ok .nulled, s)
  else match remAccess s a t.w 8 8 .rstore (!full) with
    | (.error e, s) => (.error e, s)
    | (.ok (ea, place), s) =>
      let op := { s.remOf (if full then .rstf else .rst) l place ea with a := d.w }
      (.ok (.store { s.entryOf l with rel := full, op := .remote op c, ea := ea, width := 8, data := d.w.toNat }), s)

/-- RPOST (R326). -/
def buildRpost (l : Nat) (s : State) (a : Who) (t d : Tok) : Built × State :=
  if t.isNull || d.isNull then (.ok .nulled, s)
  else match remAccess s a t.w 8 8 .rstore false with
    | (.error e, s) => (.error e, s)
    | (.ok (ea, place), s) => (.ok (.post { s.remOf .rpost l place ea with a := d.w }), s)

/-- The lanes of a vector token at a width: none where null. -/
def tokLanes (w : Width) (t : Tok) : List (Option Nat) := lanes (wBits w) t

/-- The fault of an element access through a view, at lane i of a vector access from off (R239, R245). -/
def laneFault (v off i : Nat) : Option Nat :=
  if v = 9 ∧ 511 < bits off 10 2 + i then some 0x26 else viewFault v (off + i * viewStep v)

/-- VST (R354). -/
def buildVst (w : Width) (l : Nat) (s : State) (a : Who) (t d : Tok) : Built × State :=
  let xs := tokLanes w d
  if t.isNull || xs.all Option.isNone then (.ok .nulled, s)
  else match ordAccess s a t.w 64 64 .store (w == .w32) 16 none with
    | (.error f, s) => (.error f, s)
    | (.ok acc, s) =>
      let data := (List.range 64).foldl (fun n i =>
        if d.nulls.toNat.testBit i then n else n + bits d.v.toNat (8 * i + 7) (8 * i) * 256 ^ i) 0
      let e := { s.entryOf l with ea := acc.ea, width := 64, data := data }
      match acc.view with
      | some (v, off) =>
        let fault := if v = 9 ∧ 511 < bits off 10 2 + 15 then some 0x26
          else xs.zipIdx.findSome? fun (x, i) => if x.isNone then none else laneFault v off i
        match fault with
        | some c => (.error { cause := c, addr := acc.ea }, s)
        | none =>
          let ps := xs.zipIdx.filterMap fun (x, i) =>
            x.map fun n => Part.elem v (squareOf a.core) (off + i * viewStep v) (BitVec.ofNat 32 n)
          (.ok (.store { e with op := .data ps }), s)
      | none =>
        let cs := (acc.locs.zip (leBytes 64 d.v.toNat)).zipIdx.filterMap fun (x, i) =>
          if d.nulls.toNat.testBit i then none else some x
        (.ok (.store { e with op := .data [.raw acc.loop cs] }), s)

/-- The token of lane x of a gather or scatter (R355). -/
def laneTok (w : Width) (t : Word) (x : Nat) : Word := t + wordOfInt (sgn (wBits w) x * wBytes w)

/-- One lane of a scatter: its part, or its fault. -/
def scatterLane (w : Width) (s : State) (a : Who) (t : Word) (v : Nat) : Except FaultD Part × State :=
  let n := wBytes w
  match ordAccess s a t n n .store (w == .w32) 1 none with
  | (.error f, s) => (.error f, s)
  | (.ok acc, s) =>
    match acc.view with
    | some (vw, off) => match viewFault vw off with
      | some c => (.error { cause := c, addr := acc.ea }, s)
      | none => (.ok (.elem vw (squareOf a.core) off (BitVec.ofNat 32 v)), s)
    | none => (.ok (.raw acc.loop (acc.locs.zip (leBytes n v))), s)

/-- The lanes of a scatter, in ascending order (R355). (DEDUCED, unsafe: log 57) -/
def scatter (w : Width) (a : Who) : State → List (Word × Nat) → Except FaultD (List Part) × State
  | s, [] => (.ok [], s)
  | s, (t, v) :: xs =>
    match scatterLane w s a t v with
    | (.error f, s) => (.error f, s)
    | (.ok p, s) => match scatter w a s xs with
      | (.error f, s) => (.error f, s)
      | (.ok ps, s) => (.ok (p :: ps), s)

/-- The effective address of a lane's token. -/
def tokEa (a : Who) (t : Word) : Nat := segBase (Tab.rd 0 a.segs (tokSeg t)) + tokOff t

/-- VSTS (R355). (DEDUCED, unsafe: log 57) -/
def buildVsts (w : Width) (l : Nat) (s : State) (a : Who) (t x d : Tok) : Built × State :=
  let todo := ((tokLanes w x).zip (tokLanes w d)).filterMap fun (i, v) =>
    match i, v with
    | some i, some v => some (laneTok w t.w i, v)
    | _, _ => none
  if t.isNull || todo.isEmpty then (.ok .nulled, s)
  else match scatter w a s todo with
    | (.error f, s) => (.error f, s)
    | (.ok ps, s) =>
      (.ok (.store { s.entryOf l with
        op := .data ps, ea := tokEa a (todo.headD (0, 0)).1, width := 64
        data := todo.foldl (fun n y => n * 2 ^ wBits w + y.2) 0
        lanes := todo.map fun y => (tokEa a y.1, wBytes w) }), s)

/-- What the class K instruction i that accesses memory leaves, from its tokens. -/
def buildOf (i : Instr) (s : State) (a : Who) (l r p : Tok) : Option (Built × State) :=
  match i with
  | .st _ n im rel w => some (buildSt w rel n im s a l r)
  | .stf _ n => some (buildStf n s a l r)
  | .feempty _ n => some (buildFeempty n s a l)
  | .notify _ n c => some (buildNotify n c s a l r)
  | .binit _ n => some (buildBinit n s a l r)
  | .rst _ n => some (buildRst false .die n s a l r)
  | .rstf _ n c => some (buildRst true c n s a l r)
  | .rpost _ n => some (buildRpost n s a l r)
  | .vst _ n w => some (buildVst w n s a l r)
  | .vsts n w => some (buildVsts w n s a l r p)
  | _ => none

/-! ## What a load waits for in its block (R269, R271) -/

/-- An instruction of class S below LSID l that has not returned (R271). -/
def Frame.syncBelow (f : Frame) (l : Nat) : Bool :=
  f.instrs.any fun (j, x) =>
    x.shape.cls == .sync && decide (x.shape.lsid.getD 0 < l) && f.fired.find? j != some true

/-- An instruction with an LSID below l that has not resolved: it has not fired. -/
def Frame.openBelow (f : Frame) (l : Nat) : Bool :=
  f.instrs.any fun (j, x) =>
    match x.shape.lsid with
    | some m => decide (m < l) && f.fired.find? j != some true
    | none => false

/-- A class K instruction below LSID l that has not been decided. -/
def Frame.storeBelow (f : Frame) (l : Nat) : Bool :=
  f.instrs.any fun (j, x) =>
    x.shape.cls == .commit && decide (x.shape.lsid.getD 0 < l) && (f.fired.find? j).isNone

/-- The bytes of the unfired stores below LSID l whose address has arrived while their data has not (R269). -/
def State.addressedBelow (s : State) (a : Who) (l : Nat) : List Nat :=
  let f := s.cur.frame
  f.instrs.flatMap fun (j, x) =>
    if x.shape.cls == .commit && decide (x.shape.lsid.getD 0 < l) && (f.fired.find? j).isNone then
      match f.input j 0, x with
      | some t, .vsts n w =>
        match f.input j 1 with
        | some y => match (buildVsts w n s a t y (.vec 0 0)).1 with
          | .ok (.store e) => e.touchAll
          | _ => []
        | none => []
      | some t, _ =>
        if t.isPoison || gather x.shape f j == .mismatch then []
        else match buildOf x s a t (.vec 0 0) (.val 0) with
          | some (.ok (.store e), _) => e.touchAll
          | _ => []
      | none, _ => []
    else []

/-- The stores of the block below LSID l that have fired, in ascending LSID. -/
def Frame.storesBelow (f : Frame) (l : Nat) : List SbEntry :=
  f.pend.filterMap fun e => match e.2 with
    | .store x => if e.1 < l then some x else none
    | _ => none

/-! ## What a load sees of pending stores -/

/-- An entry that carries a twin's RPOST through the gated buffer. -/
def SbEntry.isPost (e : SbEntry) : Bool :=
  match e.op with
  | .remote op _ => op.kind == .rpost
  | _ => false

/-- The committed stores of the thread in a slot that are not yet performed, newest first (R181, R225). -/
def State.ownEntries (s : State) (c k : Nat) : List SbEntry :=
  (match (s.slot c k).twin with
    | some t => t.gated.reverse
    | none => []) ++ ((s.core c).sb.filter (·.tid == (s.slot c k).tid)).reverse

/-- The thread in a slot has stores in the buffer of another core, which CTXSWAP has taken it from (R199). -/
def State.strays (s : State) (c k : Nat) : Bool :=
  s.cores.any fun e => e.1 != c && e.2.sb.any (·.tid == (s.slot c k).tid)

/-- A fence of the thread in a slot is not yet performed: no later access of the thread is (R188, R192, R202). -/
def State.fenced (s : State) (c k : Nat) : Bool := s.strays c k || (s.ownEntries c k).any (·.op.isFence)

/-- An operation of the full/empty family in the store buffer: no later access of its thread is performed before it (R180
item 4). -/
def SbOp.isFe : SbOp → Bool
  | .stf _ _ | .feempty _ => true
  | _ => false

/-- The bytes that an entry supplies to loads: those of a store that is not through a view. -/
def SbEntry.supplies (e : SbEntry) : Cells :=
  match e.op with
  | .data ps => if ps.all fun p => match p with
      | .raw _ _ => true
      | .elem _ _ _ _ => false
    then e.op.cellsOn {} else []
  | op => op.cellsOn {}

/-- What pending stores give a load of some bytes of one word. -/
inductive Seen | memory | hold | take (bs : List Byte)
  deriving DecidableEq, Repr

/-- The answer of the slot's entries, newest first, to a load of bytes ls of one word (R180, R181, R202). -/
def seenIn (remote loop : Bool) (ls : List Nat) : List SbEntry → Seen
  | [] => .memory
  | e :: es =>
    let word := fun (_ : Unit) => ls.any fun l => (e.touch loop).any fun t => t / 8 = l / 8
    if e.isPost then seenIn remote loop ls es
    else if e.op.isRemote ≠ remote then
      if word () || e.op.isFe then .hold else seenIn remote loop ls es
    else if !word () then (if e.op.isFe then .hold else seenIn remote loop ls es)
    else
      let cs := e.supplies
      if ls.all fun l => cs.any (·.1 == l) then
        .take (ls.map fun l => ((cs.find? (·.1 == l)).map (·.2.1)).getD 0)
      else .hold

/-- Groups locations by aligned word. -/
def byWord : List Nat → List (List Nat)
  | [] => []
  | l :: ls =>
    match byWord ls with
    | (x :: xs) :: gs => if x / 8 = l / 8 then (l :: x :: xs) :: gs else [l] :: (x :: xs) :: gs
    | gs => [l] :: gs

/-- The bytes of a load, word by word, each with whether it was read from a poisoned word; none while it waits. -/
def State.loadWords (s : State) (c k : Nat) (remote loop : Bool) : List (List Nat) → Option (List (Byte × Bool))
  | [] => some []
  | ls :: gs =>
    match seenIn remote loop ls (s.ownEntries c k) with
    | .hold => none
    | .take bs => (s.loadWords c k remote loop gs).map (bs.map (·, false) ++ ·)
    | .memory => (s.loadWords c k remote loop gs).map
        (ls.map (fun l => (s.portByte (s.accCore c k) (s.slot c k).tid l, s.mem.isPois l)) ++ ·)

/-- Lays the bytes of the block's own stores over those of a vector load; none while one writes part of a byte. -/
def overlay (m : Memory) (loop : Bool) (ls : List Nat) :
    List SbEntry → List (Byte × Bool) → Option (List (Byte × Bool))
  | [], bs => some bs
  | e :: es, bs =>
    if !ls.any (e.touch loop).contains then overlay m loop ls es bs
    else
      let cs := e.op.cellsOn m
      if ls.any fun l => cs.any fun c => c.1 == l && !c.2.2 then none
      else overlay m loop ls es ((ls.zip bs).map fun (l, b) => match cs.find? (·.1 == l) with
        | some c => (c.2.1, false)
        | none => b)

/-- What a load obtains. -/
inductive Loaded
  | wait
  | park (ea ticket : Nat)
  | bad (d : FaultD)
  | pois (ea : Nat)
  | ok (v : Nat)
  deriving DecidableEq, Repr

/-- A number from bytes, or the poison of one of them. -/
def loadedOf (ea : Nat) (bs : List (Byte × Bool)) : Loaded :=
  if bs.any (·.2) then .pois ea else .ok (leNat (bs.map (·.1)))

/-- A load of plain bytes at LSID l of the cursor's block (R181, R269, R358). -/
def State.loadBytes (s : State) (a : Who) (l : Nat) (vec remote loop : Bool) (ea : Nat) (ls : List Nat) : Loaded :=
  let f := s.cur.frame
  if (s.addressedBelow a l).any ls.contains then .wait
  else
    let mine := f.storesBelow l
    match if vec then none else mine.reverse.find? (fun e => ls.any (e.touch loop).contains) with
    | some e =>
      let cs := e.op.cellsOn s.mem
      if ls.all fun x => cs.any fun c => c.1 == x && c.2.2 then
        .ok (leNat (ls.map fun x => ((cs.find? (·.1 == x)).map (·.2.1)).getD 0))
      else .wait
    | none =>
      match s.loadWords s.cc s.ck remote loop (byWord ls) with
      | none => .wait
      | some bs => match overlay s.mem loop ls (if vec then mine else []) bs with
        | none => .wait
        | some bs => loadedOf ea bs

/-- The code tables of the caster of core c. (DEDUCED, unsafe: log 37) -/
def State.codeTables (s : State) (c : Nat) : Nat → Word := Tab.rd 0 (s.core c).tables

/-- The stored bytes that a load of a view's element reads (R154). -/
def State.elemReads (s : State) (a : Who) (v off : Nat) : List Nat :=
  if v = 10 then codedTouch s.mem (squareOf a.core) (s.codeTables a.core) 0x8000 0 (off / 4)
  else viewSources v (squareOf a.core) off

/-- Whether a store writes a byte as a whole. -/
def SbEntry.covers (m : Memory) (e : SbEntry) (x : Nat) : Bool := (e.op.cellsOn m).any fun c => c.1 == x && c.2.2

/-- Whether a store writes an element of a view: through the same view at the same offset, or each of its bytes. -/
def SbEntry.writesElem (m : Memory) (e : SbEntry) (v sq off : Nat) : Bool :=
  (match e.op with
    | .data ps => ps.any fun p => match p with
      | .elem w q o _ => w == v && q == sq && o == off
      | .raw _ _ => false
    | _ => false) || (viewTouch v sq off).all (e.covers m)

/-- Whether a scalar load of an element, which reads bytes ls, must wait for a store of its block (R269): the last one that overlaps it does not
cover it, or an earlier one overlaps its scale. -/
def State.elemHeld (s : State) (l v sq : Nat) (ls : List Nat) (off : Nat) : Bool :=
  match (s.cur.frame.storesBelow l).filter fun e => e.touchAll.any ls.contains with
  | [] => false
  | e :: es =>
    let last := es.getLastD e
    v == 10 || !last.writesElem s.mem v sq off ||
      ((e :: es).any fun x => x.touchAll.any (viewScaleAt v sq off).contains) && !(viewScaleAt v sq off).all (last.covers s.mem)

/-- Whether a load of an element reads a poisoned word of memory: not what a store of its block writes. -/
def State.elemPois (s : State) (l v sq off : Nat) : Bool :=
  let mine := s.cur.frame.storesBelow l
  (viewSources v sq off).any fun x => s.mem.isPois x && !mine.any (·.covers s.mem x) &&
    !((viewTouch v sq off).contains x && mine.any (·.writesElem s.mem v sq off))

/-- A load of elements of a view that reads bytes ls (R154, R243, R245, R250): one value per window offset, packed by 32
bits. A scalar one that a store of its block overlaps in part waits; a vector one takes what the stores write (R269, R358). -/
def State.loadView (s : State) (a : Who) (l : Nat) (vec : Bool) (ea v : Nat) (offs ls : List Nat) : Loaded :=
  let sq := squareOf a.core
  if (s.addressedBelow a l).any ls.contains || (s.ownEntries s.cc s.ck).any (fun e => e.op.isFe || e.touchAll.any ls.contains) ||
      (!vec && offs.any (s.elemHeld l v sq ls)) then .wait
  else
    let m := (s.cur.frame.storesBelow l).foldl (fun (m : Memory) e => m.putCells (e.op.cellsOn m)) s.mem
    if v ≠ 10 ∧ offs.any (s.elemPois l v sq) then .pois ea
    else offs.reverse.foldl (fun acc o =>
      match viewRead m (s.codeTables a.core) v sq o with
      | .error (_, true) => .pois ea
      | .error (c, false) => .bad { cause := c, addr := ea }
      | .ok x => match acc with
        | .ok n => .ok (n * 2 ^ 32 + x)
        | b => b) (.ok 0)

/-- An ordinary load through the port: its checks at the port, then the bytes or elements (R173, R380). -/
def State.loadAcc (s : State) (a : Who) (l : Nat) (vec : Bool) (acc : Acc) (n : Nat) : Loaded × List Nat :=
  match acc.view with
  | some (v, off) =>
    let offs := (List.range n).map fun i => off + i * viewStep v
    match (if v = 9 ∧ 511 < bits off 10 2 + (n - 1) then some 0x26 else offs.findSome? (viewFault v)) with
    | some c => (.bad { cause := c, addr := acc.ea }, [])
    | none =>
      let ls := offs.flatMap (s.elemReads a v)
      match s.portSays a.core ls with
      | .wait => (.wait, [])
      | .park n => (.park acc.ea n, [])
      | _ => (s.loadView a l vec acc.ea v offs ls, ls)
  | none =>
    match s.portSays a.core acc.locs with
    | .wait => (.wait, [])
    | .park n => (.park acc.ea n, [])
    | .off => (.bad { cause := 0x50, addr := acc.ea }, acc.locs)
    | .go => (s.loadBytes a l vec false acc.loop acc.ea acc.locs, acc.locs)

/-! ## Twin forwarding (R225) -/

/-- The key of a word's value in a twin's forwarded values. (DEDUCED, unsafe: log 24) -/
def fwdKey (x : Slot) (i : Nat) : Nat :=
  match x.twin with
  | some t => t.seq * 128 + i
  | none => i

/-- The cursor's thread is a shadow. -/
def State.isShadow (s : State) : Bool := tswShadow s.cur.ctx.tsw && tswTwin s.cur.ctx.tsw

/-- The value that the primary forwarded for the word at the cursor of a shadow. -/
def State.forwarded (s : State) : Option Tok :=
  match s.cur.twin with
  | some t => t.fwd.find? (fwdKey s.cur s.ci)
  | none => none

/-- A primary forwards the value of the word at the cursor to its shadow. -/
def State.forward (s : State) (x : Tok) : State :=
  if tswTwin s.cur.ctx.tsw && !tswShadow s.cur.ctx.tsw then
    match s.twinSlot s.cc s.ck with
    | some j => s.updSlot (twinCore s.cc) j fun y =>
        { y with twin := y.twin.map fun t => { t with fwd := t.fwd.put (fwdKey s.cur s.ci) x } }
    | none => s
  else s

/-- The instruction at the cursor fires with a value that came from outside the block; a primary forwards it. -/
def State.fireOut (s : State) (i : Instr) (x : Tok) : State := (s.forward x).fireWith i x 0

/-- f with the cursor at word i of the frame in slot k of core c. -/
def State.atWordOf (s : State) (c k i : Nat) (f : State → State) : State :=
  { f { s with cursor := { s.cursor with core := c, slot := k, word := i } } with cursor := s.cursor }

/-! ## Replay (R269) -/

/-- The frame executes again: its tokens go, and the loads named wait for every store below them. -/
def Frame.again (f : Frame) (waits : List Nat) : Frame :=
  { f with
    ops := [], regs := [], fired := [], issued := [], pend := [], loads := [], asked := [], exits := [], exit2 := none, faults := []
    checked := false, flags := 0, waitAll := f.waitAll ++ waits.filter (fun w => !f.waitAll.contains w) }

/-- Replays the block of the cursor's slot; reservations are released (R130), and a shadow's copy runs again too. -/
def State.replay (s : State) (waits : List Nat) : State :=
  let other := s.twinSlot s.cc s.ck
  let seq := s.cur.twin.map (·.seq)
  let s := (s.releaseResv s.cc s.ck).updCur fun x => { x with frame := x.frame.again waits, fseq := x.fseq + 1 }
  match other with
  | some j => s.updSlot (twinCore s.cc) j fun y =>
      if y.twin.map (·.seq) = seq then
        { y with frame := y.frame.again waits, fseq := y.fseq + 1
                 twin := y.twin.map fun t => { t with fwd := t.fwd.filter fun e => decide (e.1 < t.seq * 128) } }
      else y
  | none => s

/-- The loads above LSID l that read a byte a store writes (R269). -/
def Frame.overtaken (f : Frame) (l : Nat) (touch : List Nat) : List Nat :=
  (f.loads.filter fun e => decide (l < e.1) && e.2.reads.any touch.contains).map (·.1)

/-- A byte as a path gives it to the thread at the cursor: from its newest pending store on that path, or from memory
(R181). -/
def State.seesByte (s : State) (remote : Bool) (x : Nat) : Byte :=
  match (s.ownEntries s.cc s.ck).findSome? fun e =>
      if e.op.isRemote = remote then e.supplies.find? (·.1 == x) else none with
  | some c => c.2.1
  | none => if remote then s.byte x else s.portByte (s.accCore s.cc s.ck) s.cur.tid x

/-- The record of a load that has just read bytes ls (R179, R180). -/
def State.loadRec (s : State) (l : Nat) (remote : Bool) (ls : List Nat) : LoadRec :=
  let own := (s.cur.frame.storesBelow l).flatMap SbEntry.touchAll
  let pending := (s.ownEntries s.cc s.ck).flatMap SbEntry.touchAll
  let taken := ls.filter fun x => !own.contains x
  { remote := remote, reads := ls
    got := taken.map fun x => (x, s.seesByte remote x)
    home := (taken.filter fun x => pending.contains x && (vaultOf x).isNone).map fun x => (x, s.byte x) }

/-- Whether a load that has been performed would read another value now. -/
def State.outdated (s : State) (r : LoadRec) : Bool :=
  (r.got.any fun g => s.seesByte r.remote g.1 != g.2) || r.home.any fun g => s.byte g.1 != g.2

/-- The loads above LSID l of the cursor's block that a load of bytes ls at l shows to have been performed too early: what
they read is no longer what their path gives. Loads of one die are performed in program order (R180 item 3), and so are
loads of one word on one path (R179). -/
def State.staleLoads (s : State) (l : Nat) (remote : Bool) (ls : List Nat) : List Nat :=
  let d := dieOf s.cc
  let near := ls.any fun x => dieOfLoc x == d
  (s.cur.frame.loads.filter fun e =>
    decide (l < e.1) && s.outdated e.2 &&
      ((near && e.2.got.any fun g => dieOfLoc g.1 == d) ||
        (e.2.remote == remote && ls.any fun x => e.2.reads.any fun y => x / 8 == y / 8))).map (·.1)

/-- A load at LSID l fires with a token, having read bytes ls; a load above it that it shows to be too early runs again
with its block (R180). -/
def State.loadDone (s : State) (i : Instr) (l : Nat) (remote : Bool) (t : Tok) (ls : List Nat) : State :=
  if !s.cur.frame.lock && s.staleLoads l remote ls != [] then s.replay []
  else (s.fireOut i t).updF fun f => { f with loads := f.loads.put l (s.loadRec l remote ls) }

/-! ## The shape of loads and of stores -/

/-- What a load leaves: it waits, parks its thread on an MMA (R380), or fires with a token, having read bytes. -/
inductive LoadOut
  | wait
  | park (ea ticket : Nat)
  | tok (x : Tok) (reads : List Nat)
  deriving DecidableEq, Repr

/-- The poison of the access at the cursor (R267, R312). -/
def State.poisonOf (s : State) (d : FaultD) (mem : Bool) (l : Nat) : Tok :=
  .poison { d with index := s.ci, lsid := l, iv := true } mem

/-- The watchpoint fault of an access (R214). -/
def State.watch (s : State) (ea n l : Nat) (rd wr : Bool) : State :=
  if watchHit s s.cc ea n rd wr then
    s.updF fun f => f.addFault { cause := 0xD2, index := s.ci, lsid := l, addr := ea }
  else s

/-- A class L instruction with LSID l (R269): f performs it once its inputs have arrived. One that waits with its walk has
not fired (R162). -/
def loadOp (i : Instr) (l : Nat) (f : State → Who → Tok → Tok → LoadOut × State) (s : State) : State :=
  match gather i.shape s.cur.frame s.ci with
  | .wait => s
  | .mismatch => s.skipWord
  | .poison d m => s.fireWith i (.poison d m) 0
  | .null => s.fireWith i .null 0
  | .vals x y _ =>
    if s.isShadow then
      match s.forwarded with
      | some t => s.fireWith i t 0
      | none => s
    else
      let fr := s.cur.frame
      if x.isNull then s.fireWith i .null 0
      else if s.fenced s.cc s.ck then s
      else if fr.syncBelow l || (fr.waitAll.contains l && fr.storeBelow l) then s
      else match f s (s.who s.cc s.ck) x y with
        | (.wait, s) => s
        | (.park ea n, s) => s.parkGuard s.cc s.ck ea n
        | (.tok t ls, s) => if t.waits then s else s.loadDone i l false t ls

/-- The accesses of a store-buffer entry that a watchpoint sees, with their effective addresses: each lane of a scatter by
itself. -/
def SbEntry.watched (e : SbEntry) : List (Nat × Nat) := if e.lanes.isEmpty then [(e.ea, max 1 e.width)] else e.lanes

/-- The watchpoint over the accesses of a store: the first that it hits (R214). -/
def State.watchAll (s : State) (l : Nat) (xs : List (Nat × Nat)) : State :=
  match xs.find? fun x => watchHit s s.cc x.1 x.2 false true with
  | some x => s.watch x.1 x.2 l false true
  | none => s

/-- What a store that is built meets at its port: nothing, a layer that is off at an address, the guard of an MMA (R380). -/
inductive StoreGate
  | clear
  | off (ea : Nat)
  | guard (ticket : Nat)
  deriving DecidableEq, Repr

/-- What a store of the cursor's thread meets at its port. -/
def State.gateOf (s : State) (e : SbEntry) : StoreGate :=
  let rows := match e.op with
    | .row _ _ => true
    | _ => false
  let guarded := match e.op with
    | .binit _ _ _ | .remote _ _ => false
    | _ => true
  match if rows || e.op.isRemote then none else s.offAt e with
  | some ea => .off ea
  | none => match if guarded then s.guardOf (s.accCore s.cc s.ck) e.reach else none with
    | some n => .guard n
    | none => .clear

/-- A class K instruction with LSID l that has built its store (R269, R315): the guard of an MMA parks the thread
(R380), an overtaken load replays the block, a fault is held with the block. Under the lock all of this has been found
before (R273). -/
def State.leave (s : State) (l : Nat) (b : Built) : State :=
  let fire := fun (s : State) (p : Pend) => s.updF fun f => { f.mark s.ci true with pend := f.pend.put l p }
  match b with
  | .error d => fire (s.updF fun f => f.addFault { d with index := s.ci, lsid := l, iv := true }) .done
  | .ok (.store e) =>
    let lock := s.cur.frame.lock
    match if lock then .clear else s.gateOf e with
    | .off ea => fire (s.updF fun f => f.addFault { cause := 0x50, index := s.ci, lsid := l, addr := ea }) .done
    | .guard n => s.parkGuard s.cc s.ck e.ea n
    | .clear =>
      let hit := s.cur.frame.overtaken l e.touchAll
      if hit ≠ [] then s.replay hit
      else fire (if e.op.accesses && !lock then s.watchAll l e.watched else s) (.store e)
  | .ok (.post op) => fire (if s.cur.frame.lock then s else s.watch op.ea 8 l false true) (.post op)
  | .ok p => fire s p

/-- A class K instruction: nulled by a null, a fault held by poison; otherwise f builds its store. One that waits with its
walk has not fired (R162). -/
def storeOp (i : Instr) (l : Nat) (f : State → Who → Tok → Tok → Tok → Built × State) (s : State) : State :=
  match gather i.shape s.cur.frame s.ci with
  | .wait => s
  | .mismatch => s.skipWord
  | .poison _ _ => s.updF fun f => { f.mark s.ci true with pend := f.pend.put l .done }
  | .null => s.updF fun f => { f.mark s.ci true with pend := f.pend.put l .nulled }
  | .vals x y z =>
    match f s (s.who s.cc s.ck) x y z with
    | (.error d, s) => if d.waits then s else s.leave l (.error d)
    | (b, s) => s.leave l b

end Sys2Proof.Machine
end

