-- ==== Sys2Proof/Machine/Mould.lean ====
section
/-!
DEFINITION. The launch area in its launch's address space (R55), the identities of operations, the recording of a mould
and the enforcement of a replay (R228-R232).
-/

namespace Sys2Proof.Machine

/-! ## The launch area -/

/-- A byte of the virtual region of an address space that the dispenser reaches: its location, if the access is granted. A
leaf that names another package grants none. (DESIGN CHOICE, unsafe: log 74) -/
def State.vaLoc (s : State) (root va : Nat) (kind : AKind) : Option Nat :=
  if regionOf true va ≠ .virt then none
  else match walk s root va kind with
  | .ok (e, size) =>
    if !pageRights kind true e then none
    else match leafPhys s.pkg e va size with
      | .here loc => if s.layerOff loc then none else some loc
      | .far _ _ _ => none
  | .error _ => none

/-- An access by the dispenser waits for a layer that is powering on (R162). -/
def State.vaWaits (s : State) (root va : Nat) (kind : AKind) : Bool :=
  match walk s root va kind with
  | .ok (e, size) => match leafPhys s.pkg e va size with
    | .here loc => s.layerBusy loc
    | .far _ _ _ => false
  | .error d => d.waits

/-- The rows that an access by the dispenser opens (R158). -/
def State.touchVa (s : State) (root va : Nat) (kind : AKind) : State :=
  (walkReads s va [0, 1, 2, 3, 4] root ++ (s.vaLoc root va kind).toList).foldl State.touchRow s

/-- A range of an address space in which an access waits for a layer. -/
def State.rangeWaits (s : State) (root lo n : Nat) : Bool :=
  (List.range ((lo % 2 ^ 16 + n + 2 ^ 16 - 1) / 2 ^ 16)).any fun i =>
    s.vaWaits root (max lo (lo / 2 ^ 16 * 2 ^ 16 + i * 2 ^ 16)) .store

/-- A byte of the launch area of a launch, at an offset from its start (R55). -/
def State.areaLoc (s : State) (lid : Nat) (off : Int) : Option Nat :=
  let e := s.entry lid
  s.vaLoc e.root (trunc 56 (e.lrec.larea + off)) .store

/-- The location of reserve entry i (R124). -/
def State.reserveLoc (s : State) (lid i : Nat) : Option Nat := s.areaLoc lid (64 + 320 * i)

/-! ## Identities (R228) -/

/-- The identity of an operation of a slot. (DEDUCED, unsafe: log 60) -/
def identOf (c k residence ordinal : Nat) : Nat :=
  c % 2 ^ 13 * 2 ^ 47 + k % 4 * 2 ^ 45 + residence % 2 ^ 21 * 2 ^ 24 + ordinal % 2 ^ 24

/-- The identity of the next operation of the thread in a slot. (DEDUCED, unsafe: log 60) -/
def State.nextIdent (s : State) (c k : Nat) : Nat :=
  identOf c k (s.slot c k).residence (s.slot c k).ordinal

/-- Counts an operation of the thread in a slot. -/
def State.countOp (s : State) (c k : Nat) : State := s.updSlot c k fun x => { x with ordinal := x.ordinal + 1 }

/-! ## Units -/

/-- The stream of a core's claims, answers and times. (DEDUCED, unsafe: log 60) -/
def unitCore (c : Nat) : Nat := c

/-- The stream of a die's grants. (DEDUCED, unsafe: log 60) -/
def unitDie (d : Nat) : Nat := 0x10000 + d

/-- The stream of a vault's agent. (DEDUCED, unsafe: log 60) -/
def unitAgent (c : Nat) : Nat := 0x20000 + c

/-- The stream of a port. (DEDUCED, unsafe: log 60) -/
def unitPort (p : Nat) : Nat := 0x30000 + p

/-- The stream of a bank of a TCM or square memory. (DEDUCED, unsafe: log 60) -/
def unitBank (loc : Nat) : Nat := 2 ^ 24 + bankOf loc

/-! ## Recording (R229, R230) -/

/-- A class-F record of a die's dispenser (SRC 4), for the ring of quarter 0 of the die. (DEDUCED, unsafe: log 10) -/
def State.dieRecord (s : State) (d cause lid : Nat) : State :=
  s.send (.fault (4 * d) (mkRecord 0 0 0 cause lid 4 0 false 0 0 0 (4096 + 4 * d) s.time))

/-- The offset of the mould area from the launch area. -/
def mouldOff (r : LaunchRec) : Nat :=
  (r.larea + 64 + r.ctxres * 320 + 4095) / 4096 * 4096 - r.larea

/-- A reserve entry on a layer that is powering on. -/
def State.reserveWaits (s : State) (lid i : Nat) : Bool :=
  let e := s.entry lid
  s.rangeWaits e.root (trunc 56 ((e.lrec.larea + 64 + 320 * i : Nat) : Int)) 320

/-- Whether one of the next n entries of a launch's reserve lies on a layer that is powering on. -/
def State.nextWaits (s : State) (lid n : Nat) : Bool :=
  let e := s.entry lid
  (((List.range e.lrec.ctxres).filter fun i => !e.reserve.contains i).take n).any (s.reserveWaits lid)

/-- The mould's header, the place of the next chunk, or that where a unit writes, on a layer that is powering on. -/
def State.mouldWaits (s : State) (lid key : Nat) : Bool :=
  let e := s.entry lid
  let at_ := fun (off : Nat) => trunc 56 ((e.lrec.larea + mouldOff e.lrec + off : Nat) : Int)
  e.recording && (s.vaWaits e.root (at_ 0) .store || (match e.chunks.find? key with
    | some (off, _) => s.vaWaits e.root (at_ off) .store
    | none => false) || (match s.vaLoc e.root (at_ 0x10) .store with
    | some loc => s.vaWaits e.root (at_ (s.rdMem loc 8)) .store
    | none => false))

/-- A location of the mould area. -/
def State.mouldLoc (s : State) (lid off : Nat) : Option Nat := s.areaLoc lid (mouldOff (s.entry lid).lrec + off : Nat)

/-- An aligned word of the mould area; 0 where it is not mapped. -/
def State.mouldWord (s : State) (lid off : Nat) : Nat :=
  match s.mouldLoc lid off with
  | some loc => s.rdMem loc 8
  | none => 0

/-- Writes a word of the mould area. -/
def State.setMouldWord (s : State) (lid off v : Nat) : State :=
  match s.mouldLoc lid off with
  | some loc => s.dispWrite loc (word v)
  | none => s

/-- Sets a bit of header word 3, TRUNC or DIVERGED (Table 10.17). -/
def State.markMould (s : State) (lid bit : Nat) : State := s.setMouldWord lid 0x18 (s.mouldWord lid 0x18 ||| 2 ^ bit)

/-- A Pyzil header that recording accepts (R229, R230). -/
def State.mouldHeaderOk (s : State) (lid : Nat) : Bool :=
  let w := fun (i : Nat) => s.mouldWord lid (8 * i)
  w 0 == 0x1_4C5A_5950 && w 1 % 4096 == 0 && w 2 == 4096 && w 3 == 0 && w 4 == 0 && w 5 == 0 && w 6 == 0 && w 7 == 0

/-- A mould entry as 128 bits (Table 10.16). -/
def mouldBits (e : MouldEntry) : Nat :=
  e.kind % 2 ^ 4 * 2 ^ 124 + e.unit % 2 ^ 12 * 2 ^ 112 + e.a % 2 ^ 48 * 2 ^ 64 + e.b.toNat

/-- Writes one entry at an offset of the mould area and counts it. (DEDUCED, unsafe: log 17) -/
def State.putEntry (s : State) (lid off : Nat) (e : MouldEntry) : State :=
  let v := mouldBits e
  let s := (s.setMouldWord lid off (v % 2 ^ 64)).setMouldWord lid (off + 8) (v / 2 ^ 64)
  s.setMouldWord lid 0x28 (s.mouldWord lid 0x28 + 1)

/-- A unit claims its next chunk; none left stops recording (R230), with record 0xD6 (Table 10.5). -/
def State.claimChunk (s : State) (lid key unit : Nat) : State :=
  let next := s.mouldWord lid 0x10
  if s.mouldWord lid 8 < next + 4096 then
    ((s.markMould lid 0).updLaunch lid fun e => { e with recording := false }).dieRecord (lidDie lid) 0xD6 lid
  else
    let seq := Tab.rd 0 (s.entry lid).seqs key
    let s := (s.setMouldWord lid 0x10 (next + 4096)).putEntry lid next ⟨0, unit, seq, 0⟩
    s.updLaunch lid fun e => { e with seqs := e.seqs.put key (seq + 1), chunks := e.chunks.put key (next, 1) }

/-- Records an entry in a unit's stream. -/
def State.record (s : State) (lid key : Nat) (m : MouldEntry) : State :=
  let fullChunk := match (s.entry lid).chunks.find? key with
    | some (_, n) => decide (256 ≤ n)
    | none => true
  let s := if fullChunk then s.claimChunk lid key m.unit else s
  if !(s.entry lid).recording then s
  else match (s.entry lid).chunks.find? key with
    | some (off, n) =>
      (s.putEntry lid (off + 16 * n) m).updLaunch lid fun e => { e with chunks := e.chunks.put key (off, n + 1) }
    | none => s

/-! ## Replay (R231) -/

/-- The next entry that a unit of a replay expects. -/
def State.expects (s : State) (lid key : Nat) : Option MouldEntry := (Tab.rd [] (s.entry lid).units key).head?

/-- A unit of a replay has met its next entry. -/
def State.met (s : State) (lid key : Nat) : State :=
  s.updLaunch lid fun e =>
    { e with units := e.units.put key (Tab.rd [] e.units key).tail, unmetSince := e.unmetSince.put key s.time }

/-- Records an event of a unit, or under REPLAY lets it happen only in its turn; none holds it. -/
def State.tally (s : State) (lid key : Nat) (m : MouldEntry) : Option State :=
  if lid = 0 then some s
  else if (s.entry lid).enforcing then
    match s.expects lid key with
    | some x => if x = m then some (s.met lid key) else none
    | none => if (s.entry lid).trunc then some s else none
  else if s.mouldWaits lid key then none
  else if (s.entry lid).recording then some (s.record lid key m)
  else some s

/-- An atomic or full/empty operation that succeeds on a word of a TCM or square memory (kind 5). -/
def State.tallyBank (s : State) (lid loc ident : Nat) : Option State :=
  if loc < 2 ^ 39 then some s
  else s.tally lid (unitBank loc)
    ⟨5, ownerOf loc, (if loc < 2 ^ 40 then loc % 2 ^ 17 else 2 ^ 47 + loc % 2 ^ 20), word ident⟩

/-- A vault agent's application of a remote operation (kind 4); one on a TCM or square memory is of kind 5. (DEDUCED, unsafe: log 38) -/
def State.tallyAgent (s : State) (lid loc ident : Nat) : Option State :=
  match vaultOf loc with
  | some (c, off) => s.tally lid (unitAgent c) ⟨4, c, off, word ident⟩
  | none => s.tallyBank lid loc ident

/-- The ordinal of a unit's next event that carries one. -/
def State.nextOrd (s : State) (lid key : Nat) : Nat := Tab.rd 0 (s.entry lid).ords key

/-- Counts such an event of a launch. -/
def State.countOrd (s : State) (lid key : Nat) : State :=
  if lid = 0 then s else s.updLaunch lid fun e => { e with ords := e.ords.put key (Tab.rd 0 e.ords key + 1) }

/-- A core's claim of an inbound message or migration (kind 2). -/
def State.tallyClaim (s : State) (lid c ident : Nat) : Option State :=
  (s.tally lid (unitCore c) ⟨2, c, s.nextOrd lid (unitCore c), word ident⟩).map (·.countOrd lid (unitCore c))

/-- The answer to a SPAWN or CALLAT reservation (kind 3). -/
def State.tallyAnswer (s : State) (lid c : Nat) (bounced : Bool) (ident : Nat) : Option State :=
  s.tally lid (unitCore c) ⟨3, c, bounced.toNat, word ident⟩

end Sys2Proof.Machine
end

