-- ==== Sys2Proof/Machine/Perform.lean ====
section
/-!
DEFINITION. Synchronising reads (R271), performing operations (R273), scopes (Table 9.2), the full/empty family (R317),
atomics (R319, R327, R329, R357) and barrier objects (R139, R322) as they act on memory.
-/

namespace Sys2Proof.Machine

/-! ## What a thread has written (R179, R186) -/

/-- No unacknowledged write of the thread in a slot lies in the scope (R186 step 1). -/
def State.released (s : State) (c k : Nat) (x : Scope) : Bool :=
  !s.unack.any fun u => u.tid == (s.slot c k).tid && scopeHas c x u.place

/-- No unacknowledged write of thread t on core c before a place in program order lies in the scope. -/
def State.ackedBefore (s : State) (c t stamp : Nat) (x : Scope) : Bool :=
  !s.unack.any fun u => u.tid == t && decide (u.stamp < stamp) && scopeHas c x u.place

/-- Every store-buffer entry of the thread in a slot has been performed. -/
def State.drained (s : State) (c k : Nat) : Bool := (s.ownEntries c k).isEmpty && !s.strays c k

/-! ## Twin comparisons that an operation forces (R225) -/

/-- Whether the thread at the cursor must be compared before an operation that forces it. (DEDUCED, unsafe: log 24) -/
def State.mustCompare (s : State) : Bool :=
  match s.cur.twin with
  | some t => t.blocks != 0
  | none => false

/-- Forces a comparison of the pair at the cursor. -/
def State.forceCompare (s : State) : State :=
  s.updCur fun x => { x with twin := x.twin.map fun t => { t with forced := true } }

/-! ## The shapes of synchronising reads and performing operations -/

/-- What an operation at its home answers. -/
inductive Perf
  | wait
  | park (kind addr loc : Nat)
  | guard (ea ticket : Nat)
  | refuse (d : FaultD) (mem : Bool)
  | done (x : Tok) (flags : Nat)
  deriving DecidableEq, Repr

/-- Parks the cursor's thread on a word, an object or a semaphore, registering it in the same step (R121). -/
def State.parkOn (s : State) (kind addr loc : Nat) : State :=
  let w := mkWaiter s s.cc s.ck loc kind
  let c := s.cc
  let s := s.park c s.ck kind addr
  if kind = 5 then s.registerSem w else s.register w

/-- A class S instruction with LSID l (R271): performed once every lower LSID has resolved; its value is kept over a
replay. force: it forces a comparison of a twin pair. -/
def syncOp (i : Instr) (l : Nat) (force : Bool) (f : State → Who → Tok → Tok → Perf × State) (s : State) : State :=
  match gather i.shape s.cur.frame s.ci with
  | .wait => s
  | .mismatch => s.skipWord
  | .poison d m => s.fireWith i (.poison d m) 0
  | .null => s.fireWith i .null 0
  | .vals x y _ =>
    match s.cur.frame.kept.find? s.ci with
    | some t => s.fireWith i t 0
    | none =>
      if s.isShadow then
        match s.forwarded with
        | some t => s.fireWith i t 0
        | none => s
      else if x.isNull || y.isNull then s.fireWith i .null 0
      else if s.cur.frame.openBelow l || s.fenced s.cc s.ck then s
      else if force && s.mustCompare then s.forceCompare
      else match f s (s.who s.cc s.ck) x y with
        | (.wait, s) => s
        | (.park kind addr loc, s) => s.parkOn kind addr loc
        | (.guard ea n, s) => s.parkGuard s.cc s.ck ea n
        | (.refuse d m, s) =>
          let t := s.poisonOf d m l
          if d.waits then s else (s.fireOut i t).updF fun f => { f with kept := f.kept.put s.ci t }
        | (.done t _, s) => (s.fireOut i t).updF fun f => { f with kept := f.kept.put s.ci t }

/-- Resolves LSID l of the cursor's block. -/
def State.resolve (s : State) (l : Nat) (p : Pend) : State := s.updF fun f => { f with pend := f.pend.put l p }

/-- A class P instruction with LSID l (R273): its address is checked when its inputs have arrived (chk, which gives
what a watchpoint watches); it is performed at the lock (f). nulled: a data token that nulls it. -/
def performOp (i : Instr) (l : Nat) (force : Bool) (nulled : Tok → Bool)
    (chk : State → Who → Tok → Tok → Except FaultD (Option (Nat × Nat)) × State)
    (f : State → Who → Tok → Tok → Tok → Perf × State) (s : State) : State :=
  match gather i.shape s.cur.frame s.ci with
  | .wait => s
  | .mismatch => s.skipWord
  | .poison d m => (s.fireWith i (.poison d m) 0).resolve l .done
  | .null => (s.fireWith i .null 0).resolve l .nulled
  | .vals x y z =>
    if x.isNull || nulled y || z.isNull then (s.fireWith i .null 0).resolve l .nulled
    else if s.isShadow then
      match s.forwarded with
      | some t => (s.fireWith i t 0).resolve l .done
      | none => s
    else if !s.cur.frame.checked then
      match chk s (s.who s.cc s.ck) x y with
      | (.error d, s) =>
        if d.waits then s else (s.updF fun f => (f.addFault { d with index := s.ci, lsid := l, iv := true }).mark s.ci true).resolve l .done
      | (.ok w, s) =>
        let s := s.updF fun f => { f with checked := true }
        match w with
        | some (ea, n) => s.watch ea n l true true
        | none => s
    else if !s.cur.frame.lock then s
    else if force && s.mustCompare then s.forceCompare
    else match f s (s.who s.cc s.ck) x y z with
      | (.wait, s) => s
      | (.park kind addr loc, s) => s.parkOn kind addr loc
      | (.guard ea n, s) => s.parkGuard s.cc s.ck ea n
      | (.refuse d _, s) =>
        if d.waits then s else s.raiseOut s.cc s.ck { d with index := s.ci, lsid := l, iv := true }
      | (.done t fl, s) => ((s.forward t).fireWith i t fl).resolve l .done

/-- A synchronising read of n bytes at LSID l, which a watchpoint may watch once it is performed (R214). (DEDUCED, unsafe: log 50) -/
def watched (n l : Nat) (f : State → Nat → Nat → Perf × State) (s : State) (ea loc : Nat) : Perf × State :=
  match f s ea loc with
  | (.done t fl, s') => (.done t fl, s'.watch ea n l true false)
  | r => r

/-- A performing operation on one word or line of the ordinary path: the address check, and then the operation at the
word's location, after the port's stalls; a success is recorded, or waits its turn in a replay (R228, R231). -/
def wordPerform (n : Nat) (kind : AKind) (onView : Nat) (rel : Option Scope) (f : State → Nat → Nat → Perf × State)
    (s : State) (a : Who) (t : Tok) : Perf × State :=
  let tallied := fun (loc : Nat) (r : Perf × State) =>
    match r with
    | (.done x fl, s') =>
      match s'.tallyBank (tswLid s.cur.ctx.tsw) loc (s.nextIdent s.cc s.ck) with
      | some s' => ((Perf.done x fl, if (vaultOf loc).isNone then s'.countOp s.cc s.ck else s') : Perf × State)
      | none => (.wait, s)
    | r => r
  match ordAccess s a t.w n n kind false 1 (some onView) with
  | (.error d, s) => (.refuse d false, s)
  | (.ok acc, s) =>
    match s.portSays a.core acc.locs with
    | .wait => (.wait, s)
    | .park k => (.guard acc.ea k, s)
    | .off => (.refuse { cause := 0x50, addr := acc.ea } false, s)
    | .go =>
      if (match rel with
        | some x => s.released s.cc s.ck x
        | none => true) then tallied (acc.locs.headD 0) (f s acc.ea (acc.locs.headD 0)) else (.wait, s)

/-- The address check of such an operation. -/
def wordCheck (n : Nat) (kind : AKind) (onView : Nat) (s : State) (a : Who) (t : Tok) (_ : Tok) :
    Except FaultD (Option (Nat × Nat)) × State :=
  match ordAccess s a t.w n n kind false 1 (some onView) with
  | (.error d, s) => (.error d, s)
  | (.ok acc, s) => (.ok (some (acc.ea, n)), s)

/-! ## Words at their home -/

/-- Writes n bytes on the ordinary or remote path: no read buffer keeps the word. -/
def State.putBytes (s : State) (loc n v : Nat) : State := (s.wrMem loc n v).dropReadBufs [loc, loc + n - 1]

/-! An access opens its word's row whatever it finds there (R158). -/

/-- LDFE (R317). -/
def doLdfe (s : State) (ea loc : Nat) : Perf × State :=
  let t := s.touchRow loc
  if s.mem.isPois loc then (.refuse { cause := 0x61, addr := ea } false, t)
  else if !s.mem.isFull loc then (.park 1 ea loc, t)
  else (.done (.val (s.rdWord loc)) 0, ((t.setFull loc false).wakeWord loc [2]).acquireWord s.cur.tid loc)

/-- LDFF (R317). -/
def doLdff (s : State) (ea loc : Nat) : Perf × State :=
  let t := s.touchRow loc
  if s.mem.isPois loc then (.refuse { cause := 0x61, addr := ea } false, t)
  else if !s.mem.isFull loc then (.park 1 ea loc, t)
  else (.done (.val (s.rdWord loc)) 0, t.acquireWord s.cur.tid loc)

/-- FEPROBE (R317). -/
def doFeprobe (s : State) (ea loc : Nat) : Perf × State :=
  if s.mem.isPois loc then (.refuse { cause := 0x61, addr := ea } false, s.touchRow loc)
  else (.done (tokBool (s.mem.isFull loc)) 0, s.touchRow loc)

/-- STEF (R317). -/
def doStef (v : Word) (s : State) (ea loc : Nat) : Perf × State :=
  let t := s.touchRow loc
  if s.mem.isPois loc then (.refuse { cause := 0x61, addr := ea } false, t)
  else if s.mem.isFull loc then (.park 2 ea loc, t)
  else (.done (.val 0) 0, ((t.dropReadBufs [loc]).storeFull loc v).releaseWord s.cc s.cur.tid .die false loc)

/-- The result of an atomic operation on n bits: old o, operand r, new value p of a compare and swap; and FP flags
(R319). -/
def amoCalc (x : AmoOp) (n o r p : Nat) : Nat × Nat :=
  match x with
  | .add => ((o + r) % 2 ^ n, 0)
  | .and => (o &&& r, 0)
  | .or => (o ||| r, 0)
  | .xor => (o ^^^ r, 0)
  | .min => (minS n o r, 0)
  | .max => (maxS n o r, 0)
  | .minn => (min o r, 0)
  | .maxn => (max o r, 0)
  | .swap => (r, 0)
  | .cas => (if o = r then p else o, 0)
  | .fadd => fp64.add .rne o r

/-- An atomic operation on a word (R319, R327): the old value and FP flags; none on a poisoned word. -/
def State.amoAt (s : State) (x : AmoOp) (loc : Nat) (r p : Word) : Option (Word × Nat × State) :=
  if s.mem.isPois loc then none
  else
    let o := s.rdWord loc
    let (v, fl) := amoCalc x 64 o.toNat r.toNat p.toNat
    some (o, fl, ((s.putBytes loc 8 v).wakeLine loc).touchRow loc)

/-- AMO (R319). -/
def doAmo (x : AmoOp) (acq rel : Bool) (r p : Word) (s : State) (ea loc : Nat) : Perf × State :=
  match s.amoAt x loc r p with
  | none => (.refuse { cause := 0x61, addr := ea } false, s.touchRow loc)
  | some (o, fl, s') =>
    let s' := if acq then s'.acquireWord s.cur.tid loc else s'.noteRead none s.cur.tid loc
    (.done (.val o) fl, if rel then s'.releaseWord s.cc s.cur.tid .die true loc else s')

/-- A lane-wise atomic operation on a 64-byte line (R329, R357): the old line; none on a poisoned line. -/
def State.lineAt (s : State) (x : AmoOp) (w : Width) (loc : Nat) (t : Tok) : Option (Tok × State) :=
  if s.anyPois loc 64 then none
  else
    let old := s.rdMem loc 64
    let n := wBits w
    let new := (tokLanes w t).zipIdx.foldl (fun acc (v, i) =>
      match v with
      | some v => putBits acc (i * n + n - 1) (i * n) (amoCalc x n (bits old (i * n + n - 1) (i * n)) v 0).1
      | none => acc) old
    let s' := (s.wrMem loc 64 new).dropReadBufs ((List.range 8).map (loc + 8 * ·))
    some (.vec (BitVec.ofNat 512 old) 0, (s'.wakeLine loc).touchRow loc)

/-- VAMO (R357). -/
def doVamo (x : AmoOp) (w : Width) (t : Tok) (s : State) (ea loc : Nat) : Perf × State :=
  match s.lineAt x w loc t with
  | none => (.refuse { cause := 0x61, addr := ea } false, s.touchRow loc)
  | some (o, s) => (.done o 0, s)

/-- WAITA (R324). -/
def doWaita (r : Word) (s : State) (ea loc : Nat) : Perf × State :=
  let t := s.touchRow loc
  if s.mem.isPois loc then (.refuse { cause := 0x60, addr := ea } true, t)
  else if s.rdWord loc = r then (.park 3 ea loc, t)
  else (.done (.val (s.rdWord loc)) 0, t.acquireWord s.cur.tid loc)

/-! ## Barrier objects at their agent (R139, R140, R322) -/

/-- An operation on the object at a token's address: refused off its rules or on a poisoned word. -/
def barPerform (rel : Option Scope) (f : State → Nat → Nat → Perf × State) (s : State) (a : Who) (t : Tok) :
    Perf × State :=
  match barAccess s a t.w with
  | (.error d, s) => (.refuse d false, s)
  | (.ok (ea, loc), s) =>
    let bad := fun (c : Nat) => ((Perf.refuse { cause := c, addr := ea } false, s) : Perf × State)
    if s.layerOff loc then bad 0x50
    else if s.layerBusy loc then (.wait, s)
    else if !s.barrierOk loc then bad 0x70
    else if s.anyPois loc 32 then (.refuse { cause := 0x61, addr := ea } false, s.touchRow loc)
    else if (match rel with
      | some x => s.released s.cc s.ck x
      | none => true) then f (s.touchRow loc) ea loc else (.wait, s)

/-- The check of a barrier operation's address. -/
def barCheck (s : State) (a : Who) (t : Tok) (_ : Tok) : Except FaultD (Option (Nat × Nat)) × State :=
  match barAccess s a t.w with
  | (.error d, s) => (.error d, s)
  | (.ok (ea, _), s) => (.ok (some (ea, 32)), s)

/-- ARRIVE: NOT PHASE as found; GPH takes it at commit (R322). -/
def doArrive (x : Scope) (s : State) (ea loc : Nat) : Perf × State :=
  let b := s.barrier loc
  if bits b 31 0 = 2 ^ 32 - 1 then (.refuse { cause := 0x73, addr := ea } false, s)
  else
    let r := bits b 192 192 == 0
    let s := ((s.releaseObj s.cc s.cur.tid x loc).barrierPut loc (putBits b 31 0 (bits b 31 0 + 1))).updF fun f => { f with gph := some r }
    (.done (tokBool r) 0, s)

/-- JOIN: EXPA before the change (R322). -/
def doJoin (s : State) (ea loc : Nat) : Perf × State :=
  let b := s.barrier loc
  if bits b 63 32 = 2 ^ 32 - 1 then (.refuse { cause := 0x71, addr := ea } false, s)
  else (.done (.val (word (bits b 63 32))) 0, s.barrierPut loc (putBits b 63 32 (bits b 63 32 + 1)))

/-- LEAVE: EXPA before the change (R322). -/
def doLeave (s : State) (ea loc : Nat) : Perf × State :=
  let b := s.barrier loc
  if bits b 63 32 = 0 then (.refuse { cause := 0x72, addr := ea } false, s)
  else (.done (.val (word (bits b 63 32))) 0, s.barrierPut loc (putBits b 63 32 (bits b 63 32 - 1)))

/-- Sets or clears GW of the cursor's thread (R140). -/
def State.setGw (s : State) (b : Bool) : State :=
  s.updCur fun x => { x with ctx := { x.ctx with tsw := wput x.ctx.tsw 33 33 b.toNat } }

/-- The cursor's thread has read the word of an object that holds its phase (R179). -/
def State.readPhase (s : State) (loc : Nat) : State := s.noteRead none s.cur.tid (loc + 24)

/-- BWAIT (R322). -/
def doBwait (s : State) (ea loc : Nat) : Perf × State :=
  let b := s.barrier loc
  let t := s.readPhase loc
  if bits b 192 192 = (tswGph s.cur.ctx.tsw).toNat then
    (.done (.val (word (bits b 255 224))) 0, (t.setGw false).acquireObj s.cur.tid loc)
  else (.park 4 ea loc, t.setGw true)

/-- BTEST (R322). -/
def doBtest (s : State) (_ea loc : Nat) : Perf × State :=
  let t := s.readPhase loc
  if bits (s.barrier loc) 192 192 = (tswGph s.cur.ctx.tsw).toNat then (.done (tokBool true) 0, t.acquireObj s.cur.tid loc)
  else (.done (tokBool false) 0, t)

end Sys2Proof.Machine
end

