-- ==== Sys2Proof/Machine/Memory.lean ====
section
/-!
DEFINITION. Loads and stores (R314, R315), row control (R316), the full/empty family (R317), local atomics (R319), vector
memory instructions (R353-R357).
-/

namespace Sys2Proof.Machine

/-! ## Loads -/

/-- A loaded value as a scalar of n bits, sign-extended or not (R314). -/
def extend (n : Nat) (signed : Bool) (v : Nat) : Word := if signed then wordOfInt (sgn n v) else word v

/-- The bytes of the window or of memory that an access reaches from its address. -/
def Acc.span (acc : Acc) (lanes : Nat) : Nat :=
  match acc.view with
  | some (v, _) => viewStep v * lanes
  | none => acc.locs.length

/-- The outcome of a load: the token that g makes of its value, or poison (R267, R312). -/
def loadOut (s : State) (l : Nat) (g : Nat → Tok) : Loaded × List Nat → LoadOut
  | (.wait, _) => .wait
  | (.park a n, _) => .park a n
  | (.bad d, ls) => .tok (s.poisonOf d false l) ls
  | (.pois a, ls) => .tok (s.poisonOf { cause := 0x60, addr := a } true l) ls
  | (.ok v, ls) => .tok (g v) ls

/-- The cursor's thread has read bytes through its core's port: their rows open (R158), and it observes what it has read. -/
def State.notePort (s : State) (acc : Acc) (ls : List Nat) : State :=
  if acc.view.isSome ∨ ls = [] then s
  else (((ls.map wordLoc).eraseDups).foldl
    (fun s x => s.noteRead (some (s.accCore s.cc s.ck)) s.cur.tid x) s).touchRow (acc.locs.headD (2 ^ 39))

/-- Marks what a load that was performed has read, and its watchpoint. -/
def State.loaded (s : State) (acc : Acc) (lanes l : Nat) : LoadOut → State
  | .tok (.val _) ls | .tok (.vec _ _) ls => (s.notePort acc ls).watch acc.ea (acc.span lanes) l true false
  | .tok _ ls => s.notePort acc ls
  | _ => s

/-- A scalar load of n bytes through token t (R314). -/
def scalarLoad (w : Width) (signed : Bool) (l imm : Nat) (s : State) (a : Who) (t _r : Tok) : LoadOut × State :=
  let n := wBytes w
  match ordAccess s a (mTok t.w imm n) n n .load (w == .w32) 1 none with
  | (.error d, s) => (.tok (s.poisonOf d false l) [], s)
  | (.ok acc, s) =>
    let o := loadOut s l (fun v => .val (extend (8 * n) signed v)) (s.loadAcc a l false acc 1)
    (o, s.loaded acc 1 l o)

/-- LD, zero-extending (R314). -/
def execLd (w : Width) (p : Pr) (l i t : Nat) (s : State) : Res :=
  .next (loadOp (.ld w p l i t) l (scalarLoad w false l i) s)

/-- LD, sign-extending (R314). -/
def execLdS (w : Width) (p : Pr) (l i t : Nat) (s : State) : Res :=
  .next (loadOp (.ldS w p l i t) l (scalarLoad w true l i) s)

/-- LD.d.acq: the load as an acquire (R271, R314). -/
def doLdAcq (l i : Nat) (s : State) (a : Who) (t r : Tok) : Perf × State :=
  match scalarLoad .w64 false l i s a t r with
  | (.wait, s) => (.wait, s)
  | (.park ea n, s) => (.guard ea n, s)
  | (.tok (.poison d m) _, s) => (.refuse d m, s)
  | (.tok x ls, s) => (.done x 0, s.acquireWord s.cur.tid (ls.headD 0))

/-- LD.d.acq (R314). -/
def execLdDAcq (p : Pr) (l i t : Nat) (s : State) : Res :=
  .next (syncOp (.ldDAcq p l i t) l false (doLdAcq l i) s)

/-! ## Stores and row control -/

/-- ST (R315). -/
def execSt (p : Pr) (l i : Nat) (rel : Bool) (w : Width) (s : State) : Res :=
  .next (storeOp (.st p l i rel w) l (fun s a x y _ => buildSt w rel l i s a x y) s)

/-- ROWOPEN (R316). -/
def execRowopen (p : Pr) (l : Nat) (s : State) : Res :=
  .next (storeOp (.rowopen p l) l (fun s a x _ _ => buildRow true l s a x) s)

/-- ROWCLOSE (R316). -/
def execRowclose (p : Pr) (l : Nat) (s : State) : Res :=
  .next (storeOp (.rowclose p l) l (fun s a x _ _ => buildRow false l s a x) s)

/-! ## The full/empty family -/

/-- An S operation on a word, once the slot's stores are performed (R180 items 2 and 4). -/
def wordSync (l : Nat) (kind : AKind) (f : State → Nat → Nat → Perf × State) (s : State) (a : Who) (t : Tok) :
    Perf × State :=
  if s.drained s.cc s.ck then wordPerform 8 kind 0x74 none (watched 8 l f) s a t else (.wait, s)

/-- LDFE (R317). -/
def execLdfe (p : Pr) (l t : Nat) (s : State) : Res :=
  .next (performOp (.ldfe p l t) l true (fun _ => false) (wordCheck 8 .atomic 0x74)
    (fun s a x _ _ => wordPerform 8 .atomic 0x74 none doLdfe s a x) s)

/-- LDFF (R317). -/
def execLdff (p : Pr) (l t : Nat) (s : State) : Res :=
  .next (syncOp (.ldff p l t) l true (fun s a x _ => wordSync l .load doLdff s a x) s)

/-- FEPROBE (R317). -/
def execFeprobe (p : Pr) (l t : Nat) (s : State) : Res :=
  .next (syncOp (.feprobe p l t) l true (fun s a x _ => wordSync l .load doFeprobe s a x) s)

/-- STEF (R317), a release at scope DIE. -/
def execStef (p : Pr) (l : Nat) (s : State) : Res :=
  .next (performOp (.stef p l) l true Tok.isNull (wordCheck 8 .store 0x74)
    (fun s a x y _ => wordPerform 8 .store 0x74 (some .die) (doStef y.w) s a x) s)

/-- STF (R317). -/
def execStf (p : Pr) (l : Nat) (s : State) : Res :=
  .next (storeOp (.stf p l) l (fun s a x y _ => buildStf l s a x y) s)

/-- FEEMPTY (R317). -/
def execFeempty (p : Pr) (l : Nat) (s : State) : Res :=
  .next (storeOp (.feempty p l) l (fun s a x _ _ => buildFeempty l s a x) s)

/-! ## Local atomics -/

/-- AMO (R319). -/
def execAmo (p : Pr) (l : Nat) (x : AmoOp) (acq rel : Bool) (t : Nat) (s : State) : Res :=
  .next (performOp (.amo p l x acq rel t) l true Tok.isNull (wordCheck 8 .atomic 0x24)
    (fun s a u y z => wordPerform 8 .atomic 0x24 (if rel then some .die else none) (doAmo x acq rel y.w z.w) s a u) s)

/-- All lanes of an operand are null (R329, R357). -/
def lineNull (w : Width) (t : Tok) : Bool := (tokLanes w t).all Option.isNone

/-- VAMO (R357). -/
def execVamo (p : Pr) (l : Nat) (w : Width) (x : AmoOp) (t : Nat) (s : State) : Res :=
  .next (performOp (.vamo p l w x t) l true (lineNull w) (wordCheck 64 .atomic 0x24)
    (fun s a u y _ => wordPerform 64 .atomic 0x24 none (doVamo x w y) s a u) s)

/-! ## Vector loads and stores -/

/-- VLD (R354). -/
def vectorLoad (w : Width) (l : Nat) (s : State) (a : Who) (t _r : Tok) : LoadOut × State :=
  match ordAccess s a t.w 64 64 .load (w == .w32) 16 none with
  | (.error d, s) => (.tok (s.poisonOf d false l) [], s)
  | (.ok acc, s) =>
    let o := loadOut s l (fun v => .vec (BitVec.ofNat 512 v) 0) (s.loadAcc a l true acc 16)
    (o, s.loaded acc 16 l o)

/-- VLD (R354). -/
def execVld (p : Pr) (l : Nat) (w : Width) (t : Nat) (s : State) : Res :=
  .next (loadOp (.vld p l w t) l (vectorLoad w l) s)

/-- VST (R354). -/
def execVst (p : Pr) (l : Nat) (w : Width) (s : State) : Res :=
  .next (storeOp (.vst p l w) l (fun s a x y _ => buildVst w l s a x y) s)

/-- What the lanes of a gather give: a lane that waits or parks, the poison of the lowest failing lane, or the values and
the bytes read. -/
inductive Gathered
  | stop (o : LoadOut)
  | all (xs : List (Option Nat)) (reads : List Nat)
  deriving DecidableEq, Repr

/-- Loads one lane of w/8 bytes at token t (R355). -/
def gatherLane (w : Width) (l : Nat) (a : Who) (s : State) (t : Word) : (LoadOut × List Nat) × State :=
  let n := wBytes w
  match ordAccess s a t n n .load (w == .w32) 1 none with
  | (.error d, s) => ((.tok (s.poisonOf d false l) [], []), s)
  | (.ok acc, s) =>
    let x := s.loadAcc a l true acc 1
    let o := loadOut s l (fun v => .val (word v)) x
    ((o, x.2), s.loaded acc 1 l o)

/-- The lowest lane whose address fails a check, among the lanes that are read (R355). -/
def gatherBad (w : Width) (a : Who) : State → List (Option Word) → Option FaultD × State
  | s, [] => (none, s)
  | s, none :: ts => gatherBad w a s ts
  | s, some t :: ts =>
    match ordAccess s a t (wBytes w) (wBytes w) .load (w == .w32) 1 none with
    | (.error d, s) => (some d, s)
    | (.ok acc, s) =>
      match acc.view.bind fun v => viewFault v.1 v.2 with
      | some c => (some { cause := c, addr := acc.ea }, s)
      | none => gatherBad w a s ts

/-- Loads the lanes of a gather in ascending order (R355, R356). -/
def gatherLanes (w : Width) (l : Nat) (a : Who) : State → List (Option Word) → Gathered × State
  | s, [] => (.all [] [], s)
  | s, none :: ts =>
    match gatherLanes w l a s ts with
    | (.all xs ls, s) => (.all (none :: xs) ls, s)
    | r => r
  | s, some t :: ts =>
    match gatherLane w l a s t with
    | ((.tok (.val v) _, ls), s) =>
      match gatherLanes w l a s ts with
      | (.all xs ls', s) => (.all (some v.toNat :: xs) (ls ++ ls'), s)
      | r => r
    | ((o, _), s) => (.stop o, s)

/-- A gather: a lane that fails its check makes the whole token poison, before any lane is read (R355, R356). -/
def gatherTok (w : Width) (l : Nat) (s : State) (a : Who) (ts : List (Option Word)) (pad : List (Option Nat)) :
    LoadOut × State :=
  match gatherBad w a s ts with
  | (some d, s) => (.tok (s.poisonOf d false l) [], s)
  | (none, s) =>
    match gatherLanes w l a s ts with
    | (.stop o, s) => (o, s)
    | (.all xs ls, s) => (.tok (vecTok (wBits w) (xs ++ pad)) ls, s)

/-- VLDG (R355). -/
def vectorGather (w : Width) (l : Nat) (s : State) (a : Who) (t r : Tok) : LoadOut × State :=
  if t.isNull then (.tok .null [], s)
  else gatherTok w l s a ((tokLanes w r).map fun x => x.map (laneTok w t.w)) []

/-- VLDG (R355). -/
def execVldg (p : Pr) (l : Nat) (w : Width) (t : Nat) (s : State) : Res :=
  .next (loadOp (.vldg p l w t) l (vectorGather w l) s)

/-- VSTS (R355). -/
def execVsts (l : Nat) (w : Width) (s : State) : Res :=
  .next (storeOp (.vsts l w) l (fun s a x y z => buildVsts w l s a x y z) s)

/-- The token of element i of a tile column (R356, Table 15.7). -/
def columnTok (w : Width) (t shape : Word) (i : Nat) : Word :=
  t + wordOfInt (i * sgn 32 (wbits shape 63 32)) + word (wbits shape 3 0 * wBytes w)

/-- VTLD (R356). -/
def vectorColumn (w : Width) (l : Nat) (s : State) (a : Who) (t r : Tok) : LoadOut × State :=
  if t.isNull || r.isNull then (.tok .null [], s)
  else gatherTok w l s a ((List.range 16).map fun i => some (columnTok w t.w r.w i))
    (List.replicate (512 / wBits w - 16) (some 0))

/-- VTLD (R356). -/
def execVtld (p : Pr) (l : Nat) (w : Width) (t : Nat) (s : State) : Res :=
  .next (loadOp (.vtld p l w t) l (vectorColumn w l) s)

end Sys2Proof.Machine
end

