-- ==== Sys2Proof/Machine/Sync.lean ====
section
/-!
DEFINITION. Barriers and groups (R321-R323), WAITA and NOTIFY (R324), fences (R320), semaphores (R368-R370) and the
thread and time queries (R332).
-/

namespace Sys2Proof.Machine

/-! ## Barriers and groups -/

/-- BINIT (R321). -/
def execBinit (p : Pr) (l : Nat) (s : State) : Res :=
  .next (storeOp (.binit p l) l (fun s a x y _ => buildBinit l s a x y) s)

/-- ARRIVE, a release at its scope (R322). -/
def execArrive (p : Pr) (l : Nat) (c : Scope) (t : Nat) (s : State) : Res :=
  .next (performOp (.arrive p l c t) l true (fun _ => false) barCheck
    (fun s a x _ _ => barPerform (some c) (doArrive c) s a x) s)

/-- A synchronising read of a barrier object, once the slot's stores are performed. -/
def barSync (l : Nat) (f : State → Nat → Nat → Perf × State) (s : State) (a : Who) (t : Tok) : Perf × State :=
  if s.drained s.cc s.ck then barPerform none (watched 32 l f) s a t else (.wait, s)

/-- BWAIT (R322). -/
def execBwait (p : Pr) (l t : Nat) (s : State) : Res :=
  .next (syncOp (.bwait p l t) l false (fun s a x _ => barSync l doBwait s a x) s)

/-- BTEST (R322). -/
def execBtest (p : Pr) (l t : Nat) (s : State) : Res :=
  .next (syncOp (.btest p l t) l false (fun s a x _ => barSync l doBtest s a x) s)

/-- JOIN (R322). -/
def execJoin (p : Pr) (l t : Nat) (s : State) : Res :=
  .next (performOp (.join p l t) l false (fun _ => false) barCheck
    (fun s a x _ _ => barPerform none doJoin s a x) s)

/-- LEAVE (R322). -/
def execLeave (p : Pr) (l t : Nat) (s : State) : Res :=
  .next (performOp (.leave p l t) l false (fun _ => false) barCheck
    (fun s a x _ _ => barPerform none doLeave s a x) s)

/-! ## WAITA, NOTIFY and fences -/

/-- WAITA's read of its word at the port (R324): no recorded operation. -/
def waitaAt (l : Nat) (r : Word) (s : State) (a : Who) (t : Tok) : Perf × State :=
  match ordAccess s a t.w 8 8 .load false 1 (some 0x74) with
  | (.error d, s) => (.refuse d false, s)
  | (.ok acc, s) =>
    match s.portSays a.core acc.locs with
    | .wait => (.wait, s)
    | .park k => (.guard acc.ea k, s)
    | .off => (.refuse { cause := 0x50, addr := acc.ea } false, s)
    | .go => watched 8 l (doWaita r) s acc.ea (acc.locs.headD 0)

/-- WAITA (R324). -/
def execWaita (p : Pr) (l t : Nat) (s : State) : Res :=
  .next (syncOp (.waita p l t) l false
    (fun s a x y => if s.drained s.cc s.ck then waitaAt l y.w s a x else (.wait, s)) s)

/-- NOTIFY (R324). -/
def execNotify (p : Pr) (l : Nat) (c : Scope) (s : State) : Res :=
  .next (storeOp (.notify p l c) l (fun s a x y _ => buildNotify l c s a x y) s)

/-- A fence of the block, for the store buffer (R272, R320). kind 0 FENCE, 1 FENCE.XP, 2 FENCE.LOOP. -/
def fenceOp (i : Instr) (l kind : Nat) (c : Scope) (s : State) : State :=
  storeOp i l (fun s _ _ _ _ => (.ok (.store { s.entryOf l with op := .fence kind c }), s)) s

/-- FENCE (R188, R320). -/
def execFence (p : Pr) (l : Nat) (c : Scope) (s : State) : Res := .next (fenceOp (.fence p l c) l 0 c s)

/-- FENCE.XP (R192, R320). -/
def execFenceXp (p : Pr) (l : Nat) (c : Scope) (s : State) : Res := .next (fenceOp (.fenceXp p l c) l 1 c s)

/-- FENCE.LOOP (R202, R320). -/
def execFenceLoop (p : Pr) (l : Nat) (s : State) : Res := .next (fenceOp (.fenceLoop p l) l 2 .die s)

/-! ## Semaphores (R368-R370) -/

/-- Semaphore n of core c. -/
def State.sem (s : State) (c n : Nat) : Nat := Tab.rd 0 (s.core c).sems n

/-- Writes semaphore n of core c. -/
def State.setSem (s : State) (c n v : Nat) : State := s.updCore c fun x => { x with sems := Tab.set 0 x.sems n v }

/-- The head of a slot's queue for an engine: its first command that has not started (R365). -/
def Core.head (x : Core) (k eng : Nat) : Option Cmd := x.cmds.find? fun c => c.slot == k && c.eng == eng && !c.started

/-- Changes the command with a ticket. -/
def Core.updCmd (x : Core) (t : Nat) (f : Cmd → Cmd) : Core :=
  { x with cmds := x.cmds.map fun c => if c.ticket == t then f c else c }

/-- A command whose start has taken its semaphore count, or that has started (R365). -/
def Cmd.begun (x : Cmd) : Bool := x.started || x.took

/-- The LEVEL of the district of a core (R111); service cores have none. -/
def State.levelOf (s : State) (c : Nat) : Nat := if isSvc c then 0 else (s.district (districtOf c)).level

/-- An engine head takes its count of the semaphore it waits on, where the count is there (R365); no MMA starts at LEVEL 2
(R111). -/
def State.headTakes (s : State) (c n : Nat) (ke : Nat × Nat) : State :=
  match (s.core c).head ke.1 ke.2 with
  | some h =>
    if h.flags.testBit 0 && h.wsem == n && !h.took && decide (h.wthr ≤ s.sem c n) &&
        !(ke.2 == 0 && s.levelOf c == 2) then
      (s.setSem c n (s.sem c n - h.wthr)).updCore c fun x => x.updCmd h.ticket fun d => { d with took := true }
    else s
  | none => s

/-- A semaphore has risen or been set (R370): the engine heads that wait on it first, by slot number, and then every
parked SEMWAIT, in registration order. -/
def State.wakeSem (s : State) (c n : Nat) : State :=
  let heads := [0, 1, 2, 3].flatMap fun k => [0, 1, 2, 3, 4].map fun e => (k, e)
  let s := heads.foldl (fun s ke => s.headTakes c n ke) s
  let hit := fun (w : Waiter) => w.kind == 5 && w.loc == n
  let ws := (s.core c).semWaiters.filter hit
  (s.updCore c fun x => { x with semWaiters := x.semWaiters.filter fun w => !hit w }).sendWakes ws

/-- SEMWAIT (Table 16.5). -/
def doSemwait (n : Nat) (s : State) (_a : Who) (sem : Nat) : Perf × State :=
  let v := s.sem s.cc sem
  if !s.drained s.cc s.ck then (.wait, s)
  else if n ≤ v then (.done (.val (word v)) 0, (s.setSem s.cc sem (v - n)).acquireSem s.cc s.cur.tid sem)
  else (.park 5 sem sem, s)

/-- SEMWAIT (R369). -/
def execSemwait (p : Pr) (l t : Nat) (s : State) : Res :=
  .next (syncOp (.semwait p l t) l false (fun s a x y => doSemwait (wbits y.w 31 0) s a (wbits x.w 7 0)) s)

/-- SEMSIG (Table 16.5), a release at scope DIE. -/
def doSemsig (n : Nat) (s : State) (sem : Nat) : Perf × State :=
  let v := s.sem s.cc sem
  if !s.released s.cc s.ck .die then (.wait, s)
  else if 2 ^ 32 - 1 < v + n then (.refuse { cause := 0x75 } false, s)
  else (.done (.val (word v)) 0, ((s.setSem s.cc sem (v + n)).releaseSem s.cc s.cur.tid sem).wakeSem s.cc sem)

/-- SEMSIG (R369). -/
def execSemsig (p : Pr) (l t : Nat) (s : State) : Res :=
  .next (performOp (.semsig p l t) l true Tok.isNull (fun s _ _ _ => (.ok none, s))
    (fun s _ x y _ => doSemsig (wbits y.w 31 0) s (wbits x.w 7 0)) s)

/-- SEMSET (R369): from the store buffer. -/
def execSemset (p : Pr) (l : Nat) (s : State) : Res :=
  .next (storeOp (.semset p l) l (fun s _ x y _ =>
    if x.isNull || y.isNull then (.ok .nulled, s)
    else (.ok (.store { s.entryOf l with op := .semset (wbits x.w 7 0) (wbits y.w 31 0) }), s)) s)

/-! ## Queries (R332) -/

/-- The identity of a thread (Table 7.8). -/
def identityWord (s : State) (c k : Nat) : Word :=
  word (tswLid (s.slot c k).ctx.tsw * 2 ^ 32 + s.pkg % 2 ^ 8 * 2 ^ 24 + k % 4 * 2 ^ 20 + c % 2 ^ 13)

/-- The location of a slot (Table 14.4). -/
def whereWord (s : State) (c k : Nat) : Word :=
  let common := s.pkg % 2 ^ 8 * 2 ^ 48 + quarterOf c * 2 ^ 36 + dieOf c * 2 ^ 22 + k
  if isSvc c then word (common + 2 ^ 24)
  else word (common + (s.square (squareOf c)).cur % 2 ^ 5 * 2 ^ 40 + districtOf c * 2 ^ 25 + coreIndex c * 2 ^ 20 +
    squareOf c % 256 * 2 ^ 12 + coreY c * 2 ^ 7 + coreX c * 2 ^ 2)

/-- A query: a value from outside the block, which a primary forwards to its shadow (R225). f gives none while a replay
holds it. -/
def queryOp (i : Instr) (f : State → Option (Word × State)) (s : State) : State :=
  match gather i.shape s.cur.frame s.ci with
  | .wait => s
  | .mismatch => s.skipWord
  | .poison d m => s.fireWith i (.poison d m) 0
  | .null => s.fireWith i .null 0
  | .vals _ _ _ =>
    if s.isShadow then
      match s.forwarded with
      | some t => s.fireWith i t 0
      | none => s
    else match f s with
      | some (v, s) => s.fireOut i (.val v)
      | none => s

/-- TID (R332). -/
def execTid (p : Pr) (s1 t : Nat) (s : State) : Res :=
  .next (queryOp (.tid p s1 t) (fun s => some (identityWord s s.cc s.ck, s)) s)

/-- WHERE (R332). -/
def execWhereQ (p : Pr) (s1 t : Nat) (s : State) : Res :=
  .next (queryOp (.whereQ p s1 t) (fun s => some (whereWord s s.cc s.ck, s)) s)

/-- The timestamp that TIME delivers: recorded under MOULD, taken from the mould under REPLAY (R228, R231). -/
def State.timeFor (s : State) : Option (Word × State) :=
  let lid := tswLid s.cur.ctx.tsw
  let id := s.nextIdent s.cc s.ck
  let s' := s.countOp s.cc s.ck
  if lid ≠ 0 ∧ (s.entry lid).enforcing then
    match s.expects lid (unitCore s.cc) with
    | some m => if m.kind = 6 ∧ m.a = id % 2 ^ 47 then some (m.b, s'.met lid (unitCore s.cc)) else none
    | none => if (s.entry lid).trunc then some (word s.time, s') else none
  else (s'.tally lid (unitCore s.cc) ⟨6, s.cc, id % 2 ^ 47, word s.time⟩).map fun s' => (word s.time, s')

/-- TIME (R332). -/
def execTime (p : Pr) (s1 t : Nat) (s : State) : Res :=
  .next (queryOp (.time p s1 t) State.timeFor s)

end Sys2Proof.Machine
end

