-- ==== Sys2Proof/Machine/Exits.lean ====
section
/-!
DEFINITION. Exits (R276, R333-R337): what fires in EXEC. Their effects take place at commit.
-/

namespace Sys2Proof.Machine

/-- An exit fires; a second one raises 0x03 at once (R205, R275). -/
def State.fireExit (s : State) (x : ExitFired) : State :=
  let x := { x with idx := s.ci }
  if s.cur.frame.exits.isEmpty then s.updF fun f => { f.mark s.ci true with exits := [x] }
  else (s.updF fun f => f.mark s.ci true).raise s.cc s.ck { cause := 0x03, index := s.ci }

/-- An exit (R265, R266): a null on an input stops it, poison has become a fault of the block on its arrival; otherwise
g gives the exit from its left input, or its fault. -/
def exitOp (i : Instr) (g : State → Word → Except FaultD ExitFired × State) (s : State) : State :=
  match gather i.shape s.cur.frame s.ci with
  | .wait => s
  | .mismatch | .null => s.skipWord
  | .poison _ _ => s.updF fun f => f.mark s.ci true
  | .vals x _ _ =>
    if x.isNull then s.skipWord
    else match g s x.w with
      | (.ok e, s) => s.fireExit e
      | (.error d, s) => if d.waits then s else s.updF fun f => (f.addFault { d with index := s.ci }).mark s.ci true

/-- An exit without an input. -/
def plainExit (i : Instr) (e : ExitFired) (s : State) : State := exitOp i (fun s _ => (.ok e, s)) s

/-- A 20-bit exit offset, in 16-byte units (R276). -/
def off20 (f : Nat) : Int := sgn 20 f

/-- A 16-bit exit offset. -/
def off16 (f : Nat) : Int := sgn 16 f

/-- BR (R276). -/
def execBr (p : Pr) (e f : Nat) (s : State) : Res :=
  .next (plainExit (.br p e f) { kind := .br, off := off20 f } s)

/-- BRI (R334). -/
def execBri (p : Pr) (e : Nat) (s : State) : Res :=
  .next (exitOp (.bri p e) (fun s v => (.ok { kind := .bri v }, s)) s)

/-- CALL (R334). -/
def execCall (p : Pr) (e f : Nat) (s : State) : Res :=
  .next (plainExit (.call p e f) { kind := .call, off := off20 f } s)

/-- RET (R334). -/
def execRet (p : Pr) (e : Nat) (s : State) : Res :=
  .next (exitOp (.ret p e) (fun s v => (.ok { kind := .ret v }, s)) s)

/-- LOOP (R277, R334). -/
def execLoop (p : Pr) (e k f : Nat) (s : State) : Res :=
  .next (plainExit (.loop p e k f) { kind := .loop k, off := off16 f } s)

/-- The owner that MIGRATE finds (R335). -/
def migrateOwner (s : State) (t : Word) : Except FaultD Nat × State :=
  let a := s.who s.cc s.ck
  match address a (tokSeg t) (tokOff t) 1 1 .load with
  | .error d => (.error d, s)
  | .ok ea =>
    let bad := fun (c : Nat) => ((.error { cause := c, addr := ea } : Except FaultD Nat), s)
    let found := fun (s : State) (o : Nat) =>
      if s.cur.twin.isSome then ((.error { cause := 0x42, addr := ea } : Except FaultD Nat), s) else (.ok o, s)
    match regionOf (isSvc a.core) ea with
    | .tcm | .square | .view _ => found s a.core
    | .hole _ => bad 0x26
    | .mesh => if bits ea 47 40 ≠ s.pkg then bad 0x47 else found s (meshCore ea)
    | .virt =>
      match translate s a ea .load with
      | (.error d, s) => (.error d, s)
      | (.ok (.far _ _ _), s) => (.error { cause := 0x43, addr := ea }, s)
      | (.ok (.here loc), s) =>
        if isSvc a.core then (.error { cause := 0x46, addr := ea }, s) else found s (loc / 2 ^ 27)

/-- MIGRATE (R335). -/
def execMigrate (p : Pr) (e f : Nat) (s : State) : Res :=
  .next (exitOp (.migrate p e f) (fun s v =>
    match migrateOwner s v with
    | (.ok o, s) => (.ok { kind := .migrate o, off := off20 f }, s)
    | (.error d, s) => (.error d, s)) s)

/-- TRAP (R336). -/
def execTrap (p : Pr) (e c f : Nat) (s : State) : Res :=
  .next (plainExit (.trap p e c f) { kind := .trap c, off := off16 f } s)

/-- DONE (R141, R336). -/
def execDoneX (p : Pr) (e : Nat) (s : State) : Res :=
  .next (plainExit (.doneX p e) { kind := .done } s)

/-- YIELD (R337). -/
def execYieldX (p : Pr) (e f : Nat) (s : State) : Res :=
  .next (plainExit (.yieldX p e f) { kind := .yieldX, off := off16 f } s)

/-- BREAK (R336). -/
def execBreakX (p : Pr) (e f : Nat) (s : State) : Res :=
  .next (plainExit (.breakX p e f) { kind := .breakX, off := off16 f } s)

end Sys2Proof.Machine
end

