-- ==== Sys2Proof/Machine/Threads.lean ====
section
/-!
DEFINITION. Threads as they enter and leave slots (R116, R122-R125, R130-R137, R141-R145, R213, R217, R219): the reserve,
the context store and the runnable list, waiting work and spills, the ends of threads, and the events of slots, wakes,
messages and migrations.
-/

namespace Sys2Proof.Machine

/-! ## The context reserve (R124) -/

/-- The lowest number that a list does not hold. -/
def lowestFree (l : List Nat) : Nat := ((List.range (l.length + 1)).find? fun n => !l.contains n).getD 0

/-- Where the bytes of reserve entry e of a launch lie. -/
def State.entryLocs (s : State) (lid e : Nat) : Nat → Option Nat := fun off => s.areaLoc lid (64 + 320 * e + off : Nat)

/-- Sets the full/empty bit of the HDR of a reserve entry. -/
def State.entryFull (s : State) (lid e : Nat) (b : Bool) : State :=
  match s.entryLocs lid e 0 with
  | some loc => s.setFull loc b
  | none => s

/-- The home dispenser allocates the lowest free reserve entry of a launch; none when the reserve is exhausted. -/
def State.allocEntry (s : State) (lid : Nat) : Option (Nat × State) :=
  let x := s.entry lid
  let e := lowestFree x.reserve
  if lid = 0 ∨ x.lrec.ctxres ≤ e then none
  else some (e, (s.updLaunch lid fun x => { x with reserve := x.reserve ++ [e] }).entryFull lid e true)

/-- Frees a reserve entry. -/
def State.freeEntry (s : State) (lid e : Nat) : State :=
  (s.updLaunch lid fun x => { x with reserve := x.reserve.filter (· != e) }).entryFull lid e false

/-! ## Dispenser records and forced ends (R96, R99) -/

/-- What a die keeps of queue q. -/
def State.queue (s : State) (d q : Nat) : QueueSt := Tab.rd {} (s.die d).queues q

/-- Changes what a die keeps of queue q. -/
def State.updQueue (s : State) (d q : Nat) (f : QueueSt → QueueSt) : State :=
  s.updDie d fun x => { x with queues := Tab.upd {} x.queues q f }

/-- An ACTIVE launch with slices that its home dispenser has not dispensed. -/
def Entry.hasWork (e : Entry) : Bool := e.st == .active && (!e.returned.isEmpty || decide (e.next < e.lrec.slices))

/-- A guest with indices in hand. -/
def Guest.hasWork (g : Guest) : Bool := !g.returned.isEmpty || !g.indices.isEmpty

/-- The number of a guest's pseudo-queue (R83). (DESIGN CHOICE, unsafe: log 16) -/
def Guest.queue (g : Guest) : Nat := 8192 + g.home * 512 + g.homeEntry

/-- The guests of a die whose launch is ACTIVE and that have indices in hand. -/
def State.workGuests (s : State) (d : Nat) : List Guest :=
  (s.die d).guests.filter fun g => g.hasWork && (s.entryAt g.home g.homeEntry).st == .active

/-- The queues of a die with undispensed slices. -/
def State.workQueues (s : State) (d : Nat) : List Nat :=
  (((s.die d).table.filter fun e => e.2.hasWork).map (·.2.queue)) ++ (s.workGuests d).map Guest.queue

/-- The ages of a die's queues run while they have undispensed slices, and are 0 otherwise (R84). -/
def State.noteAges (s : State) (d : Nat) : State :=
  let work := s.workQueues d
  let s := work.foldl (fun s q => s.updQueue d q fun y => { y with ageFrom := some (y.ageFrom.getD s.time) }) s
  s.updDie d fun x => { x with queues := x.queues.map fun e =>
    (e.1, if work.contains e.1 then e.2 else { e.2 with ageFrom := none }) }

/-- The ages of the queues of every die. -/
def State.noteAllAges (s : State) : State := [0, 1, 2, 3].foldl State.noteAges s

/-- A forced end of a launch that runs (R96): the entry enters ENDING, dispensing stops, the kill wave goes out. A later
cause is ignored (R97). -/
def State.forcedEnd (s : State) (lid status : Nat) : State :=
  let x := s.entry lid
  if s.lidLive lid && (x.st == .active || x.st == .draining) && x.status == 0 then
    (s.updLaunch lid fun x => { x with st := .ending, forced := some status, killWave := true }).noteAllAges
  else s

/-- An exhausted reserve ends its launch (R98): status RESERVE, CAUSE and record 0xF2 (R96). A cause that decided before
stays (R97). -/
def State.reserveEnd (s : State) (lid : Nat) : State :=
  let x := s.entry lid
  if s.lidLive lid && (x.st == .active || x.st == .draining) then
    ((s.updLaunch lid fun x => { x with cause := if x.status = 0 then 0xF2 else x.cause }).dieRecord
      (lidDie lid) 0xF2 lid).forcedEnd lid 5
  else s

/-! ## The context store (R125) -/

/-- Writes a stored context of a launch back to its reserve entry. -/
def State.writeBack (s : State) (x : Stored) : State :=
  match x.entry with
  | some e => s.writeFrame (s.entryLocs x.frame.lid e) x.frame
  | none => s

/-- The least recently used stored context that belongs to a launch. -/
def oldestOfLaunch (l : List Stored) : Option Stored :=
  (l.filter (·.entry.isSome)).foldl (fun a x => match a with
    | none => some x
    | some y => if x.key < y.key then some x else some y) none

/-- Keeps a context in the store of core c; a full store writes its oldest context of a launch back. None when all four
frames and the new context are of no launch. -/
def State.keep (s : State) (c : Nat) (x : Stored) : Option State :=
  let l := (s.core c).store
  if l.length < 4 then some (s.updCore c fun y => { y with store := l ++ [x] })
  else match oldestOfLaunch l with
    | some o => some ((s.writeBack o).updCore c fun y => { y with store := l.filter (· != o) ++ [x] })
    | none => if x.entry.isSome then some (s.writeBack x) else none

/-- Whether a stored context is the one that a reference names. -/
def Stored.names (x : Stored) (lid : Nat) (entry : Option Nat) (key : Nat) : Bool :=
  x.entry == entry && x.frame.lid == lid && (entry.isSome || x.key == key)

/-- The context that a reference names: from the store of core c or from its reserve entry; it leaves both. -/
def State.takeContext (s : State) (c lid : Nat) (entry : Option Nat) (key : Nat) : CtxFrame × State :=
  let mine := fun (x : Stored) => x.names lid entry key
  let f := match (s.core c).store.find? mine, entry with
    | some x, _ => x.frame
    | none, some e => s.readFrame (s.entryLocs lid e)
    | none, none => {}
  let s := match (s.core c).store.find? mine, entry with
    | none, some e => s.touchFrame (s.entryLocs lid e)
    | _, _ => s
  let s := s.updCore c fun y => { y with store := y.store.filter fun x => !mine x }
  (f, match entry with
    | some e => s.freeEntry lid e
    | none => s)

/-- Changes TSW and WAIT of a context out of its slot, in the store of core c or in its reserve entry. -/
def State.editStored (s : State) (c lid : Nat) (entry : Option Nat) (key : Nat) (f : Ctx → Ctx) : State :=
  if (s.core c).store.any (·.names lid entry key) then
    let g := fun (x : Stored) =>
      if x.names lid entry key then { x with frame := { x.frame with ctx := f x.frame.ctx } } else x
    s.updCore c fun y => { y with store := y.store.map g }
  else match entry.bind fun e => (s.entryLocs lid e 0xB0).bind fun a => (s.entryLocs lid e 0xB8).map fun b => (a, b) with
    | some (a, b) =>
      let y := f { tsw := s.rdWord a, wait := s.rdWord b }
      let s := if s.mem.isPois a || s.rdWord a == y.tsw then s else s.dispWrite a y.tsw
      if s.mem.isPois b || s.rdWord b == y.wait then s else s.dispWrite b y.wait
    | none => s

/-- Writes NEXT of a context out of its slot (R125). -/
def State.setNext (s : State) (c : Nat) (r : RunRef) (n : Nat) : State :=
  if (s.core c).store.any (·.names r.lid r.entry r.key) then
    let g := fun (x : Stored) =>
      if x.names r.lid r.entry r.key then { x with frame := { x.frame with next := n } } else x
    s.updCore c fun y => { y with store := y.store.map g }
  else match r.entry.bind fun e => s.entryLocs r.lid e 0x18 with
    | some a => if s.rdWord a == word n then s else s.dispWrite a (word n)
    | none => s

/-- The runnable list of core c is linked through NEXT: each context names the reserve entry number + 1 of the one after
it (R125). (DEDUCED, unsafe: log 83) -/
def State.relink (s : State) (c : Nat) : State :=
  let l := (s.core c).runnable
  (l.zip (l.tail.map (fun r => match r.entry with
    | some e => e + 1
    | none => 0) ++ [0])).foldl (fun s e => s.setNext c e.1 e.2) s

/-- The context of the thread in a slot as a frame for core d (Table 7.6). -/
def State.frameOf (s : State) (c k d maddr : Nat) : CtxFrame :=
  let x := s.slot c k
  { lid := tswLid x.ctx.tsw, twin := tswTwin x.ctx.tsw, dcore := d, origin := identityWord s c k, maddr := maddr
    slice := x.slice, ctx := x.ctx, pmask := x.pmask, ident := s.nextIdent c k, due := x.recDue
    tid := x.tid }

/-- The context a wake leaves: KIND and ADDR of WAIT clear, HT stays (R115, R122), and a BWAIT's wake clears GW (R140). -/
def wokenCtx (x : Ctx) : Ctx :=
  { x with
    tsw := if waitKind x.wait = 4 then wput x.tsw 33 33 0 else x.tsw
    wait := x.wait &&& word (2 ^ 59) }

/-- A frame's context enters a slot, in LOAD. (DEDUCED, unsafe: log 33) -/
def State.loadFrame (s : State) (c k : Nat) (f : CtxFrame) (migr : Nat) (stepping : Bool) : State :=
  let s := (s.loadSlot c k f.ctx f.slice f.pmask migr stepping).updSlot c k fun x =>
    { x with lost := f.lost, badRegs := f.bad, recDue := f.due
             twin := x.twin.map fun t => { t with chkBad := f.bad } }
  if f.tid ≠ 0 then s.updSlot c k fun x => { x with tid := f.tid }
  else
    let s := s.newThread c k
    s.observeAll (s.slot c k).tid

/-! ## Waiting work (R125) and spills (R123) -/

/-- The even core of a pair (R14, R145). -/
def evenCore (c : Nat) : Nat := c / 2 * 2

/-- Occupied and reserved entries of the inbound queue of core c; a twin message takes one in both cores, or keeps what it
has reserved (R145). -/
def State.inboxUsed (s : State) (c : Nat) : Nat :=
  let queued := (s.core c).inbox ++
    (if c % 2 = 1 ∧ ¬ isSvc c then (s.core (twinCore c)).inbox.filter (·.t) else [])
  (queued.filter (·.resv.isNone)).length + ((s.core c).resv.filter (·.slot.isNone)).length

/-- Whether the inbound queue of a core has an entry neither occupied nor reserved. -/
def State.inboxRoom (s : State) (c : Nat) : Bool := decide (s.inboxUsed c < Config.inboxEntries)

/-- A message starts its thread in slot k (and its shadow in k'), which acquires what the message's release covered (R128,
R187, R198). -/
def State.startMsg (s : State) (c k k' : Nat) (m : Msg) : State :=
  let s := s.loadThread c k k' (s.msgCtx c m) none 0 0 false
  s.acquireMsg (s.slot c k).tid m.ident

/-- The slot that a reservation holds. -/
def State.resvSlot (s : State) (c h : Nat) : Option Nat :=
  match (s.core c).resv.find? (·.handle == h) with
  | some r => r.slot
  | none => none

/-- A reservation of one core ends. -/
def State.dropResvAt (s : State) (c h : Nat) : State :=
  let k := s.resvSlot c h
  let s := s.updCore c fun x => { x with resv := x.resv.filter (·.handle != h) }
  match k with
  | some k => s.updSlot c k fun x => { x with held := false }
  | none => s

/-- A reservation ends, in both cores of a pair for a twin message. -/
def State.dropResv (s : State) (c h : Nat) (twin : Bool) : State :=
  if twin then (s.dropResvAt (evenCore c) h).dropResvAt (evenCore c + 1) h else s.dropResvAt c h

/-- The slots for a message at core c: those that its reservation holds, and open ones. -/
def State.slotsOfMsg (s : State) (c : Nat) (m : Msg) (h : Option Nat) : Option (Nat × Nat) :=
  let at_ := fun (d : Nat) => match h.bind (s.resvSlot d) with
    | some k => some k
    | none => s.openSlot d
  match at_ c, if m.t then at_ (twinCore c) else some 0 with
  | some k, some k' => some (k, k')
  | _, _ => none

/-- The head of the inbound queue starts its thread in slot k (and its shadow in k'). -/
def State.startQueued (s : State) (c k k' : Nat) (m : Msg) : State :=
  let s := s.updCore c fun x => { x with inbox := x.inbox.tail, servedQueue := true }
  let s := match m.resv with
    | some h => s.dropResv c h m.t
    | none => s
  s.startMsg c k k' m

/-- The record of a thread that was frozen when its launch was cut, rewritten for the slot it enters again (R223): SRC 6,
sent once the slot is FROZEN where mine holds. -/
def State.cutRecord (s : State) (c k lid : Nat) (entry : Option Nat) (mine : Bool) : State :=
  match entry.bind fun e => (s.entry lid).cutRecs.find? e with
  | some r =>
    let r := BitVec.ofNat 256 (putBits (putBits r.toNat 103 101 6) 84 83 k)
    let s := s.updLaunch lid fun x => { x with cutRecs := x.cutRecs.del (entry.getD 0) }
    s.updSlot c k fun x => { x with frec := r, recDue := if mine then 6 else 0 }
  | none => s

/-- The head of the runnable list is restored to slot k (and its shadow to k'). -/
def State.restore (s : State) (c k k' : Nat) (r : RunRef) : State :=
  let s := (s.updCore c fun x => { x with runnable := x.runnable.tail, servedQueue := false })
  let (f, s) := s.takeContext c r.lid r.entry r.key
  let s := (s.loadFrame c k { f with due := r.due, tid := r.tid } r.migr r.stepping).cutRecord c k r.lid r.entry true
  match r.mate with
  | some e =>
    let (f', s) := s.takeContext (twinCore c) r.lid (some e) 0
    ((s.loadFrame (twinCore c) k' f' 0 false).cutRecord (twinCore c) k' r.lid (some e) false).pairUp c k k'
  | none => s

/-- A context lies in a reserve entry on a layer that is powering on (R162). -/
def State.refWaits (s : State) (c : Nat) (r : RunRef) : Bool :=
  let at_ := fun (d : Nat) (e : Option Nat) => match e with
    | some n => !((s.core d).store.any (·.names r.lid e r.key)) && s.reserveWaits r.lid n
    | none => false
  at_ c r.entry || at_ (twinCore c) r.mate

/-- Gives one slot of core c to waiting work; none where nothing waits or no slot is open. -/
def State.serveOnce (s : State) (c : Nat) : Option State :=
  let x := s.core c
  let queue := fun (m : Msg) => (s.slotsOfMsg c m m.resv).map fun k => s.startQueued c k.1 k.2 m
  let list := fun (r : RunRef) => if s.refWaits c r then none else
    (s.slotsFor c r.mate.isSome).map fun k => s.restore c k.1 k.2 r
  match x.runnable.head?, x.inbox.head? with
  | some r, some m => if x.servedQueue then list r else queue m
  | some r, none => list r
  | none, some m => queue m
  | none, none => none

/-! ## Idle squares (R108) -/

/-- Whether core c lies in an idle square. (DEDUCED, unsafe: log 34) -/
def State.isIdle (s : State) (c : Nat) : Bool := !isSvc c && (s.square (squareOf c)).idle

/-- An idle square asks to leave idle; its request keeps its time. (DEDUCED, unsafe: log 34) -/
def State.askExit (s : State) (c : Nat) : State :=
  if s.isIdle c then s.updSquare (squareOf c) fun q => { q with exitSince := some (q.exitSince.getD s.time) } else s

/-- A square in which no slot is occupied and no engine command is in flight. -/
def State.quiet (s : State) (sq : Nat) : Bool :=
  (squareCores sq).all fun c => (s.core c).cmds.isEmpty && [0, 1, 2, 3].all fun k => (s.slot c k).st == .free

/-- Marks the time from which a square has been quiet. -/
def State.noteQuiet (s : State) (c : Nat) : State :=
  if !isSvc c && s.quiet (squareOf c) then
    s.updSquare (squareOf c) fun q => { q with quietSince := some (q.quietSince.getD s.time) }
  else s

/-- Gives slots to waiting work while there are both. -/
def State.serveMany : Nat → Nat → State → State
  | 0, _, s => s
  | n + 1, c, s => match s.serveOnce c with
    | some s => s.serveMany n c
    | none => s

/-- The longest-parked slot of core c among those that f allows. -/
def State.longestParked (s : State) (c : Nat) (f : Slot → Bool) : Option Nat :=
  [0, 1, 2, 3].foldl (fun a k =>
    let x := s.slot c k
    if x.st == .park && f x then
      match a with
      | none => some k
      | some j => if x.parkSeq < (s.slot c j).parkSeq then some k else a
    else a) none

/-- A thread that a spill may take: one of a launch (R123). -/
def spillable (x : Slot) : Bool := tswLid x.ctx.tsw != 0 && !x.spilling

/-- A victim asks for its reserve entry; for a twin the primary asks for both copies. -/
def State.askSpill (s : State) (c k : Nat) : State :=
  let x := s.slot c k
  match if tswShadow x.ctx.tsw then s.twinSlot c k else none with
  | some j => s.updSlot (twinCore c) j fun y => { y with spilling := true }
  | none => s.updSlot c k fun y => { y with spilling := true }

/-- Work waits at core c and no slot is open: the longest-parked thread becomes a victim (R123 case 1). -/
def State.wantSlot (s : State) (c : Nat) : State :=
  let x := s.core c
  let need := fun (d : Nat) => (s.openSlot d).isNone && !([0, 1, 2, 3].any fun k => (s.slot d k).spilling ||
    (s.slot d k).st == .out)
  let twin := (x.runnable.head?.any fun r => r.mate.isSome) || x.inbox.head?.any (·.t)
  if x.runnable.isEmpty && x.inbox.isEmpty then s
  else
    let ask := fun (s : State) (d : Nat) => if need d then
      match s.longestParked d spillable with
      | some k => s.askSpill d k
      | none => s else s
    if twin then ask (ask s c) (twinCore c) else ask s c

/-- Slots of core c go to waiting work in the order of R125; an idle square must leave idle first (R108). -/
def State.serveCore (s : State) (c : Nat) : State :=
  if s.isIdle c then (if (s.core c).runnable.isEmpty && (s.core c).inbox.isEmpty then s else s.askExit c)
  else (s.serveMany 8 c).wantSlot c

/-- Waiting work of a core and of the other core of its pair is served: a twin message of the even core may wait for a
slot of the odd one (R134, R145). -/
def State.servePair (s : State) (c : Nat) : State := if isSvc c then s.serveCore c else (s.serveCore c).serveCore (twinCore c)

/-- A slot becomes FREE and is given to waiting work. -/
def State.freeSlot (s : State) (c k : Nat) : State :=
  ((s.updSlot c k fun x =>
    { x with st := .free, frame := {}, next := {}, twin := none, slice := none, outTo := none, outEntry := none
             outMate := none, spilling := false, wakeup := false, halt := false, stop := 0, htStop := false
             stepping := false
             ctx := { x.ctx with wait := 0 } }).noteQuiet c).servePair c

/-! ## The ends of threads (R94, R141, R213) -/

/-- A slice thread has ended on core c: at its home die at once, from another die by a report (R94). -/
def State.sliceOver (s : State) (c lid : Nat) (slice : Option Nat) (retired : Bool) : State :=
  match slice with
  | none => s
  | some i =>
    if lid = 0 then s
    else if dieOf c = lidDie lid then s.endSlice lid i retired else s.send (.sliceEnd lid i retired)

/-- The thread in a slot, and its other copy, leaves for good: its waiter entries go, its slice ends, its slot is
freed. -/
def State.endThread (s : State) (c k : Nat) (retired : Bool) : State :=
  let x := s.slot c k
  let other := s.twinSlot c k
  let s := ((s.abandon c k).dropWaiters c k).sliceOver c (tswLid x.ctx.tsw) x.slice retired
  let s := match other with
    | some j => ((s.abandon (twinCore c) j).dropWaiters (twinCore c) j).freeSlot (twinCore c) j
    | none => s
  s.freeSlot c k

/-- A slot whose block holds the lock or commits stops when that commit ends (R118). -/
def Slot.committing (x : Slot) : Bool := x.frame.st == .commit

/-- Whether a slot stays at its block boundary: a cut has set HALT (R220), or a CTXSWAP that met its block in COMMIT
still waits (R118). (DEDUCED, unsafe: log 23) -/
def State.stays (s : State) (c k : Nat) : Bool :=
  let x := s.slot c k
  x.halt || (match x.swapBy with
    | some (c', k', n) => let y := s.slot c' k'
      y.st == .run && y.committing && y.fseq == n
    | none => false)

/-- Freezes a thread at its block boundary, PC pc, with a record of SRC 0 (R205, R213). -/
def State.freezeFor (s : State) (c k pc : Nat) (f : FaultD) : State :=
  let r := threadRecord s c k 0 pc f
  let s := (s.abandon c k).dropWaiters c k
  let s := s.both c k fun x =>
    { x with st := .frozen, ctx := { x.ctx with pc := word pc, wait := keepHt x.ctx.wait (waitOf 9 0) }, frec := r
             frozenBy := f.cause, stop := 0, htStop := false, stepping := false, spilling := false }
  s.sendRecord c r

/-- Freezes a thread for a cause of no instruction. -/
def State.freezeWith (s : State) (c k cause pc : Nat) : State := s.freezeFor c k pc { cause := cause, iv := false }

/-- The primary of the pair that a slot belongs to, or the slot itself (R213). -/
def State.leadSlot (s : State) (c k : Nat) : Nat × Nat :=
  match if tswShadow (s.slot c k).ctx.tsw then s.twinSlot c k else none with
  | some j => (twinCore c, j)
  | none => (c, k)

/-- A twin whose copies have run blocks since their checkpoint is compared before it stops (R225). -/
def Slot.uncompared (x : Slot) : Bool :=
  match x.twin with
  | some t => t.blocks != 0
  | none => false

/-- Forces a comparison of the pair in a slot. -/
def State.forceAt (s : State) (c k : Nat) : State :=
  s.both c k fun x => { x with twin := x.twin.map fun t => { t with forced := true } }

/-- A stop waits for the block boundary of a slot: a KILL stays, and a FREEZE over SLOTPARK. -/
def Slot.stopFor (n : Nat) (x : Slot) : Slot :=
  { x with stop := if x.stop = 2 ∨ (x.stop = 3 ∧ n = 1) then x.stop else n }

/-- Freezes a thread for FREEZE: at once, after its commit, or after the comparison of a pair. -/
def State.doFreeze (s : State) (c k : Nat) : State :=
  let x := s.slot c k
  if x.committing || x.uncompared then (s.updSlot c k (Slot.stopFor 3)).forceAt c k
  else s.freezeWith c k 0xD4 x.ctx.pc.toNat

/-- Parks a thread with KIND 8 for SLOTPARK: at once or after its commit. One that R111 holds stays held. -/
def State.doPark8 (s : State) (c k : Nat) : State :=
  let x := s.slot c k
  if x.committing || x.uncompared then (s.updSlot c k (Slot.stopFor 1)).forceAt c k
  else ((s.dropWaiters c k).park c k 8 0).both c k fun y =>
    { y with stop := 0, ctx := { y.ctx with wait := keepHt x.ctx.wait y.ctx.wait } }

/-- Frees a thread for KILL: at once, after its commit, or after the comparison of a pair, whose committed stores still
drain. -/
def State.doKill (s : State) (c k : Nat) : State :=
  if (s.slot c k).committing || (s.slot c k).uncompared then (s.updSlot c k (Slot.stopFor 2)).forceAt c k
  else s.endThread c k false

/-- A victim leaves its slot for the context store with its reserve entry, and its shadow with its own (R123, R144). -/
def State.spillOut (s : State) (c k e : Nat) (mate : Option Nat) : State :=
  let other := s.twinSlot c k
  let s := (s.abandon c k).moveWaiters c k (some e)
  let s := s.updSlot c k fun x =>
    { x with st := .out, outTo := none, outEntry := some e, outMate := mate, spilling := false
             wakeup := false }
  match other, mate with
  | some j, some e' => s.updSlot (twinCore c) j fun x => { x with st := .out, outTo := none, outEntry := some e' }
  | _, _ => s

/-- A thread is parked by the hard threshold and goes to the context store where it may (R111). (DEDUCED, unsafe: log 28) -/
def State.htPark (s : State) (c k : Nat) : State :=
  let x := s.slot c k
  if x.committing || x.uncompared then (s.updSlot c k fun x => { x with htStop := true }).forceAt c k
  else
    let s := ((s.abandon c k).both c k fun x =>
      { x with st := .park, htStop := false, ctx := { x.ctx with wait := x.ctx.wait ||| word (2 ^ 59) }
               parkSeq := if x.st == .park then x.parkSeq else s.serial
               parkedAt := if x.st == .park then x.parkedAt else s.time, htSeq := s.serial }).nextSerial
    match s.allocEntry (tswLid x.ctx.tsw) with
    | none => s
    | some (e, s') =>
      if x.twin.isSome then
        match s'.allocEntry (tswLid x.ctx.tsw) with
        | some (e', s') => s'.spillOut c k e (some e')
        | none => s
      else s'.spillOut c k e none

/-- YIELD gives up its slot (R337): a message or a runnable context waits, no slot is FREE, and the launch's reserve has
an entry; a spill needs a second one for a shadow. None where the thread stays. -/
def State.yieldSpill (s : State) (c k : Nat) : Option State :=
  let x := s.slot c k
  let lid := tswLid x.ctx.tsw
  if ((s.core c).inbox.isEmpty && (s.core c).runnable.isEmpty) || s.anyFree c then none
  else match s.allocEntry lid with
    | none => none
    | some (e, s) =>
      if x.twin.isSome then (s.allocEntry lid).map fun a => a.2.spillOut c k e (some a.1)
      else some (s.spillOut c k e none)

/-- A slot whose thread R111 parks: one that it does not hold already. (DEDUCED, unsafe: log 28) -/
def htParks (x : Slot) : Bool := !waitHt x.ctx.wait && (x.st == .run || x.st == .park) && !x.htStop

/-- The parking of R111 that waited for a block boundary. -/
def State.htDue (s : State) (c k : Nat) : State :=
  let s := s.updSlot c k fun x => { x with htStop := false }
  if s.levelOf c = 2 ∧ htParks (s.slot c k) then s.htPark c k else s

/-- A stop that waited for the end of a commit or for a comparison takes effect: 1 SLOTPARK, which a wait of KIND 6 does
not allow (Table 16.17), 2 kill, 3 FREEZE, 5 DONE and 6 YIELD of a twin; and the parking of R111. -/
def State.applyStop (s : State) (c k : Nat) : State :=
  let x := s.slot c k
  let s := match x.stop with
    | 5 => s.endThread c k true
    | 6 =>
      let s := s.updSlot c k fun x => { x with stop := 0 }
      (s.yieldSpill c k).getD s
    | 1 => if x.st = .park ∧ waitKind x.ctx.wait = 6 then s.updSlot c k fun x => { x with stop := 0 } else s.doPark8 c k
    | 2 => s.doKill c k
    | 3 => s.doFreeze c k
    | _ => s
  if x.htStop then s.htDue c k else s

/-! ## SCMD (Table 10.8) -/

/-- RESUME is allowed, and its effect. -/
def State.cmdResume (s : State) (c k : Nat) : Option State :=
  let (c, k) := s.leadSlot c k
  if mayResume (s.slot c k) then some (s.resumeSlot c k) else none

/-- RETIRE. -/
def State.cmdRetire (s : State) (c k : Nat) : Option State :=
  let (c, k) := s.leadSlot c k
  let x := s.slot c k
  if x.st == .frozen || (x.st == .park && waitKind x.ctx.wait == 6) then some (s.endThread c k true) else none

/-- KILL. -/
def State.cmdKill (s : State) (c k : Nat) : Option State :=
  let (c, k) := s.leadSlot c k
  let x := s.slot c k
  if x.st == .free || x.st == .out then none else some (s.doKill c k)

/-- FREEZE. -/
def State.cmdFreeze (s : State) (c k : Nat) : Option State :=
  let (c, k) := s.leadSlot c k
  let x := s.slot c k
  if x.st == .run || x.st == .park then some (s.doFreeze c k) else none

/-- STEP. -/
def State.cmdStep (s : State) (c k : Nat) : Option State :=
  let (c, k) := s.leadSlot c k
  if (s.slot c k).st == .frozen then
    some ((s.resumeSlot c k).both c k fun x => { x with stepping := true })
  else none

/-- SLOTPARK (Table 16.17). -/
def State.cmdPark (s : State) (c k : Nat) : Option State :=
  let (c, k) := s.leadSlot c k
  let x := s.slot c k
  let kind := waitKind x.ctx.wait
  if x.st == .run || (x.st == .park && ((1 ≤ kind && kind ≤ 5) || kind == 7)) then some (s.doPark8 c k) else none

/-- A slot command's outcome where a slot that does not allow it leaves the machine unchanged. -/
def orSame (s : State) (r : Option State) : State := r.getD s

/-! Each is a write to a debug window, which an idle square leaves idle for (R108). -/

/-- SCMD.RESUME (R213). -/
def execScmdResume (c k : Nat) (s : State) : Res := .next ((orSame s (s.cmdResume c (k % 4))).askExit c)

/-- SCMD.RETIRE (R213). -/
def execRetire (c k : Nat) (s : State) : Res := .next ((orSame s (s.cmdRetire c (k % 4))).askExit c)

/-- SCMD.KILL (R213). -/
def execKill (c k : Nat) (s : State) : Res := .next ((orSame s (s.cmdKill c (k % 4))).askExit c)

/-- SCMD.FREEZE (R213). -/
def execFreeze (c k : Nat) (s : State) : Res := .next ((orSame s (s.cmdFreeze c (k % 4))).askExit c)

/-- SCMD.STEP (R213). -/
def execStep (c k : Nat) (s : State) : Res := .next ((orSame s (s.cmdStep c (k % 4))).askExit c)

/-! ## Slots that load and leave (R116, R111, R217, R219) -/

/-- A launch whose cut is being taken, or that is suspended, takes its messages into the cut (R220). -/
def Entry.cutting (e : Entry) : Bool := e.held && (e.suspended || !e.cutWait.isEmpty)

/-- A launch is being cut, or is suspended (R220). -/
def State.cuts (s : State) (lid : Nat) : Bool := lid != 0 && (s.entry lid).cutting

/-- The cut of a launch has reached the router of core c, so that its threads there halt (R220). -/
def State.cutsAt (s : State) (c lid : Nat) : Bool :=
  s.cuts lid && ((s.entry lid).suspended || (s.entry lid).cutSeen.contains (squareOf c))

/-- The nodes on the path of a message, its source first: routers, and 1,024 + p for port p (R13, R19). -/
def cutPath (src dst : Nat) : List Nat :=
  if 8192 ≤ src then
    let r := portRouter (src - 8192)
    (1024 + (src - 8192)) :: r :: squaresTo r (squareOf dst)
  else squareOf src :: squaresTo (squareOf src) (squareOf dst)

/-- The router that takes a message of a launch into the cut: the first that it enters and that the cut has reached
(Table 10.14 step 4). None while the cut is ahead of it on no link of its path. (DEDUCED, unsafe: log 25) -/
def State.cutTakes (s : State) (src dst lid : Nat) : Option Nat :=
  if !s.cuts lid then none
  else if (s.entry lid).suspended then some (squareOf dst)
  else match cutPath src dst with
    | [r] => if s.cutsAt dst lid then some r else none
    | p => p.tail.find? fun r => (s.entry lid).cutSeen.contains r

/-- What has entered a slot of a district at LEVEL 2 issues nothing before R111 releases it. -/
def State.underHt (s : State) (c k : Nat) : State :=
  if s.levelOf c = 2 then
    (s.updSlot c k fun x =>
      { x with ctx := { x.ctx with wait := x.ctx.wait ||| word (2 ^ 59) }, htSeq := s.serial }).nextSerial
  else s

/-- A loaded context starts: frozen where a word of it was lost or as it was (KIND 9), parked by SLOTPARK (KIND 8) or
under LEVEL 2, and running otherwise (R111, R217, R219). -/
def State.slotLoaded (s : State) (c k : Nat) : State :=
  let x := s.slot c k
  if x.st ≠ .load then s
  else
    let s := s.updSlot c k fun y => { y with halt := s.cutsAt c (tswLid x.ctx.tsw), recDue := 0 }
    if x.lost then ((s.updSlot c k fun x => { x with lost := false }).freezeWith c k 0x65 x.ctx.pc.toNat).underHt c k
  else match waitKind x.ctx.wait with
    | 9 =>
      let frozen := s.updSlot c k fun x => { x with st := .frozen, ctx := { x.ctx with wait := waitOf 9 0 } }
      (if x.recDue = 0 then frozen
      else if x.recDue = 6 then
        (frozen.updSlot c k fun x => { x with frozenBy := recCause x.frec }).sendRecord c x.frec
      else s.freezeWith c k x.recDue x.ctx.pc.toNat).underHt c k
    | 8 => ((s.updSlot c k fun x =>
        { x with st := .park, ctx := { x.ctx with wait := waitOf 8 0 }, parkSeq := s.serial
                 parkedAt := s.time }).nextSerial).underHt c k
    | _ =>
      if s.levelOf c = 2 then
        (s.updSlot c k fun x =>
          { x with st := .park, ctx := { wokenCtx x.ctx with wait := word (2 ^ 59) }, parkSeq := s.serial
                   htSeq := s.serial, parkedAt := s.time }).nextSerial
      else s.updSlot c k fun x => { x with st := .run, ctx := { wokenCtx x.ctx with wait := 0 } }

/-- SLOT_LOAD_COMPLETE (R116). -/
def execSlotLoadComplete (c k : Nat) (s : State) : Res := .next (s.slotLoaded c (k % 4))

/-- A victim's request is answered (R123): entries for it and its shadow, or the end of its launch (R98). -/
def State.answerSpill (s : State) (c k : Nat) : State :=
  let x := s.slot c k
  let lid := tswLid x.ctx.tsw
  let clear := fun (s : State) => s.updSlot c k fun x => { x with spilling := false }
  if !x.spilling then s
  else if x.uncompared then s.forceAt c k
  else if s.nextWaits lid 2 then s
  else match s.allocEntry lid with
    | none => (clear s).reserveEnd lid
    | some (e, s') =>
      if x.twin.isSome then
        match s'.allocEntry lid with
        | none => (clear s).reserveEnd lid
        | some (e', s') => s'.spillOut c k e (some e')
      else s'.spillOut c k e none

/-- RESERVE_ENTRY_ALLOCATION (R123): a thread that parked while work waited becomes a victim here. -/
def execReserveEntryAllocation (c k : Nat) (s : State) : Res :=
  let s := s.wantSlot c
  .next (if (s.slot c (k % 4)).st = .park then s.answerSpill c (k % 4) else s)

/-- A context joins the runnable list of its core (R122). -/
def State.enlist (s : State) (c : Nat) (r : RunRef) : State :=
  (s.updCore c fun x => { x with runnable := x.runnable ++ [r] }).relink c

/-- A spilled context has left its slot: it is kept in the store, on the runnable list where its wake has come. -/
def State.spilledOut (s : State) (c k e : Nat) : State :=
  let x := s.slot c k
  let lid := tswLid x.ctx.tsw
  let r : RunRef :=
    { lid := lid, entry := some e, key := s.serial, mate := x.outMate, migr := x.migr, stepping := x.stepping
      ht := waitHt x.ctx.wait, kind := if x.wakeup then 0 else waitKind x.ctx.wait, htSeq := x.htSeq
      tid := x.tid }
  let f := s.frameOf c k c 0
  let s := match s.keep c { frame := f, entry := some e, key := s.serial } with
    | some s => s
    | none => s
  let s := s.nextSerial
  let s := if r.kind = 0 ∧ ¬ r.ht then s.enlist c r else s.updCore c fun y => { y with spilled := y.spilled ++ [r] }
  match s.twinSlot c k, x.outMate with
  | some j, some e' =>
    let g := s.frameOf (twinCore c) j (twinCore c) 0
    let s := match s.keep (twinCore c) { frame := g, entry := some e', key := s.serial } with
      | some s => s
      | none => s
    (s.nextSerial.freeSlot (twinCore c) j).freeSlot c k
  | _, _ => s.freeSlot c k

/-- SLOT_OUT_COMPLETE (R116, R135, R142, R199): a context leaves its core once every write of its thread is acknowledged. (DEDUCED, unsafe: log 42) -/
def execSlotOutComplete (c k : Nat) (s : State) : Res :=
  let k := k % 4
  let x := s.slot c k
  .next (if x.st ≠ .out then s
    else if x.outTo.isSome ∧ (!s.drained c k ∨ s.unack.any (·.tid == x.tid)) then s
    else match x.outTo, x.outEntry with
      | some d, _ =>
        let lid := tswLid x.ctx.tsw
        let s := s.send (.migr c d (s.frameOf c k d x.maddr) x.migr x.stepping)
        (s.countSent c lid).freeSlot c k
      | none, some e => if tswShadow x.ctx.tsw then s else s.spilledOut c k e
      | none, none => s.freeSlot c k)

/-! ## Wakes (R122) -/

/-- A wake reaches its thread: in its slot, on its way out of it, or spilled; WAIT follows wherever the context is. -/
def State.deliverWake (s : State) (w : Waiter) : State :=
  match w.entry with
  | none =>
    let x := s.slot w.core w.slot
    if x.st = .park ∧ waitKind x.ctx.wait = w.kind then
      (s.both w.core w.slot fun x => { x with ctx := wokenCtx x.ctx }).makeRunnable w.core w.slot
    else s
  | some e =>
    let x := s.slot w.core w.slot
    if x.st = .out ∧ x.outEntry = some e ∧ tswLid x.ctx.tsw = w.lid then
      s.both w.core w.slot fun x => { x with wakeup := true, ctx := wokenCtx x.ctx }
    else
      let mine := fun (r : RunRef) => r.lid == w.lid && r.entry == some e
      match (s.core w.core).spilled.find? mine with
      | some r =>
        let s := s.editStored w.core w.lid (some e) r.key wokenCtx
        let s := match r.mate with
          | some e' => s.editStored (twinCore w.core) w.lid (some e') 0 wokenCtx
          | none => s
        if r.ht then s.updCore w.core fun y =>
          { y with spilled := y.spilled.map fun r => if mine r then { r with kind := 0 } else r }
        else ((s.updCore w.core fun y => { y with spilled := y.spilled.filter fun r => !mine r }).enlist
          w.core { r with kind := 0 }).serveCore w.core
      | none => s

/-- THREAD_WAKE (R122). -/
def execThreadWake (n : Nat) (s : State) : Res :=
  .next (match s.net[n]? with
    | some (.wake w) => (s.dropPacket n).deliverWake w
    | _ => s)

/-- WAITER_RETRY_TIMER (R153): an unregistered waiter is woken 1 us after it parked. -/
def execWaiterRetryTimer (c n : Nat) (s : State) : Res :=
  .next (match (s.core c).retry[n]? with
    | some (due, w) =>
      if due ≤ s.time then (s.updCore c fun x => { x with retry := x.retry.eraseIdx n }).deliverWake w else s
    | none => s)

/-! ## Reservations (R130, R145) -/

/-- The lowest handle that no reservation of a core holds; for a twin, none of either core of the pair. -/
def State.newHandle (s : State) (c : Nat) (twin : Bool) : Nat :=
  lowestFree (((s.core c).resv ++ if twin then (s.core (twinCore c)).resv else []).map (·.handle))

/-- A destination core grants a reservation: a queue entry, or else an open slot; for a twin one of these in each core of
the pair (R145). -/
def State.reserveAt (s : State) (c : Nat) (twin : Bool) : Option (Nat × State) :=
  let c := if twin then evenCore c else c
  let h := s.newHandle c twin
  let room := fun (d : Nat) => if s.inboxRoom d then some none else (s.openSlot d).map some
  let add := fun (s : State) (c : Nat) (k : Option Nat) =>
    let s := s.updCore c fun x => { x with resv := x.resv ++ [{ handle := h, slot := k, twin := twin }] }
    match k with
    | some k => s.updSlot c k fun x => { x with held := true }
    | none => s
  match room c, if twin then room (twinCore c) else some none with
  | some a, some b => some (h, if twin then add (add s c a) (twinCore c) b else add s c a)
  | _, _ => none

/-- The answer of a reservation becomes the status token of the instruction at the cursor (R130). -/
def State.answered (s : State) (m : Msg) (h : Option Nat) : State :=
  match s.cur.frame.instrAt s.ci with
  | some i =>
    (s.fireOut i (tokBool h.isNone)).updF fun f =>
      { f with asked := f.asked.del s.ci, pend := f.pend.put (i.shape.lsid.getD 0) (.message m h h.isNone) }
  | none => s

/-- RESERVATION_RELEASE (R130). -/
def execReservationRelease (n : Nat) (s : State) : Res :=
  .next (match s.packet? n with
    | some (.resvRel _ c h) =>
      let twin := match (s.core c).resv.find? (·.handle == h) with
        | some r => r.twin
        | none => false
      ((s.dropPacket n).dropResv c h twin).servePair c
    | _ => s)

/-! ## Arrivals (R125, R128, R132, R136) -/

/-- Counts a message in LATE of the queue of the launch entry it names (R75, R59). -/
def State.countLate (s : State) (lid : Nat) : State :=
  let d := lidDie lid
  let base := (s.die d).dqbase.toNat
  match if base = 0 then none else physLoc (base + 32 * (s.entry lid).queue) with
  | some loc =>
    let v := s.rdWord (loc + 24)
    s.wrMem (loc + 24) 8 (wput v 63 48 (min 0xFFFF (wbits v 63 48 + 1))).toNat
  | none => s

/-- What becomes of a message that names a launch: delivered, late, or discarded (R59, R75, R96). -/
inductive MsgFate | deliver | late | discard
  deriving DecidableEq, Repr

/-- The fate of a message by its launch id; launch id 0 is not checked (R405). -/
def State.msgFate (s : State) (lid : Nat) : MsgFate :=
  let e := s.entry lid
  if lid = 0 then .deliver
  else if e.st == .ended || e.st == .guest || e.gen != lidGen lid then .late
  else if e.st == .ending || e.quiescent then .discard
  else .deliver

/-- A message of a launch is discarded. -/
def State.countDiscard (s : State) (lid : Nat) : State := s.updLaunch lid fun e => { e with discarded := e.discarded + 1 }

/-- A message is accepted at core c: into the slot it reserved, a slot that is open while no earlier message waits, or a
queue entry; none while a SEND finds no room. A twin message that has reserved a slot in one core only keeps it, with its
queue entry in the other, until it finds the second slot (R145). -/
def State.acceptMsg (s : State) (c : Nat) (m : Msg) (handle : Option Nat) : Option State :=
  let c := if m.t then evenCore c else c
  let start := fun (s : State) (k k' : Nat) => some (s.startMsg c k k' m)
  let queue := fun (s : State) => some ((s.updCore c fun x => { x with inbox := x.inbox ++ [m] }).serveCore c)
  let direct := fun (s : State) => if (s.core c).inbox.isEmpty then s.slotsFor c m.t else none
  match handle with
  | some h =>
    let slots := if (s.resvSlot c h).isSome || (s.core c).inbox.isEmpty then s.slotsOfMsg c m (some h) else none
    match slots with
    | some (k, k') => start (s.dropResv c h m.t) k k'
    | none =>
      if m.t && ((s.resvSlot c h).isSome || (s.resvSlot (twinCore c) h).isSome) then
        some ((s.updCore c fun x => { x with inbox := x.inbox ++ [{ m with resv := some h }] }).serveCore c)
      else queue (s.dropResv c h m.t)
  | none =>
    match direct s with
    | some (k, k') => start s k k'
    | none => if s.inboxRoom c && (!m.t || s.inboxRoom (twinCore c)) then queue s else none

/-- Whether a packet waits in the router's MSG input of core c: a message without room (R132), or a migration of no
launch without a frame (R136). (DEDUCED, unsafe: log 27) -/
def State.waitsAt (s : State) (c : Nat) : Packet → Bool
  | .msg _ m handle => m.dcore == c && s.msgFate m.lid == .deliver && !s.cutsAt c m.lid && (s.acceptMsg c m handle).isNone
  | .migr _ o f _ _ => o == c && f.lid == 0 && (s.openSlot c).isNone &&
      (s.keep c { frame := f, entry := none, key := s.serial }).isNone
  | _ => false

/-- Whether a packet is a message from src to core c. -/
def Packet.isMsg (src c : Nat) : Packet → Bool
  | .msg a m _ => a == src && m.dcore == c
  | _ => false

/-- Whether packet n from src waits behind others at the router of core c: one that waits there, or an earlier message
from the same core (R132, R133). (DEDUCED, unsafe: log 27) -/
def State.behind (s : State) (n src c : Nat) : Bool :=
  (s.net.take n).any fun p => p.isMsg src c || s.waitsAt c p

/-- Whether MSG traffic at place n of the mesh waits with what waits at the router of core c (R132, R136). (DEDUCED, unsafe: log 27) -/
def State.stuckAt (s : State) (n c : Nat) : Bool := (s.net.take n).any (s.waitsAt c)

/-- RESERVATION_REQUEST (R130): the destination answers, and the answer is the status token of the instruction. A block
that is gone takes no answer, and nothing stays reserved. A request waits with what waits at the router (R132). -/
def execReservationRequest (n : Nat) (s : State) : Res :=
  .next (match s.packet? n with
    | some (.resvReq c k fseq idx m) =>
      let x := s.slot c k
      let s0 := s.dropPacket n
      if s.stuckAt n m.dcore then s else
      if x.fseq ≠ fseq ∨ x.st ≠ .run then s0
      else
        let (h, s1) : Option Nat × State := match s0.reserveAt m.dcore m.t with
          | some (h, s1) => (some h, s1)
          | none => (none, s0)
        match s1.tallyAnswer m.lid c h.isNone m.ident with
        | none => s
        | some s1 => s1.atWordOf c k idx fun s => s.answered m h
    | _ => s)

/-- MESSAGE_ARRIVAL (R128, R132, R133). -/
def execMessageArrival (n : Nat) (s : State) : Res :=
  .next (match s.packet? n with
    | some (.msg src m handle) =>
      if s.isIdle m.dcore then s.askExit m.dcore else
      let s0 := s.dropPacket n
      let gone := fun (s : State) => match handle with
        | some h => (s.dropResv m.dcore h m.t).servePair m.dcore
        | none => s
      match s.msgFate m.lid with
      | .late => gone (s0.countLate m.lid)
      | .discard => gone (s0.countDiscard m.lid)
      | .deliver =>
        match s.cutTakes src m.dcore m.lid with
        | some r => gone (s0.updLaunch m.lid fun e => { e with taken := e.taken ++ [(r, .msg src m none)] })
        | none =>
        if s.behind n src m.dcore then s
        else match (s0.acceptMsg m.dcore m handle).bind fun s => s.tallyClaim m.lid m.dcore m.ident with
          | some s => s.countRecv m.dcore m.lid
          | none => s
    | _ => s)

/-- Whether a migration at place n of the mesh must wait: for an earlier packet of its path that is itself under way. What
is held at the router of core c does not hold it, but a migration of no launch waits there (R132, R136). (DEDUCED, unsafe: log 27) -/
def State.migrWaits (s : State) (n src c lid : Nat) : Bool :=
  if lid = 0 then s.stuckAt n c || (s.net.take n).any fun p => s.packetKey p == some (0, src, c)
  else (s.net.take n).any fun p => s.packetKey p == some (0, src, c) && (match p with
    | .migr _ _ f _ _ => f.lid != 0
    | _ => !s.stuckAt n c)

/-- MIGRATION_ARRIVAL (R136). -/
def execMigrationArrival (n : Nat) (s : State) : Res :=
  .next (match s.net[n]? with
    | some (.migr src c f migr stepping) =>
      if s.migrWaits n src c f.lid then s else
      if s.isIdle c then s.askExit c else
      let s0 := s.dropPacket n
      match s.cutTakes src c f.lid with
      | some r => s0.updLaunch f.lid fun e => { e with taken := e.taken ++ [(r, .migr src c f migr stepping)] }
      | none => match s0.tallyClaim f.lid c f.ident with
        | none => s
        | some s0 =>
          match s0.openSlot c with
          | some k => (s0.loadFrame c k f migr stepping).countRecv c f.lid
          | none =>
            if f.lid = 0 then
              match s0.keep c { frame := f, entry := none, key := s0.serial } with
              | none => s
              | some s1 =>
                let r : RunRef :=
                  { lid := 0, entry := none, key := s0.serial, migr := migr, stepping := stepping, due := f.due
                    tid := f.tid }
                (((s1.enlist c r).nextSerial).countRecv c 0).serveCore c
            else match s0.allocEntry f.lid with
              | none => s0.reserveEnd f.lid
              | some (e, s1) =>
                match s1.keep c { frame := f, entry := some e, key := s1.serial } with
                | none => s
                | some s2 =>
                  let r : RunRef :=
                    { lid := f.lid, entry := some e, key := s1.serial, migr := migr, stepping := stepping, due := f.due
                      tid := f.tid }
                  (((s2.enlist c r).nextSerial).countRecv c f.lid).serveCore c
    | _ => s)

end Sys2Proof.Machine
end

