-- ==== Sys2Proof/Machine/Power.lean ====
section
/-!
DEFINITION. Power and thermal control (06_): operating points, current budgets, package power, idle squares, district
damage, hardware control and the registers of the power register file; vault layers, rows and the remap CAM (R158-R162,
R215).
-/

namespace Sys2Proof.Machine

/-! ## Operating points (R101-R104) -/

/-- Changes district d of the package. -/
def State.updDistrict (s : State) (d : Nat) (f : District → District) : State :=
  { s with districts := Tab.upd {} s.districts d f }

/-- The target of a square (R103). -/
def State.target (s : State) (sq : Nat) : Nat :=
  let cap := (s.square sq).cap
  if (s.die (sq / 256)).hw then min cap 8
  else min cap (((squareCores sq).map fun c => (s.core c).opreq).foldl max 0)

/-- A square whose target differs from its operating point starts a transition (R104). -/
def startTransition (q : Square) : Square :=
  if q.tgt ≠ q.cur ∧ ¬ q.trans then { q with trans := true, transTo := q.tgt } else q

/-- Recomputes the target of a square after one of its inputs has changed (R103). -/
def State.retarget (s : State) (sq : Nat) : State :=
  let t := s.target sq
  if (s.square sq).tgt = t then s else s.updSquare sq fun q => startTransition { q with tgt := t }

/-- Recomputes the targets of a die's squares. -/
def State.retargetDie (s : State) (d : Nat) : State :=
  (List.range 256).foldl (fun s i => s.retarget (d * 256 + i)) s

/-- TRANSITION_COMPLETE (R104): CUR and TRANS change together, and TGT is compared again. -/
def execTransitionComplete (sq : Nat) (s : State) : Res :=
  .next (s.updSquare sq fun q =>
    if q.trans then startTransition { q with cur := q.transTo, trans := false } else q)

/-! ## Registers of the power register file (Tables 6.1-6.4) -/

/-- SQCTL as read (Table 6.2); extra is the stretch that package power adds to that of R106 (R107). (DEDUCED, unsafe: log 34) -/
def sqctlWord (q : Square) (hw : Bool) (extra : Nat) : Word :=
  word (q.ibudNew % 2 ^ 16 * 2 ^ 32 + q.capNew % 2 ^ 5 * 2 ^ 24 + q.cur % 2 ^ 5 * 2 ^ 16 + q.tgt % 2 ^ 5 * 2 ^ 8 +
    min 15 (q.stretch + extra) * 2 ^ 4 + q.overB.toNat * 8 + q.trans.toNat * 4 + q.idle.toNat * 2 + hw.toNat)

/-- DMGCFG as read (Table 6.3). (DEDUCED, unsafe: log 34) -/
def dmgcfgWord (d : Die) : Word :=
  word (d.hardNew % 2 ^ 24 * 2 ^ 40 + d.softNew % 2 ^ 24 * 2 ^ 16 + d.trefNew % 2 ^ 8)

/-- DMGSTAT as read (Table 6.4). -/
def dmgstatWord (d : District) : Word :=
  word (d.tmax % 2 ^ 8 * 2 ^ 40 + d.level % 4 * 2 ^ 32 + min (2 ^ 32 - 1) (d.d / 256))

/-- A write of OPREQ of a core; 29-31 leaves it unchanged; under hardware control it takes effect at sign-in. -/
def State.writeOpreq (s : State) (c : Nat) (v : Word) : State :=
  let n := wbits v 4 0
  if 28 < n then s
  else if (s.die (dieOf c)).hw then s.updCore c fun x => { x with opreqNew := n }
  else (s.updCore c fun x => { x with opreqNew := n, opreq := n }).retarget (squareOf c)

/-- A write of SQCTL of a square; a CAP above 28 leaves it unchanged. -/
def State.writeSqctl (s : State) (sq : Nat) (v : Word) : State :=
  let cap := wbits v 28 24
  let ib := wbits v 47 32
  if 28 < cap then s
  else if (s.die (sq / 256)).hw then s.updSquare sq fun q => { q with ibudNew := ib, capNew := cap }
  else (s.updSquare sq fun q => { q with ibudNew := ib, capNew := cap, ibud := ib, cap := cap }).retarget sq

/-- A write of DMGCFG of a die; SOFT at or above HARD, or TREF outside 60-110, leaves it unchanged (R109). -/
def State.writeDmgcfg (s : State) (d : Nat) (v : Word) : State :=
  let h := wbits v 63 40
  let so := wbits v 39 16
  let t := wbits v 7 0
  if h ≤ so ∨ t < 60 ∨ 110 < t then s
  else s.updDie d fun x =>
    let x := { x with hardNew := h, softNew := so, trefNew := t }
    if x.hw then x else { x with hard := h, soft := so, tref := t }

/-! ## Current and power (R106, R107) -/

/-- CURRENT_ESTIMATE (R106). (DESIGN CHOICE, unsafe: log 52) -/
def execCurrentEstimate (sq ma : Nat) (s : State) : Res :=
  .next (s.updSquare sq fun q =>
    let o := q.ibud != 0xFFFF && decide (q.ibud < ma)
    { q with overB := o, stretch := if o then min 15 (q.stretch + 1) else q.stretch - 1 })

/-- The limit that R21 allows at an excess energy in nJ, in mW. -/
def State.powerLimit (s : State) (e : Nat) : Nat :=
  min (s.mgmt.config.powerLimitW * 1000) (if 6000000000000 ≤ e then 2400000 else 3000000)

/-- POWER_MEASUREMENT (R107, R21): 10 us of the measured power. (DEDUCED, unsafe: log 34) (DESIGN CHOICE, unsafe: log 52) -/
def execPowerMeasurement (mw : Nat) (s : State) : Res :=
  let e := s.power.e + mw * 10 - 2400000 * 10
  let lim := s.powerLimit e
  .next { s with power :=
    { e := e, mw := mw
      extra := if lim < mw then min 15 (s.power.extra + 1)
        else if mw * 100 ≤ lim * 95 then s.power.extra - 1 else s.power.extra } }

/-! ## District damage (R110, R111) -/

/-- The largest n below bound with (2n - 1)^20 at most p, by bits from the highest. -/
def dmgRoot (p : Nat) : Nat → Nat → Nat
  | 0, n => n
  | b + 1, n => if (2 * (n + 2 ^ b) - 1) ^ 20 ≤ p then dmgRoot p b (n + 2 ^ b) else dmgRoot p b n

/-- The damage factor of a temperature in half degrees, in 1/256: the nearest to 256 * 2^((T - TREF) / 10), from 1 to
64 * 256. -/
def damageFactor (half tref : Nat) : Nat :=
  let e : Int := 180 + (half : Int) - 2 * tref
  if e < 0 then 1 else min (64 * 256) (max 1 (dmgRoot (2 ^ e.toNat) 16 0))

/-- DAMAGE_SAMPLE (R110): 10 us at the hottest sensor's temperature. (DESIGN CHOICE, unsafe: log 52) -/
def execDamageSample (d half : Nat) (s : State) : Res :=
  .next (s.updDistrict d fun x =>
    { x with tmax := half / 2, bucket := x.bucket + damageFactor half (s.die (d / 16)).tref * 10 })

/-- The compute cores of a district, in rising order. -/
def districtCores (d : Nat) : List Nat :=
  (List.range 64).map fun i => coreAt (d / 16) (d % 4 * 8 + i % 8) (d / 4 % 4 * 8 + i / 8)

/-- Inserts by key. -/
def insertBy (k : Nat) (v : Nat × Nat × Option RunRef) :
    List (Nat × Nat × Nat × Option RunRef) → List (Nat × Nat × Nat × Option RunRef)
  | [] => [(k, v)]
  | x :: t => if k < x.1 then (k, v) :: x :: t else x :: insertBy k v t

/-- The threads of a district parked under R111, in slots and spilled, in the order in which they were parked. (DEDUCED, unsafe: log 28) -/
def State.htThreads (s : State) (d : Nat) : List (Nat × Nat × Nat × Option RunRef) :=
  (districtCores d).foldl (fun l c =>
    let l := [0, 1, 2, 3].foldl (fun l k =>
      let x := s.slot c k
      if waitHt x.ctx.wait && (x.st == .park || x.st == .frozen || x.st == .out) then insertBy x.htSeq (c, k, none) l else l) l
    (s.core c).spilled.foldl (fun l r => if r.ht then insertBy r.htSeq (c, 0, some r) l else l) l) []

/-- A context no longer held by R111. -/
def noHt (x : Ctx) : Ctx := { x with wait := wput x.wait 59 59 0 }

/-- LEVEL has returned to 0: a thread parked under R111 is released; one whose own wait goes on keeps waiting. -/
def State.htRelease (s : State) (t : Nat × Nat × Nat × Option RunRef) : State :=
  let c := t.2.1
  match t.2.2.2 with
  | none =>
    let k := t.2.2.1
    let s := s.both c k fun x => { x with ctx := noHt x.ctx }
    if (s.slot c k).st = .park ∧ waitKind (s.slot c k).ctx.wait = 0 then s.makeRunnable c k else s
  | some r =>
    let s := s.editStored c r.lid r.entry r.key noHt
    let s := match r.mate with
      | some e' => s.editStored (twinCore c) r.lid (some e') 0 noHt
      | none => s
    if r.kind = 0 then
      ((s.updCore c fun y => { y with spilled := y.spilled.filter (· != r) }).enlist c { r with ht := false }).serveCore c
    else s.updCore c fun y =>
      { y with spilled := y.spilled.map fun x => if x == r then { r with ht := false } else x }

/-- The level after a window of damage d (R110), in 1/256 us. -/
def nextLevel (level d hard soft : Nat) : Nat :=
  if hard * 256 ≤ d then 2 else if soft * 256 ≤ d ∧ level = 0 then 1 else if d < soft * 256 then 0 else level

/-- DAMAGE_WINDOW (R110, R111). -/
def execDamageWindow (d : Nat) (s : State) : Res :=
  let x := s.die (d / 16)
  let old := s.district d
  let w := (old.bucket :: old.window).take 100
  let sum := w.foldl (· + ·) 0
  let level := nextLevel old.level sum x.hard x.soft
  let s := s.updDistrict d fun y => { y with window := w, d := sum, bucket := 0, level := level }
  .next (if level = 0 ∧ old.level ≠ 0 then (s.htThreads d).foldl State.htRelease s else s)

/-- HARD_THRESHOLD_PARK (R111): the lowest-numbered core and slot of a district at LEVEL 2. -/
def execHardThresholdPark (d : Nat) (s : State) : Res :=
  let all := (districtCores d).flatMap fun c => [0, 1, 2, 3].map fun k => (c, k)
  .next (if (s.district d).level ≠ 2 then s
    else match all.find? fun ck => htParks (s.slot ck.1 ck.2) && !tswShadow (s.slot ck.1 ck.2).ctx.tsw with
      | some (c, k) => s.htPark c k
      | none => s)

/-! ## Idle squares (R108) -/

/-- IDLE_ENTRY (R108). -/
def execIdleEntry (sq : Nat) (s : State) : Res :=
  let q := s.square sq
  .next (if s.quiet sq && !q.idle && q.quietSince.any (fun t => decide (t + 10000 ≤ s.time)) then
    s.updSquare sq fun q => { q with idle := true, exitSince := none }
  else s)

/-- The waiting squares of a die, longest wait first, ties by square number. -/
def State.waitingSquares (s : State) (d : Nat) : List Nat :=
  let l := (List.range 256).filterMap fun i =>
    let q := s.square (d * 256 + i)
    if q.idle then q.exitSince.map fun t => (t, d * 256 + i) else none
  (l.foldl (fun a x => insertBy x.1 (x.2, 0, none) a) []).map fun x => x.2.1

/-- A square leaves idle, and its cores serve what waits. -/
def State.leaveIdle (s : State) (sq : Nat) : State :=
  (squareCores sq).foldl State.serveCore
    (s.updSquare sq fun q => { q with idle := false, exitSince := none, quietSince := some s.time })

/-- IDLE_EXIT (R108): at most 16 squares of a die in each us. -/
def execIdleExit (d : Nat) (s : State) : Res :=
  let us := s.time / 1000
  let used := if (s.die d).exitUs = us then (s.die d).exits else 0
  let go := (s.waitingSquares d).take (16 - used)
  .next (go.foldl State.leaveIdle (s.updDie d fun x => { x with exitUs := us, exits := used + go.length }))

/-! ## Hardware control (R112) -/

/-- HEARTBEAT_TIMEOUT (R112): 10 ms without a PCHB write. -/
def execHeartbeatTimeout (d : Nat) (s : State) : Res :=
  .next (if (s.die d).lastPchb + 10000000 ≤ s.time ∧ ¬ (s.die d).hw then
    (s.updDie d fun x => { x with hw := true }).retargetDie d
  else s)

/-- PCHB (R112). -/
def execPchb (d : Nat) (_v : Word) (s : State) : Res := .next (s.updDie d fun x => { x with lastPchb := s.time })

/-- The stored registers of a die take effect (R112); the 10 ms run anew from the end of hardware control. (DEDUCED, unsafe: log 81) -/
def State.signIn (s : State) (d : Nat) : State :=
  let s := s.updDie d fun x =>
    { x with hw := false, hard := x.hardNew, soft := x.softNew, tref := x.trefNew
             lastPchb := if x.hw then s.time else x.lastPchb }
  let s := (List.range 1024).foldl (fun s i =>
    let c := d * 1024 + i
    if (s.core c).opreq = (s.core c).opreqNew then s else s.updCore c fun x => { x with opreq := x.opreqNew }) s
  let s := (List.range 256).foldl (fun s i =>
    let q := s.square (d * 256 + i)
    if q.cap = q.capNew ∧ q.ibud = q.ibudNew then s
    else s.updSquare (d * 256 + i) fun q => { q with cap := q.capNew, ibud := q.ibudNew }) s
  s.retargetDie d

/-- PCSIGN (R112). -/
def execPcsign (d : Nat) (v : Word) (s : State) : Res := .next (if v = 0x5349474E then s.signIn d else s)

/-! ## Vault layers and rows (R158-R162) -/

/-- Memory without the bytes and bits of a range of locations: zero, empty, unpoisoned. -/
def Memory.clear (m : Memory) (lo hi : Nat) : Memory :=
  { bytes := m.bytes.filter fun e => !(decide (lo ≤ e.1) && decide (e.1 < hi))
    full := m.full.filter fun e => !(decide (lo ≤ 8 * e.1) && decide (8 * e.1 < hi))
    pois := m.pois.filter fun e => !(decide (lo ≤ 8 * e.1) && decide (8 * e.1 < hi)) }

/-- No port keeps a word of a range of memory. -/
def State.dropRange (s : State) (lo hi : Nat) : State := s.keepBufs fun b => !(decide (lo ≤ b.loc) && decide (b.loc < hi))

/-- A range of memory becomes zero, empty and unpoisoned. -/
def State.clearMem (s : State) (lo hi : Nat) : State := { s.dropRange lo hi with mem := s.mem.clear lo hi }

/-- A layer of a vault becomes zero, empty and unpoisoned. -/
def State.clearLayer (s : State) (c n : Nat) : State :=
  s.clearMem (vaultLoc c (n * 2 ^ 24)) (vaultLoc c ((n + 1) * 2 ^ 24))

/-- One bit of an 8-bit mask set or cleared. -/
def bit8 (m : BitVec 8) (n : Nat) (b : Bool) : BitVec 8 :=
  if b then m ||| BitVec.ofNat 8 (2 ^ n) else m &&& ~~~BitVec.ofNat 8 (2 ^ n)

/-- VLPWR as read (Table 8.12). -/
def vlpwrWord (v : Vault) : Word := word (v.lock.toNat * 2 ^ 16 + v.busy.toNat * 2 ^ 8 + v.on.toNat)

/-- A write of VLPWR (R162): layers whose ON bit changes start powering off or on; a locked layer stays off, and a layer
in transition keeps its state. (DEDUCED, unsafe: log 32) -/
def writeVlpwr (v : Vault) (x : Word) : Vault :=
  (List.range 8).foldl (fun v n =>
    let want := x.toNat.testBit n
    if v.busy.toNat.testBit n || v.on.toNat.testBit n == want || (want && v.lock.toNat.testBit n) then v
    else { v with on := bit8 v.on n want, busy := bit8 v.busy n true }) v

/-- VLPWR_WRITE (R162): a write to a debug window (R108). -/
def execVlpwrWrite (c : Nat) (v : Word) (s : State) : Res :=
  .next (if isSvc c then s else (s.updVault c fun x => writeVlpwr x v).askExit c)

/-- LAYER_POWER_ON_COMPLETE (R162). -/
def execLayerPowerOnComplete (c n : Nat) (s : State) : Res :=
  let v := s.vault c
  .next (if n < 8 ∧ v.busy.toNat.testBit n ∧ v.on.toNat.testBit n then
    (s.updVault c fun v => { v with busy := bit8 v.busy n false }).clearLayer c n
  else s)

/-- An access to layer n of core c's vault is in flight: a committed store that has not drained, or a remote operation that
has left its core (R162). (DEDUCED, unsafe: log 32) -/
def State.layerInFlight (s : State) (c n : Nat) : Bool :=
  let inside := fun (l : Nat) => match vaultOf l with
    | some (d, _) => d == c && layerOf l == n
    | none => false
  let remote := fun (op : RemOp) => match op.place with
    | .mem l => inside l
    | _ => false
  s.cores.any (fun y => y.2.sb.any (fun e => e.reach.any inside) || y.2.posts.any remote ||
      y.2.slots.any fun z => match z.2.twin with
        | some t => t.gated.any fun e => e.reach.any inside
        | none => false) ||
    s.net.any fun p => match p with
      | .remote op => remote op
      | _ => false

/-- LAYER_POWER_OFF_COMPLETE (R162): every access in flight has completed, and the layer's contents are lost. -/
def execLayerPowerOffComplete (c n : Nat) (s : State) : Res :=
  let v := s.vault c
  .next (if n < 8 ∧ v.busy.toNat.testBit n ∧ ¬ v.on.toNat.testBit n ∧ !s.layerInFlight c n then
    (s.updVault c fun v =>
      { v with busy := bit8 v.busy n false, openRows := v.openRows.filter fun r => r.1 / 4 != n }).clearLayer c n
  else s)

/-- REFRESH (R159): one row of a bank; the bank's open row closes. -/
def execRefresh (c b : Nat) (s : State) : Res :=
  .next (s.updVault c fun v =>
    { v with openRows := v.openRows.del b, refreshRow := v.refreshRow.put b ((Tab.rd 0 v.refreshRow b + 1) % 2048) })

/-- ROW_TIMEOUT (R158): 1 us without an access to the open row. -/
def execRowTimeout (c b : Nat) (s : State) : Res :=
  .next (match (s.vault c).openRows.find? b with
    | some (_, t) => if t + 1000 ≤ s.time then s.updVault c fun v => { v with openRows := v.openRows.del b } else s
    | none => s)

/-- LAYER_THROTTLE_SAMPLE (R161): throttle is entered at 95 degrees and left at 90. -/
def execLayerThrottleSample (c n t : Nat) (s : State) : Res :=
  .next (s.updVault c fun v =>
    { v with
      temps := v.temps.put n t
      throttled := if 95 ≤ t then bit8 v.throttled n true else if t ≤ 90 then bit8 v.throttled n false
        else v.throttled })

/-! ## The remap CAM (R160, R215) -/

/-- CAMREQ as read (Table 10.11). -/
def camreqWord (v : Vault) : Word := word (v.camRes % 4 * 2 ^ 62 + v.camBank % 2 ^ 5 * 2 ^ 11 + v.camRow % 2 ^ 11)

/-- The lowest-numbered good unused spare of a bank; 64 spares each (R16). -/
def goodSpare (v : Vault) (b : Nat) : Option Nat :=
  (List.range 64).find? fun n => !v.badSpares.contains (b, n) && !v.cam.any fun e => e.1 == b && e.2.2 == n

/-- A write of CAMREQ (R215). (DEDUCED, unsafe: log 31) -/
def writeCamreq (v : Vault) (x : Word) : Vault :=
  if v.camRes = 1 then v
  else
    let b := wbits x 15 11
    let ok := decide (v.cam.length < 1024) && (goodSpare v b).isSome
    { v with camBank := b, camRow := wbits x 10 0, camRes := if ok then 1 else 3 }

/-- CAMREQ_WRITE (R215): a write to a debug window (R108). -/
def execCamreqWrite (c : Nat) (v : Word) (s : State) : Res :=
  .next (if isSvc c then s else (s.updVault c fun x => writeCamreq x v).askExit c)

/-- A CAM entry for a row; one that the row had goes, and its spare is not used again. (DEDUCED, unsafe: log 31) -/
def addCam (v : Vault) (b r n : Nat) : Vault :=
  let old := v.cam.filter fun e => e.1 == b && e.2.1 == r
  { v with
    cam := v.cam.filter (fun e => !(e.1 == b && e.2.1 == r)) ++ [(b, r, n)]
    badSpares := v.badSpares ++ old.map fun e => (e.1, e.2.2) }

/-- REMAP_COMPLETE (R160): the copy to the spare is complete and the CAM entry is written; the row keeps its contents. -/
def execRemapComplete (c : Nat) (s : State) : Res :=
  .next (s.updVault c fun v =>
    if v.camRes = 1 then
      match goodSpare v v.camBank with
      | some n => { addCam v v.camBank v.camRow n with camRes := 2 }
      | none => { v with camRes := 3 }
    else v)

end Sys2Proof.Machine
end

