-- ==== Sys2Proof/Machine/Turnover.lean ====
section
/-!
DEFINITION. Power-up, protective shutdown and restart (R22, R23, R26), the configuration store (R71) and the tenant
turnover (04_): quiescing, scrub, hardware clear, health test, firmware and the attestation report.
-/

namespace Sys2Proof.Machine

/-! ## The queue tables (R52) -/

/-- The location of word i of the descriptor of queue q of die d; none while the die has no queue table. -/
def State.queueLoc (s : State) (d q i : Nat) : Option Nat :=
  let base := (s.die d).dqbase.toNat
  if base = 0 then none else physLoc (base + 32 * q + 8 * i)

/-- Word i of a queue descriptor. -/
def State.queueWord (s : State) (d q i : Nat) : Word :=
  match s.queueLoc d q i with
  | some loc => s.rdWord loc
  | none => 0

/-- A store of a whole word on the ordinary or remote path: every port sees it. -/
def State.putWord (s : State) (loc : Nat) (v : Word) : State := (s.wrWord loc v).dropReadBufs [loc]

/-- Writes word i of a queue descriptor. -/
def State.setQueueWord (s : State) (d q i : Nat) (v : Word) : State :=
  match s.queueLoc d q i with
  | some loc => (s.putWord loc v).touchRow loc
  | none => s

/-- EN of a queue (Table 3.8, bit 204). -/
def State.queueEn (s : State) (d q : Nat) : Bool := (s.queueWord d q 3).toNat.testBit 12

/-- Clears EN of a queue. -/
def State.clearEn (s : State) (d q : Nat) : State :=
  if s.queueEn d q then s.setQueueWord d q 3 (wput (s.queueWord d q 3) 12 12 0) else s

/-! ## The start of a turnover (R61-R64) -/

/-- The dies' queues: 8,192 each (R52). -/
def allQueues : List (Nat × Nat) := (List.range 4).flatMap fun d => (List.range 8192).map fun q => (d, q)

/-- Step 1 (Table 4.1): EN of every queue clears; every launch, thread, message and command stops with no completion
record; the peer-role ports go down; the service cores are held; both copies of the frame table are invalid. Host requests
outstanding at the adapter complete with Unsupported Request, and nothing more of them is sent (R64). The launch tables are
emptied with their generations and reuse delays. (DEDUCED, unsafe: log 30) (DESIGN CHOICE, unsafe: log 91) -/
def State.quiesce (s : State) : State :=
  let s := allQueues.foldl (fun s q => s.clearEn q.1 q.2) s
  { s with
    cores := s.cores.map fun (n, x) =>
      (n, { x with slots := x.slots.map fun (k, y) => (k, { y with st := .free, frame := {}, next := {}, twin := none })
                   sb := [], outbox := [], posts := [], inbox := [], resv := [], store := [], runnable := [], spilled := []
                   cmds := [], board := [] })
    dies := s.dies.map fun (n, x) => (n, { x with table := [], guests := [], queues := [] })
    ports := s.ports.map fun (n, x) =>
      let x := { x with pending := [], cutHeld := [], msgsOut := [], held := [] }
      (n, if s.role n = 0 then x
        else { x with up := false, lanes := 0, resv := [], tx := [], rx := [], outq := [], wire := [] })
    gathers := []
    svcs := s.svcs.map fun (n, x) => (n, { x with held := true, frames := [], rsps := [], inFlight := [], part := {}, taken := 0 })
    adapter := { s.adapter with
      frames := [], sent := [], waiting := [], answers := [], outstanding := []
      cpls := s.adapter.cpls ++ (s.adapter.outstanding.map fun r => { tag := r.tag, status := 1 }) ++
        ((s.adapter.waiting.filter fun e => txnReads e.2).map fun e => { tag := e.2.tag, status := 1 }) }
    squares := s.squares.map fun (n, x) => (n, { x with quietSince := some s.time, mcast := [] })
    net := [] }

/-- The service cores, all of them. -/
def holdSvcs (s : State) (held : Bool) : State :=
  { s with svcs := (List.range 16).foldl (fun t q => Tab.upd {} t q fun x => { x with held := held }) s.svcs }

/-- A start that the management controller accepts (R61). -/
def State.beginTurnover (s : State) (tenant : Word) : State :=
  let s := holdSvcs s.quiesce true
  { s with mgmt := { s.mgmt with
      phase := .quiesced, state := 1, fail := 0, tenant := tenant, nonce := s.mgmt.nonceReg, tstart := s.time
      running := true, repairs := 0, frames := [], framesTotal := 0, ovf := false, report := []
      configDue := s.mgmt.configNew <|> s.mgmt.configDue, configNew := none } }

/-- Step n of Table 4.1 after phase ph: STATE becomes n as the step begins, and f is what stands once it is complete. A
FAILED that the step before has left stays. (DEDUCED, unsafe: log 79) -/
def State.turnStep (s : State) (ph : Phase) (n : Nat) (f : State → State) : State :=
  if s.mgmt.phase ≠ ph then s
  else if s.mgmt.state < n then { s with mgmt := { s.mgmt with state := n } }
  else f s

/-- Whether the controller accepts a start: no turnover runs, and the module is up. (DESIGN CHOICE, unsafe: log 80) -/
def State.mayTurnover (s : State) : Bool := s.mgmt.phase == .ready && !s.mgmt.running

/-- TURNOVER_CMD (R61): a host write of CMD. -/
def execTurnoverCmd (v : Word) (s : State) : Res :=
  .next (if v = 7 ∧ s.mayTurnover then s.beginTurnover s.mgmt.tenantReg else s)

/-! ## Power-up, shutdown and restart -/

/-- The dies as they come up: everything but the management controller's and the adapter's own state is at its reset
value, the repair log is in the CAMs (R68), and the service cores run their firmware until step 3 of Table 1.5 ends. -/
def State.comeUp (s : State) : State :=
  let s : State := { agenda := s.agenda, fresh := s.fresh, serial := s.serial, mgmt := s.mgmt, adapter := s.adapter }
  s.mgmt.repairLog.foldl (fun s e => s.updVault e.1 fun v => addCam v e.2.1 e.2.2.1 e.2.2.2) (holdSvcs s true)

/-- MODULE_RESET_RELEASE (R22): steps 1 and 2 of Table 1.5, with a configuration store that passes its verification; the
squares are held off and the timestamp starts. (DESIGN CHOICE, unsafe: log 86) -/
def execModuleResetRelease (s : State) : Res :=
  .next (if s.mgmt.phase = .held then
    let s := s.comeUp
    { s with mgmt := { s.mgmt with phase := .powering 0, state := 0, count := 0, fail := 0, running := false } }
  else s)

/-- The squares of die d that step k of R23 enables. -/
def squaresOfStep (d k : Nat) : List Nat :=
  (List.range 16).map fun i => d * 256 + (i / 4 * 4 + k / 4) * 16 + (i % 4 * 4 + k % 4)

/-- Enables a square at the safe operating point. -/
def State.enableSquare (s : State) (sq : Nat) : State :=
  s.updSquare sq fun q => { q with on := true, quietSince := some s.time }

/-- SQUARE_ENABLE_STEP (R22, R23): 100 us after the release the supervisors have started (step 3 of Table 1.5); n us later
die d takes its step n - 4d; at 128 us all squares are on, and the first turnover starts with tenant 0 (R61). -/
def execSquareEnableStep (s : State) : Res :=
  .next (match s.mgmt.phase with
    | .powering n =>
      if s.time < 100000 + 1000 * n then s
      else if n < 28 then
        let on := [0, 1, 2, 3].flatMap fun d => if 4 * d ≤ n ∧ n < 4 * d + 16 then squaresOfStep d (n - 4 * d) else []
        let s := on.foldl State.enableSquare (if n = 0 then holdSvcs s false else s)
        { s with mgmt := { s.mgmt with phase := .powering (n + 1) } }
      else s.beginTurnover 0
    | _ => s)

/-- The module is shut down: power goes from the dies, work in flight is lost, the cause is logged (R26). -/
def State.shutDown (s : State) (code detail : Nat) : State :=
  let s : State := { agenda := s.agenda, fresh := s.fresh, serial := s.serial, mgmt := s.mgmt, adapter := s.adapter }
  { s with mgmt := { s.mgmt with
      phase := .shutdown, state := 0, count := 0, fail := 0, running := false
      events := s.mgmt.events ++ [(code, detail)] } }

/-- The dies have power. -/
def State.powered (s : State) : Bool := s.mgmt.phase != .held && s.mgmt.phase != .shutdown

/-- THERMAL_SHUTDOWN (R26): a die sensor at 115 degrees or more. -/
def execThermalShutdown (die t : Nat) (s : State) : Res :=
  .next (if 115 ≤ t ∧ s.powered then s.shutDown (1 + die) t else s)

/-- FLOW_SHUTDOWN (R26): less than 1.5 L/min for 1 s. -/
def execFlowShutdown (ml ms : Nat) (s : State) : Res :=
  .next (if ml < 1500 ∧ 1000 ≤ ms ∧ s.powered then s.shutDown 0 ml else s)

/-- MODULE_RESTART (R26): a module held off after a shutdown awaits the release of its reset. -/
def execModuleRestart (s : State) : Res :=
  .next (if s.mgmt.phase = .shutdown then { s with mgmt := { s.mgmt with phase := .held } } else s)

/-! ## The configuration store and the anti-rollback counter (R70, R71) -/

/-- The anti-rollback counter, of 32 bits, accepts an image's version, and its new value; none where the image is
refused. -/
def Mgmt.roll (m : Mgmt) (version : Nat) : Option Mgmt :=
  if version < m.arcnt ∨ 2 ^ 32 ≤ version then none
  else if version = m.arcnt then some m
  else if 65535 ≤ m.raises then none
  else some { m with arcnt := version, raises := m.raises + 1 }

/-- CONFIG_STORE_UPDATE (R71): an accepted image takes effect at the next turnover. -/
def execConfigStoreUpdate (img : ConfigImage) (sigOk : Bool) (s : State) : Res :=
  .next (match if sigOk then s.mgmt.roll img.version else none with
    | some m => { s with mgmt := { m with configNew := some img } }
    | none => s)

/-! ## Scrub (R65) and hardware clear (R66) -/

/-- The pattern of pass 1 at a vault offset. -/
def scrubPattern (o : Nat) : Nat := o * 0x9E3779B97F4A7C15 % 2 ^ 64

/-- TURNOVER_SCRUB (R65): three passes over every vault; the rows whose words do not read back become candidates. -/
def execTurnoverScrub (bad : List RowName) (s : State) : Res :=
  .next (s.turnStep .quiesced 2 fun s =>
    let s := s.clearMem 0 (2 ^ 39)
    let s := bad.foldl (fun s r => s.updVault r.core fun v =>
      { v with candidates := v.candidates ++ [(r.bank, r.row)] }) s
    { s with mgmt := { s.mgmt with phase := .scrubbed } })

/-- What of a vault controller a hardware clear leaves: the CAM and what the health test knows of rows. -/
def clearVault (v : Vault) : Vault :=
  { cam := v.cam, badSpares := v.badSpares, retired := v.retired, candidates := v.candidates, temps := v.temps
    throttled := v.throttled, refreshRow := v.refreshRow, openRows := v.openRows }

/-- TURNOVER_CLEAR (R66, R400): TCMs and square memories, register banks, stores, buffers, waiters, scoreboards,
semaphores, arrays, code tables, TLBs and frames; every CSR but TIMESTAMP takes its reset value. -/
def execTurnoverClear (s : State) : Res :=
  .next (s.turnStep .scrubbed 3 fun s =>
    let s := s.clearMem (2 ^ 39) (2 ^ 41)
    { s with
      cores := [], waiters := [], ro := [], gathers := [], readBufs := [], async := [], unack := [], outTids := []
      vaults := s.vaults.map fun (n, v) => (n, clearVault v)
      squares := s.squares.map fun (n, q) => (n, { on := q.on, quietSince := some s.time })
      districts := s.districts.map fun (n, d) => (n, { bucket := d.bucket, window := d.window })
      dies := s.dies.map fun (n, d) =>
        (n, { lastPchb := d.lastPchb, exitUs := d.exitUs, exits := d.exits, ordinal := d.ordinal })
      ports := s.ports.map fun (n, p) => (n, { p with pimp := 0, counts := [] })
      power := { s.power with extra := 0 }
      mgmt := { s.mgmt with phase := .cleared } })

/-! ## Health test (R67-R69) -/

/-- A retired frame list entry (Table 4.3) for a row. -/
def retiredFrame (r : RowName) : Word :=
  word (r.core % 2 ^ 12 * 2 ^ 28 + (r.bank / 4 * 256 + r.row / 8) % 2 ^ 11 * 2 ^ 16)

/-- Retires a row: its frame counts once, and is listed while the list has room for it. -/
def State.retireRow (s : State) (r : RowName) : State :=
  let e := retiredFrame r
  let known := (s.vault r.core).retired.any fun x => retiredFrame ⟨r.core, x.1, x.2⟩ == e
  let s := s.updVault r.core fun v => { v with retired := v.retired ++ [(r.bank, r.row)] }
  let m := s.mgmt
  if known then s
  else if m.frames.length < 4096 then
    { s with mgmt := { m with frames := m.frames ++ [e], framesTotal := m.framesTotal + 1 } }
  else { s with mgmt := { m with framesTotal := m.framesTotal + 1, ovf := true } }

/-- A failing row is remapped, or retired (R68). again: it fails its second march too. -/
def State.failRow (s : State) (r : RowName) (again : Bool) : State :=
  let v := s.vault r.core
  match if v.cam.length < 1024 then goodSpare v r.bank else none with
  | some n =>
    let s := s.updVault r.core fun v => addCam v r.bank r.row n
    let m := s.mgmt
    let s := { s with mgmt := { m with
      repairs := m.repairs + 1, repairLog := m.repairLog ++ [(r.core, r.bank, r.row, n)] } }
    if again then s.retireRow r else s
  | none => s.retireRow r

/-- Layers with more than 32 retired rows are powered off and locked (R68). -/
def lockLayers (v : Vault) : Vault :=
  (List.range 8).foldl (fun v n =>
    if 32 < (v.retired.filter fun r => r.1 / 4 == n).length then
      { v with on := bit8 v.on n false, lock := bit8 v.lock n true }
    else v) v

/-- The rows that a CAM maps to spare rows of the list: they fail with their spares. -/
def mappedTo (s : State) (bad : List RowName) : List RowName :=
  bad.filterMap fun r => ((s.vault r.core).cam.find? fun e => e.1 == r.bank && e.2.2 == r.row).map fun e =>
    ⟨r.core, e.1, e.2.1⟩

/-- A vault's CAM maps no row to a spare row marked bad. -/
def dropBadSpares (v : Vault) : Vault := { v with cam := v.cam.filter fun e => !v.badSpares.contains (e.1, e.2.2) }

/-- TURNOVER_HEALTH (R67, R68): the rows and spare rows that fail the march, and those that fail it again, come from
outside; a row mapped to a failing spare fails too; the march leaves every vault word zero, empty and unpoisoned. (DESIGN CHOICE, unsafe: log 52) -/
def execTurnoverHealth (bad badAgain badSpare : List RowName) (s : State) : Res :=
  .next (s.turnStep .cleared 4 fun s =>
    let s := s.clearMem 0 (2 ^ 39)
    let s : State := { s with vaults := s.vaults.map fun (n, v) => (n, { v with retired := [], candidates := [] }) }
    let lost := mappedTo s badSpare
    let s := badSpare.foldl (fun s r => s.updVault r.core fun v =>
      { v with badSpares := v.badSpares ++ [(r.bank, r.row)] }) s
    let s := (bad ++ lost.filter fun r => !bad.contains r).foldl (fun s r => s.failRow r (badAgain.contains r)) s
    let s : State := { s with vaults := s.vaults.map fun (n, v) => (n, lockLayers (dropBadSpares v)) }
    let off := (s.vaults.map fun (_, v) => popcount 8 v.lock.toNat).foldl (· + ·) 0
    { s with mgmt := { s.mgmt with phase := .tested, layersOff := off } })

/-! ## Firmware (R70) and the report (R72) -/

/-- Why a firmware image is refused: 1 signature, 2 rollback, or no raise left; or the counter after it.
(DESIGN CHOICE, unsafe: log 93) -/
def Mgmt.load (m : Mgmt) (f : FwImage) : Except Nat Mgmt :=
  if !f.sigOk then .error 1
  else match m.roll f.version with
    | some m => .ok m
    | none => .error 2

/-- Every die is under hardware control (R112). -/
def State.hardwareControl (s : State) : State :=
  (List.range 4).foldl (fun s d => (s.updDie d fun x => { x with hw := true }).retargetDie d) s

/-- TURNOVER_FIRMWARE (R70, R71, R112): hardware control begins as the step does; the images are verified and measured, and
the new configuration takes effect; the service cores are released where both images pass, else STATE becomes FAILED.
The power-controller image is not checked after the other has failed.
(DEDUCED, unsafe: log 30) (DESIGN CHOICE, unsafe: log 93) -/
def execTurnoverFirmware (sc pc : FwImage) (s : State) : Res :=
  .next (let s := if s.mgmt.phase = .tested then s.hardwareControl else s
    s.turnStep .tested 5 fun s =>
    let m := s.mgmt
    let (m, fail) := match m.load sc with
      | .error n => (m, n)
      | .ok m' => match m'.load pc with
        | .error n => (m', n)
        | .ok m'' => (m'', 0)
    let m := { m with
      phase := .loaded, state := if fail = 0 then 5 else 9, fail := fail, fwok := fail == 0
      scfw := sc.digest, pcfw := pc.digest
      config := m.configDue.getD m.config, configDue := none, tend := s.time }
    let s := { s with mgmt := m }
    if fail = 0 then holdSvcs s false else s)

/-- Writes n bytes of v into the report, little-endian. -/
def putReport (t : Tab Byte) : Nat → Nat → Nat → Tab Byte
  | _, 0, _ => t
  | off, n + 1, v => putReport (t.put off (BitVec.ofNat 8 v)) (off + 1) n (v / 256)

/-- The signed bytes of the report (Table 4.4). -/
def reportBytes (m : Mgmt) (cammax : Nat) (serial : Word) (mcfw retlist : BitVec 512) : Tab Byte :=
  let degraded := m.framesTotal != 0 || m.layersOff != 0
  let flags := m.fwok.toNat + degraded.toNat * 2 + m.ovf.toNat * 4
  [(0x000, 4, 1), (0x004, 4, 0x200), (0x008, 8, serial.toNat), (0x010, 8, m.tenant.toNat), (0x018, 4, m.arcnt),
    (0x01C, 1, m.config.pkgId), (0x01D, 1, flags), (0x01E, 2, m.layersOff), (0x020, 8, m.tstart), (0x028, 8, m.tend),
    (0x030, 4, m.repairs), (0x034, 4, cammax), (0x038, 4, m.framesTotal), (0x03C, 4, 0), (0x040, 32, m.nonce.toNat),
    (0x060, 64, mcfw.toNat), (0x0A0, 64, m.scfw.toNat), (0x0E0, 64, m.pcfw.toNat), (0x120, 64, m.config.digest.toNat),
    (0x160, 64, retlist.toNat), (0x1A0, 96, 0)].foldl (fun t f => putReport t f.1 f.2.1 f.2.2) []

/-- RETLIST (Table 4.4): SHAKE256 of the listed retired frame entries, in list order. -/
def retlistOf (m : Mgmt) : BitVec 512 := BitVec.ofNat 512 (leNat (shake256 (m.frames.flatMap fun w => leBytes 8 w.toNat) 64))

/-- TURNOVER_ATTEST (R72): the report is built, and STATE becomes DONE or FAILED. lo and hi are the halves of MCFW. (DEDUCED, unsafe: log 30) -/
def execTurnoverAttest (lo hi : BitVec 256) (serial : Word) (s : State) : Res :=
  .next (s.turnStep .loaded 6 fun s =>
    let m := s.mgmt
    let cammax := (s.vaults.map fun (_, v) => v.cam.length).foldl max 0
    { s with mgmt := { m with
        phase := .ready, running := false, state := if m.fail = 0 then 8 else 9
        count := if m.fail = 0 then m.count + 1 else m.count
        report := reportBytes m cammax serial (hi ++ lo) (retlistOf m) } })

end Sys2Proof.Machine
end

