-- ==== Sys2Proof/Machine/Registers.lean ====
section
/-!
DEFINITION. The CSRs (R400, Table 16.18), the debug window (R211-R215, Table 10.6) and the writes of registers that come
from outside the cores.
-/

namespace Sys2Proof.Machine

/-! ## CSRs -/

/-- Half a segment image. -/
def segHalf (g : BitVec 128) (hi : Bool) : Word := word (if hi then g.toNat / 2 ^ 64 else g.toNat)

/-- A segment image with one half replaced; its reserved bits are dropped. -/
def putHalf (g : BitVec 128) (hi : Bool) (v : Word) : BitVec 128 :=
  BitVec.ofNat 128 (if hi then v.toNat % 2 ^ 48 * 2 ^ 64 + g.toNat % 2 ^ 64 else g.toNat / 2 ^ 64 * 2 ^ 64 + v.toNat)

/-- WOVF as written (Table 8.5). -/
def wovfMask (v : Word) : Word := word (wbits v 26 16 * 2 ^ 16 + wbits v 0 0)

/-- The CSR n of core c as the thread with TSW tsw reads it; none where the number is not listed. -/
def State.csrRead (s : State) (c : Nat) (tsw : Word) (n : Nat) : Option Word :=
  let x := s.core c
  let d := dieOf c
  let own := fun (w : Word) => if isSvc c then (0 : Word) else w
  if n = 0 then some (word c)
  else if n = 1 then some x.sroot
  else if n = 2 then some (own (s.vault c).wovf)
  else if n = 3 then some (own (vlpwrWord (s.vault c)))
  else if n = 4 then some (own (camreqWord (s.vault c)))
  else if n = 5 then some tsw
  else if n = 8 then some (s.die d).dqbase
  else if 0x10 ≤ n ∧ n < 0x20 then some (segHalf (Tab.rd 0 x.mseg ((n - 0x10) / 2)) (n % 2 == 1))
  else if n = 0x20 then some (word s.time)
  else if n = 0x21 then some (own (word (s.vault c).ecnt))
  else if n = 0x30 ∨ n = 0x31 then some (s.port (2 * d + (n - 0x30))).pimp
  else if 0x400 ≤ n ∧ n < 0x800 then some (word (s.core (d * 1024 + (n - 0x400))).opreqNew)
  else if 0x800 ≤ n ∧ n < 0x900 then some (sqctlWord (s.square (d * 256 + (n - 0x800))) (s.die d).hw s.power.extra)
  else if 0x900 ≤ n ∧ n < 0x910 then some (dmgstatWord (s.district (d * 16 + (n - 0x900))))
  else if n = 0x910 then some (dmgcfgWord (s.die d))
  else if n = 0x911 ∨ n = 0x912 then some 0
  else none

/-- PIMP as written (Table 7.11). -/
def pimpMask (v : Word) : Word := word (wbits v 63 62 * 2 ^ 62 + wbits v 15 0)

/-- A write of CSR n of core c other than TSW; what the field maps refuse is ignored. -/
def State.csrWrite (s : State) (c n : Nat) (v : Word) : State :=
  let d := dieOf c
  if n = 1 then s.updCore c fun x => { x with sroot := word (wbits v 55 12 * 2 ^ 12) }
  else if n = 2 then (if isSvc c then s else s.updVault c fun x => { x with wovf := wovfMask v })
  else if n = 3 then (if isSvc c then s else s.updVault c fun x => writeVlpwr x v)
  else if n = 4 then (if isSvc c then s else s.updVault c fun x => writeCamreq x v)
  else if n = 8 then s.updDie d fun x => { x with dqbase := word (wbits v 55 18 * 2 ^ 18) }
  else if 0x10 ≤ n ∧ n < 0x20 then
    s.updCore c fun x => { x with mseg := Tab.upd 0 x.mseg ((n - 0x10) / 2) fun g => putHalf g (n % 2 == 1) v }
  else if n = 0x30 ∨ n = 0x31 then s.updPort (2 * d + (n - 0x30)) fun p => { p with pimp := pimpMask v }
  else if 0x400 ≤ n ∧ n < 0x800 then s.writeOpreq (d * 1024 + (n - 0x400)) v
  else if 0x800 ≤ n ∧ n < 0x900 then s.writeSqctl (d * 256 + (n - 0x800)) v
  else if n = 0x910 then s.writeDmgcfg d v
  else if n = 0x911 then s.updDie d fun x => { x with lastPchb := s.time }
  else if n = 0x912 then (if v = 0x5349474E then s.signIn d else s)
  else s

/-! ## The debug window (Table 10.6) -/

/-- SSTATE.STATE (Table 10.7). -/
def stateCode : SlotState → Nat
  | .free => 0 | .load => 1 | .run => 2 | .park => 3 | .frozen => 4 | .out => 5

/-- Word i of a context image (Table 7.1). -/
def ctxWord (x : Ctx) (i : Nat) : Word :=
  if i < 16 then x.reg i
  else if i = 16 then x.pc
  else if i = 17 then x.tsw
  else if i = 18 then x.wait
  else segHalf (x.segReg ((i - 19) / 2)) ((i - 19) % 2 == 1)

/-- A word of a slot's part of the window. -/
def slotWord (x : Slot) (o : Nat) : Word :=
  if o < 280 then ctxWord x.ctx (o / 8)
  else if o = 0x200 then word (x.halt.toNat * 8 + stateCode x.st)
  else if o = 0x208 then word x.pmask.toNat
  else if 0x220 ≤ o ∧ o < 0x240 then word (x.frec.toNat / 2 ^ (8 * (o - 0x220)))
  else 0

/-- A CAM entry as read. -/
def camWord (e : Nat × Nat × Nat) : Word :=
  word (2 ^ 63 + e.2.2 % 2 ^ 6 * 2 ^ 16 + e.1 % 2 ^ 5 * 2 ^ 11 + e.2.1 % 2 ^ 11)

/-- The word at an aligned offset of the debug window of core c. (DEDUCED, unsafe: log 33) -/
def State.debugRead (s : State) (c o : Nat) : Word :=
  let x := s.core c
  let own := fun (w : Word) => if isSvc c then (0 : Word) else w
  if o < 0x1000 then slotWord (s.slot c (o / 0x400)) (o % 0x400)
  else if o = 0x1000 then x.ibrk
  else if o = 0x1008 then x.dwatch
  else if o = 0x1018 then own (s.vault c).wovf
  else if o = 0x1020 then own (vlpwrWord (s.vault c))
  else if o = 0x1028 then own (camreqWord (s.vault c))
  else if 0x2000 ≤ o ∧ o < 0x2500 then
    match x.store[(o - 0x2000) / 320]? with
    | some f => (frameWords f.frame s.pkg).getD ((o - 0x2000) % 320 / 8) 0
    | none => 0
  else if 0x8000 ≤ o ∧ o < 0xA000 then
    own (match (s.vault c).cam[(o - 0x8000) / 8]? with
      | some e => camWord e
      | none => 0)
  else 0

/-- Whether a write to the context of a slot is performed (R212). -/
def mayWriteCtx (x : Slot) : Bool :=
  x.st == .frozen || (x.st == .park && (waitKind x.ctx.wait == 6 || waitKind x.ctx.wait == 8))

/-- A write of word i of a context image (R114, R115, R212). -/
def writeCtx (x : Slot) (i : Nat) (v : Word) : Slot :=
  if i < 16 then
    { x with ctx := x.ctx.setReg i v, pmask := x.pmask &&& ~~~BitVec.ofNat 16 (2 ^ i)
             badRegs := x.badRegs &&& ~~~BitVec.ofNat 16 (2 ^ i) }
  else if i = 16 then
    (if wbits v 63 56 = 0 ∧ wbits v 3 0 = 0 then { x with ctx := { x.ctx with pc := v } } else x)
  else if i = 17 then
    (if tswRefused v then x else { x with ctx := { x.ctx with tsw := tswWritten x.ctx.tsw v } })
  else if i = 18 then x
  else
    let k := (i - 19) / 2
    if (i - 19) % 2 = 1 ∧ wbits v 63 48 ≠ 0 then x
    else { x with ctx := x.ctx.setSeg k (putHalf (x.ctx.segReg k) ((i - 19) % 2 == 1) v) }

/-- A write of SCMD (Table 10.8). -/
def State.scmd (s : State) (c k : Nat) (v : Word) : State :=
  match v.toNat with
  | 1 => orSame s (s.cmdResume c k)
  | 2 => orSame s (s.cmdRetire c k)
  | 3 => orSame s (s.cmdKill c k)
  | 4 => orSame s (s.cmdFreeze c k)
  | 5 => orSame s (s.cmdStep c k)
  | _ => s

/-- IBRK as written (Table 10.9). -/
def ibrkMask (v : Word) : Word := word (wbits v 63 63 * 2 ^ 63 + wbits v 55 4 * 16)

/-- DWATCH as written (Table 10.10). -/
def dwatchMask (v : Word) : Word := word (wbits v 63 62 * 2 ^ 62 + wbits v 55 3 * 8)

/-- A write of the word at an aligned offset of the debug window of core c. -/
def State.debugWrite (s : State) (c o : Nat) (v : Word) : State :=
  if o < 0x1000 then
    let k := o / 0x400
    let i := o % 0x400
    if i < 280 then (if mayWriteCtx (s.slot c k) then s.updSlot c k fun x => writeCtx x (i / 8) v else s)
    else if i = 0x210 then s.scmd c k v
    else s
  else if o = 0x1000 then s.updCore c fun x => { x with ibrk := ibrkMask v }
  else if o = 0x1008 then s.updCore c fun x => { x with dwatch := dwatchMask v }
  else if isSvc c then s
  else if o = 0x1018 then s.updVault c fun x => { x with wovf := wovfMask v }
  else if o = 0x1020 then s.updVault c fun x => writeVlpwr x v
  else if o = 0x1028 then s.updVault c fun x => writeCamreq x v
  else s

/-- DEBUG_CONTEXT_WRITE (R212): an RST has reached the word at offset o of the window of core c; an idle square leaves idle
(R108). -/
def execDebugContextWrite (c o : Nat) (v : Word) (s : State) : Res :=
  .next (if o % 8 = 0 ∧ o < 0x10000 ∧ c ≤ Config.lastCore then (s.debugWrite c o v).askExit c else s)

/-- A write of a word of the management window's TENANT or NONCE (Table 4.2). -/
def State.mgmtWrite (s : State) (o : Nat) (v : Word) : State :=
  let m := s.mgmt
  if o = 0x10 then { s with mgmt := { m with tenantReg := v } }
  else if 0x40 ≤ o ∧ o < 0x60 ∧ o % 8 = 0 then
    let n := BitVec.ofNat 256 (putBits m.nonceReg.toNat (8 * (o - 0x40) + 63) (8 * (o - 0x40)) v.toNat)
    { s with mgmt := { m with nonceReg := n } }
  else s

/-- REGISTER_WRITE (R400, R102, R109, R73): num below 0x1000 is a CSR of core c as the power controller or a privileged
thread writes it; from 0x1000 an offset of the debug window (IBRK, DWATCH, WOVF); from 0x10000 an offset of the
management window. -/
def execRegisterWrite (c num : Nat) (v : Word) (s : State) : Res :=
  .next (if num < 0x1000 then s.csrWrite c num v
    else if num < 0x10000 then (s.debugWrite c num v).askExit c
    else s.mgmtWrite (num - 0x10000) v)

end Sys2Proof.Machine
end

