-- ==== Sys2Proof/Machine/Fetch.lean ====
section
/-!
DEFINITION. Block fetch (R117, R148, R171, R256), the decode checks of Table 12.5 with the target rules of R257 and the
result rule of R270, and the entry of a frame into EXEC (R205, R214, R275).
-/

namespace Sys2Proof.Machine

/-! ## The header (Table 12.1) -/

/-- NWORDS: the index of the last body word. -/
def hdrLast (h : BitVec 128) : Nat := bits h.toNat 123 117

/-- STMASK. -/
def hdrStmask (h : BitVec 128) : Nat := bits h.toNat 116 85

/-- WRMASK. -/
def hdrWrmask (h : BitVec 128) : Nat := bits h.toNat 84 69

/-- NEXITS: the number of exits less one. -/
def hdrExits (h : BitVec 128) : Nat := bits h.toNat 68 66

/-- LOOPOK. -/
def hdrLoop (h : BitVec 128) : Bool := h.toNat.testBit 65

/-- PRIV. -/
def hdrPriv (h : BitVec 128) : Bool := h.toNat.testBit 64

/-- The length of a block in bytes (R256). -/
def hdrLen (h : BitVec 128) : Nat := 16 + 4 * (hdrLast h + 1)

/-! ## Where instructions begin -/

/-- The words at which instructions begin, each with its index and the words after it (R260). -/
def startsFrom : List Nat → Nat → Nat → List (Nat × Nat × List Nat)
  | [], _, _ => []
  | _ :: ws, i, n + 1 => startsFrom ws (i + 1) n
  | w :: ws, i, 0 => (i, w, ws) :: startsFrom ws (i + 1) (wordCount w - 1)

/-- Decodes a word in its block; a MOV4 at the end of the block is judged by its first word (check 5 comes later). -/
def decodeIn (w : Nat) (ws : List Nat) : DRes := decodeWord w (if fld w 25 7 = 2 ∧ ws = [] then [0x3FFFF] else ws)

/-- Forms of a word whose fields other than its opcode and sub-operation are legal. -/
def repairs (w : Nat) : List Nat :=
  let ps := if fld w 23 2 = 3 then [putBits w 24 23 0] else [w, putBits w 24 23 0]
  (ps.flatMap fun v =>
    [putBits v 8 0 511, putBits v 8 0 (v % 8), putBits v 17 0 0x3FFFF, putBits v 12 0 511, putBits v 22 0 511,
      putBits v 19 0 0, putBits v 15 0 0, putBits (putBits v 17 0 0x3FFFF) 22 20 0]) ++
  [putBits w 24 16 511, putBits (putBits w 24 22 0) 17 0 0x3FFFF]

/-- The PR of a word whose check of it may fail: 0b11 gives no predicate input (R258). -/
def prOf : Nat → Pr
  | 1 => .onTrue
  | 2 => .onFalse
  | _ => .always

/-- A repaired word is of the same instruction: an A-format word keeps its sub-operation. -/
def sameSub (w v : Nat) : Bool :=
  let op := fld w 25 7
  let a := (decide (0x59 ≤ op) && decide (op ≤ 0x66) && op != 0x5F) || op == 0x7B || op == 0x7C
  !a || fld w 13 5 == fld v 13 5

/-- What a word is as a consumer: its instruction, or, for a word that fails another check than 0x10, 0x11 and 0x14, one
with its opcode and inputs; none for a word without defined inputs (R257). -/
def consumer (svc : Bool) (w : Nat) (ws : List Nat) : Option Instr :=
  if fld w 25 7 = 127 ∧ svc ∧ (fld w 14 3 = 0 ∨ fld w 14 3 = 2) then none
  else match decodeIn w ws with
    | .ok i => some i
    | .error .opcode | .error .sub | .error .command | .error .short => none
    | .error _ =>
      if fld w 25 7 = 127 then some (.mma ⟨prOf (fld w 23 2), fld w 9 5, 511, 0, 0, 0, 0, fld (nth ws 1) 0 16, 0⟩)
      else ((repairs w).filter (sameSub w)).findSome? fun v => (decodeWord v [0x3FFFF]).toOption

/-- A word that only a privileged thread may execute (R262, R361). -/
def privWord (w : Nat) : Bool :=
  fld w 25 7 == 0x7C || (fld w 25 7 == 0x7F && fld w 14 3 == 3 && (fld w 17 6 == 1 || fld w 17 6 == 2))

/-- The first failing check of a word by itself, in the order of Table 12.5. -/
def wordCause (svc priv : Bool) (w : Nat) (ws : List Nat) : Option Nat :=
  match decodeIn w ws with
  | .error .opcode => some 0x10
  | .error .sub => some 0x11
  | .error .field => some 0x12
  | r =>
    if !priv && privWord w then some 0x13
    else if fld w 25 7 = 127 ∧ svc ∧ (fld w 14 3 = 0 ∨ fld w 14 3 = 2) then some 0x14
    else match r with
      | .error b => some b.cause
      | .ok _ => none

/-! ## Targets (R257) and the result rule (R270) -/

/-- The consumers of a block by word index. -/
abbrev Consumers := List (Nat × Option Instr)

/-- The consumer at word j: none where no instruction begins there. -/
def consumerAt (ps : Consumers) (j : Nat) : Option (Option Instr) := (ps.find? (·.1 == j)).map (·.2)

/-- An illegal target below 0x180 (R257). -/
def targetBad (ps : Consumers) (t : Nat) : Bool :=
  if 384 ≤ t then false
  else match consumerAt ps (t / 3) with
    | none => true
    | some none => false
    | some (some x) => !x.shape.has (t % 3)

/-- The targets of a word. -/
def targetsAt (ps : Consumers) (j : Nat) : List Nat :=
  match consumerAt ps j with
  | some (some x) => x.shape.targets
  | _ => []

/-- An instruction that may stand in a result closure (R270 rule 2). -/
def closureInstr (x : Instr) : Bool :=
  x.shape.cls == .compute && x.shape.pr == .always &&
    match x with
    | .div _ _ _ _ | .divn _ _ _ _ | .rem _ _ _ _ | .remn _ _ _ _ | .readReg _ _ _ => false
    | _ => true

/-- A store whose data input a result closure may name (R270 rule 3). -/
def closureSink : Instr → Bool
  | .st _ _ _ _ _ | .stf _ _ | .rst _ _ | .rstf _ _ _ | .rpost _ _ => true
  | _ => false

/-- A target that no word of a result closure may have. -/
def closureTargetBad (ps : Consumers) (t : Nat) : Bool :=
  if 384 ≤ t then false
  else match consumerAt ps (t / 3) with
    | some (some x) =>
      if x.shape.cls == .compute then !(decide (t % 3 < 2) && closureInstr x) else !(t % 3 == 1 && closureSink x)
    | _ => false

/-- The compute words that a list of words reaches in one step. -/
def reachOnce (ps : Consumers) (seen : List Nat) : List Nat :=
  (seen.flatMap (targetsAt ps)).filterMap fun t =>
    if 384 ≤ t then none
    else match consumerAt ps (t / 3) with
      | some (some x) => if x.shape.cls == .compute && !seen.contains (t / 3) then some (t / 3) else none
      | _ => none

/-- The words that a list of words reaches through compute words. -/
def reachAll (ps : Consumers) : Nat → List Nat → List Nat
  | 0, seen => seen
  | n + 1, seen =>
    match (reachOnce ps seen).dedup with
    | [] => seen
    | new => reachAll ps n (seen ++ new)

/-- The performing operations of a block with their result closures. -/
def closureOf (ps : Consumers) : List Nat :=
  reachAll ps 128 (ps.filterMap fun e => match e.2 with
    | some x => if x.shape.cls == .perform then some e.1 else none
    | none => none)

/-- A breach of rules 2 and 3 of R270 by a target of word i; an input that a closure shares is charged to the lower
word. -/
def closureBreach (ps : Consumers) (cl : List Nat) (i : Nat) : Bool :=
  let mine := cl.contains i
  (mine && (targetsAt ps i).any (closureTargetBad ps)) ||
    (targetsAt ps i).any fun t => decide (t < 384) &&
      ps.any fun e => e.1 != i && (mine || cl.contains e.1) && (targetsAt ps e.1).contains t

/-! ## The checks of Table 12.5 -/

/-- The EXIT number of an exit. -/
def exitNo : Instr → Option Nat
  | .br _ e _ | .bri _ e | .call _ e _ | .ret _ e | .loop _ e _ _ | .migrate _ e _ | .trap _ e _ _ | .doneX _ e
  | .yieldX _ e _ | .breakX _ e _ => some e
  | _ => none

/-- LOOP. -/
def isLoop : Instr → Bool
  | .loop _ _ _ _ => true
  | _ => false

/-- A fence (opcode 0x5C). -/
def isFence : Instr → Bool
  | .fence _ _ _ | .fenceXp _ _ _ | .fenceLoop _ _ => true
  | _ => false

/-- A class whose LSIDs stand in STMASK (Table 12.6). -/
def inStmask : OpClass → Bool
  | .perform | .commit | .message | .command => true
  | _ => false

/-- A class that reads or performs before commit. -/
def beforeCommit : OpClass → Bool
  | .load | .sync | .perform => true
  | _ => false

/-- Check 6: STMASK, an LSID carried twice, the placement rules of R270 and R272. -/
def lsidBad (h : BitVec 128) (is : List (Nat × Instr)) : Bool :=
  let carried := is.filterMap fun e => e.2.shape.lsid
  let marked := is.filterMap fun e => if inStmask e.2.shape.cls then e.2.shape.lsid else none
  let perf := is.filter fun e => e.2.shape.cls == .perform
  let readLsids := is.filterMap fun e =>
    if e.2.shape.cls == .load || e.2.shape.cls == .sync then e.2.shape.lsid else none
  (List.range 32).any (fun n => (hdrStmask h).testBit n != marked.contains n) || !decide carried.Nodup ||
    (!perf.isEmpty && (perf.any (fun e => e.2.shape.lsid != some 0) ||
      decide (1 < (is.filter fun e => beforeCommit e.2.shape.cls).length) || is.any fun e => isFence e.2)) ||
    is.any fun e => isFence e.2 && readLsids.any fun n => decide (e.2.shape.lsid.getD 0 < n)

/-- Check 7: WRMASK. -/
def regsBad (h : BitVec 128) (is : List (Nat × Instr)) : Bool :=
  let ts := is.flatMap fun e => e.2.shape.targets
  (List.range 16).any fun k => (hdrWrmask h).testBit k != ts.contains (384 + k)

/-- Check 8: the exits. -/
def exitsBad (h : BitVec 128) (is : List (Nat × Instr)) : Bool :=
  let es := is.filterMap fun e => exitNo e.2
  es.length != hdrExits h + 1 || !(List.range (hdrExits h + 1)).all es.contains ||
    hdrLoop h != is.any fun e => isLoop e.2

/-- Checks 1 and 2. -/
def headerFault (h : BitVec 128) : Option FaultD :=
  if bits h.toNat 127 124 ≠ 0xB then some { cause := 0x01, iv := false }
  else if bits h.toNat 63 0 ≠ 0 then some { cause := 0x02, iv := false }
  else none

/-- Checks 3 to 8 for a thread on a core. -/
def bodyFault (svc priv : Bool) (h : BitVec 128) (body : List Nat) : Option FaultD :=
  let starts := startsFrom body 0 0
  let ps : Consumers := starts.map fun e => (e.1, consumer svc e.2.1 e.2.2)
  let cl := closureOf ps
  let perWord := starts.findSome? fun e =>
    let lsid := match consumerAt ps e.1 with
      | some (some x) => x.shape.lsid.getD 0
      | _ => 0
    match wordCause svc priv e.2.1 e.2.2 with
    | some c => some ({ cause := c, index := e.1, lsid := lsid } : FaultD)
    | none =>
      if (targetsAt ps e.1).any (targetBad ps) || closureBreach ps cl e.1 then
        some { cause := 0x05, index := e.1, lsid := lsid }
      else none
  let short := starts.findSome? fun e =>
    if hdrLast h < e.1 + wordCount e.2.1 - 1 then some ({ cause := 0x0A, index := e.1 } : FaultD) else none
  let is := ps.filterMap fun e => e.2.map fun x => (e.1, x)
  let whole := fun (c : Nat) => some ({ cause := c, iv := false } : FaultD)
  if hdrPriv h ∧ !priv then whole 0x13
  else match perWord with
    | some d => some d
    | none => match short with
      | some d => some d
      | none =>
        if lsidBad h is then whole 0x07
        else if regsBad h is then whole 0x08
        else if exitsBad h is then whole 0x09
        else none

/-! ## Fetch -/

/-- What a fetch obtains: it waits for a layer, finds a fault, or holds the block. -/
inductive Fetched
  | wait
  | bad (d : FaultD)
  | ok (h : BitVec 128) (body : List (BitVec 32))
  deriving DecidableEq, Repr

/-- The locations of n bytes of code from ea, page by page (R171); fuel bounds the pages. -/
def fetchLocs (a : Who) : Nat → State → Nat → Nat → Except FaultD (List Nat) × State
  | 0, s, _, _ => (.ok [], s)
  | fuel + 1, s, ea, n =>
    if n = 0 then (.ok [], s)
    else if regionOf (isSvc a.core) ea = .tcm then (.ok (locRange (tcmLoc a.core ea) n), s)
    else
      let len := min n (2 ^ 16 - ea % 2 ^ 16)
      let bad := fun (s : State) (c : Nat) =>
        ((.error { cause := c, addr := ea, iv := false } : Except FaultD (List Nat)), s)
      match translate s a ea .fetch with
      | (.error d, s) => (.error { d with iv := false }, s)
      | (.ok (.far _ _ _), s) => bad s 0x43
      | (.ok (.here loc), s) =>
        if s.layerOff loc then bad s 0x50
        else match fetchLocs a fuel s (ea + len) (n - len) with
          | (.error d, s) => (.error d, s)
          | (.ok ls, s) => (.ok (locRange loc len ++ ls), s)

/-- The address of the first byte, from ea on, that lies in a poisoned word. -/
def firstPois (s : State) : Nat → List Nat → Option Nat
  | _, [] => none
  | ea, l :: ls => if s.mem.isPois l then some ea else firstPois s (ea + 1) ls

/-- The number that the bytes at locations hold. -/
def State.bytesAt (s : State) (ls : List Nat) : Nat := leNat (ls.map s.byte)

/-- One stage of a fetch: n bytes at an offset of S0 past the PC, after skip of them. (DEDUCED, unsafe: log 29) -/
def State.fetchStage (s : State) (a : Who) (off n skip : Nat) : Except FaultD (Option Nat) × State :=
  match address a 0 off n 16 .fetch with
  | .error d => (.error { d with cause := if d.cause = 0x25 then 0x01 else d.cause, iv := false }, s)
  | .ok ea =>
    match fetchLocs a 3 s (ea + skip) (n - skip) with
    | (.error d, s) => (if d.waits then .ok none else .error d, s)
    | (.ok ls, s) =>
      if ls.any s.layerBusy then (.ok none, s)
      else match firstPois s (ea + skip) ls with
        | some p => (.error { cause := 0x66, addr := p, iv := false }, (ls.filter (· % 16 == 0)).foldl State.touchRow s)
        | none => (.ok (some (s.bytesAt ls)), (ls.filter (· % 16 == 0)).foldl State.touchRow s)

/-- Fetches the block at a PC for a thread: the two stages of R148 with the checks between and after them (R264). (DEDUCED, unsafe: log 29) -/
def State.fetchBlock (s : State) (a : Who) (pc : Word) : Fetched × State :=
  let off := trunc 64 ((pc.toNat : Int) - segBase (Tab.rd 0 a.segs 0))
  if wbits pc 63 56 ≠ 0 ∨ wbits pc 3 0 ≠ 0 then (.bad { cause := 0x01, iv := false }, s)
  else match s.fetchStage a off 16 0 with
    | (.error d, s) => (.bad d, s)
    | (.ok none, s) => (.wait, s)
    | (.ok (some v), s) =>
      let h := BitVec.ofNat 128 v
      match headerFault h with
      | some d => (.bad d, s)
      | none =>
        match s.fetchStage a off (hdrLen h) 16 with
        | (.error d, s) => (.bad d, s)
        | (.ok none, s) => (.wait, s)
        | (.ok (some b), s) =>
          let body := (List.range (hdrLast h + 1)).map fun i => b / 2 ^ (32 * i) % 2 ^ 32
          match bodyFault (isSvc a.core) a.priv h body with
          | some d => (.bad d, s)
          | none => (.ok h (body.map (BitVec.ofNat 32)), s)

/-- A frame with the block at a PC, its fault held with it; none while the fetch waits. -/
def State.buildFrame (s : State) (c k : Nat) (pc : Word) : Option Frame × State :=
  match s.fetchBlock (s.who c k) pc with
  | (.wait, s) => (none, s)
  | (.bad d, s) => (some { st := .spec, pc := pc, held := some d }, s)
  | (.ok h b, s) => (some { st := .spec, pc := pc, header := h, body := b }, s)

/-- A frame becomes EXEC: a fault held with it is raised (R264, R275), then a breakpoint at its PC (R214). (DEDUCED, unsafe: log 29) -/
def State.enterExec (s : State) (c k : Nat) (f : Frame) : State :=
  let s := (s.updSlot c k fun x =>
    { x with frame := { f with st := .exec, age := s.serial }, next := {}, fseq := x.fseq + 1 }).nextSerial
  let b := (s.core c).ibrk
  match f.held with
  | some d => s.raise c k d
  | none =>
    if b.toNat.testBit 63 && wbits b 55 4 == wbits f.pc 55 4 && !(s.slot c k).skipBrk then
      s.raise c k { cause := 0xD1, iv := false }
    else s

/-- A copy of a twin that runs no further before its comparison: it has met a fault, or its DONE (R225, R227). -/
def Slot.atEnd (x : Slot) : Bool :=
  x.stop == 5 || (match x.twin with
    | some t => t.faultRec.isSome
    | none => false)

/-- BLOCK_FETCH (R117): the block at the PC of a thread that has none, or, beside a running block, one at the PC that the
predictor names. (DESIGN CHOICE, safe: log 4) -/
def execBlockFetch (c k : Nat) (s : State) : Res :=
  let k := k % 4
  let x := s.slot c k
  .next (if x.st ≠ .run ∨ s.stays c k ∨ x.atEnd then s
    else match x.frame.st, x.next.st with
      | .idle, _ => match s.buildFrame c k x.ctx.pc with
        | (none, s) => s
        | (some f, s) => s.enterExec c k f
      | .exec, .idle | .commit, .idle =>
        match { s with fresh := s.fresh + 1 }.buildFrame c k (Config.freeWord s.fresh) with
        | (none, s) => s
        | (some f, s) => s.updSlot c k fun x => { x with next := f }
      | _, _ => s)

/-! ## Faults of a block that does not complete (R275) -/

/-- A word of a frame that waits for nothing outside the block can fire or be decided. -/
def Frame.anyReady (f : Frame) : Bool := f.instrs.any fun e =>
  (e.2.shape.cls == .compute || e.2.shape.cls == .exit) && gather e.2.shape f e.1 != .wait

/-- The fault of lowest index among those at commit outputs (R205 item 3). -/
def lowestFault : List FaultD → Option FaultD
  | [] => none
  | d :: ds => match lowestFault ds with
    | some e => if e.index < d.index then some e else some d
    | none => some d

/-- FAULT_RAISE_TIMEOUT (R275): 256 core cycles without a token, with a fault at a commit output. -/
def execFaultRaiseTimeout (c k : Nat) (s : State) : Res :=
  let k := k % 4
  let x := s.slot c k
  .next (if x.st = .run ∧ x.frame.st = .exec ∧ x.frame.anyReady = false ∧ !x.atEnd then
    match lowestFault x.frame.faults with
    | some d => s.raise c k d
    | none => s
  else s)

/-- NO_PROGRESS_TIMEOUT (R275): 65,536 core cycles in EXEC without a firing or a token. -/
def execNoProgressTimeout (c k : Nat) (s : State) : Res :=
  let k := k % 4
  let x := s.slot c k
  .next (if x.st = .run ∧ x.frame.st = .exec ∧ x.frame.anyReady = false ∧ x.frame.faults = [] ∧ !x.atEnd then
    s.raise c k { cause := 0x04, iv := false }
  else s)

end Sys2Proof.Machine
end

