-- ==== Sys2Proof/Machine/Engine.lean ====
section
/-!
DEFINITION. How an engine reads and writes for a command (R366, R372, R421, R169, R172), and tile copies (R371-R376,
R174), deals and exchanges (R385).
-/

namespace Sys2Proof.Machine

/-- Why a command does not go on: it waits for a layer, or ends with a code, a cause and a fault address (Table 16.4). -/
inductive Stop
  | wait
  | fin (code cause addr : Nat)
  deriving DecidableEq, Repr

/-- A command and the core that issued it. -/
structure Job where
  core : Nat
  c : Cmd
  deriving DecidableEq, Repr

/-- A running command's work: the machine, and its completion fields so far. touched: it has read its first datum. job: the
command, whose writes are of the asynchronous path. rows: elements that it has read from a row under remap (R160). before:
memory as the command found it. counting: CNT counts the control words that it writes. -/
structure Work where
  s : State
  out : CmdEnd := {}
  done : Nat := 0
  touched : Bool := false
  job : Option Job := none
  rows : List Nat := []
  before : Option Memory := none
  counting : Bool := false
  deriving DecidableEq, Repr

/-- An engine's action: what it has written stays when it stops. -/
abbrev Eng := ExceptT Stop (StateM Work)

/-- The segments, privilege and root that a command's accesses use (R366). -/
def Job.who (j : Job) (s : State) : Who :=
  { core := j.core, segs := j.c.seg, priv := j.c.priv, root := s.rootOf j.core j.c.lid }

/-- Ends the command with a code and cause. -/
def endWith {α : Type} (code cause : Nat) : Eng α := throw (.fin code cause 0)

/-- Changes the machine. -/
def onState (f : State → State) : Eng Unit := modify fun w => { w with s := f w.s }

/-- Changes the completion fields. -/
def onOut (f : CmdEnd → CmdEnd) : Eng Unit := modify fun w => { w with out := f w.out }

/-- Counts bytes, or what a command counts in CNT. -/
def count (n : Nat) : Eng Unit := onOut fun o => { o with cnt := o.cnt + n }

/-- The destination holds poison that the command made or met (R372). -/
def markPois : Eng Unit := onOut fun o => { o with pois := true }

/-! ## Addresses (R366) -/

/-- The effective address of an engine access; a hole ends the command with REGION, another failing check with SEG. -/
def engAddr (j : Job) (t : Word) (n u : Nat) (kind : AKind) : Eng Nat := do
  let w ← get
  match address (j.who w.s) (tokSeg t) (tokOff t) n u kind with
  | .error d => throw (if d.cause = 0x26 then .fin 6 0xA2 d.addr else .fin 3 d.cause d.addr)
  | .ok ea => pure ea

/-- A translated byte of an engine access. -/
def engVirt (j : Job) (ea : Nat) (kind : AKind) : Eng Nat := do
  let w ← get
  let (r, s) := translate w.s (j.who w.s) ea kind
  set { w with s := s }
  match r with
  | .error d => throw (if d.waits then .wait else if d.maddr = 1 then .fin 0x11 0 0 else .fin 2 d.cause d.addr)
  | .ok (.far _ _ _) => endWith 6 0
  | .ok (.here loc) =>
    if s.layerOff loc then endWith 4 0
    else if s.layerBusy loc then throw .wait
    else pure loc

/-- The location of an effective address: no view, no debug window, nothing of another package (R366). -/
def engLoc (j : Job) (ea : Nat) (kind : AKind) : Eng Nat := do
  let w ← get
  match regionOf (isSvc j.core) ea with
  | .hole _ => throw (.fin 6 0xA2 ea)
  | .view _ => endWith 6 0
  | .tcm => pure (tcmLoc j.core ea)
  | .square => pure (sqLoc (squareOf j.core) (ea % 2 ^ 20))
  | .virt => engVirt j ea kind
  | .mesh =>
    if bits ea 47 40 ≠ w.s.pkg then endWith 6 0
    else match meshPlace ea with
      | .mem loc => if !j.c.priv && ringPlace (.mem loc) then throw (.fin 3 0x27 ea) else pure loc
      | _ => throw (.fin 6 0xA2 ea)

/-- The location of n bytes at a token, aligned to u. -/
def engPlace (j : Job) (t : Word) (n u : Nat) (kind : AKind) : Eng Nat := do
  let ea ← engAddr j t n u kind
  engLoc j ea kind

/-! ## Data (R372) and control words (R421) -/

/-- Reads n bytes within a word: their value, and whether the word is poisoned. -/
def readAt (loc n : Nat) : Eng (Nat × Bool) := do
  onState fun s => s.touchRow loc
  let w ← get
  set { w with touched := true }
  pure (w.s.rdMem loc n, w.s.mem.isPois loc)

/-- Writes n bytes within a word, poisoned or not; answers the bytes written: none into a poisoned word that the write
does not cover (R372). -/
def writeAt (loc n v : Nat) (pois : Bool) : Eng Nat := do
  let w ← get
  if n < 8 ∧ w.s.mem.isPois loc then do
    markPois
    pure 0
  else do
    if pois then markPois
    onState fun s =>
      let s := ((s.wrMem loc n v).setPois loc pois).touchRow loc
      match w.job with
      | some j => s.asyncWrite j.core j.c loc
      | none => s
    pure n

/-- A datum of n bytes read at a token, byte by byte where it is not aligned. -/
def readData (j : Job) (t : Word) (n : Nat) : Eng (Nat × Bool) := do
  (List.range n).foldlM (fun (a : Nat × Bool) i => do
    let loc ← engPlace j (t + word i) 1 1 .engRead
    let (v, p) ← readAt loc 1
    pure (a.1 + v * 256 ^ i, a.2 || p)) (0, false)

/-- A control word; a poisoned one ends the command with POISON. -/
def ctl (j : Job) (t : Word) : Eng Word := do
  let loc ← engPlace j t 8 8 .engRead
  let (v, p) ← readAt loc 8
  if p then endWith 0x11 0 else pure (word v)

/-- The first word of a structure aligned to al; a misaligned structure ends the command with DESC (R421). -/
def ctlHead (j : Job) (t : Word) (al : Nat) : Eng Unit := do
  let ea ← engAddr j t 1 1 .engRead
  if ea % al ≠ 0 then endWith 5 0xA0

/-- n control words from a token. -/
def ctls (j : Job) (t : Word) (n : Nat) : Eng (List Word) := (List.range n).mapM fun i => ctl j (t + word (8 * i))

/-- Writes a control word. -/
def putCtl (j : Job) (t : Word) (v : Word) : Eng Unit := do
  let loc ← engPlace j t 8 8 .engWrite
  let k ← writeAt loc 8 v.toNat false
  let w ← get
  if w.counting then count k

/-- The number that words hold, the first the lowest. -/
def joinWords (ws : List Word) : Nat := ws.foldr (fun w n => w.toNat + 2 ^ 64 * n) 0

/-! ## Barrier counts (R374) -/

/-- The barrier object of a command, checked before any datum is read; a malformed one ends it with BARRIER. -/
def barrierOf (j : Job) (on : Bool) (t : Word) : Eng (Option Nat) := do
  if !on then pure none
  else do
    let loc ← engPlace j t 32 1 .engWrite
    let w ← get
    if w.s.barrierOk loc && !w.s.anyPois loc 32 then pure (some loc) else endWith 0x10 0

/-- Bytes written count in the barrier object. -/
def countBar (bar : Option Nat) (n : Nat) : Eng Unit :=
  match bar with
  | some loc => if n = 0 then pure () else modify fun w =>
    let s := match w.job with
      | some j => w.s.countObj j.core j.c.ticket loc
      | none => w.s
    { w with s := s.barrierCount (w.job.map fun j => (j.core, j.c)) loc n }
  | none => pure ()

/-- Bytes written count in CNT and in the barrier object. -/
def countBytes (bar : Option Nat) (n : Nat) : Eng Unit := do
  count n
  countBar bar n

/-! ## Tile descriptors (Table 16.6) -/

/-- Dimensions. -/
def tdNdim (d : Nat) : Nat := bits d 133 131

/-- Bytes of an element. -/
def tdSize (d : Nat) : Nat := 2 ^ bits d 130 128

/-- Extent of dimension i. -/
def tdExt (d i : Nat) : Nat := bits d (223 + 32 * i) (192 + 32 * i)

/-- Source stride of dimension i. -/
def tdSstr (d i : Nat) : Int := sgn 32 (bits d (415 + 32 * i) (384 + 32 * i))

/-- Destination stride of dimension i. -/
def tdDstr (d i : Nat) : Int := sgn 32 (bits d (607 + 32 * i) (576 + 32 * i))

/-- The element total. -/
def tdTotal (d : Nat) : Nat := (List.range (tdNdim d)).foldl (fun n i => n * tdExt d i) 1

/-- The cause with which a descriptor is refused (R371). -/
def tdBad (d : Nat) : Option Nat :=
  if bits d 1023 896 ≠ 0 ∨ bits d 891 880 ≠ 0 ∨ bits d 191 134 ≠ 0 then some 0xA0
  else if tdNdim d = 0 ∨ tdNdim d = 7 ∨ 4 ≤ bits d 130 128 then some 0xA1
  else if (List.range 6).any fun i => (tdExt d i == 0) == decide (i < tdNdim d) then some 0xA1
  else if 2 ^ 40 - 1 < tdTotal d * tdSize d then some 0xA1
  else none

/-- The index of element e in dimension i. -/
def tdIndex (d e i : Nat) : Nat := e / ((List.range i).foldl (fun n k => n * tdExt d k) 1) % tdExt d i

/-- The offset of element e by a list of strides. -/
def tdOff (d e : Nat) (str : Nat → Int) : Int :=
  (List.range (tdNdim d)).foldl (fun a i => a + tdIndex d e i * str i) 0

/-- The source token of element e (R372). -/
def tdSrc (d e : Nat) : Word := word (bits d 63 0) + wordOfInt (tdOff d e (tdSstr d))

/-- The destination token of element e. -/
def tdDst (d e : Nat) : Word := word (bits d 127 64) + wordOfInt (tdOff d e (tdDstr d))

/-- The end that a token which names no byte of a TCM or a square memory of the package gives a tile command (R366, R373);
an address whose other checks fail is met in its turn. -/
def offTile (pkg : Nat) (a : Who) (t : Word) (n : Nat) (kind : AKind) : Option Stop :=
  match address a (tokSeg t) (tokOff t) n 1 kind with
  | .error d => if d.cause = 0x26 then some (.fin 6 0xA2 d.addr) else none
  | .ok ea =>
    match regionOf (isSvc a.core) ea with
    | .tcm | .square => none
    | .virt | .view _ => some (.fin 6 0 0)
    | .hole _ => some (.fin 6 0xA2 ea)
    | .mesh =>
      if bits ea 47 40 ≠ pkg then some (.fin 6 0 0)
      else match meshPlace ea with
        | .mem _ => none
        | _ => some (.fin 6 0xA2 ea)

/-- The first breach of R373 by command cmd. -/
def tdBreach (pkg : Nat) (a : Who) (cmd d : Nat) : Option Stop :=
  if cmd = 0 then (List.range (tdTotal d)).findSome? fun e => offTile pkg a (tdDst d e) (tdSize d) .engWrite
  else if cmd = 1 then (List.range (tdTotal d)).findSome? fun e => offTile pkg a (tdSrc d e) (tdSize d) .engRead
  else none

/-- Whether a location lies on a throttled layer (R161). -/
def State.throttledAt (s : State) (loc : Nat) : Bool :=
  match vaultOf loc with
  | some (c, _) => (s.vault c).throttled.toNat.testBit (layerOf loc)
  | none => false

/-- The row of a location is being copied to a spare (R160). -/
def State.remapping (s : State) (loc : Nat) : Bool :=
  match vaultOf loc with
  | some (c, _) => (s.vault c).camRes == 1 && (s.vault c).camBank == vbankOf loc && (s.vault c).camRow == rowOf loc
  | none => false

/-- A source element. One that an earlier element has overwritten reads either value (R372), as a free bit says. (DESIGN CHOICE, safe: log 4) -/
def eitherRead (loc n : Nat) : Eng (Nat × Bool) := do
  let (v, p) ← readAt loc n
  let w ← get
  let old := w.before.map fun m => (m.read loc n, m.isPois loc)
  if old.getD (v, p) = (v, p) then pure (v, p)
  else do
    onState fun s => { s with fresh := s.fresh + 1 }
    pure (if (Config.freeWord w.s.fresh).toNat.testBit 0 then (v, p) else old.getD (v, p))

/-- The source of element e of a tile command: its value, and whether it is poisoned; from the read of its multicast group,
with the end that read met (R175), or from its home. ta: it stops before a throttled row (R161). -/
def tileSource (j : Job) (d : Nat) (ta : Bool) (e : Nat) : Eng (Nat × Bool) := do
  let n := tdSize d
  match j.c.shared with
  | some sh =>
    modify fun w => { w with touched := w.touched || decide (e < sh.vals.length) }
    match sh.vals[e]?, sh.stop with
    | some v, _ => pure v
    | none, some o => throw (.fin o.code o.cause o.addr)
    | none, none => pure (0, false)
  | none =>
    let src ← engPlace j (tdSrc d e) n n .engRead
    let w ← get
    if ta && w.s.throttledAt src then endWith 1 0
    if w.s.remapping src then modify fun w => { w with rows := w.rows ++ [e] }
    eitherRead src n

/-- Element e of a tile command. -/
def tileElem (j : Job) (d : Nat) (ta : Bool) (bar : Option Nat) (e : Nat) : Eng Unit := do
  let n := tdSize d
  let (v, p) ← tileSource j d ta e
  let dst ← engPlace j (tdDst d e) n n .engWrite
  let k ← writeAt dst n v p
  countBytes bar k
  modify fun w => { w with done := e + 1 }

/-- Element e is read and written again after a remap, counted once (R160). -/
def tileAgain (j : Job) (d e : Nat) : Eng Unit := do
  let n := tdSize d
  let src ← engPlace j (tdSrc d e) n n .engRead
  let (v, p) ← readAt src n
  let dst ← engPlace j (tdDst d e) n n .engWrite
  let _ ← writeAt dst n v p

/-- Writes PROG (R371); a failing write sets NOPROG. -/
def putProg (j : Job) (t : Word) (pcmd done : Nat) (rv : Bool) : Eng Unit := do
  let v := word (rv.toNat * 2 ^ 63 + pcmd % 8 * 2 ^ 60 + done % 2 ^ 48)
  tryCatch (putCtl j (t + 0x68) v) fun
    | .wait => throw .wait
    | .fin _ _ _ => onOut fun o => { o with noprog := true }

/-- Performs the elements of a tile command from one on, and writes PROG (R372). -/
def runTile (j : Job) (cmd d from_ : Nat) : Eng Unit := do
  let w ← get
  match tdBreach w.s.pkg (j.who w.s) cmd d with
  | some x => throw x
  | none => pure ()
  let bar ← barrierOf j (j.c.flags.testBit 3) (word (bits d 831 768))
  let t := word (j.c.f.toNat % 2 ^ 64)
  let total := tdTotal d
  modify fun w => { w with done := from_, touched := false, before := some w.s.mem }
  tryCatch ((List.range (total - from_)).forM fun i =>
      tileElem j d (cmd != 1 && j.c.flags.testBit 4) bar (from_ + i)) fun x => do
    let w ← get
    if x ≠ .wait ∧ w.touched then putProg j t cmd w.done true
    throw x
  putProg j t cmd total false

/-- Reads a tile descriptor at the start of its command; the reserved bits of F are zero (R9, R373, R376). -/
def readTile (j : Job) : Eng Nat := do
  if bits j.c.f.toNat 159 64 ≠ 0 then endWith 5 0xA0
  let t := word (j.c.f.toNat % 2 ^ 64)
  ctlHead j t 64
  let ws ← ctls j t 16
  let d := joinWords ws
  match tdBad d with
  | some c => endWith 5 c
  | none => pure d

/-- TILE.RESUME (R376). -/
def runResume (j : Job) (d : Nat) : Eng Unit := do
  let t := word (j.c.f.toNat % 2 ^ 64)
  if bits d 895 895 = 0 then endWith 0xE 0xA4
  else if 3 ≤ bits d 894 892 then endWith 5 0xA0
  else if tdTotal d ≤ bits d 879 832 then putProg j t (bits d 894 892) (tdTotal d) false
  else runTile j (bits d 894 892) d (bits d 879 832)

/-! ## TILE.DEAL (R174, R375) -/

/-- The core of target i of a deal on die die (Table 8.14). -/
def dealTarget (die p i : Nat) : Nat × Nat :=
  let _ := die
  let w := bits p 45 41 + 1
  (bits p 55 51 + i % w * (bits p 35 34 + 1), bits p 50 46 + i / w * (bits p 33 32 + 1))

/-- The number of targets. -/
def dealCount (p : Nat) : Nat := (bits p 45 41 + 1) * (bits p 40 36 + 1)

/-- The block size. -/
def dealBlock (p : Nat) : Nat := 64 * 2 ^ bits p 58 56

/-- The location of byte 0 of block k. -/
def dealLoc (die p k : Nat) : Nat :=
  let n := dealCount p
  let (x, y) := dealTarget die p (k % n)
  let off := bits p 23 0 + k / n * dealBlock p
  let c := coreAt die x y
  if p.testBit 59 then sqLoc (squareOf c) off else tcmLoc c off

/-- A deal that is refused (R174). -/
def dealBad (die p n : Nat) : Bool :=
  let ts := (List.range (dealCount p)).map (dealTarget die p)
  let b := dealBlock p
  let size := if p.testBit 59 then 0x100000 else 0x20000
  bits p 63 60 != 0 || bits p 31 24 != 0 || ts.any (fun t => decide (31 < t.1) || decide (31 < t.2)) ||
    (p.testBit 59 && !decide (ts.map fun t => (t.1 / 2, t.2 / 2)).Nodup) || n == 0 || n % b != 0 ||
    bits p 23 0 % b != 0 || decide (size < bits p 23 0 + ceilDiv n (b * dealCount p) * b)

/-- The end bytes of the eight source bytes of a deal from byte o of its burst. -/
def dealEnds (j : Job) (o : Nat) : Eng (List Nat) :=
  [0, 7].mapM fun i => engPlace j (word (bits j.c.f.toNat 63 0) + word (o + i)) 1 1 .engRead

/-- The eight source bytes of a deal from byte o of its burst; they are read again after their row's remap (R160). -/
def dealSource (j : Job) (o : Nat) : Eng (Nat × Bool) := do
  let ends ← dealEnds j o
  let w ← get
  if ends.any w.s.remapping then modify fun w => { w with rows := w.rows ++ [o] }
  readData j (word (bits j.c.f.toNat 63 0) + word o) 8

/-- Under TA a deal stops before a block with a byte on a throttled layer (R161, R375). Another end of the block's source
is left to the read itself. -/
def dealThrottle (j : Job) (o b : Nat) : Eng Unit :=
  tryCatch ((List.range (b / 8)).forM fun i => do
    let ends ← dealEnds j (o + 8 * i)
    let w ← get
    if ends.any w.s.throttledAt then endWith 1 0) fun x =>
      match x with
      | .fin 1 _ _ | .wait => throw x
      | .fin _ _ _ => pure ()

/-- Eight bytes of a deal are read and written again after a remap (R160). -/
def dealAgain (j : Job) (o : Nat) : Eng Unit := do
  let p := bits j.c.f.toNat 127 64
  let (v, q) ← readData j (word (bits j.c.f.toNat 63 0) + word o) 8
  let _ ← writeAt (dealLoc (dieOf j.core) p (o / dealBlock p) + o % dealBlock p) 8 v q

/-- TILE.DEAL. -/
def runDeal (j : Job) : Eng Unit := do
  let f := j.c.f.toNat
  let p := bits f 127 64
  let n := bits f 159 128
  let b := dealBlock p
  let die := dieOf j.core
  if dealBad die p n then endWith 5 0xA3
  (List.range (n / b)).forM fun k => do
    if j.c.flags.testBit 4 then dealThrottle j (k * b) b
    (List.range (b / 8)).forM fun i => do
      let (v, q) ← dealSource j (k * b + 8 * i)
      let m ← writeAt (dealLoc die p k + 8 * i) 8 v q
      count m

/-! ## XSWAP (R385) -/

/-- The partner of a core by AXIS. -/
def xswapPartner (c axis : Nat) : Nat :=
  let x := if axis = 1 then coreX c else 31 - coreX c
  let y := if axis = 0 then coreY c else 31 - coreY c
  coreAt (dieOf c) x y

/-- An XSWAP that is refused. (DEDUCED, unsafe: log 49) -/
def xswapBad (svc : Bool) (f : Nat) : Bool :=
  let size := if f.testBit 24 then 0x100000 else 0x20000
  bits f 26 25 == 3 || bits f 87 64 % 64 != 0 || bits f 87 64 == 0 || bits f 23 0 % 64 != 0 ||
    decide (size < bits f 23 0 + bits f 87 64) || svc || bits f 159 88 != 0 || bits f 63 48 != 0 || bits f 31 27 != 0

/-- Byte 0 of the region that an XSWAP of core c names. -/
def xswapLoc (c f : Nat) : Nat :=
  if f.testBit 24 then sqLoc (squareOf c) (bits f 23 0) else tcmLoc c (bits f 23 0)

/-- Two XSWAPs match (R385). -/
def xswapMatch (a b : Cmd) : Bool :=
  let f := a.f.toNat
  let g := b.f.toNat
  a.lid == b.lid && bits f 26 25 == bits g 26 25 && bits f 47 32 == bits g 47 32 && bits f 87 64 == bits g 87 64

/-- Exchanges the words of two regions, with their poison. -/
def State.exchange (s : State) (a b n : Nat) : State :=
  (List.range (n / 8)).foldl (fun s i =>
    let x := a + 8 * i
    let y := b + 8 * i
    let s' := ((s.wrMem x 8 (s.rdMem y 8)).setPois x (s.mem.isPois y))
    ((s'.wrMem y 8 (s.rdMem x 8)).setPois y (s.mem.isPois x))) s

/-- Whether a region holds a poisoned word. -/
def State.poisIn (s : State) (a n : Nat) : Bool := (List.range (n / 8)).any fun i => s.mem.isPois (a + 8 * i)

end Sys2Proof.Machine
end

