-- ==== Sys2Proof/Machine/Mma.lean ====
section
/-!
DEFINITION. The matrix engine (R251-R254, R377-R380) and the caster (R381-R384).
-/

namespace Sys2Proof.Machine

/-! ## Group arithmetic (R251-R254) -/

/-- W of a format (Table 11.2). -/
def fmtWindow (c : Nat) : Nat :=
  if c = 9 then 116 else if c = 8 then 58 else if c = 4 ∨ c = 5 then 38 else 25

/-- What a group gives: the accumulator's bits, and whether it overflowed, saturated, or is a NaN of its own making. -/
structure GroupOut where
  v : Nat
  ovf : Bool := false
  sat : Bool := false
  nan : Bool := false
  deriving DecidableEq, Repr

/-- Floor of log2 of m * 2^e, m nonzero. -/
def msbOf (m : Nat) (e : Int) : Int := (bitLen m : Int) - 1 + e

/-- A finite term's signed count of units 2^u, truncated toward zero. -/
def inUnits (u : Int) : FVal → Int
  | .fin neg m e =>
    let k := e - u
    let v : Nat := if 0 ≤ k then m * 2 ^ k.toNat else m / 2 ^ (-k).toNat
    if neg then -(v : Int) else v
  | _ => 0

/-- GroupSum (R252) of finite terms, with the accumulator format f. -/
def groupSum (ts : List FVal) (w : Nat) (f : Fmt) (sat : Bool) : GroupOut :=
  let live := ts.filter fun t => !t.isZero
  match live.filterMap (fun t => match t with
    | .fin _ m e => some (msbOf m e)
    | _ => none) with
  | [] => { v := f.sign (ts.all FVal.neg) }
  | e0 :: es =>
    let u := es.foldl max e0 - ((w : Int) - 6)
    let s := live.foldl (fun a t => a + inUnits u t) (0 : Int)
    if s = 0 then { v := 0 }
    else
      let (y, fl) := f.round .rne sat (decide (s < 0)) s.natAbs u false
      let past := fl / 4 % 2 == 1
      { v := y, ovf := past && !sat, sat := past && sat }

/-- A product as a term (R253): NaN for a NaN factor, and NaN of its own for infinity times zero. -/
def prodTerm (a b : FVal) : FVal × Bool :=
  if a.isNan || b.isNan then (.nan false, false)
  else if infTimesZero a b then (.nan false, true)
  else (mulVals a b, false)

/-- One group of a floating-point MMA: the products and the incoming accumulator. -/
def floatGroup (ps : List (FVal × FVal)) (c w : Nat) (f : Fmt) (sat : Bool) : GroupOut :=
  let prods := ps.map fun p => prodTerm p.1 p.2
  let ts := prods.map (·.1) ++ [f.decode c]
  let infs := ts.filter FVal.isInf
  if ts.any FVal.isNan then
    { v := f.nan
      nan := !(ps.any (fun p => p.1.isNan || p.2.isNan) || (f.decode c).isNan) }
  else match infs with
    | [] => groupSum ts w f sat
    | t :: rest => if rest.any (fun x => x.neg != t.neg) then { v := f.nan, nan := true } else { v := f.infinity t.neg }

/-- One group of an integer MMA (R254). -/
def intGroup (ps : List (Int × Int)) (c : Nat) : GroupOut :=
  let s := sgn 32 c + ps.foldl (fun a p => a + p.1 * p.2) 0
  let y := max (-(2 ^ 31)) (min (2 ^ 31 - 1) s)
  { v := trunc 32 y, sat := decide (y ≠ s) }

/-! ## The operands of an MMA (R377, R378) -/

/-- The fields of Table 16.8 with the flags of Table 16.9. -/
structure MmaOp where
  aoff : Nat
  boff : Nat
  coff : Nat
  doff : Nat
  xoff : Nat
  astr : Nat
  k : Nat
  fa : Nat
  fb : Nat
  z : Bool
  keep : Bool
  w : Bool
  sat : Bool
  trap : Bool
  deriving DecidableEq, Repr

/-- The operands of a command. -/
def mmaOp (c : Cmd) : MmaOp :=
  let f := c.f.toNat
  { aoff := bits f 19 0, boff := bits f 39 20, coff := bits f 59 40, fa := bits f 63 60, doff := bits f 83 64
    astr := bits f 99 84, fb := bits f 103 100, k := bits f 119 104, xoff := bits f 147 128
    z := c.flags.testBit 6, keep := c.flags.testBit 7, w := c.flags.testBit 8, sat := c.flags.testBit 9
    trap := c.flags.testBit 10 }

/-- The accumulator kind: 2 i32, 1 FP64, 0 FP32. -/
def MmaOp.acc (o : MmaOp) : Nat := if fmtInt o.fa then 2 else if o.fa = 9 ∨ o.fb = 9 then 1 else 0

/-- Bytes of an accumulator. -/
def accBytes (kind : Nat) : Nat := if kind = 1 then 8 else 4

/-- Groups of 16. -/
def MmaOp.groups (o : MmaOp) : Nat := ceilDiv o.k 16

/-- The cause with which an MMA is refused, with its code (R378). -/
def mmaBad (o : MmaOp) (f : Nat) (kept : Option KeptTile) (lid : Nat) : Option (Nat × Nat) :=
  let tile := 1024 * accBytes o.acc
  if bits f 159 148 ≠ 0 ∨ bits f 127 120 ≠ 0 ∨ !fmtOk o.fa ∨ !fmtOk o.fb then some (5, 0xA0)
  else if fmtInt o.fa ≠ fmtInt o.fb then some (8, 0x96)
  else if o.keep ∧ (kept.any fun t => t.lid == lid && t.kind == o.acc) = false then some (8, 0x97)
  else if o.k = 0 ∨ o.aoff % 64 ≠ 0 ∨ o.boff % 64 ≠ 0 ∨ (!o.z ∧ !o.keep ∧ o.coff % 64 ≠ 0) ∨
      (o.w ∧ o.doff % 64 ≠ 0) ∨ o.astr % 8 ≠ 0 then some (8, 0x98)
  else if 2 ^ 20 < o.aoff + 31 * o.astr + ceilDiv (o.k * codeBits o.fa) 8 ∨
      2 ^ 20 < o.boff + o.groups * groupBytes o.fb ∨ (!o.z ∧ !o.keep ∧ 2 ^ 20 < o.coff + tile) ∨
      (o.w ∧ 2 ^ 20 < o.doff + tile) ∨ (fmtMx o.fa ∧ 2 ^ 20 < o.xoff + 32 * ceilDiv o.k 32) then some (8, 0x98)
  else none

/-- The raw bits of element i of a packed row at an offset. -/
def packedAt (rd : Nat → Nat) (c off i : Nat) : Nat :=
  if codeBits c = 4 then rd (off + i / 2) / 16 ^ (i % 2) % 16
  else (List.range (codeBits c / 8)).foldl (fun a b => a + rd (off + i * (codeBits c / 8) + b) * 256 ^ b) 0

/-- Element (i, k) of A. -/
def mmaA (rd : Nat → Nat) (o : MmaOp) (i k : Nat) : Elem :=
  elemOf o.fa (if fmtMx o.fa then rd (o.xoff + i * ceilDiv o.k 32 + k / 32) else 127)
    (packedAt rd o.fa (o.aoff + i * o.astr) k)

/-- Element (k, n) of B. -/
def mmaB (rd : Nat → Nat) (o : MmaOp) (k n : Nat) : Elem :=
  planeElem (fun b => rd (o.boff + k / 16 * groupBytes o.fb + b)) o.fb (k % 16 * 32 + n)

/-- An element as a float, zero for an integer. -/
def Elem.fval : Elem → FVal
  | .flt v => v
  | .int _ => .fin false 0 0

/-- An element as an integer, zero for a float. -/
def Elem.ival : Elem → Int
  | .int i => i
  | .flt _ => 0

/-- One group of result element (i, n) from an accumulator. -/
def mmaGroup (rd : Nat → Nat) (o : MmaOp) (i n g c : Nat) : GroupOut :=
  let ks := (List.range 16).map fun t => 16 * g + t
  if o.acc = 2 then
    intGroup (ks.map fun k => if k < o.k then ((mmaA rd o i k).ival, (mmaB rd o k n).ival) else (0, 0)) c
  else
    floatGroup (ks.map fun k => if k < o.k then ((mmaA rd o i k).fval, (mmaB rd o k n).fval)
      else (.fin false 0 0, .fin false 0 0)) c (max (fmtWindow o.fa) (fmtWindow o.fb))
      (if o.acc = 1 then fp64 else fp32) o.sat

/-- Result element (i, n) from its incoming value: groups in ascending K. -/
def mmaElem (rd : Nat → Nat) (o : MmaOp) (i n c : Nat) : GroupOut :=
  (List.range o.groups).foldl (fun a g =>
    let r := mmaGroup rd o i n g a.v
    { v := r.v, ovf := a.ovf || r.ovf, sat := a.sat || r.sat, nan := a.nan || r.nan }) { v := c }

/-- Whether result element (i, n) reads a poisoned word, where bad names the poisoned bytes (R378). -/
def mmaPois (bad : Nat → Bool) (o : MmaOp) (i n : Nat) : Bool :=
  let row := o.aoff + i * o.astr
  let planes := 64 * (signPlanes o.fb + codeWidth o.fb)
  (List.range (ceilDiv (o.k * codeBits o.fa) 8)).any (fun b => bad (row + b)) ||
    (fmtMx o.fa && (List.range (ceilDiv o.k 32)).any fun b => bad (o.xoff + i * ceilDiv o.k 32 + b)) ||
    (List.range o.groups).any fun g =>
      let base := o.boff + g * groupBytes o.fb
      (List.range planes).any (fun b => bad (base + b)) ||
        (List.range 16).any (fun k => (List.range (expBytes o.fb)).any fun b =>
          bad (base + planes + (k * 32 + n) * expBytes o.fb + b)) ||
        (fmtMx o.fb && bad (base + planes + 512 + n))

/-- MMA: its checks, its 1,024 result elements, the tile it writes and the tile the array keeps (R378, R379). -/
def runMma (j : Job) : Eng Unit := do
  let w ← get
  let o := mmaOp j.c
  let kept := (w.s.core j.core).array
  match mmaBad o j.c.f.toNat kept j.c.lid with
  | some (code, cause) => endWith code cause
  | none => do
    let sq := squareOf j.core
    let m := w.s.mem
    let rd := sqByte m sq
    let bad := fun (b : Nat) => m.isPois (sqLoc sq b)
    let n := accBytes o.acc
    let inc := fun (e : Nat) =>
      if o.z then (0, false)
      else if o.keep then
        match kept with
        | some t => ((Tab.rd 0 t.elems e).toNat, t.pois.contains e)
        | none => (0, false)
      else (m.read (sqLoc sq (o.coff + n * e)) n, bad (o.coff + n * e))
    let outs := (List.range 1024).map fun e =>
      (mmaElem rd o (e / 32) (e % 32) (inc e).1, (inc e).2 || mmaPois bad o (e / 32) (e % 32))
    let clean := outs.filter fun x => !x.2
    let any := fun (f : GroupOut → Bool) => clean.any fun x => f x.1
    onOut fun x => { x with sat := any (·.sat), ovf := any (·.ovf), nan := any (·.nan) }
    if o.acc = 2 ∧ o.trap ∧ any (·.sat) then endWith 8 0x95
    let tile : KeptTile :=
      { lid := j.c.lid, kind := o.acc
        elems := outs.zipIdx.foldl (fun t x => Tab.set 0 t x.2 (word x.1.1.v)) []
        pois := outs.zipIdx.filterMap fun x => if x.1.2 then some x.2 else none }
    onState fun s => s.updCore j.core fun x => { x with array := some tile }
    if o.w then
      (List.range (128 * n)).forM fun i => do
        let es := (List.range (8 / n)).map fun b => i * (8 / n) + b
        let v := es.zipIdx.foldl (fun a e => a + (Tab.rd 0 tile.elems e.1).toNat * 2 ^ (8 * n * e.2)) 0
        let k ← writeAt (sqLoc sq (o.doff + 8 * i)) 8 v (es.any tile.pois.contains)
        count k

/-! ## The caster (R381-R384) -/

/-- What E4M3 element e of a decoded stream puts into plane form from a location: bytes with the bits it gives and their
values. -/
def castElem (base e raw : Nat) : List (Nat × Nat × Nat) :=
  let g := base + e / 512 * groupBytes 2
  (planeBits 2 (e % 512) raw).map (fun b => (g + b.1, 2 ^ b.2.1, b.2.2 * 2 ^ b.2.1)) ++
    (planeExp 2 (e % 512) raw).map fun b => (g + b.1, 255, b.2)

/-- Writes bits of a word of the destination: a whole word replaces it, and bytes of it merge (R194). -/
def castWord (loc mask v : Nat) : Eng Unit :=
  if mask = 2 ^ 64 - 1 then do
    let _ ← writeAt loc 8 v false
  else (List.range 8).forM fun i => do
    let m := mask / 256 ^ i % 256
    if m ≠ 0 then do
      let w ← get
      let old := (w.s.byte (loc + i)).toNat
      let _ ← writeAt (loc + i) 1 (old - (old &&& m) + v / 256 ^ i % 256) false

/-- Writes the elements of a block of the stream from element done on, word by word (R381). -/
def castBlock (base done : Nat) (es : List Nat) : Eng Unit := do
  let put := fun (t : Tab (Nat × Nat)) (b : Nat × Nat × Nat) =>
    Tab.upd (0, 0) t (b.1 / 8) fun p => (p.1 ||| b.2.1 * 256 ^ (b.1 % 8), p.2 ||| b.2.2 * 256 ^ (b.1 % 8))
  let t := (es.zipIdx.flatMap fun x => castElem base (done + x.2) x.1).foldl put []
  t.forM fun e => castWord (8 * e.1) e.2.1 e.2.2
  count es.length

/-- The words of a coded block that the caster reads: its header, and then its sections; a poisoned one ends the command
with POISON (R249). -/
def readCoded (j : Job) (t : Word) : Eng (List Word) := do
  let h ← ctl j t
  let n := min 64 (wbits h 30 24)
  let rest ← ctls j (t + 8) (ceilDiv (40 + n) 8 - 1)
  pure (h :: rest)

/-- Decodes blocks from a token until need elements are written; fuel bounds the blocks. -/
def castBlocks (j : Job) (tables : Nat → Word) (base need : Nat) (bar : Option Nat) :
    Nat → Word → Nat → Eng Unit
  | 0, _, _ => pure ()
  | fuel + 1, t, done => do
    if need ≤ done then pure ()
    else do
      let ws ← readCoded j t
      let n := joinWords ws
      match codedBlock (fun b => n / 256 ^ b % 256) tables with
      | .error cause => endWith 7 cause
      | .ok (es, len) => do
        let take := es.take (need - done)
        castBlock base done take
        take.zipIdx.forM fun x => if (done + x.2) % 512 = 511 then countBar bar 832 else pure ()
        castBlocks j tables base need bar fuel (t + word len) (done + take.length)

/-- CAST.DEC (R381). -/
def runCastDec (j : Job) : Eng Unit := do
  let f := j.c.f.toNat
  let n := bits f 159 152 * 16 + bits f 151 148
  let off := bits f 147 128
  if n = 0 ∨ off % 64 ≠ 0 ∨ 2 ^ 20 < off + n * 832 then endWith 5 0xA0
  let t := word (bits f 63 0)
  ctlHead j t 8
  let bar ← barrierOf j (j.c.flags.testBit 3) (word (bits f 127 64))
  let w ← get
  castBlocks j (w.s.codeTables j.core) (sqLoc (squareOf j.core) off) (512 * n) bar (512 * n) t 0

/-- The bytes of a plane group of code c from raw elements and scale bytes, each with whether it carries poison. -/
def planeGroup (c : Nat) (es : List (Nat × Bool)) (xs : List (Nat × Bool)) : List (Nat × Bool) :=
  let put := fun (a : Tab (Nat × Bool)) (off add : Nat) (p : Bool) =>
    Tab.upd (0, false) a off fun x => (x.1 + add, x.2 || p)
  let t := es.zipIdx.foldl (fun a x =>
    let a := (planeBits c x.2 x.1.1).foldl (fun a b => put a b.1 (b.2.2 * 2 ^ b.2.1) x.1.2) a
    if fmtInt c then a else (planeExp c x.2 x.1.1).foldl (fun a b => put a b.1 b.2 x.1.2) a) []
  let t := xs.zipIdx.foldl (fun a x => put a (groupBytes c - 64 + x.2) x.1.1 x.1.2) t
  (List.range (groupBytes c)).map fun b => Tab.rd (0, false) t b

/-- CAST.PLANE (R383). -/
def runCastPlane (j : Job) : Eng Unit := do
  let f := j.c.f.toNat
  let n := bits f 159 152
  let c := bits f 151 148
  let off := bits f 147 128
  if !fmtOk c ∨ n = 0 ∨ off % 64 ≠ 0 ∨ 2 ^ 20 < off + n * groupBytes c then endWith 5 0xA0
  let bar ← barrierOf j (j.c.flags.testBit 3) (word (bits f 127 64))
  let src := word (bits f 63 0)
  let raw := 64 * codeBits c
  (List.range n).forM fun g => do
    let t := src + word (g * (raw + if fmtMx c then 32 else 0))
    let es ← (List.range 512).mapM fun e =>
      if codeBits c = 4 then do
        let (v, p) ← readData j (t + word (e / 2)) 1
        pure (v / 16 ^ (e % 2) % 16, p)
      else readData j (t + word (e * (codeBits c / 8))) (codeBits c / 8)
    let xs ← if fmtMx c then (List.range 32).mapM fun b => readData j (t + word (raw + b)) 1 else pure []
    let bs := planeGroup c es xs
    (List.range (groupBytes c / 8)).forM fun i => do
      let ws := (bs.drop (8 * i)).take 8
      let k ← writeAt (sqLoc (squareOf j.core) (off + g * groupBytes c) + 8 * i) 8
        (ws.foldr (fun b a => b.1 + 256 * a) 0) (ws.any (·.2))
      countBytes bar k

/-- CAST.TABLE (R384). -/
def runCastTable (j : Job) : Eng Unit := do
  let f := j.c.f.toNat
  if bits f 159 68 ≠ 0 then endWith 5 0xA0
  else if !codeLensOk (word (bits f 63 0)) then endWith 7 0x94
  else onState fun s => s.updCore j.core fun x =>
    { x with tables := Tab.set 0 x.tables (bits f 67 64) (word (bits f 63 0)) }

end Sys2Proof.Machine
end

