-- ==== Sys2Proof/Machine/Kv.lean ====
section
/-!
DEFINITION. KV pages and chains (R386-R393), the prefix tree (R394-R397) and page moves (R176, R398).
-/

namespace Sys2Proof.Machine

/-! ## Pools (Table 16.12) and pages (Table 16.13) -/

/-- A pool: its base, runs, pages of a run, bitmap words, format and bytes of a slot. -/
structure Pool where
  base : Word
  nv : Nat
  ppv : Nat
  nbw : Nat
  kfmt : Nat
  tokb : Nat
  deriving DecidableEq, Repr

/-- Tokens of a page. -/
def Pool.tpp (p : Pool) : Nat := 64 * p.nbw

/-- An element format that a page may hold. -/
def kvFmt (c : Nat) : Bool := [1, 2, 4, 5, 8].contains c

/-- A malformed structure or a poisoned word, wherever a command meets it, ends it before it has changed anything (R389,
R394, R421). (DEDUCED, unsafe: log 49) -/
def wholeOrNone (m : Eng Unit) : Eng Unit := do
  let w ← get
  match (m.run).run w with
  | (.error x, w') =>
    match x with
    | .fin 5 _ _ | .fin 0x11 _ _ | .fin 0xA 0xA8 _ | .wait => throw x
    | .fin _ _ _ => do
      set w'
      throw x
  | (.ok (), w') => set w'

/-- Requires a condition, or ends the command with DESC and 0xA0. -/
def needDesc (b : Bool) : Eng Unit := if b then pure () else endWith 5 0xA0

/-- A structure lies in vault memory (R388, R394). -/
def needVault (j : Job) (t : Word) (kind : AKind) : Eng Unit := do
  let loc ← engPlace j t 1 1 kind
  if loc < 2 ^ 39 then pure () else endWith 6 0

/-- Reads a pool descriptor; a malformed one ends the command with DESC. -/
def readPool (j : Job) (t : Word) : Eng Pool := do
  ctlHead j t 32
  let ws ← ctls j t 4
  let d := joinWords ws
  let p : Pool :=
    { base := word (bits d 63 0), nv := bits d 77 71, ppv := bits d 87 78, nbw := bits d 91 88, kfmt := bits d 95 92
      tokb := bits d 111 96 }
  needDesc (bits d 255 112 == 0 && bits d 70 64 == 0 && kvFmt p.kfmt && decide (1 ≤ p.nbw) && decide (p.nbw ≤ 8) &&
    decide (2 ≤ p.ppv) && decide (p.ppv ≤ 512) && decide (1 ≤ p.nv) && decide (p.nv ≤ 64) && p.tokb % 16 == 0 &&
    decide (128 + 256 * p.nbw + p.tpp * p.tokb ≤ 65536))
  ctlHead j p.base 65536
  pure p

/-- The token of byte off of page p. -/
def Pool.at (x : Pool) (p off : Nat) : Word := x.base + word (p * 65536 + off)

/-- The offset of slot s of a page. -/
def Pool.slotOff (x : Pool) (s : Nat) : Nat := 0x80 + 256 * x.nbw + s * x.tokb

/-- A page's header and survivor bitmap. -/
structure Page where
  ref : Nat
  fill : Nat
  live : Nat
  kfmt : Nat
  bm : Nat
  deriving DecidableEq, Repr

/-- Reads a page's header, well formed (R387). -/
def readPage (j : Job) (x : Pool) (p : Nat) : Eng Page := do
  ctlHead j (x.at p 0) 65536
  let hs ← ctls j (x.at p 0) 8
  let bs ← ctls j (x.at p 0x40) x.nbw
  let h := joinWords hs
  let g : Page := { ref := bits h 31 0, fill := bits h 47 32, live := bits h 63 48, kfmt := bits h 67 64
                    bm := joinWords bs }
  needDesc (bits h 511 68 == 0 && decide (g.fill ≤ x.tpp) && decide (g.live ≤ g.fill) && decide (g.bm < 2 ^ g.fill) &&
    popcount 512 g.bm == g.live)
  pure g

/-- Writes word 0 of a page's header. -/
def putPage0 (j : Job) (x : Pool) (p ref fill live : Nat) : Eng Unit :=
  putCtl j (x.at p 0) (word (live % 2 ^ 16 * 2 ^ 48 + fill % 2 ^ 16 * 2 ^ 32 + ref % 2 ^ 32))

/-- Writes a page's survivor bitmap. -/
def putBitmap (j : Job) (x : Pool) (p bm : Nat) : Eng Unit :=
  (List.range x.nbw).forM fun w => putCtl j (x.at p (0x40 + 8 * w)) (word (bm / 2 ^ (64 * w)))

/-- Changes a page's REF as RAMO does (R190, Table 14.2). -/
def putRef (j : Job) (x : Pool) (p ref : Nat) : Eng Unit := do
  let v ← ctl j (x.at p 0)
  putCtl j (x.at p 0) (wput v 31 0 ref)
  let loc ← engPlace j (x.at p 0) 8 8 .engWrite
  onState fun s => (s.dropReadBufs [loc]).wakeLine loc

/-- The word of a run's free bitmap that holds page p. -/
def freeTok (x : Pool) (p : Nat) : Word := x.at (p / x.ppv * x.ppv) (p % x.ppv / 64 * 8)

/-- Sets or clears the free bit of page p (R386). -/
def putFree (j : Job) (x : Pool) (p : Nat) (free : Bool) : Eng Unit := do
  let v ← ctl j (freeTok x p)
  putCtl j (freeTok x p) (wput v (p % x.ppv % 64) (p % x.ppv % 64) free.toNat)

/-- The lowest free page of run v; none where bits 1 to PPV - 1 are clear. -/
def freeIn (j : Job) (x : Pool) (v : Nat) : Eng (Option Nat) := do
  let ws ← ctls j (x.at (v * x.ppv) 0) 8
  pure ((lowestSet (joinWords ws) (x.ppv - 1) 1).map (v * x.ppv + ·))

/-- Takes page p from its run with an empty header. -/
def takePage (j : Job) (x : Pool) (p kfmt : Nat) : Eng Unit := do
  putFree j x p false
  putPage0 j x p 1 0 0
  putCtl j (x.at p 8) (word kfmt)
  (List.range 6).forM fun i => putCtl j (x.at p (0x10 + 8 * i)) 0
  putBitmap j x p 0

/-- The run of a page. -/
def runOf (x : Pool) (p : Nat) : Nat := p / x.ppv

/-! ## Chains (Tables 16.14 and 16.15) -/

/-- A chain: its token, header fields and entries. -/
structure Chain where
  tok : Word
  pool : Word
  npg : Nat
  cap : Nat
  nextv : Nat
  pages : List Nat
  entries : List Word
  deriving DecidableEq, Repr

/-- A KV page entry. -/
def entryWord (kfmt p : Nat) : Word := word (2 ^ 63 + kfmt % 16 * 2 ^ 32 + p % 2 ^ 32)

/-- A page entry that a pool can hold (R389). -/
def entryOk (x : Pool) (e : Word) : Bool :=
  e.toNat.testBit 63 && wbits e 62 36 == 0 && decide (wbits e 31 0 < x.nv * x.ppv) && wbits e 31 0 % x.ppv != 0

/-- Reads a chain and its pool, both checked (R388, R389). -/
def readChain (j : Job) (t : Word) : Eng (Chain × Pool) := do
  ctlHead j t 64
  needVault j t .engRead
  let ws ← ctls j t 8
  let d := joinWords ws
  needDesc (bits d 511 112 == 0 && decide (bits d 79 64 ≤ bits d 95 80))
  let x ← readPool j (word (bits d 63 0))
  let es ← ctls j (t + 64) (bits d 79 64)
  needDesc (es.all (entryOk x))
  pure ({ tok := t, pool := word (bits d 63 0), npg := bits d 79 64, cap := bits d 95 80, nextv := bits d 111 96
          pages := es.map fun e => wbits e 31 0, entries := es }, x)

/-- Writes NPG and NEXTV of a chain. -/
def putChain (j : Job) (c : Chain) (npg nextv : Nat) : Eng Unit :=
  putCtl j (c.tok + 8) (word (nextv % 2 ^ 16 * 2 ^ 32 + c.cap % 2 ^ 16 * 2 ^ 16 + npg % 2 ^ 16))

/-- Writes entry n of a chain. -/
def putChainEntry (j : Job) (c : Chain) (n : Nat) (e : Word) : Eng Unit := putCtl j (c.tok + word (64 + 8 * n)) e

/-- Finds a free page over the runs from NEXTV on (R390); none ends the command with KV and 0xA5. -/
def findPage (j : Job) (c : Chain) (x : Pool) : Nat → Nat → Eng Nat
  | 0, _ => endWith 9 0xA5
  | n + 1, t => do
    match ← freeIn j x ((c.nextv + t) % x.nv) with
    | some p => pure p
    | none => findPage j c x n (t + 1)

/-- Alloc of R390: a page appended to the chain. -/
def allocPage (j : Job) (c : Chain) (x : Pool) : Eng Nat := do
  if c.npg = c.cap then endWith 9 0xA7
  let p ← findPage j c x x.nv 0
  takePage j x p x.kfmt
  putChainEntry j c c.npg (entryWord x.kfmt p)
  putChain j c (c.npg + 1) ((runOf x p + 1) % x.nv)
  pure p

/-- Copies n bytes, a multiple of 8, with their poison (R372). -/
def copyWords (j : Job) (src dst : Word) (n : Nat) : Eng Unit :=
  (List.range (n / 8)).forM fun i => do
    let a ← engPlace j (src + word (8 * i)) 8 8 .engRead
    let (v, q) ← readAt a 8
    let b ← engPlace j (dst + word (8 * i)) 8 8 .engWrite
    let _ ← writeAt b 8 v q

/-- A copy of page p, whose header is g, that no chain names yet (R391 steps 1 and 2). -/
def copyPage (j : Job) (c : Chain) (x : Pool) (p : Nat) (g : Page) : Eng Nat := do
  let ids ← ctls j (x.at p 0x80) (ceilDiv g.fill 2)
  let q ← findPage j c x x.nv 0
  takePage j x q g.kfmt
  putPage0 j x q 1 g.fill g.live
  putBitmap j x q g.bm
  ids.zipIdx.forM fun w => putCtl j (x.at q (0x80 + 8 * w.2)) w.1
  copyWords j (x.at p (x.slotOff 0)) (x.at q (x.slotOff 0)) (g.live * x.tokb)
  pure q

/-- A copy q takes the place of chain page n, page p with header g, whose count falls by 1 (R391 steps 3 and 4). The swap
and the decrement are one with the command, so the swap finds the entry as the command read it (R200). -/
def swapPage (j : Job) (c : Chain) (x : Pool) (n p q : Nat) (g : Page) : Eng Unit := do
  putChainEntry j c n (entryWord g.kfmt q)
  putChain j c c.npg ((runOf x q + 1) % x.nv)
  if g.ref = 0 then endWith 9 0xA6
  putRef j x p (g.ref - 1)

/-- Writes a token and its id behind those of page p, whose header is g, and counts it (R391). -/
def putToken (j : Job) (x : Pool) (p : Nat) (g : Page) (data : List (Nat × Bool)) (id : Nat) : Eng Unit := do
  data.zipIdx.forM fun d => do
    let loc ← engPlace j (x.at p (x.slotOff g.live + 8 * d.2)) 8 8 .engWrite
    let _ ← writeAt loc 8 d.1.1 d.1.2
  let at_ ← engPlace j (x.at p (0x80 + 4 * g.fill)) 4 4 .engWrite
  let _ ← writeAt at_ 4 id false
  putBitmap j x p (g.bm + 2 ^ g.fill)
  putPage0 j x p g.ref (g.fill + 1) (g.live + 1)

/-- F of a command as a number. -/
def Job.f (j : Job) : Nat := j.c.f.toNat

/-- KV.ALLOC. -/
def runKvAlloc (j : Job) : Eng Unit := wholeOrNone do
  needDesc (bits j.f 159 64 == 0)
  let (c, x) ← readChain j (word (bits j.f 63 0))
  let p ← allocPage j c x
  count p

/-- KV.FREE (R393): the entries from n - 1 down. -/
def freeEntries (j : Job) (c : Chain) (x : Pool) : Nat → Eng Unit
  | 0 => putChain j c 0 0
  | n + 1 => do
    let p := c.pages.getD n 0
    let v ← ctl j (x.at p 0)
    if wbits v 31 0 = 0 then do
      putChain j c (n + 1) c.nextv
      endWith 9 0xA6
    putRef j x p (wbits v 31 0 - 1)
    if wbits v 31 0 = 1 then putFree j x p true
    count 1
    freeEntries j c x n

/-- KV.FREE. -/
def runKvFree (j : Job) : Eng Unit := wholeOrNone do
  needDesc (bits j.f 159 64 == 0)
  let (c, x) ← readChain j (word (bits j.f 63 0))
  c.pages.forM fun p => do
    let _ ← readPage j x p
  freeEntries j c x c.npg

/-- KV.APPEND (R391): a copy has its token before the chain names it, and the old page's count falls last (R200). -/
def runKvAppend (j : Job) : Eng Unit := wholeOrNone do
  let (c, x) ← readChain j (word (bits j.f 63 0))
  let src := word (bits j.f 127 64)
  let data ← (List.range (x.tokb / 8)).mapM fun i => readData j (src + word (8 * i)) 8
  let id := bits j.f 159 128
  let n := c.npg - 1
  let p := c.pages.getD n 0
  let g : Page ← if c.npg = 0 then pure { ref := 1, fill := x.tpp, live := 0, kfmt := 0, bm := 0 } else readPage j x p
  if g.fill = x.tpp then
    let q ← allocPage j c x
    putToken j x q { ref := 1, fill := 0, live := 0, kfmt := x.kfmt, bm := 0 } data id
    count (c.npg * x.tpp)
  else if 1 < g.ref then
    let q ← copyPage j c x p g
    putToken j x q { g with ref := 1 } data id
    swapPage j c x n p q g
    count (n * x.tpp + g.fill)
  else
    putToken j x p g data id
    count (n * x.tpp + g.fill)

/-- KV.EVICT (R392). -/
def runKvEvict (j : Job) : Eng Unit := wholeOrNone do
  needDesc (bits j.f 159 147 == 0)
  let (c, x) ← readChain j (word (bits j.f 63 0))
  let n := bits j.f 143 128
  let w := bits j.f 146 144
  if c.npg ≤ n then endWith 9 0xA7
  needDesc (decide (w < x.nbw))
  let p0 := c.pages.getD n 0
  let g ← readPage j x p0
  let p ← if 1 < g.ref then do
      let q ← copyPage j c x p0 g
      swapPage j c x n p0 q g
      pure q
    else pure p0
  let ref := if 1 < g.ref then 1 else g.ref
  let live := (List.range 512).filter fun q => g.bm.testBit q
  let out := live.filter fun q => q / 64 == w && (bits j.f 127 64).testBit (q % 64)
  let stay := live.zipIdx.filter fun q => !out.contains q.1
  stay.zipIdx.forM fun q =>
    if q.1.2 = q.2 then pure ()
    else copyWords j (x.at p (x.slotOff q.1.2)) (x.at p (x.slotOff q.2)) x.tokb
  putBitmap j x p (stay.foldl (fun a q => a + 2 ^ q.1) 0)
  putPage0 j x p ref g.fill stay.length
  count out.length

/-! ## The prefix tree (Table 16.16) -/

/-- A tree descriptor. -/
structure Tree where
  tok : Word
  root : Word
  free : Word
  pool : Pool
  deriving DecidableEq, Repr

/-- Reads a tree descriptor with its pool. -/
def readTree (j : Job) (t : Word) : Eng Tree := do
  ctlHead j t 32
  needVault j t .engRead
  let ws ← ctls j t 4
  needDesc (ws.getD 3 0 == 0)
  let x ← readPool j (ws.getD 2 0)
  pure { tok := t, root := ws.getD 0 0, free := ws.getD 1 0, pool := x }

/-- A node. -/
structure PfxNode where
  tok : Word
  ref : Nat
  ntok : Nat
  page : Word
  first : Word
  next : Word
  parent : Word
  deriving DecidableEq, Repr

/-- Reads a node; a reserved bit ends the command with PFX and 0xA8. The PAGE of the root is unused (Table 16.16). -/
def readNode (j : Job) (root t : Word) : Eng PfxNode := do
  ctlHead j t 64
  needVault j t .engRead
  let ws ← ctls j t 8
  let w := ws.getD 0 0
  if wbits w 63 48 ≠ 0 ∨ ws.getD 5 0 ≠ 0 ∨ ws.getD 6 0 ≠ 0 ∨ ws.getD 7 0 ≠ 0 ∨
      (t ≠ root ∧ wbits (ws.getD 1 0) 62 36 ≠ 0) then endWith 0xA 0xA8
  pure { tok := t, ref := wbits w 31 0, ntok := wbits w 47 32, page := ws.getD 1 0, first := ws.getD 2 0
         next := ws.getD 3 0, parent := ws.getD 4 0 }

/-- Writes NTOK and REF of a node. -/
def putNode0 (j : Job) (t : Word) (ntok ref : Nat) : Eng Unit :=
  putCtl j t (word (ntok % 2 ^ 16 * 2 ^ 32 + ref % 2 ^ 32))

/-- A 32-bit token id; a poisoned one ends the command with POISON. -/
def tokId (j : Job) (t : Word) : Eng Nat := do
  let loc ← engPlace j t 4 4 .engRead
  let (v, q) ← readAt loc 4
  if q then endWith 0x11 0 else pure v

/-- Whether n ids from two tokens agree. -/
def sameIds (j : Job) (a b : Word) : Nat → Eng Bool
  | 0 => pure true
  | n + 1 => do
    let x ← tokId j a
    let y ← tokId j b
    if x = y then sameIds j (a + 4) (b + 4) n else pure false

/-- The first node, from one on in NEXT order, with REF above 0 that covers the left ids at a token; fuel bounds the
siblings. -/
def findChild (j : Job) (x : Pool) (root ids : Word) (left : Nat) : Nat → Word → Eng (Option PfxNode)
  | 0, _ => pure none
  | fuel + 1, t => do
    if t = 0 then pure none
    else do
      let n ← readNode j root t
      needDesc (entryOk x n.page)
      let hit ← if n.ref = 0 ∨ n.ntok = 0 ∨ left < n.ntok then pure false
        else sameIds j ids (x.at (wbits n.page 31 0) 0x80) n.ntok
      if hit then pure (some n) else findChild j x root ids left fuel n.next

/-- The nodes that a walk may meet. -/
def walkFuel : Nat := 2 ^ 40

/-- Writes DEPTH and LAST of a query and ends a PFX.MATCH, with a cause where it stops short. (DEDUCED, unsafe: log 49) -/
def endMatch (j : Job) (query : Word) (d : Nat) (node : Word) (cause : Nat) : Eng Unit := do
  putCtl j (query + 24) (word d)
  putCtl j (query + 32) (if d = 0 then 0 else node)
  if cause = 0 then pure () else endWith 0xA cause

/-- The loop of PFX.MATCH (R395). -/
def matchLoop (j : Job) (x : Pool) (root query ids : Word) (nq : Nat) :
    Nat → Chain → PfxNode → Nat → Nat → Eng Unit
  | 0, _, node, _, d => endMatch j query d node.tok 0
  | fuel + 1, c, node, q, d => do
    match ← findChild j x root (ids + word (4 * q)) (nq - q) walkFuel node.first with
    | none => endMatch j query d node.tok 0
    | some n => do
      let p := wbits n.page 31 0
      let g ← readPage j x p
      if n.ref = 2 ^ 32 - 1 ∨ g.ref = 2 ^ 32 - 1 then endMatch j query d node.tok 0xA6
      else if c.npg = c.cap then endMatch j query d node.tok 0xA7
      else do
        putNode0 j n.tok n.ntok (n.ref + 1)
        putRef j x p (g.ref + 1)
        putChainEntry j c c.npg n.page
        putChain j c (c.npg + 1) c.nextv
        count 1
        if n.ntok < x.tpp then endMatch j query (d + 1) n.tok 0
        else matchLoop j x root query ids nq fuel { c with npg := c.npg + 1 } n (q + n.ntok) (d + 1)

/-- PFX.MATCH (R395). -/
def runPfxMatch (j : Job) : Eng Unit := wholeOrNone do
  needDesc (bits j.f 159 128 == 0)
  let t ← readTree j (word (bits j.f 63 0))
  let query := word (bits j.f 127 64)
  ctlHead j query 64
  let ws ← ctls j query 8
  needDesc (wbits (ws.getD 1 0) 63 32 == 0 && ws.getD 5 0 == 0 && ws.getD 6 0 == 0 && ws.getD 7 0 == 0)
  let (c, _) ← readChain j (ws.getD 2 0)
  let root ← readNode j t.root t.root
  let ids := ws.getD 0 0
  let nq := wbits (ws.getD 1 0) 31 0
  matchLoop j t.pool t.root query ids nq 65536 c root 0 0

/-- Inserts a node for the page of a chain entry, with header g, below a node (R396). -/
def insertNode (j : Job) (t : Tree) (node : PfxNode) (free e : Word) (g : Page) : Eng (PfxNode × Word) := do
  let p := wbits e 31 0
  if free = 0 then endWith 0xA 0xA9
  let n ← readNode j t.root free
  if g.ref = 2 ^ 32 - 1 then endWith 0xA 0xA6
  putCtl j (t.tok + 8) n.next
  putNode0 j free g.fill 1
  putCtl j (free + 8) e
  putCtl j (free + 16) 0
  putCtl j (free + 24) node.first
  putCtl j (free + 32) node.tok
  putCtl j (node.tok + 16) free
  putRef j t.pool p (g.ref + 1)
  count 1
  pure ({ tok := free, ref := 1, ntok := g.fill, page := e, first := 0, next := node.first, parent := node.tok }, n.next)

/-- Inserts a node for each chain entry, each below the one before, up to a stop (R396). -/
def insertNodes (j : Job) (t : Tree) : List Word → PfxNode → Word → Eng Unit
  | [], _, _ => pure ()
  | e :: es, node, free => do
    let g ← readPage j t.pool (wbits e 31 0)
    if g.fill = 0 ∨ g.live ≠ g.fill then pure ()
    else do
      let (n, free) ← insertNode j t node free e g
      if g.fill < t.pool.tpp then pure () else insertNodes j t es n free

/-- Descends through children that match the pages of a chain's entries (R395, R396), and inserts from the first page
without one. (DEDUCED, unsafe: log 49) -/
def insertFrom (j : Job) (t : Tree) : List Word → PfxNode → Eng Unit
  | [], _ => pure ()
  | e :: es, node => do
    let x := t.pool
    let p := wbits e 31 0
    let g ← readPage j x p
    match ← findChild j x t.root (x.at p 0x80) g.fill walkFuel node.first with
    | some n => if n.ntok < x.tpp then pure () else insertFrom j t es n
    | none => insertNodes j t (e :: es) node t.free

/-- PFX.INSERT (R396). (DEDUCED, unsafe: log 49) -/
def runPfxInsert (j : Job) : Eng Unit := wholeOrNone do
  needDesc (bits j.f 159 128 == 0)
  let t ← readTree j (word (bits j.f 63 0))
  let (c, _) ← readChain j (word (bits j.f 127 64))
  let root ← readNode j t.root t.root
  insertFrom j t c.entries root

/-- Decrements the REF of a node and of its ancestors below the root (R397). -/
def unrefUp (j : Job) (root : Word) : Nat → Word → Eng Unit
  | 0, _ => pure ()
  | fuel + 1, t => do
    if t = root ∨ t = 0 then pure ()
    else do
      let n ← readNode j root t
      if n.ref = 0 then endWith 0xA 0xA6
      putNode0 j t n.ntok (n.ref - 1)
      unrefUp j root fuel n.parent

/-- Unlinks a node from the list that starts at a link word. -/
def unlink (j : Job) (t next : Word) : Nat → Word → Eng Unit
  | 0, _ => pure ()
  | fuel + 1, link => do
    let v ← ctl j link
    if v = t then putCtl j link next
    else if v = 0 then pure ()
    else unlink j t next fuel (v + 24)

/-- Frees a node without holders and children, then examines its parent (R397). -/
def freeUp (j : Job) (t : Tree) (root : Word) : Nat → Word → Eng Unit
  | 0, _ => pure ()
  | fuel + 1, k => do
    if k = root ∨ k = 0 then pure ()
    else do
      let n ← readNode j root k
      if n.ref ≠ 0 ∨ n.first ≠ 0 then pure ()
      else do
        needDesc (entryOk t.pool n.page)
        unlink j k n.next walkFuel (n.parent + 16)
        let p := wbits n.page 31 0
        let g ← readPage j t.pool p
        if g.ref = 0 then endWith 0xA 0xA6
        putRef j t.pool p (g.ref - 1)
        if g.ref = 1 then putFree j t.pool p true
        let free ← ctl j (t.tok + 8)
        putCtl j (k + 24) free
        putCtl j (t.tok + 8) k
        freeUp j t root fuel n.parent

/-- PFX.UNREF (R397); its CNT is the bytes that it writes (Table 16.3). -/
def runPfxUnref (j : Job) : Eng Unit := wholeOrNone do
  needDesc (bits j.f 159 128 == 0)
  let t ← readTree j (word (bits j.f 127 64))
  let k := word (bits j.f 63 0)
  modify fun w => { w with counting := true }
  if j.c.flags.testBit 6 then do
    let n ← readNode j t.root k
    if n.ref = 0 then endWith 0xA 0xA6
    putNode0 j k n.ntok (n.ref - 1)
  else unrefUp j t.root walkFuel k
  freeUp j t t.root walkFuel k

/-! ## Page moves (R176, R398) -/

/-- The walk of R165 to a leaf: where its entry lies, the entry, and the page's size. -/
def leafFrom (s : State) (va : Nat) : List Nat → Nat → Except FaultD (Nat × Nat × Nat)
  | [], _ => .error { cause := 0x3F, addr := va }
  | lvl :: ls, t =>
    match physLoc t with
    | none => .error { cause := 0x3F, addr := va }
    | some base =>
      if s.layerOff base then .error { cause := 0x3F, addr := va }
      else if s.layerBusy base then .error (walkWaits va)
      else
        let loc := base + pageIndex va lvl * 8
        let e := s.rdMem loc 8
        if s.mem.isPois loc then .error { cause := 0x37, addr := va, maddr := 1 }
        else if !e.testBit 63 then .error { cause := 0x30 + AKind.engRead.code, addr := va }
        else if malformed e lvl then .error { cause := 0x37, addr := va }
        else if e.testBit 62 then .ok (loc, e, if lvl = 3 then 2 ^ 21 else 2 ^ 16)
        else leafFrom s va ls (bits e 39 0)

/-- Whether an access that translated to bytes lo to hi is still on its way: a pending or buffered store, or a remote
operation, on the mesh or held at its core (R176). (DEDUCED, unsafe: log 46) -/
def State.pageBusy (s : State) (lo hi : Nat) : Bool :=
  let inside := fun (l : Nat) => decide (lo ≤ l) && decide (l < hi)
  let remote := fun (op : RemOp) => match op.place with
    | .mem l => inside l
    | _ => false
  let pend := fun (p : Pend) => match p with
    | .store e => e.reach.any inside
    | .post op => remote op
    | _ => false
  s.cores.any (fun (_, x) => x.sb.any (fun e => e.reach.any inside) || x.posts.any remote ||
      x.slots.any fun (_, y) => y.frame.pend.any (fun (_, p) => pend p) || (match y.twin with
        | some t => t.gated.any fun e => e.reach.any inside
        | none => false)) ||
    s.net.any fun p => match p with
      | .remote op => remote op
      | _ => false

/-- Moves the waiters and the held contributions of a page to its new frame. (DEDUCED, unsafe: log 46) -/
def State.rehome (s : State) (lo new size : Nat) : State :=
  let mv := fun (l : Nat) => if lo ≤ l ∧ l < lo + size then l - lo + new else l
  let mo := fun (op : RemOp) => match op.place with
    | .mem a => { op with place := .mem (mv a) }
    | _ => op
  let ro := s.ro.foldl (fun (t : Tab RoWord) (e : Nat × RoWord) =>
    let l := e.1 % 2 ^ 40 * 8
    t.put (mv l / 8 + e.1 / 2 ^ 40 * 2 ^ 40) { e.2 with held := e.2.held.map mo }) []
  { s with waiters := s.waiters.map (fun w => { w with loc := mv w.loc }), ro := ro }

/-- Removes the translations of a page from every TLB (R175, R176). -/
def State.dropPage (s : State) (lo size : Nat) : State :=
  let keep := fun (t : TlbEntry) => match leafPhys s.pkg t.leaf.toNat t.page t.size with
    | .here l => !(decide (l < lo + size) && decide (lo < l + t.size))
    | .far _ _ _ => true
  { s with cores := s.cores.map fun (n, x) => (n, { x with tlb := x.tlb.filter keep }) }

/-- No read buffer holds an earlier word of a page's new frame (R201). -/
def State.dropFrame (s : State) (lo size : Nat) : State :=
  s.keepBufs fun b => !(decide (lo ≤ b.loc) && decide (b.loc < lo + size))

/-- PG.PROMOTE up to its switch: the copy with full/empty and poison bits, the compare and swap of the leaf, and the
invalidation of every TLB. Answers the new frame; none where the switch is lost. -/
def runPromote (j : Job) : Eng (Option Nat) := do
  let f := j.f
  let va ← engAddr j (word (bits f 63 0)) 1 1 .engRead
  if regionOf (isSvc j.core) va ≠ .virt then endWith 6 0
  let w ← get
  match j.c.leaf with
  | none => endWith 6 0
  | some (place, old, size) => do
      let n := bits f 138 128
      needDesc (bits f 159 139 == 0 && (size == 2 ^ 16 || n % 32 == 0))
      let new := old / 2 ^ 27 * 2 ^ 27 + n * 2 ^ 16
      if w.s.layerOff old || w.s.layerOff new then endWith 4 0
      else if w.s.layerBusy old || w.s.layerBusy new || w.s.pageBusy old (old + size) then throw .wait
      else do
        (List.range (size / 8)).forM fun i => do
          let (v, q) ← readAt (old + 8 * i) 8
          let _ ← writeAt (new + 8 * i) 8 v q
          onState fun s => s.setFull (new + 8 * i) (s.mem.isFull (old + 8 * i))
        let e := w.s.rdMem place 8
        if bits f 127 64 ≠ e ∨ w.s.mem.isPois place then do
          count n
          pure none
        else do
          let e' := putBits e 26 0 (n * 2 ^ 16)
          onState fun s => (((((s.wrMem place 8 e').dropReadBufs [place]).touchRow place).rehome old new size).dropPage old size).dropFrame new size
          count (old % 2 ^ 27 / 2 ^ 16)
          pure (some new)

/-- A converted slot: its elements narrowed and packed from its start, each with whether it carries poison. -/
def convertSlot (src dst : Nat) (n : Nat) (bs : List (Nat × Bool)) : List (Nat × Bool) :=
  let a := codeBits src / 8
  let b := codeBits dst / 8
  let es := (List.range (n / a)).map fun i =>
    let x := (bs.drop (i * a)).take a
    (((codeFmt dst).narrow .rne true ((codeFmt src).decode (x.foldr (fun y v => y.1 + 256 * v) 0))).1, x.any (·.2))
  let out := es.flatMap fun e => (List.range b).map fun k => (e.1 / 256 ^ k % 256, e.2)
  out ++ List.replicate (n - out.length) (0, false)

/-- PG.REQUANT up to its switch. The spec does not say how the agent knows the pool of an entry: its descriptor's token
is a free value, taken at the start. -/
def runRequant (j : Job) : Eng (Option Nat) := do
  let f := j.f
  needDesc (bits f 159 128 == 0)
  let tok := word (bits f 63 0)
  let e ← ctl j tok
  let old := word (bits f 127 64)
  let x ← readPool j (word j.c.desc.toNat)
  needDesc (entryOk x old)
  let p := wbits old 31 0
  let g ← readPage j x p
  let k := j.c.flags / 2 ^ 6 % 16
  needDesc (kvFmt k && kvFmt g.kfmt && decide (codeBits k < codeBits g.kfmt))
  if 1 < g.ref then endWith 0xB 0
  let base ← engPlace j (x.at p 0) 1 1 .engRead
  let w ← get
  if w.s.pageBusy base (base + 65536) then throw .wait
  let ids ← ctls j (x.at p 0x80) (ceilDiv g.fill 2)
  match ← freeIn j x (runOf x p) with
  | none => endWith 9 0xA5
  | some q => do
    takePage j x q k
    putPage0 j x q g.ref g.fill g.live
    putBitmap j x q g.bm
    ids.zipIdx.forM fun w => putCtl j (x.at q (0x80 + 8 * w.2)) w.1
    (List.range g.live).forM fun s => do
      let ws ← (List.range (x.tokb / 8)).mapM fun i => do
        let loc ← engPlace j (x.at p (x.slotOff s + 8 * i)) 8 8 .engRead
        readAt loc 8
      let bs := ws.flatMap fun v => (List.range 8).map fun b => (v.1 / 256 ^ b % 256, v.2)
      let out := convertSlot g.kfmt k x.tokb bs
      (List.range (x.tokb / 8)).forM fun i => do
        let ys := (out.drop (8 * i)).take 8
        let loc ← engPlace j (x.at q (x.slotOff s + 8 * i)) 8 8 .engWrite
        let _ ← writeAt loc 8 (ys.foldr (fun y v => y.1 + 256 * v) 0) (ys.any (·.2))
    if e ≠ old then do
      count q
      pure none
    else do
      putCtl j tok (entryWord k q)
      let to_ ← engPlace j (x.at q 0) 1 1 .engRead
      onState fun s => (s.dropPage base 65536).dropFrame to_ 65536
      count p
      pure (some to_)

end Sys2Proof.Machine
end

