-- ==== Sys2Proof/Machine/Commands.lean ====
section
/-!
DEFINITION. The life of a long command (R359-R367): firing and tickets, release with its scoreboard entry (R173, R380),
start, completion with its signal and status word, multicast groups (R175) and page moves (R176).
-/

namespace Sys2Proof.Machine

/-! ## Firing (R359, R362) -/

/-- F with the tokens that replace parts of it (R359). -/
def fieldsWith (c : Long) (l r p : Tok) : BitVec 160 :=
  let f := c.f.toNat
  let f := if c.flag 11 then putBits f 63 0 l.w.toNat else f
  let f := if c.flag 12 then putBits f 127 64 r.w.toNat else f
  BitVec.ofNat 160 (if c.flag 13 then putBits f 159 128 p.w.toNat else f)

/-- The next ticket of a core: one more than its last, past those whose status words are in use. -/
def nextTicket (x : Core) : Nat :=
  let gated := x.slots.flatMap fun (_, y) => match y.twin with
    | some t => t.gatedCmds
    | none => []
  let busy := fun (t : Nat) => (x.cmds ++ gated).any fun c => c.ticket % 256 == t % 256
  ((List.range 256).map fun i => (x.lastTicket + 1 + i) % 2 ^ 32).find? (fun t => !busy t)
    |>.getD ((x.lastTicket + 1) % 2 ^ 32)

/-- A long command fires: its ticket is its status token, and the command waits for its commit (R362). -/
def commandOp (i : Instr) (eng cmd : Nat) (c : Long) (s : State) : State :=
  let l := c.lsid
  match gather i.shape s.cur.frame s.ci with
  | .wait => s
  | .mismatch => s.skipWord
  | .poison d m => (s.fireWith i (.poison d m) 0).updF fun f => { f with pend := f.pend.put l .done }
  | .null => (s.fireWith i .null 0).updF fun f => { f with pend := f.pend.put l .nulled }
  | .vals x y z =>
    if x.isNull || y.isNull || z.isNull then (s.fireWith i .null 0).updF fun f => { f with pend := f.pend.put l .nulled }
    else
      let made := fun (t : Nat) => Pend.command
        { eng := eng, cmd := cmd, slot := s.ck, ticket := t, wsem := c.wsem, wthr := c.wthr, ssem := c.ssem
          sinc := c.sinc, flags := c.flags, f := fieldsWith c x y z, tid := s.cur.tid, priv := tswPriv s.cur.ctx.tsw
          lid := tswLid s.cur.ctx.tsw, pc := s.cur.ctx.pc, index := s.ci, lsid := l }
      if s.isShadow then
        match s.forwarded with
        | some t => (s.fireWith i t 0).updF fun f => { f with pend := f.pend.put l (made t.w.toNat) }
        | none => s
      else
        let t := nextTicket (s.core s.cc)
        ((s.updCore s.cc fun x => { x with lastTicket := t }).fireOut i (.val (word t))).updF fun f =>
          { f with pend := f.pend.put l (made t) }

/-- MMA (R377). -/
def execMma (c : Long) (s : State) : Res := .next (commandOp (.mma c) 0 0 c s)

/-- TILE.LD (R371-R373). -/
def execTileLd (c : Long) (s : State) : Res := .next (commandOp (.tileLd c) 1 0 c s)

/-- TILE.ST (R371-R373). -/
def execTileSt (c : Long) (s : State) : Res := .next (commandOp (.tileSt c) 1 1 c s)

/-- TILE.CP (R371-R373). -/
def execTileCp (c : Long) (s : State) : Res := .next (commandOp (.tileCp c) 1 2 c s)

/-- TILE.DEAL (R375). -/
def execTileDeal (c : Long) (s : State) : Res := .next (commandOp (.tileDeal c) 1 3 c s)

/-- TILE.RESUME (R376). -/
def execTileResume (c : Long) (s : State) : Res := .next (commandOp (.tileResume c) 1 4 c s)

/-- CAST.DEC (R381). -/
def execCastDec (c : Long) (s : State) : Res := .next (commandOp (.castDec c) 2 0 c s)

/-- CAST.PLANE (R383). -/
def execCastPlane (c : Long) (s : State) : Res := .next (commandOp (.castPlane c) 2 1 c s)

/-- CAST.TABLE (R384). -/
def execCastTable (c : Long) (s : State) : Res := .next (commandOp (.castTable c) 2 2 c s)

/-- XSWAP (R385). -/
def execXswap (c : Long) (s : State) : Res := .next (commandOp (.xswap c) 3 0 c s)

/-- PG.PROMOTE (R398). -/
def execPgPromote (c : Long) (s : State) : Res := .next (commandOp (.pgPromote c) 3 1 c s)

/-- PG.REQUANT (R398). -/
def execPgRequant (c : Long) (s : State) : Res := .next (commandOp (.pgRequant c) 3 2 c s)

/-- KV.ALLOC (R390). -/
def execKvAlloc (c : Long) (s : State) : Res := .next (commandOp (.kvAlloc c) 4 0 c s)

/-- KV.FREE (R393). -/
def execKvFree (c : Long) (s : State) : Res := .next (commandOp (.kvFree c) 4 1 c s)

/-- KV.APPEND (R391). -/
def execKvAppend (c : Long) (s : State) : Res := .next (commandOp (.kvAppend c) 4 2 c s)

/-- KV.EVICT (R392). -/
def execKvEvict (c : Long) (s : State) : Res := .next (commandOp (.kvEvict c) 4 3 c s)

/-- PFX.MATCH (R395). -/
def execPfxMatch (c : Long) (s : State) : Res := .next (commandOp (.pfxMatch c) 4 4 c s)

/-- PFX.INSERT (R396). -/
def execPfxInsert (c : Long) (s : State) : Res := .next (commandOp (.pfxInsert c) 4 5 c s)

/-- PFX.UNREF (R397). -/
def execPfxUnref (c : Long) (s : State) : Res := .next (commandOp (.pfxUnref c) 4 6 c s)

/-! ## Scoreboard entries (R173) and guards (R380) -/

/-- Runs an engine's action from a state, for a command that writes. -/
def runEng {α : Type} (s : State) (x : Eng α) (j : Option Job := none) : Except Stop α × Work :=
  (x.run).run { s := s, job := j }

/-- The destination bytes of elements of a tile command: start and length, up to the first that cannot be placed. -/
def tileDests (s : State) (j : Job) (d from_ : Nat) : List (Nat × Nat) :=
  ((List.range (tdTotal d - from_)).map fun i =>
      match (runEng s (engPlace j (tdDst d (from_ + i)) (tdSize d) (tdSize d) .engWrite)).1 with
      | .ok l => some (l, tdSize d)
      | .error _ => none).takeWhile Option.isSome |>.filterMap id

/-- The bytes a command writes: start and length of its parts (R173). -/
def cmdDests (s : State) (j : Job) : List (Nat × Nat) :=
  let f := j.f
  let sq := sqLoc (squareOf j.core)
  let tile := fun (_ : Unit) => match (runEng s (readTile j)).1 with
    | .ok d => some d
    | .error _ => none
  match j.c.eng, j.c.cmd with
  | 1, 0 | 1, 1 | 1, 2 => match tile () with
    | some d => tileDests s j d 0
    | none => []
  | 1, 3 =>
    let p := bits f 127 64
    if dealBad (dieOf j.core) p (bits f 159 128) then []
    else ((List.range (bits f 159 128 / dealBlock p)).map fun k => (dealLoc (dieOf j.core) p k, dealBlock p)).filter
      fun x => decide (2 ^ 39 ≤ x.1)
  | 1, 4 => match tile () with
    | some d => if bits d 895 895 = 1 then tileDests s j d (bits d 879 832) else []
    | none => []
  | 2, 0 => [(sq (bits f 147 128), (bits f 159 152 * 16 + bits f 151 148) * 832)]
  | 2, 1 => [(sq (bits f 147 128), bits f 159 152 * groupBytes (bits f 151 148))]
  | 3, 0 => if xswapBad (isSvc j.core) f then [] else [(xswapLoc j.core f, bits f 87 64)]
  | _, _ => []

/-- The lowest and highest byte of parts that lie in one memory. -/
def spanIn (lo hi : Nat) (ps : List (Nat × Nat)) : List (Nat × Nat) :=
  match ps.filter fun p => decide (lo ≤ p.1) && decide (p.1 < hi) && decide (0 < p.2) with
  | [] => []
  | p :: qs => [(qs.foldl (fun a q => min a q.1) p.1, qs.foldl (fun a q => max a (q.1 + q.2 - 1)) (p.1 + p.2 - 1))]

/-- The ranges that a command records at the port of its core, one for each of its memories. -/
def cmdRanges (s : State) (c : Nat) (x : Cmd) : List (Nat × Nat) :=
  let ps := cmdDests s ⟨c, x⟩
  spanIn (vaultLoc c 0) (if isSvc c then 0 else vaultLoc (c + 1) 0) ps ++ spanIn (tcmLoc c 0) (tcmLoc (c + 1) 0) ps ++
    (if isSvc c then [] else spanIn (sqLoc (squareOf c) 0) (sqLoc (squareOf c + 1) 0) ps)

/-- The D range that an MMA guards (R380). -/
def cmdGuard (c : Nat) (x : Cmd) : List (Nat × Nat) :=
  if x.eng = 0 ∧ x.flags.testBit 8 then
    let l := sqLoc (squareOf c) (mmaOp x).doff
    [(l, l + 1024 * accBytes (mmaOp x).acc - 1)]
  else []

/-! ## Status words and ends (R362-R365) -/

/-- The status word of a ticket (R362). -/
def statusLoc (c t : Nat) : Nat := tcmLoc c ((if isSvc c then 0x7000 else 0x1F800) + 8 * (t % 256))

/-- The commands that a slot's queue for an engine holds (Table 16.2). -/
def queueDepth (eng : Nat) : Nat := if eng = 1 then 4 else 2

/-- The data stores of thread t among entries that wait, as a command of the thread will find them (R191). -/
def State.withStores (s : State) (es : List SbEntry) (t : Nat) : State :=
  let put := fun (m : Memory) (x : Host.Cell) => m.setByte x.1 x.2
  let part := fun (m : Memory) (p : Part) => match p with
    | .raw _ cells => cells.foldl put m
    | .elem _ _ _ _ => m
  let entry := fun (m : Memory) (e : SbEntry) => if e.tid ≠ t then m else match e.op with
    | .data ps => ps.foldl part m
    | .stf loc v => m.write loc 8 v.toNat
    | _ => m
  { s with mem := es.foldl entry s.mem }

/-- A command takes a scoreboard entry at its release (R173 item 1). -/
def State.ranged (s : State) (c : Nat) (es : List SbEntry) (x : Cmd) : Bool :=
  !(cmdRanges (s.withStores es x.tid) c x).isEmpty

/-- The scoreboard entries in use, guards apart. -/
def State.boardUsed (s : State) (c : Nat) : Nat := ((s.core c).board.filter (!·.guard)).length

/-- Releases a command at commit (R274 step 4, R362): its status word is written zero and set empty, its ranges are
recorded, and it enters its queue. (DEDUCED, unsafe: log 47) -/
def State.releaseCmd (s : State) (c : Nat) (x : Cmd) : State :=
  let rs := cmdRanges (s.withStores (s.core c).sb x.tid) c x
  let gs := cmdGuard c x
  let l := statusLoc c x.ticket
  let s := ((s.wrWord l 0).dropReadBufs [l]).setFull l false
  let x := { x with stamp := s.serial }
  (s.updCore c fun y =>
    { y with cmds := y.cmds ++ [x]
             board := y.board ++
               (if rs.isEmpty then [] else [{ ticket := x.ticket, ranges := rs, stamp := s.serial }]) ++
               (if gs.isEmpty then []
                else [{ ticket := x.ticket, ranges := gs, guard := true, stamp := s.serial }]) }).nextSerial

/-- A completion status (Table 16.3). (DEDUCED, unsafe: log 49) -/
def statusWord (e : CmdEnd) (ssat : Bool) : Word :=
  word (e.cnt % 2 ^ 40 * 2 ^ 24 + e.cause % 2 ^ 8 * 2 ^ 16 + e.noprog.toNat * 2 ^ 14 + ssat.toNat * 2 ^ 13 +
    e.redo.toNat * 2 ^ 12 + e.pois.toNat * 2 ^ 11 + e.sat.toNat * 2 ^ 10 + e.ovf.toNat * 2 ^ 9 + e.nan.toNat * 2 ^ 8 +
    e.code % 2 ^ 8)

/-- The record of a command's error (SRC 3). (DEDUCED, unsafe: log 47) -/
def State.cmdRecord (s : State) (c : Nat) (x : Cmd) (e : CmdEnd) : State :=
  if e.cause = 0 then s
  else
    let r := mkRecord e.code (if causeHasAddr e.cause then e.addr else 0) x.pc.toNat e.cause x.lid 3 x.eng true x.index
      x.lsid x.slot c s.time
    (s.updSlot c x.slot fun y => { y with frec := r }).sendRecord c r

/-- Wakes the threads that an MMA's guard has parked (R380). -/
def State.wakeGuard (s : State) (c t : Nat) : State :=
  let hit := fun (w : Waiter) => w.kind == 7 && w.loc == t
  let ws := (s.core c).semWaiters.filter hit
  (s.updCore c fun x => { x with semWaiters := x.semWaiters.filter fun w => !hit w }).sendWakes ws

/-- A command ends (R365): its record, its signal unless silent, its status word; its scoreboard entries retire. -/
def State.endCmd (s : State) (c : Nat) (x : Cmd) (e : CmdEnd) (silent : Bool) : State :=
  let s := s.cmdRecord c x e
  let sg := x.flags.testBit 1 && (e.code == 0 || x.flags.testBit 2) && !silent
  let v := s.sem c x.ssem + x.sinc
  let ssat := sg && decide (2 ^ 32 ≤ v)
  let s := if sg then ((s.setSem c x.ssem (min v (2 ^ 32 - 1))).signalSem c x.ticket x.ssem).wakeSem c x.ssem else s
  let s := (s.dropReadBufs [statusLoc c x.ticket]).storeFull (statusLoc c x.ticket) (statusWord e ssat)
  let s := (s.updCore c fun y =>
    { y with cmds := y.cmds.filter fun z => z.ticket != x.ticket
             board := y.board.filter fun r => r.ticket != x.ticket
             array := if x.eng = 0 ∧ e.code ≠ 0 then none else y.array }).retireBufs c x.ticket
  let s : State := { s with vaults := s.vaults.map fun (n, v) =>
    (n, { v with moving := v.moving.filter fun m => !(m.core == c && m.ticket == x.ticket) }) }
  (s.wakeGuard c x.ticket).noteQuiet c

/-! ## Start (R365, R175) -/

/-- Commands of an engine that have started. -/
def Core.running (x : Core) (eng : Nat) : Nat := (x.cmds.filter fun c => c.eng == eng && c.started).length

/-- Commands that an engine runs at once. -/
def engWidth (eng : Nat) : Nat := if eng = 1 then 4 else 1

/-- An end from a stop. -/
def stopEnd (o : CmdEnd) : Stop → CmdEnd
  | .fin code cause addr => { o with code := code, cause := cause, addr := addr }
  | .wait => o

/-- The source descriptor that multicast combining compares (R175 item 1): none where its source does not translate. -/
def mcastKey (s : State) (c : Nat) (x : Cmd) : Option (Nat × Nat × Nat) :=
  let d := x.desc.toNat
  match (runEng s (engPlace ⟨c, x⟩ (tdSrc d 0) (tdSize d) (tdSize d) .engRead)).1 with
  | .ok l => some (l, x.lid, bits d 575 128)
  | .error _ => none

/-- The multicast key of a member of a group. -/
def State.memberKey (s : State) (m : Nat × Nat) : Option (Nat × Nat × Nat) :=
  match (s.core m.1).cmds.find? (·.ticket == m.2) with
  | some x => mcastKey s m.1 x
  | none => none

/-- A TILE.LD with MC joins a group of its square whose window of 64 mesh cycles is open, or opens one (R175). -/
def State.joinGroup (s : State) (c : Nat) (x : Cmd) : State :=
  match mcastKey s c x with
  | none => s
  | some key =>
    let q := s.square (squareOf c)
    let fits := fun (g : List (Nat × Nat) × Nat) =>
      decide (g.1.length < 4) && decide (s.time < g.2 + 32) && !g.1.any (fun m => m.1 == c) && (match g.1.head? with
        | some m => s.memberKey m == some key
        | none => false)
    match q.mcast.find? fits with
    | some g =>
      let g' := (g.1 ++ [(c, x.ticket)], g.2)
      s.updSquare (squareOf c) fun q =>
        { q with mcast := q.mcast.map fun h => if h == g then g' else h }
    | none => s.updSquare (squareOf c) fun q => { q with mcast := q.mcast ++ [([(c, x.ticket)], s.time)] }

/-- The read of a group of elements for its first member, up to the end that it meets (R175 item 4). ta: a throttled row
ends it. -/
def groupVals (j : Job) (ta : Bool) : List Nat → Work → List (Nat × Bool) × Option Stop × Work
  | [], w => ([], none, w)
  | e :: es, w =>
    match ((tileSource j j.c.desc.toNat ta e).run).run w with
    | (.ok v, w) =>
      let (vs, o, w) := groupVals j ta es w
      (v :: vs, o, w)
    | (.error x, w) => ([], some x, w)

/-- The single read of a group is issued (R175 items 4 and 6): what it obtains, and the end it meets, reach every member; a
member's throttle-abort flag stops it for all. None while it waits for a layer. (DEDUCED, unsafe: log 49) -/
def State.readGroup (s : State) (ms : List (Nat × Nat)) : Option State :=
  let xs := ms.filterMap fun m => ((s.core m.1).cmds.find? (·.ticket == m.2)).map fun x => (⟨m.1, x⟩ : Job)
  match xs with
  | [] => some s
  | j :: _ =>
    let ta := xs.any fun y => y.c.flags.testBit 4
    let (vals, stop, w) := groupVals j ta (List.range (tdTotal j.c.desc.toNat)) { s := s }
    let share := fun (o : Option CmdEnd) => some (ms.foldl (fun s m => s.updCore m.1 fun y =>
      y.updCmd m.2 fun d => { d with shared := some ⟨vals, o⟩, again := w.rows }) w.s)
    match stop with
    | none => share none
    | some (.fin code cause addr) => share (some { code := code, cause := cause, addr := addr })
    | some .wait => none

/-- MULTICAST_WINDOW_CLOSE (R175): the group's read is issued 64 mesh cycles after it opened, or at once with four members. -/
def execMulticastWindowClose (sq n : Nat) (s : State) : Res :=
  .next (match (s.square sq).mcast[n]? with
    | some g => if g.1.length < 4 ∧ s.time < g.2 + 32 then s
      else match s.readGroup g.1 with
        | some s => s.updSquare sq fun q => { q with mcast := q.mcast.eraseIdx n }
        | none => s
    | none => s)

/-- The bytes that a page move copies from: the page's first byte and size, and for PG.PROMOTE where its leaf entry lies. -/
def movePage (j : Job) : Eng (Nat × Nat × Option Nat) := do
  if j.c.cmd = 1 then do
    let va ← engAddr j (word (bits j.f 63 0)) 1 1 .engRead
    let w ← get
    if regionOf (isSvc j.core) va ≠ .virt then endWith 6 0
    match leafFrom w.s va [0, 1, 2, 3, 4] (j.who w.s).root with
    | .ok (place, e, size) => match leafPhys w.s.pkg e 0 size with
      | .here l => pure (l, size, some place)
      | .far _ _ _ => endWith 6 0
    | .error d => throw (if d.waits then .wait else if d.maddr = 1 then .fin 0x11 0 0 else .fin 2 d.cause d.addr)
  else do
    let x ← readPool j (word j.c.desc.toNat)
    let l ← engPlace j (x.at (bits j.f 95 64) 0) 1 1 .engRead
    pure (l, 65536, none)

/-- A page move begins: BUSY where the page is already moving, whichever of its frames it now names (R176). (DEDUCED, unsafe: log 46) (DESIGN CHOICE, safe: log 48) -/
def State.startMove (s : State) (c : Nat) (x : Cmd) : Option (State × Cmd) :=
  let (s, x) := if x.cmd = 2 then
      ({ s with fresh := s.fresh + 1 }, { x with desc := BitVec.ofNat 1024 (Config.freeWord s.fresh).toNat })
    else (s, x)
  match (runEng s (movePage ⟨c, x⟩)).1 with
  | .error .wait => none
  | .error e => some (s, if x.cmd = 1 then { x with early := some (stopEnd {} e) } else x)
  | .ok (l, size, leaf) =>
    let x := { x with leaf := leaf.map fun a => (a, l, size) }
    if (s.vault (l / 2 ^ 27)).moving.any fun m => m.page == l || m.new == l then
      some (s, { x with early := some { code := 0xB } })
    else some (s.updVault (l / 2 ^ 27) fun v =>
      { v with moving := v.moving ++ [{ ticket := x.ticket, core := c, page := l, new := l, size := size }] }, x)

/-- What a command does as it starts: a tile command reads its descriptor (R371), a page move is entered (R176); none while
it waits for a layer that powers on. (DEDUCED, unsafe: log 47) -/
def State.beginCmd (s : State) (c : Nat) (x : Cmd) : Option (State × Cmd) :=
  let x := { x with started := true, startedAt := s.time, took := true }
  if x.eng = 1 ∧ x.cmd ≠ 3 then
    match runEng s (readTile ⟨c, x⟩) with
    | (.ok d, w) => some (w.s, { x with desc := BitVec.ofNat 1024 d })
    | (.error .wait, _) => none
    | (.error e, w) => some (w.s, { x with early := some (stopEnd w.out e) })
  else if x.eng = 3 ∧ x.cmd ≠ 0 then s.startMove c x
  else some (s, x)

/-- The scoreboard entry of a command that starts holds the bytes that its descriptor, as read, writes; none while it needs
an entry that it did not take at its release and all are in use (R173). (DEDUCED, unsafe: log 47) -/
def State.markRanges (s : State) (c : Nat) (x : Cmd) : Option State :=
  let rs := cmdRanges s c x
  let own := fun (r : Ranges) => r.ticket == x.ticket && !r.guard
  if (s.core c).board.any own then
    some (s.updCore c fun y => { y with board := y.board.map fun r => if own r then { r with ranges := rs } else r })
  else if rs.isEmpty then some s
  else if Config.boardEntries ≤ s.boardUsed c then none
  else some (s.updCore c fun y => { y with board := y.board ++ [{ ticket := x.ticket, ranges := rs, stamp := x.stamp }] })

/-- The head of a queue starts: its semaphore count is taken, its descriptor read, its ranges recorded. -/
def State.startCmd (s : State) (c : Nat) (x : Cmd) : Option State :=
  let s := if x.flags.testBit 0 && !x.took then s.setSem c x.wsem (s.sem c x.wsem - x.wthr) else s
  (s.beginCmd c x).bind fun (s, x) =>
    ((s.updCore c fun y => y.updCmd x.ticket fun _ => x).markRanges c x).map fun s =>
      if x.eng = 1 ∧ x.cmd = 0 ∧ x.flags.testBit 5 ∧ x.early.isNone then s.joinGroup c x else s

/-- ENGINE_COMMAND_START (R365): the head of a slot's queue for an engine starts, once the engine is free, the thread's
earlier stores are performed (R191) and its semaphore count is there. No MMA starts at LEVEL 2 (R111). -/
def execEngineCommandStart (c k eng : Nat) (s : State) : Res :=
  let k := k % 4
  .next (match (s.core c).head k eng with
    | none => s
    | some x =>
      let free := decide ((s.core c).running eng < engWidth eng)
      let stored := !s.cores.any (fun y => y.2.sb.any fun e => e.tid == x.tid && decide (e.stamp < x.stamp)) &&
        !s.unack.any fun u => u.tid == x.tid && !u.posted && decide (u.stamp < x.stamp)
      let needs := x.flags.testBit 0 && !x.took
      let here := !needs || decide (x.wthr ≤ s.sem c x.wsem)
      let halted := eng == 0 && s.levelOf c == 2
      if free && stored && here && !halted then (s.startCmd c x).getD s else s)

/-! ## Completion -/

/-- What a started command performs. -/
def runCmd (j : Job) : Eng Unit :=
  let d := j.c.desc.toNat
  match j.c.eng, j.c.cmd with
  | 0, _ => runMma j
  | 1, 3 => runDeal j
  | 1, 4 => runResume j d
  | 1, n => runTile j n d 0
  | 2, 0 => runCastDec j
  | 2, 1 => runCastPlane j
  | 2, _ => runCastTable j
  | 4, 0 => runKvAlloc j
  | 4, 1 => runKvFree j
  | 4, 2 => runKvAppend j
  | 4, 3 => runKvEvict j
  | 4, 4 => runPfxMatch j
  | 4, 5 => runPfxInsert j
  | 4, 6 => runPfxUnref j
  | _, _ => pure ()

/-- The elements of a tile load that were read from a row under remap are read again after it (R160). -/
def againCmd (j : Job) : Eng Unit :=
  j.c.again.forM fun e => if j.c.cmd = 3 then dealAgain j e else tileAgain j j.c.desc.toNat e

/-- The end of a command that has performed its work: one whose tile load, or whose group's read, met a row under remap
stays until that remap ends (R160). -/
def Work.finish (w : Work) (c : Nat) (x : Cmd) (e : CmdEnd) : State :=
  let again := if w.rows.isEmpty then x.again else w.rows
  if again.isEmpty then w.s.endCmd c x e false
  else w.s.updCore c fun y => y.updCmd x.ticket fun d =>
    { d with again := again.eraseDups, early := some { e with redo := true } }

/-- Performs a command whole and ends it; a layer that it waits for leaves it as it was. -/
def State.performCmd (s : State) (c : Nat) (x : Cmd) : State :=
  match runEng s (runCmd ⟨c, x⟩) (some ⟨c, x⟩) with
  | (.ok (), w) => w.finish c x w.out
  | (.error .wait, _) => s
  | (.error e, w) => w.finish c x (stopEnd w.out e)

/-- Whether a row that a command has read under remap is still under it. -/
def State.stillRemaps (s : State) (c : Nat) (x : Cmd) : Bool :=
  x.again.any fun e =>
    let src := if x.cmd = 3 then word (bits x.f.toNat 63 0) + word e else tdSrc x.desc.toNat e
    match (runEng s (engPlace ⟨c, x⟩ src 1 1 .engRead)).1 with
    | .ok l => s.remapping l
    | .error _ => false

/-- A command reads and writes again what it has read from a row under remap, once the remap has ended, and ends. -/
def State.againAndEnd (s : State) (c : Nat) (x : Cmd) (e : CmdEnd) : State :=
  if s.stillRemaps c x then s
  else match runEng s (againCmd ⟨c, x⟩) (some ⟨c, x⟩) with
    | (.error .wait, _) => s
    | (_, w) => w.s.endCmd c x e false

/-- The matching command of an XSWAP at its partner: the two have started within 1 ms (R385). -/
def State.xswapPeer (s : State) (c : Nat) (x : Cmd) : Option (Nat × Cmd) :=
  let p := xswapPartner c (bits x.f.toNat 26 25)
  ((s.core p).cmds.find? fun y =>
    y.eng == 3 && y.cmd == 0 && y.started && !y.matched && decide (x.startedAt < y.startedAt + 1000000) &&
      decide (y.startedAt < x.startedAt + 1000000) && !xswapBad false y.f.toNat && xswapMatch x y).map fun y => (p, y)

/-- The end of an XSWAP that has exchanged its region. -/
def State.xswapDone (s : State) (c : Nat) (x : Cmd) : State :=
  let n := bits x.f.toNat 87 64
  s.endCmd c x { cnt := n, pois := s.poisIn (xswapLoc c x.f.toNat) n } false

/-- An XSWAP completes: refused, already exchanged by its partner, or with a partner that has started. -/
def State.completeXswap (s : State) (c : Nat) (x : Cmd) : State :=
  let f := x.f.toNat
  if xswapBad (isSvc c) f then s.endCmd c x { code := 5, cause := 0xA0 } false
  else if x.matched then s.xswapDone c x
  else match s.xswapPeer c x with
    | some (p, y) =>
      let s := s.exchange (xswapLoc c f) (xswapLoc p y.f.toNat) (bits f 87 64)
      let s := (List.range (bits f 87 64 / 8)).foldl (fun s i =>
        (s.asyncWrite c x (xswapLoc c f + 8 * i)).asyncWrite p y (xswapLoc p y.f.toNat + 8 * i)) s
      (s.updCore p fun z => z.updCmd y.ticket fun d => { d with matched := true }).xswapDone c x
    | none => s

/-- XSWAP_NO_PAIR (R385): a well-formed command without a partner within 1 ms of its start. -/
def execXswapNoPair (c n : Nat) (s : State) : Res :=
  .next (match (s.core c).cmds[n]? with
    | some x =>
      if x.eng = 3 ∧ x.cmd = 0 ∧ x.started ∧ !x.matched ∧ x.startedAt + 1000000 ≤ s.time ∧
          !xswapBad (isSvc c) x.f.toNat ∧ (s.xswapPeer c x).isNone then
        s.endCmd c x { code := 0xD, cause := 0xAA } false
      else s
    | none => s)

/-- A page move completes: its copy and switch first, and its status once the invalidation wave has returned (R176). -/
def State.completeMove (s : State) (c : Nat) (x : Cmd) : State :=
  if x.matched then (if x.wave then s.endCmd c x (x.early.getD {}) false else s)
  else match runEng s (if x.cmd = 1 then runPromote ⟨c, x⟩ else runRequant ⟨c, x⟩) (some ⟨c, x⟩) with
    | (.ok (some new), w) =>
      let at_ := fun (m : Move) => if m.core = c ∧ m.ticket = x.ticket then { m with new := new } else m
      let s : State := { w.s with vaults := w.s.vaults.map fun (n, v) => (n, { v with moving := v.moving.map at_ }) }
      s.updCore c fun y => y.updCmd x.ticket fun d => { d with matched := true, early := some w.out }
    | (.ok none, w) => w.s.endCmd c x { w.out with code := 0xC } false
    | (.error .wait, _) => s
    | (.error e, w) => w.s.endCmd c x (stopEnd w.out e) false

/-- INVALIDATION_WAVE_RETURN (R175, R176). -/
def execInvalidationWaveReturn (c n : Nat) (s : State) : Res :=
  .next (match (s.core c).cmds[n]? with
    | some x =>
      if x.eng = 3 ∧ x.cmd ≠ 0 ∧ x.matched then s.updCore c fun y => y.updCmd x.ticket fun d => { d with wave := true }
      else s
    | none => s)

/-- A command in an open multicast group waits for the group's read. -/
def State.inGroup (s : State) (c : Nat) (x : Cmd) : Bool :=
  !isSvc c && (s.square (squareOf c)).mcast.any fun g => g.1.any fun m => m.1 == c && m.2 == x.ticket

/-- ENGINE_COMMAND_COMPLETE (R365): a started command of core c performs its work and ends. -/
def execEngineCommandComplete (c n : Nat) (s : State) : Res :=
  .next (match (s.core c).cmds[n]? with
    | none => s
    | some x =>
      if !x.started ∨ s.inGroup c x then s
      else if x.eng = 3 ∧ x.cmd = 0 then s.completeXswap c x
      else match x.early with
        | some e =>
          if x.eng = 3 ∧ x.matched then s.completeMove c x
          else if x.again.isEmpty then s.endCmd c x e false else s.againAndEnd c x e
        | none => if x.eng = 3 then s.completeMove c x else s.performCmd c x)

/-- A kill wave drops the commands of a launch that have not started (R367). (DEDUCED, unsafe: log 47) -/
def State.dropCmds (s : State) (lid : Nat) : State :=
  s.cores.foldl (fun s e => ((e.2.cmds.filter fun x => x.lid == lid && !x.begun).foldl
    (fun s x => s.endCmd e.1 x { code := 0xF } true) s)) s

end Sys2Proof.Machine
end

