-- ==== Sys2Proof/Machine/Remote.lean ====
section
/-!
DEFINITION. The remote family (R325-R329), remote operations at their agents (R41, R183, R184), ordered additions (R328)
and the drain of the store buffer and of the messages behind it (R181, R186, R188, R192, R198, R202).
-/

namespace Sys2Proof.Machine

/-! ## Acting at a word of a frame -/

/-- Whether word i of execution n of the frame in slot k of core c still waits for its answer. -/
def State.awaitsAt (s : State) (c k n i : Nat) : Bool :=
  (s.slot c k).fseq == n && ((s.slot c k).frame.asked.find? i).isSome

/-- An answer fires the instruction that waits for it. -/
def State.answerAt (s : State) (c k n i : Nat) (t : Tok) : State :=
  if !s.awaitsAt c k n i then s
  else s.atWordOf c k i fun s =>
    let s := s.updF fun f => { f with asked := f.asked.del i }
    match s.cur.frame.instrAt i with
    | some x =>
      let l := x.shape.lsid.getD 0
      if x.shape.cls == .perform then ((s.forward t).fireWith x t 0).resolve l .done
      else if x.shape.cls == .load then s.loadDone x l true t (((s.cur.frame.loads.find? l).map (·.reads)).getD [])
      else s.fireOut x t
    | none => s

/-- Whether the frame that issued an operation still waits for its answer. -/
def State.awaits (s : State) (op : RemOp) : Bool := s.awaitsAt op.core op.slot op.fseq op.idx

/-- The answer of an operation fires the instruction that issued it. -/
def State.answer (s : State) (op : RemOp) (t : Tok) : State := s.answerAt op.core op.slot op.fseq op.idx t

/-- The fault of an operation's instruction. -/
def remFault (op : RemOp) (cause : Nat) : FaultD := { cause := cause, index := op.idx, lsid := op.lsid, addr := op.ea }

/-- The refusal of an operation (R267, R273): poison for a load, a fault of the locked block for another. -/
def State.refuse (s : State) (op : RemOp) (cause : Nat) : State :=
  if !s.awaits op then s
  else if op.kind = .rld then s.answer op (.poison (remFault op cause) (cause == 0x60))
  else s.raiseOut op.core op.slot (remFault op cause)

/-- A kind that a TCM or square-memory bank records: an atomic or full/empty operation (Table 10.16). (DEDUCED, unsafe: log 38) -/
def bankKind : RemKind → Bool
  | .ramo _ | .rcas | .rvamo _ _ | .rstf | .roadd _ => true
  | .rld | .rst | .rpost => false

/-- A remote operation that a mould records by its identity (Table 10.16). -/
def recordedOp (op : RemOp) : Bool :=
  match op.place with
  | .mem loc => (vaultOf loc).isSome || bankKind op.kind
  | _ => false

/-- The thread in a slot has issued a remote operation (R228). -/
def State.countRem (s : State) (c k : Nat) (op : RemOp) : State := if recordedOp op then s.countOp c k else s

/-- Sends the operation of the instruction at the cursor, which then waits for its answer. -/
def State.issue (s : State) (op : RemOp) : State :=
  let op := { op with ident := s.nextIdent s.cc s.ck, stamp := s.serial }
  ((s.countRem s.cc s.ck op).send (.remote op)).nextSerial.updF fun f => { f with asked := f.asked.put s.ci op.ident }

/-! ## RLD (R326) -/

/-- What pending stores give a remote load of a word, or none where it reads the word itself (R181, R269). (DEDUCED, unsafe: log 41) -/
def State.pendingLoad (s : State) (a : Who) (l : Nat) (ls : List Nat) : Option Loaded :=
  if (s.addressedBelow a l).any ls.contains then some .wait
  else match (s.cur.frame.storesBelow l).reverse.find? fun e => ls.any e.touchAll.contains with
    | some e =>
      let cs := e.op.cellsOn s.mem
      if ls.all fun x => cs.any fun c => c.1 == x && c.2.2 then
        some (.ok (leNat (ls.map fun x => ((cs.find? (·.1 == x)).map (·.2.1)).getD 0)))
      else some .wait
    | none => match seenIn true false ls (s.ownEntries s.cc s.ck) with
      | .hold => some .wait
      | .take bs => some (.ok (leNat bs))
      | .memory => none

/-- An own RST or RSTF to a place that has left the store buffer and is not yet acknowledged. -/
def State.onItsWay (s : State) (p : Place) : Bool :=
  s.unack.any fun u => u.place == p && u.tid == s.cur.tid && !u.posted

/-- RLD (R325, R326): it takes the data of its thread's own pending store, or goes to the agent of its place. -/
def remoteLoad (l : Nat) (s : State) (a : Who) (t _r : Tok) : LoadOut × State :=
  match remAccess s a t.w 8 8 .rload true with
  | (.error d, s) => (.tok (s.poisonOf d false l) [], s)
  | (.ok (ea, place), s) =>
    let ls := locRange (placeLoc place) 8
    if (s.cur.frame.asked.find? s.ci).isSome then (.wait, s)
    else match s.pendingLoad a l ls with
      | some (.ok v) => (.tok (.val (word v)) ls, s.watch ea 8 l true false)
      | some _ => (.wait, s)
      | none =>
        if s.onItsWay place then (.wait, s)
        else
          let s := (s.watch ea 8 l true false).updF fun f => { f with loads := f.loads.put l { remote := true, reads := ls } }
          (.wait, s.issue (s.remOf .rld l place ea))

/-- RLD (R326). -/
def execRld (p : Pr) (l t : Nat) (s : State) : Res := .next (loadOp (.rld p l t) l (remoteLoad l) s)

/-! ## Remote stores (R326) -/

/-- RST (R326). -/
def execRst (p : Pr) (l : Nat) (s : State) : Res :=
  .next (storeOp (.rst p l) l (fun s a x y _ => buildRst false .die l s a x y) s)

/-- RSTF (R326). -/
def execRstf (p : Pr) (l : Nat) (c : Scope) (s : State) : Res :=
  .next (storeOp (.rstf p l c) l (fun s a x y _ => buildRst true c l s a x y) s)

/-- RPOST (R326). -/
def execRpost (p : Pr) (l : Nat) (s : State) : Res :=
  .next (storeOp (.rpost p l) l (fun s a x y _ => buildRpost l s a x y) s)

/-! ## Performing remote operations (R327-R329) -/

/-- The check of a performing remote operation's address. -/
def remCheck (n : Nat) (s : State) (a : Who) (t _ : Tok) : Except FaultD (Option (Nat × Nat)) × State :=
  match remAccess s a t.w n n .ratomic false with
  | (.error d, s) => (.error d, s)
  | (.ok (ea, _), s) => (.ok (some (ea, n)), s)

/-- Sends a performing operation at the lock, once; its answer fires it. -/
def remSend (n : Nat) (l : Nat) (f : RemOp → RemOp) (kind : RemKind) (s : State) (a : Who) (t : Tok) : Perf × State :=
  if (s.cur.frame.asked.find? s.ci).isSome then (.wait, s)
  else match remAccess s a t.w n n .ratomic false with
    | (.error d, s) => (.refuse d false, s)
    | (.ok (ea, place), s) => (.wait, s.issue (f (s.remOf kind l place ea)))

/-- RAMO (R327). -/
def execRamo (p : Pr) (l : Nat) (x : AmoOp) (t : Nat) (s : State) : Res :=
  .next (performOp (.ramo p l x t) l true Tok.isNull (remCheck 8)
    (fun s a u y _ => remSend 8 l (fun o => { o with a := y.w }) (.ramo x) s a u) s)

/-- RCAS (R327). -/
def execRcas (l t : Nat) (s : State) : Res :=
  .next (performOp (.rcas l t) l true Tok.isNull (remCheck 8)
    (fun s a u y z => remSend 8 l (fun o => { o with a := y.w, b := z.w }) .rcas s a u) s)

/-- The bytes of a ROADD operand. -/
def roBytes : RoTy → Nat
  | .f32 => 4
  | .i64 | .f64 => 8

/-- The slice index of a contribution (R328): G0 at the frame's entry into EXEC under DET, else 0. -/
def State.roSlice (s : State) : Nat :=
  let lid := tswLid s.cur.ctx.tsw
  if lid ≠ 0 ∧ (s.entry lid).lrec.det then (s.cur.ctx.reg 0).toNat else 0

/-- ROADD (R328). -/
def execRoadd (p : Pr) (l : Nat) (y : RoTy) (s : State) : Res :=
  .next (performOp (.roadd p l y) l true Tok.isNull (remCheck (roBytes y))
    (fun s a u r _ => remSend (roBytes y) l (fun o => { o with a := r.w, slice := s.roSlice }) (.roadd y) s a u) s)

/-- RVAMO (R329). -/
def execRvamo (p : Pr) (l : Nat) (o : AmoOp) (w : Width) (t : Nat) (s : State) : Res :=
  .next (performOp (.rvamo p l o w t) l true (lineNull w) (remCheck 64)
    (fun s a u y _ => remSend 64 l (fun q => { q with v := y.v, nulls := y.nulls }) (.rvamo o w) s a u) s)

/-! ## Ordered additions at their agent (R328) -/

/-- The key of a word's contributions, kept for each launch. -/
def roKey (op : RemOp) (loc : Nat) : Nat := op.lid * 2 ^ 40 + loc / 8

/-- F: the lowest slice of a launch not yet ended; 2^64 for a launch that is over, and for no launch. -/
def State.roLow (s : State) (lid : Nat) : Nat :=
  if lid = 0 ∨ !s.lidLive lid then 2 ^ 64 else ((s.entry lid).lowest).getD (2 ^ 64)

/-- Writes the sum of a contribution. -/
def State.roWrite (s : State) (ty : RoTy) (loc : Nat) (r : Word) : State :=
  let v := match ty with
    | .i64 => (s.rdMem loc 8 + r.toNat) % 2 ^ 64
    | .f64 => (fp64.add .rne (s.rdMem loc 8) r.toNat).1
    | .f32 => (fp32.add .rne (s.rdMem loc 4) (wbits r 31 0)).1
  (s.putBytes loc (roBytes ty) v).touchRow loc

/-- Apply(c), recorded, or none until its turn in a replay (R228, R231): a contribution that finds its word poisoned in its
turn is lost, and the word stays poisoned. -/
def State.roApply (s : State) (key : Nat) (op : RemOp) : Option State :=
  match op.place, op.kind with
  | .mem loc, .roadd ty =>
    if s.mem.isPois loc then some (s.touchRow loc)
    else
      let t := s.roWrite ty loc op.a
      ({ t with ro := Tab.upd {} t.ro key fun w => { w with maxApplied := max w.maxApplied op.slice } }).tallyAgent op.lid loc
        op.ident
  | _, _ => some s

/-- The held contribution that is applied next among those up to F: the lowest slice, the earliest of it. -/
def roNext (low : Nat) : List RemOp → Option RemOp
  | [] => none
  | c :: cs => match roNext low cs with
    | some d => if c.slice ≤ d.slice then some c else some d
    | none => if c.slice ≤ low then some c else none

/-- Applies every held contribution of a word up to F; fuel bounds the held ones. -/
def State.roDrain : Nat → Nat → Nat → State → State
  | 0, _, _, s => s
  | n + 1, key, low, s =>
    match roNext low (Tab.rd {} s.ro key).held with
    | some c =>
      match { s with ro := Tab.upd {} s.ro key fun w => { w with held := w.held.erase c } }.roApply key c with
      | some s => State.roDrain n key low s
      | none => s
    | none => s

/-- Applies what is due at a word. -/
def State.roDue (s : State) (key lid : Nat) : State := s.roDrain (Config.heldEntries + 1) key (s.roLow lid)

/-- ROADD_APPLY (R328): F has advanced. loc is the key of the word: its number and its launch id above 2^40. -/
def execRoaddApply (key : Nat) (s : State) : Res := .next (s.roDue key (key / 2 ^ 40))

/-! ## At the agent (R41, R325-R329) -/

/-- What an operation obtains at its place. -/
inductive RemOut
  | wait
  | bad (cause : Nat)
  | done (t : Tok)
  deriving DecidableEq, Repr

/-- The contributions to the word at a location that its agent holds, of every launch. -/
def State.roHeld (s : State) (loc : Nat) : Nat :=
  (s.ro.map fun e => if e.1 % 2 ^ 40 = loc / 8 then e.2.held.length else 0).sum

/-- Acceptance of a contribution (R184, R328). (DEDUCED, unsafe: log 39) -/
def State.roAccept (s : State) (op : RemOp) (loc : Nat) : RemOut × State :=
  let key := roKey op loc
  let s := s.roDue key op.lid
  let w := Tab.rd {} s.ro key
  if s.mem.isPois loc then (.bad 0x61, s.touchRow loc)
  else if op.slice < w.maxApplied then (.bad 0x76, s)
  else
    let hold := fun (_ : Unit) =>
      if Config.heldEntries ≤ s.roHeld loc then (RemOut.bad 0x77, s)
      else (.done (.val 0), { s with ro := Tab.upd {} s.ro key fun w => { w with held := w.held ++ [op] } })
    if op.slice ≤ s.roLow op.lid then
      match s.roApply key op with
      | some s' => (.done (.val 0), s')
      | none => hold ()
    else hold ()

/-- An operation on an atomic's terms: the old value, or the refusal of a poisoned word. -/
def amoOut (s : State) (r : Option (Word × Nat × State)) (op : RemOp) : RemOut × State :=
  match r, op.place with
  | none, .mem loc => (.bad 0x61, s.touchRow loc)
  | none, _ => (.bad 0x61, s)
  | some (o, _, s'), .mem loc => (.done (.val o), s'.noteRead none op.tid loc)
  | some (o, _, s'), _ => (.done (.val o), s')

/-- An operation performed at a byte of the package (R326-R329, Table 8.11). -/
def State.remAt (s : State) (op : RemOp) (loc : Nat) : RemOut × State :=
  if s.layerOff loc then (.bad 0x51, s)
  else if s.layerBusy loc then (.wait, s)
  else match op.kind with
    | .rld =>
      let s := s.touchRow loc
      if s.mem.isPois loc then (.bad 0x60, s) else (.done (.val (s.rdWord loc)), s.noteRead none op.tid loc)
    | .rst | .rpost => (.done (.val 0), (((s.wrWord loc op.a).dropReadBufs [loc]).storeWords op.tid [loc]).touchRow loc)
    | .rstf => (.done (.val 0), (((s.dropReadBufs [loc]).storeFull loc op.a).carriedTo op.ident loc).touchRow loc)
    | .ramo x => amoOut s (s.amoAt x loc op.a 0) op
    | .rcas => amoOut s (s.amoAt .cas loc op.a op.b) op
    | .roadd _ => s.roAccept op loc
    | .rvamo x w => match s.lineAt x w loc (.vec op.v op.nulls) with
      | none => (.bad 0x61, s.touchRow loc)
      | some (t, s') => (.done t, s')

/-- An ordered addition: its application is what a mould records. -/
def isRoadd : RemKind → Bool
  | .roadd _ => true
  | _ => false

/-- An operation at its place, recorded, or held until its turn in a replay (R228, R231). -/
def State.remPlace (s : State) (op : RemOp) : RemOut × State :=
  match op.place with
  | .peer _ _ _ => (.bad 0x85, s)
  | .debug c o =>
    if s.isIdle c then (.wait, s.askExit c)
    else match op.kind with
      | .rst => (.done (.val 0), s.debugWrite c o op.a)
      | .rld => (.done (.val (s.debugRead c o)), s)
      | _ => (.bad 0x86, s)
  | .mem loc =>
    match s.remAt op loc with
    | (.done t, s') =>
      if recordedOp op && !isRoadd op.kind then
        match s'.tallyAgent op.lid loc op.ident with
        | some s' => (.done t, s')
        | none => (.wait, s)
      else (.done t, s')
    | r => r

/-- The first write that satisfies f leaves the list. -/
def dropUnack (f : Unack → Bool) : List Unack → List Unack
  | [] => []
  | u :: us => if f u then us else u :: dropUnack f us

/-- An acknowledged write of a thread (R179). -/
def State.ackWrite (s : State) (op : RemOp) : State :=
  { s with unack := dropUnack (fun u => u.tid == op.tid && u.place == op.place && u.posted == (op.kind == .rpost)) s.unack }

/-- The head of a core's store buffer has been acknowledged. -/
def State.popSent (s : State) (c : Nat) : State :=
  s.updCore c fun x => { x with sb := match x.sb with
    | e :: es => if e.sent then es else e :: es
    | [] => [] }

/-- Whether a place lies on the die of a core: its entry then stays at the head until acknowledged (R181). -/
def onDie (c : Nat) : Place → Bool
  | .mem loc => dieOfLoc loc == dieOf c
  | .debug d _ => dieOf d == dieOf c
  | .peer _ _ _ => false

/-- The issuer of an operation learns its outcome; a remote store's failure is a record of SRC 2 (R326), but that of a
posted write with its port only acknowledges it (R35). (DEDUCED, unsafe: log 40) -/
def State.conclude (s : State) (op : RemOp) (r : RemOut) : State :=
  match op.kind with
  | .rst | .rstf | .rpost =>
    let s := if op.kind != .rpost && onDie op.core op.place then s.popSent op.core else s.ackWrite op
    (match r with
      | .bad cause =>
        if op.kind = .rpost ∧ cause = 0x84 then s else s.recordFor op.core op.slot op.pc.toNat op.lid (remFault op cause)
      | _ => s)
  | .rld | .ramo _ | .rcas | .roadd _ | .rvamo _ _ =>
    match r with
    | .done t => s.answer op t
    | .bad cause => s.refuse op cause
    | .wait => s

/-- A request of a port that waits for its response under a tag. -/
def State.outstand (s : State) (p : Nat) (x : Outstanding) : State :=
  s.updPort p fun t => { t with pending := t.pending ++ [x] }

/-- The operation code of an atomic (Table 2.3). -/
def amoCode : AmoOp → Nat
  | .add => 8 | .and => 9 | .or => 0xA | .xor => 0xB | .swap => 0xC | .cas => 0xD
  | .min => 0xE | .max => 0xF | .minn => 0x10 | .maxn => 0x11 | .fadd => 0x12

/-- Kind, operation and width of a remote operation as its RMT carries them (log 63). (DESIGN CHOICE, unsafe: log 63) -/
def remCode : RemKind → Nat × Nat × Nat
  | .rld => (1, 0, 3) | .rst => (2, 0, 3) | .rstf => (3, 0, 3) | .rpost => (4, 0, 3)
  | .ramo x => (5, amoCode x, 3) | .rcas => (6, 0xD, 3)
  | .roadd .i64 => (7, 0, 3) | .roadd .f64 => (7, 1, 3) | .roadd .f32 => (7, 2, 2)
  | .rvamo x w => (8, amoCode x, match w with | .w8 => 0 | .w16 => 1 | .w32 => 2 | .w64 => 3)

/-- The data of an RMT: a word that names the operation and its issuer, its operand, and what else its kind has. (DESIGN CHOICE, unsafe: log 63) -/
def rmtData (op : RemOp) : List Byte :=
  let k := remCode op.kind
  leBytes 8 (k.1 * 2 ^ 60 + k.2.1 * 2 ^ 48 + k.2.2 * 2 ^ 40 + op.core % 2 ^ 13 * 2 ^ 16 + op.slot % 4) ++
    (match op.kind with
      | .rvamo _ _ => leBytes 8 op.nulls.toNat ++ leBytes 64 op.v.toNat
      | .rcas => leBytes 8 op.a.toNat ++ leBytes 8 op.b.toNat
      | .roadd _ => leBytes 8 op.a.toNat ++ leBytes 8 op.slice
      | _ => leBytes 8 op.a.toNat)

/-- The RMT of a remote operation under a tag (R32, R41). -/
def rmtTxn (op : RemOp) (tag : Nat) : Txn :=
  let x : Txn :=
    { op := 0x20, len := (rmtData op).length, tag := tag, data := rmtData op
      addr := match op.place with
        | .peer _ c o => c * 2 ^ 28 + o
        | _ => 0 }
  { x with flits := txnFlits x }

/-- An operation that a PACK acknowledges: a posted write to a peer module. -/
def isPosted (op : RemOp) (pkg : Nat) : Bool := op.kind == .rpost && pkg != 255

/-- An operation to a peer or to the adapter leaves by its port, or ends with STATUS 5 while the port is down (R29,
R40); in a replay its response comes from the mould (R231). (DESIGN CHOICE, unsafe: log 63) -/
def State.toPeer (s : State) (op : RemOp) (pkg : Nat) : State :=
  match s.route pkg with
  | none => s.conclude op (.bad 0x84)
  | some p =>
    if !(s.port p).up && !s.peerHeld op.lid then s.conclude op (.bad 0x84)
    else
      let tag := lowestFree ((s.port p).pending.map (·.tag))
      let s := s.outstand p { tag := tag, op := some op, sentAt := s.time, posted := isPosted op pkg }
      if s.peerHeld op.lid then s else s.linkSend p (rmtTxn op tag)

/-! ## Acknowledgement of posted writes (R42) -/

/-- A response on a port's link. -/
def State.reply (s : State) (p op tag status : Nat) (data : List Byte) : State :=
  let x : Txn := { op := op, len := max 1 data.length, status := status, tag := tag, data := data }
  s.linkSend p { x with flits := txnFlits x }

/-- The acknowledgement of a source's gathered writes goes out, and the agent forgets them: a PACK on the link, or the
count on the mesh for a core of the package. (DESIGN CHOICE, unsafe: log 70) -/
def State.sendPack (s : State) (g : Gather) : State :=
  let s : State := { s with gathers := s.gathers.filter (· != g) }
  if g.src / 8192 = 8 then g.ops.foldl (fun s op => s.conclude op (.done (.val 0))) s
  else s.reply (g.src / 8192) 0x84 0 0 (leBytes 8 (g.ops.length % 2 ^ 12 * 2 ^ 16 + g.src % 2 ^ 12))

/-- An agent gathers a posted write of a source core (R42). -/
def State.gatherPost (s : State) (agent src : Nat) (op : RemOp) : State :=
  match s.gathers.find? fun g => g.agent == agent && g.src == src with
  | some g =>
    let g' := { g with ops := g.ops ++ [op] }
    let s : State := { s with gathers := s.gathers.map fun x => if x = g then g' else x }
    if 64 ≤ g'.ops.length then s.sendPack g' else s
  | none => { s with gathers := s.gathers ++ [⟨agent, src, [op], s.time⟩] }

/-- PACK_GATHER_TIMEOUT (R42): 64 mesh cycles of 0.5 ns after the first gathered write. -/
def execPackGatherTimeout (agent src : Nat) (s : State) : Res :=
  .next (match s.gathers.find? fun g => g.agent == agent && g.src == src with
    | some g => if g.since + 32 ≤ s.time then s.sendPack g else s
    | none => s)

/-- A performed operation of the package concludes at its issuer; a posted write is gathered first (R42). -/
def State.opPerformed (s : State) (op : RemOp) (r : RemOut) : State :=
  match op.kind, op.place, r with
  | .rpost, .mem loc, .done _ => s.gatherPost (ownerOf loc) (8 * 8192 + op.core % 8192) op
  | _, _, _ => s.conclude op r

/-- REMOTE_OPERATION (R41, R325): packet n reaches its agent or its port and is performed or sent on; the adapter is
package 255 behind a host-role port (R40). -/
def execRemoteOperation (n : Nat) (s : State) : Res :=
  .next (match s.packet? n with
    | some (.remote op) =>
      let s0 := s.dropPacket n
      match op.place with
      | .peer p _ _ => s0.toPeer op p
      | _ => match s0.remPlace op with
        | (.wait, _) => match op.place with
          | .debug c _ => s.askExit c
          | _ => s
        | (r, s1) => s1.opPerformed op r
    | _ => s)

/-! ## The store buffer (R181) -/

/-- Writes bytes word by word: a whole word replaces its word and clears poison; a part of a poisoned word is not
written, and the result lists those words (R152). -/
def State.writeCells (s : State) (cs : Cells) : List Nat × State :=
  (byWord (cs.map (·.1))).foldl (fun (r : List Nat × State) ls =>
    let s := r.2
    let l := wordLoc (ls.headD 0)
    let whole := (List.range 8).all fun i => cs.any fun c => c.1 == l + i && c.2.2
    if s.mem.isPois l && !whole then (r.1 ++ [l], s)
    else
      let m := ls.foldl (fun (m : Memory) x => m.setByte x (((cs.find? (·.1 == x)).map (·.2.1)).getD 0)) s.mem
      (r.1, { s with mem := if whole then m.setPois l false else m })) ([], s)

/-- A record of SRC 2 for the thread of an entry. (DEDUCED, unsafe: log 40) -/
def State.entryRecord (s : State) (c : Nat) (e : SbEntry) (cause : Nat) : State :=
  s.recordFor c e.slot e.pc.toNat e.lid { cause := cause, index := e.index, lsid := e.lsid, addr := e.ea }

/-- ROWOPEN and ROWCLOSE (R158, R316). -/
def State.rowControl (s : State) (opens : Bool) (loc : Nat) : State :=
  match vaultOf loc with
  | none => s
  | some (c, _) =>
    if opens then s.touchRow loc
    else s.updVault c fun v =>
      { v with openRows := match v.openRows.find? (vbankOf loc) with
          | some (r, _) => if r = rowOf loc then v.openRows.del (vbankOf loc) else v.openRows
          | none => v.openRows }

/-- A synchronising store of one word is performed, recorded or held until its turn in a replay. -/
def State.wordStore (s : State) (e : SbEntry) (loc : Nat) (f : State → State) : Option State :=
  (f s).tallyBank e.lid loc e.ident

/-- The scope whose writes a release, fence or synchronising store waits for. -/
def SbEntry.scope (e : SbEntry) : Option Scope :=
  match e.op with
  | .fence 2 _ => none
  | .fence _ x => some x
  | .notify _ _ x => some x
  | .remote _ x => if e.rel then some x else none
  | _ => if e.rel then some .die else none

/-- What a store that writes words leaves for those who acquire them: a release its thread's writes, another store what
the thread has fenced (R186-R188). -/
def State.publish (s : State) (c : Nat) (e : SbEntry) (locs : List Nat) : State :=
  match e.scope with
  | some x => locs.foldl (fun s l => s.releaseWord c e.tid x false l) s
  | none => s.storeWords e.tid locs

/-- The address with which an entry writes the word at a location: the word's own in a vector store, its first element's
through a view (R354). -/
def SbEntry.wordEa (e : SbEntry) (loc : Nat) : Nat :=
  match e.op with
  | .data (.raw _ _ :: _) => if e.width = 64 then e.ea / 64 * 64 + loc % 64 else e.ea
  | .data ps => (ps.findSome? fun p => match p with
      | .elem v sq off _ => if (viewTouch v sq off).any (fun x => wordLoc x == loc) then some (e.ea / 2 ^ 20 * 2 ^ 20 + off) else none
      | .raw _ _ => none).getD e.ea
  | _ => e.ea

/-- A store of data is written at its home (R152, R354): a part of a poisoned word, and what lies on a layer that has lost
its power, gives a record of SRC 2. -/
def State.writeData (s : State) (c : Nat) (e : SbEntry) : State :=
  let all := e.op.cellsOn s.mem
  let cs := all.filter fun x => !s.layerOff x.1
  let ls := ((cs.map fun x => wordLoc x.1)).eraseDups
  let (bad, t) := s.writeCells cs
  let t := (ls.foldl State.touchRow (t.dropReadBufs ls)).publish c e ls
  let t := bad.foldl (fun t l => t.entryRecord c { e with ea := e.wordEa l } 0x64) t
  if cs.length = all.length then t else t.entryRecord c e 0x50

/-- An entry that is written at its home: what it does; none while it is held. A layer that has lost its power since the
commit takes no effect and gives a record of SRC 2 (R162). -/
def State.perform (s : State) (c : Nat) (e : SbEntry) : Option State :=
  let off := s.entryRecord c e 0x50
  match e.op with
  | .data _ => some (e.narrow.foldl (fun s x => s.writeData c x) s)
  | .stf loc v =>
    if s.layerOff loc then some off
    else s.wordStore e loc fun s => ((((s.dropReadBufs [loc]).storeFull loc v).publish c e [loc]).touchRow loc)
  | .feempty loc =>
    if s.layerOff loc then some off
    else if s.mem.isPois loc then some ((s.touchRow loc).entryRecord c e 0x61)
    else s.wordStore e loc fun s => ((s.setFull loc false).wakeWord loc [2]).touchRow loc
  | .notify loc v _ =>
    if s.layerOff loc then some off
    else some (((((s.wrWord loc v).dropReadBufs [loc]).publish c e [loc]).wakeWord loc [3]).touchRow loc)
  | .binit loc a b =>
    if s.layerOff loc then some off
    else
      let (_, s) := s.writeCells ((leBytes 32 (binitImage a b)).zipIdx.map fun (x, i) => (loc + i, x, true))
      let ls := [loc, loc + 8, loc + 16, loc + 24]
      some (((((s.dropReadBufs ls).publish c e ls).newObj loc).wakeObject loc).touchRow loc)
  | .semset sem n => some ((s.setSem c sem n).wakeSem c sem)
  | .row opens loc => some (if s.layerOff loc then s.entryRecord c e 0x52 else s.rowControl opens loc)
  | .fence kind x => some (if kind = 0 then s.fenceAt c e.tid x else if kind = 1 then s.fenceXp e.tid else s)
  | .remote _ _ => some s

/-- A command of the entry's thread that was released before it and has not ended (R192). -/
def State.cmdsBefore (s : State) (e : SbEntry) : Bool :=
  s.cores.any fun y => y.2.cmds.any fun x => x.tid == e.tid && decide (x.stamp < e.stamp)

/-- Whether a scoreboard entry stalls a store of core c (R173 item 3). A store that was committed before the command, while
the command still waits for stores of its own thread that were committed before it too, goes first (R191). (DEDUCED, unsafe: log 47) -/
def State.boardStalls (s : State) (c : Nat) (e : SbEntry) (r : Ranges) : Bool :=
  r.hits e.reach &&
    (decide (r.stamp < e.stamp) ||
      !(s.core c).cmds.any fun x => x.ticket == r.ticket && (s.core c).sb.any fun y => y.tid == x.tid && decide (y.stamp < x.stamp))

/-- A store that the thread committed earlier and that waits, here or in the buffer of a core that CTXSWAP has taken the
thread from (R199). -/
def State.storedBefore (s : State) (tid stamp : Nat) : Bool :=
  s.cores.any fun y => y.2.sb.any fun e => e.tid == tid && decide (e.stamp < stamp)

/-- Whether the entry at the head may be written or sent: its thread's earlier stores, its release, its scoreboard ranges,
its layers, its commands. -/
def State.mayDrain (s : State) (c : Nat) (e : SbEntry) : Bool :=
  !e.sent && !s.storedBefore e.tid e.stamp &&
    (match e.scope with
      | some x => s.ackedBefore c e.tid e.stamp x
      | none => true) &&
    (match e.op with
      | .fence 1 _ => !s.cmdsBefore e
      | .row _ loc => !s.layerBusy loc
      | .fence _ _ | .remote _ _ | .semset _ _ => true
      | _ => !(e.reach.any s.layerBusy) && !(s.core c).board.any (s.boardStalls c e))

/-- A remote write of core c that has been sent waits for its acknowledgement. -/
def State.await (s : State) (c : Nat) (e : SbEntry) : State :=
  match e.op with
  | .remote op _ =>
    { s with unack := s.unack ++ [⟨c, e.lid, e.tid, op.place, op.kind == .rpost, e.stamp⟩] }
  | _ => s

/-- An earlier fence or release of its thread, at a scope that contains its place, holds a posted write; so does an earlier
posted write to its word that waits (R183). (DEDUCED, unsafe: log 41) -/
def State.holdsPost (s : State) (op : RemOp) : Bool :=
  s.cores.any fun y =>
    (y.2.sb.any fun e => e.tid == op.tid && decide (e.stamp < op.stamp) && (match e.scope with
      | some x => scopeHas y.1 x op.place
      | none => false)) ||
      y.2.posts.any fun q => q.tid == op.tid && q.place == op.place && decide (q.stamp < op.stamp)

/-- A committed posted write is sent, or waits at its core (R183). -/
def State.post (s : State) (c : Nat) (e : SbEntry) : State :=
  match e.op with
  | .remote op _ =>
    let op := { op with stamp := e.stamp }
    let s := s.await c e
    if s.holdsPost op then s.updCore c fun x => { x with posts := x.posts ++ [op] } else s.send (.remote op)
  | _ => s

/-- The head entry drains (R181): a remote one is sent, and stays at the head until acknowledged on its die. -/
def State.drainHead (s : State) (c : Nat) : Option State :=
  match (s.core c).sb with
  | [] => none
  | e :: es =>
    if !s.mayDrain c e then none
    else
      let pop := fun (s : State) => s.updCore c fun x => { x with sb := es }
      match e.op with
      | .remote op x =>
        let s := (if e.rel then s.carry c e.tid x op.ident else s).send (.remote op)
        some (if onDie c op.place then s.updCore c fun x => { x with sb := { e with sent := true } :: es }
          else (pop s).await c e)
      | _ => (s.perform c e).map pop

/-- The smallest scope that contains a message's destination core (Table 9.3). -/
def msgScope (s : State) (c : Nat) (m : Msg) : Scope :=
  if m.dpkg ≠ s.pkg then .sys
  else if m.dcore = c then .core
  else if !isSvc c && !isSvc m.dcore && squareOf c == squareOf m.dcore then .square
  else if dieOf c = dieOf m.dcore then .die
  else .pkg

/-- Whether a message's release has completed (R198). -/
def State.maySend (s : State) (c : Nat) (o : Outgoing) : Bool :=
  !s.storedBefore o.tid o.stamp &&
    s.ackedBefore c o.tid o.stamp (msgScope s c o.msg)

/-- The first message of a core that may be sent. -/
def State.readyMsg (s : State) (c : Nat) : Option Outgoing := (s.core c).outbox.find? (s.maySend c)

/-- A MSG transaction's 64 bytes (Table 7.7). -/
def msgBytes (m : Msg) : List Byte :=
  ([word (m.kind % 2 ^ 4 * 2 ^ 60 + m.p.toNat * 2 ^ 59 + m.t.toNat * 2 ^ 58 + m.lid % 2 ^ 16 * 2 ^ 40 +
      m.dpkg % 2 ^ 8 * 2 ^ 32 + m.dcore % 2 ^ 13 * 2 ^ 16), m.origin, word (m.handler % 2 ^ 32), m.retw] ++
    (List.range 4).map fun i => m.pay.getD i 0).flatMap fun w => leBytes 8 w.toNat

/-- A message leaves its core: on the mesh, or by the port of its package; one whose port is down counts as received
for its launch (R43, R142). -/
def State.dispatchMsg (s : State) (c : Nat) (o : Outgoing) : State :=
  let s := (s.updCore c fun x => { x with outbox := x.outbox.erase o }).carry c o.tid (msgScope s c o.msg) o.msg.ident
  if o.msg.dpkg = s.pkg then s.send (.msg c o.msg o.handle)
  else
    let x : Txn := { op := 0x40, len := 64, rhnd := o.handle.getD 0, data := msgBytes o.msg, flits := 2 }
    match s.route o.msg.dpkg with
    | some p => if (s.port p).up then s.linkSend p x else s.countRecv c o.msg.lid
    | none => s.countRecv c o.msg.lid

/-- The first posted write of a core that nothing holds any more. -/
def State.readyPost (s : State) (c : Nat) : Option RemOp := (s.core c).posts.find? fun op => !s.holdsPost op

/-- STORE_BUFFER_DRAIN (R181): the head entry of a core's store buffer drains, or where it may not, a message whose
release has completed leaves, or a posted write that waited. -/
def execStoreBufferDrain (c : Nat) (s : State) : Res :=
  .next (match s.drainHead c with
    | some s => s
    | none => match s.readyMsg c, s.readyPost c with
      | some o, _ => s.dispatchMsg c o
      | none, some op => (s.updCore c fun x => { x with posts := x.posts.erase op }).send (.remote op)
      | none, none => s)

end Sys2Proof.Machine
end

