-- ==== Sys2Proof/Machine/Messages.lean ====
section
/-!
DEFINITION. Messages (R126-R133, R330, R331) and the fault rings (R206-R208).
-/

namespace Sys2Proof.Machine

/-! ## Building messages (R330) -/

/-- The payload of a right token: four words of a vector, a null lane zero, or one scalar. -/
def payloadOf : Tok → List Word
  | .vec v nulls => (List.range 4).map fun i =>
      word ((List.range 8).foldl (fun n b =>
        if nulls.toNat.testBit (8 * i + b) then n
        else n + bits v.toNat (64 * i + 8 * b + 7) (64 * i + 8 * b) * 256 ^ b) 0)
  | t => [t.w, 0, 0, 0]

/-- The message of the instruction at the cursor, from its tokens: KIND 1 SPAWN, 2 CALLAT, 3 SEND. A SEND does not set
T (R145). -/
def State.msgOf (s : State) (kind : Nat) (l r p : Tok) : Msg :=
  let tsw := s.cur.ctx.tsw
  { kind := kind, p := tswPriv tsw, t := tswTwin tsw && kind != 3, lid := tswLid tsw, dpkg := wbits l.w 15 8
    dcore := wbits l.w 28 16, origin := identityWord s s.cc s.ck, handler := wbits l.w 63 32
    retw := if kind = 2 then p.w else 0, pay := payloadOf r, ident := s.nextIdent s.cc s.ck }

/-- The fault of a message (R331), the first that applies; that of a CALLAT's return word (R330). -/
def State.msgFault (s : State) (m : Msg) : Option FaultD :=
  let ret := if m.kind = 2 then
      match address (s.who s.cc s.ck) (tokSeg m.retw) (tokOff m.retw) 8 8 .store with
      | .error d => some { d with cause := if d.cause = 0x25 then 0x87 else d.cause }
      | .ok _ => none
    else none
  if Config.lastCore < m.dcore then some { cause := 0x80 }
  else if isSvc m.dcore && !m.p then some { cause := 0x81 }
  else if isSvc m.dcore && m.t then some { cause := 0x82 }
  else if m.dpkg ≠ s.pkg ∧ (m.dpkg = 255 ∨ (s.route m.dpkg).isNone) then some { cause := 0x45 }
  else ret

/-- Words 0 and 1 of a message. -/
def rsvBytes (m : Msg) : List Byte := (msgBytes m).take 16

/-- Asks the destination for a reservation (R130): a core of the package, or a port's peer by RSV (R43); a port that is
down bounces. -/
def State.askResv (s : State) (m : Msg) : State :=
  let s' := (s.countOp s.cc s.ck).updF fun f => { f with asked := f.asked.put s.ci m.ident }
  if m.dpkg = s.pkg then s'.send (.resvReq s.cc s.ck s.cur.fseq s.ci m)
  else match s.route m.dpkg with
    | some p =>
      if (s.port p).up || s.peerHeld m.lid then
        let tag := lowestFree ((s.port p).pending.map (·.tag))
        let s' := s'.outstand p { tag := tag, msgFor := some (s.cc, s.ck, s.cur.fseq, s.ci), sentAt := s.time }
        if s.peerHeld m.lid then s' else s'.linkSend p { op := 0x21, len := 16, tag := tag, data := rsvBytes m }
      else s'.answered m none
    | none => s'.answered m none

/-- A class M instruction with LSID l (R130, R132, R331): a fault is held to the commit; SPAWN and CALLAT ask for their
reservation when they fire, a SEND waits for its commit. A null lane of a payload gives zero and does not null the message. -/
def messageOp (i : Instr) (l kind : Nat) (s : State) : State :=
  let leave := fun (s : State) (p : Pend) => s.updF fun f => { f with pend := f.pend.put l p }
  match gather i.shape s.cur.frame s.ci with
  | .wait => s
  | .mismatch => s.skipWord
  | .poison d m => leave (s.fireWith i (.poison d m) 0) .done
  | .null => leave (s.fireWith i .null 0) .nulled
  | .vals x y z =>
    if x.isNull || y == .null || z.isNull then leave (s.fireWith i .null 0) .nulled
    else if (s.cur.frame.asked.find? s.ci).isSome then s
    else
      let m := s.msgOf kind x y z
      match s.msgFault m with
      | some d =>
        leave ((s.updF fun f => f.addFault { d with index := s.ci, lsid := l }).fireWith i (.val (word 1)) 0) .done
      | none =>
        if s.isShadow then
          if kind = 3 then leave (s.fireWith i (.val 0) 0) .done
          else match s.forwarded with
            | some t => leave (s.fireWith i t 0) .done
            | none => s
        else if kind = 3 then leave (s.fireWith i (.val 0) 0) (.message m none false)
        else s.askResv m

/-- SPAWN (R330, R331). -/
def execSpawn (p : Pr) (l t : Nat) (s : State) : Res := .next (messageOp (.spawn p l t) l 1 s)

/-- CALLAT (R330, R331). -/
def execCallat (l t : Nat) (s : State) : Res := .next (messageOp (.callat l t) l 2 s)

/-- SEND (R330, R331). -/
def execSend (p : Pr) (l : Nat) (s : State) : Res := .next (messageOp (.send p l) l 3 s)

/-! ## Fault rings (R206-R208) -/

/-- A launch counts a record: FAULTS, the CAUSE of its first, and a forced end under ABORTONFAULT (R96, R97, R206). -/
def State.countFor (s : State) (r : BitVec 256) (lid : Nat) : State :=
  let s := s.updLaunch lid fun e =>
    { e with faults := min (2 ^ 32 - 1) (e.faults + 1), cause := if e.cause = 0 then recCause r else e.cause }
  if (s.entry lid).lrec.abortOnFault then s.forcedEnd lid 3 else s

/-- The launches that share the launch area of one that runs, itself among them (R60). (DEDUCED, unsafe: log 66) -/
def State.sharers (s : State) (lid : Nat) : List Nat :=
  let e := s.entry lid
  lid :: s.dies.flatMap fun d => d.2.table.filterMap fun y =>
    let l := lidOf d.1 y.1 y.2.gen
    if l ≠ lid ∧ s.lidLive l ∧ y.2.root = e.root ∧ y.2.lrec.larea = e.lrec.larea then some l else none

/-- A record is counted for its launch, and for one that shares its launch area and so its reserve (R60, R206). -/
def State.countFault (s : State) (r : BitVec 256) : State :=
  let lid := recLid r
  if lid = 0 ∨ !s.lidLive lid then s else (s.sharers lid).foldl (fun s l => s.countFor r l) s

/-- The ring unit of a package quarter takes a record (R207, R208). -/
def State.ringRecord (s : State) (q : Nat) (r : BitVec 256) : State :=
  let at_ := fun (o : Nat) => tcmLoc (4096 + q) o
  let tail := s.rdWord (at_ 0x7FE0)
  if tail - s.rdWord (at_ 0x7FE8) = 1024 then s.wrWord (at_ 0x7FF0) (s.rdWord (at_ 0x7FF0) + 1)
  else
    let base := 0x8000 + tail.toNat % 1024 * 32
    let s := (List.range 4).foldl (fun s i => s.wrWord (at_ (base + 8 * i)) (word (r.toNat / 2 ^ (64 * i)))) s
    s.storeFull (at_ 0x7FE0) (tail + 1)

/-- FAULT_RECORD (R206, R208): the first record on its way to the ring of quarter q reaches it. -/
def execFaultRecord (q : Nat) (s : State) : Res :=
  .next (match s.net.findIdx? (fun p => match p with
      | .fault q' _ => q' == q
      | _ => false) with
    | some n => match s.net[n]? with
      | some (.fault _ r) => ((s.dropPacket n).countFault r).ringRecord q r
      | _ => s
    | none => s)

end Sys2Proof.Machine
end

