-- ==== Sys2Proof/Machine/Commit.lean ====
section
/-!
DEFINITION. The lock (R273), completion, commit (R274) and exits as they take effect (R276, R277, R333-R337), with the
fingerprint and gated buffer of a twin (R225, R226).
-/

namespace Sys2Proof.Machine

/-! ## The lock (R273) -/

/-- The instructions of a frame as consumers (R257). -/
def Frame.asConsumers (f : Frame) : Consumers := f.instrs.map fun e => (e.1, some e.2)

/-- The performing operation of a block with its result closure: word indices (R270). -/
def Frame.closure (f : Frame) : List Nat := closureOf f.asConsumers

/-- The targets of the performing operation and its closure. -/
def Frame.closureTargets (f : Frame) : List Nat := f.closure.flatMap (targetsAt f.asConsumers)

/-- The stores whose data the closure supplies. -/
def Frame.sinks (f : Frame) : List (Nat × Instr) :=
  let ts := f.closureTargets
  f.instrs.filter fun e => e.2.shape.cls == .commit && ts.contains (3 * e.1 + 1)

/-- The performing operation of a block, where it is not yet performed. -/
def Frame.performing (f : Frame) : Option (Nat × Instr) :=
  f.instrs.find? fun e => e.2.shape.cls == .perform && f.fired.find? e.1 != some true

/-- What a store built without its data still meets: a fault of its layer or of a watchpoint, or the guard of an MMA, on
which its thread parks before the lock; nothing where it may be performed. -/
def State.sinkMeets (s : State) : Pend → Option (Option FaultD) × State
  | .store e => match s.gateOf e with
    | .off ea => (some (some { cause := 0x50, addr := ea }), s)
    | .guard n => (none, s.parkGuard s.cc s.ck e.ea n)
    | .clear => match if e.op.accesses then e.watched.find? fun x => watchHit s s.cc x.1 x.2 false true else none with
      | some x => (some (some { cause := 0xD2, addr := x.1 }), s)
      | none => (some none, s)
  | .post op =>
    (some (if watchHit s s.cc op.ea 8 false true then some { cause := 0xD2, addr := op.ea } else none), s)
  | _ => (some none, s)

/-- The address and predicate of a store whose data the closure supplies: it waits, resolves, or gives a fault. -/
def State.sinkState (s : State) (j : Nat) (x : Instr) : Option (Option FaultD) × State :=
  let f := s.cur.frame
  let pred := if x.shape.pr = .always then some (.val 0) else f.input j 2
  match f.input j 0, pred with
  | some t, some p =>
    if t.isNull || p.isNull then (some none, s)
    else if x.shape.pr ≠ .always ∧ p.w.toNat.testBit 0 ≠ decide (x.shape.pr = .onTrue) then (none, s)
    else match buildOf x s (s.who s.cc s.ck) t (.val 0) (.val 0) with
      | some (.error d, s) => (if d.waits then none else some (some d), s)
      | some (.ok p, s) => s.sinkMeets p
      | none => (some none, s)
  | _, _ => (none, s)

/-- Whether the stores of the closure are resolved but for their data; a fault of one is held with the block. -/
def State.sinksReady (s : State) : List (Nat × Instr) → Bool × State
  | [] => (true, s)
  | (j, x) :: rest =>
    let here : State := { s with cursor := { s.cursor with word := j } }
    match here.sinkState j x with
    | (none, s') => (false, s')
    | (some (some d), s') =>
      (false, s'.updF fun f => f.addFault { d with index := j, lsid := x.shape.lsid.getD 0, iv := true })
    | (some none, s') => s'.sinksReady rest

/-- The commit outputs outside the closure: registers, LSIDs and exits (R273). -/
def Frame.outsideReady (f : Frame) : Bool :=
  let ts := f.closureTargets
  let sinkLsids := f.sinks.map fun e => e.2.shape.lsid.getD 0
  (List.range 16).all (fun k =>
    !(hdrWrmask f.header).testBit k || ts.contains (384 + k) || (f.regs.find? k).isSome) &&
  (List.range 32).all (fun n =>
    !(hdrStmask f.header).testBit n || n == 0 || sinkLsids.contains n || (f.pend.find? n).isSome) &&
  f.exits.length == 1 &&
  f.instrs.all fun e => e.2.shape.cls != .exit || (f.fired.find? e.1).isSome

/-- A write of a whole register ends its poison and what cannot be corrected in it (R211, R217). -/
def Slot.whole (x : Slot) (k : Nat) : Slot :=
  { x with pmask := x.pmask &&& ~~~BitVec.ofNat 16 (2 ^ k), badRegs := x.badRegs &&& ~~~BitVec.ofNat 16 (2 ^ k) }

/-- The registers of a slot after step 2 of R274: general registers, segments, TSW, GPH. (DEDUCED, unsafe: log 44) -/
def Slot.written (x : Slot) (f : Frame) : Slot :=
  let x := (List.range 16).foldl (fun (x : Slot) k =>
    match if (hdrWrmask f.header).testBit k then f.regs.find? k else none with
    | some t => if t.isNull || t.isPoison then x else { x.whole k with ctx := x.ctx.setReg k t.w }
    | none => x) x
  let ctx := f.segNew.foldl (fun (y : Ctx) e => y.setSeg e.1 e.2) x.ctx
  let tsw := match f.tswNew with
    | some v => tswWritten ctx.tsw v
    | none => ctx.tsw
  let tsw := match f.gph with
    | some b => wput tsw 32 32 b.toNat
    | none => tsw
  { x with ctx := { ctx with tsw := tsw } }

/-- Poison reaches the count of a LOOP: Gk, as it stands after step 2 of the commit, is marked (R217, R334). -/
def Slot.countFaults (x : Slot) (f : Frame) : List FaultD :=
  f.exits.filterMap fun e => match e.kind with
    | .loop k => if ((x.written f).pmask ||| (x.written f).badRegs).toNat.testBit k then some { cause := 0x62, index := e.idx }
      else none
    | _ => none

/-- The faults of a block's stores to layers that have been powered off since they were checked (Table 8.11). -/
def State.lateFaults (s : State) (f : Frame) : List FaultD :=
  f.pend.filterMap fun p => match p.2 with
    | .store e => match e.op with
      | .row _ _ | .remote _ _ => none
      | _ => (s.offAt e).map fun a => { cause := 0x50, index := e.index, lsid := e.lsid, addr := a }
    | _ => none

/-- The faults of a block that no input of an instruction brings: of its stores, and of its exit's count. -/
def State.ownFaults (s : State) (c k : Nat) (f : Frame) : List FaultD := s.lateFaults f ++ (s.slot c k).countFaults f

/-- Those that are certain before the lock: the closure writes the count of no such exit. -/
def State.earlyFaults (s : State) (c k : Nat) (f : Frame) : List FaultD :=
  let later := f.exits.any fun e => match e.kind with
    | .loop k => f.closureTargets.contains (384 + k)
    | _ => false
  s.lateFaults f ++ if later then [] else (s.slot c k).countFaults f

/-- BLOCK_LOCK (R273): a block with a performing operation meets the conditions of the lock and enters COMMIT. A pair
whose copies have run blocks since their checkpoint is compared first (R225). -/
def execBlockLock (c k : Nat) (s : State) : Res :=
  let k := k % 4
  let x := s.slot c k
  let f := x.frame
  .next (match f.performing with
    | none => s
    | some (_, i) =>
      if x.st ≠ .run ∨ f.st ≠ .exec ∨ f.lock ∨ s.stays c k ∨ x.atEnd ∨ !f.checked ∨ f.faults ≠ [] ∨ !f.outsideReady then s
      else if i.shape.cls ≠ .perform ∨ tswShadow x.ctx.tsw then s
      else if s.earlyFaults c k f ≠ [] then s.updFrame c k fun y => { y with faults := s.earlyFaults c k f }
      else if x.uncompared then s.forceAt c k
      else if !s.drained c k then s
      else
        let at_ : State := { s with cursor := { s.cursor with core := c, slot := k } }
        match at_.sinksReady f.sinks with
        | (ok, s') =>
          let s' : State := { s' with cursor := s.cursor }
          if ok then s'.updFrame c k fun f => { f with st := .commit, lock := true } else s')

/-! ## Completion and reservation (R274) -/

/-- A block is complete: its registers, its LSIDs, one exit. (DEDUCED, unsafe: log 43) -/
def Frame.complete (f : Frame) : Bool :=
  (List.range 16).all (fun k => !(hdrWrmask f.header).testBit k || (f.regs.find? k).isSome) &&
  (List.range 32).all (fun n => !(hdrStmask f.header).testBit n || (f.pend.find? n).isSome) &&
  f.exits.length == 1

/-- The stores of a block in ascending LSID; the posted writes among them only for a twin's gated buffer. (DEDUCED, unsafe: log 57) -/
def Frame.storeCount (f : Frame) (posts : Bool) : Nat :=
  (f.pend.filter fun e => match e.2 with
    | .store _ => true
    | .post _ => posts
    | _ => false).length

/-- The commands of a block in ascending LSID. -/
def Frame.commands (f : Frame) : List Cmd := f.pend.filterMap fun e => match e.2 with
  | .command c => some c
  | _ => none

/-- The messages of a block in ascending LSID, with their handles. -/
def Frame.messages (f : Frame) : List (Msg × Option Nat) := f.pend.filterMap fun e => match e.2 with
  | .message m h false => some (m, h)
  | _ => none

/-- The commands of a slot's queue for an engine that have not started, a twin's gated ones included. -/
def State.queued (s : State) (c k eng : Nat) : Nat :=
  ((s.core c).cmds.filter fun x => x.slot == k && x.eng == eng && !x.started).length +
    (match (s.slot c k).twin with
      | some t => (t.gatedCmds.filter (·.eng == eng)).length
      | none => 0)

/-- A slot whose copy is a shadow. -/
def Slot.shadow (x : Slot) : Bool := tswShadow x.ctx.tsw

/-- The stores of a block in ascending LSID. -/
def Frame.stores (f : Frame) : List SbEntry := f.pend.filterMap fun e => match e.2 with
  | .store y => some y
  | _ => none

/-- The entries of a block fit: store buffer or gated buffer, outbound message buffer, scoreboard (R173 item 2), command
queues; no command of a later block is released before a fence completes (R272). -/
def State.roomFor (s : State) (c k : Nat) (f : Frame) (cmds : List Cmd) : Bool :=
  let x := s.slot c k
  let y := s.core c
  let stores := match x.twin with
    | some t => x.shadow || (!t.passing &&
        decide (t.gated.length + t.gatedCmds.length + f.storeCount true + cmds.length ≤ Config.gatedEntries))
    | none => decide (y.sb.length + f.storeCount false ≤ Config.sbEntries)
  let sends := (f.messages.filter (·.2.isNone)).length
  let t : TwinState := x.twin.getD {}
  let ranged := ((t.gatedCmds ++ cmds).filter (s.ranged c (y.sb ++ t.gated ++ f.stores))).length
  stores && decide (((y.outbox ++ t.gatedMsgs).filter (·.handle.isNone)).length + sends ≤ Config.outboxEntries) &&
    (cmds.isEmpty || x.shadow ||
      (decide (s.boardUsed c + ranged ≤ Config.boardEntries) &&
        [0, 1, 2, 3, 4].all (fun g =>
          decide (s.queued c k g + (cmds.filter (·.eng == g)).length ≤ queueDepth g)) &&
        !y.sb.any fun e => e.tid == x.tid && e.op.isFence))

/-! ## The fingerprint (R226) -/

/-- One bit of CRC-64 with polynomial 0x42F0_E1EB_A9EA_3693. -/
def crcBit (c : Nat) : Nat := if c.testBit 63 then (2 * c % 2 ^ 64) ^^^ 0x42F0E1EBA9EA3693 else 2 * c

/-- One byte of the CRC. -/
def crcByte (c b : Nat) : Nat :=
  let c := c ^^^ (b % 256 * 2 ^ 56)
  crcBit (crcBit (crcBit (crcBit (crcBit (crcBit (crcBit (crcBit c)))))))

/-- n bytes of a number, least significant first. -/
def crcBytes : Nat → Nat → Nat → Nat
  | 0, c, _ => c
  | n + 1, c, v => crcBytes n (crcByte c (v % 256)) (v / 256)

/-- A long command's 32 bytes: its body words, with F as its tokens have made it. -/
def cmdBytes (f : Frame) (x : Cmd) : Nat :=
  x.f.toNat * 2 ^ 96 + ((f.words.drop x.index).take 3).foldr (fun w n => w + n * 2 ^ 32) 0

/-- An entry that is a store: no fence, no row control, no semaphore's value. -/
def SbOp.stores : SbOp → Bool
  | .fence _ _ | .row _ _ | .semset _ _ => false
  | .data _ | .stf _ _ | .feempty _ | .notify _ _ _ | .binit _ _ _ | .remote _ _ => true

/-- The fingerprint after a block: its registers, stores, commands and next PC. (DEDUCED, unsafe: log 24) -/
def crcBlock (fp : Nat) (x : Slot) (f : Frame) (cmds : List Cmd) (pc : Word) : Nat :=
  let fp := (List.range 16).foldl (fun a k =>
    if (hdrWrmask f.header).testBit k then crcBytes 8 a (x.ctx.reg k).toNat else a) fp
  let one := fun (a ea data width : Nat) =>
    crcByte (crcBytes (max 8 width) (crcBytes 8 a ea) (data % 2 ^ (8 * width))) width
  let fp := f.pend.foldl (fun a e => match e.2 with
    | .store y => if y.op.stores then one a y.ea y.data y.width else a
    | .post y => one a y.ea y.a.toNat 8
    | _ => a) fp
  crcBytes 8 (cmds.foldl (fun a y => crcBytes 32 a (cmdBytes f y)) fp) pc.toNat

/-! ## Exits as they take effect (R276, R277) -/

/-- A next PC at an offset from a header. -/
def pcAt (h : Word) (off : Int) : Word := h + wordOfInt (off * 16)

/-- The header that sequentially follows a block (R256). -/
def pcAfter (f : Frame) : Word := f.pc + word (16 * ceilDiv (hdrLen f.header) 16)

/-- The next PC of an exit, and the register that CALL or LOOP writes (R274 step 5, R277, R334). -/
def exitTo (x : Ctx) (f : Frame) (e : ExitFired) : Word × Ctx :=
  match e.kind with
  | .br | .migrate _ | .trap _ | .yieldX | .breakX => (pcAt f.pc e.off, x)
  | .bri v | .ret v => (v, x)
  | .call => (pcAt f.pc e.off, x.setReg 15 (pcAfter f))
  | .loop k =>
    let v := x.reg k
    if 1 < v.toNat then (f.pc, x.setReg k (v - 1)) else (pcAt f.pc e.off, x.setReg k 0)
  | .done => (f.pc, x)

/-- The register that an exit writes: G15 for CALL, Gk for LOOP unless it is 0 already (R277, R334). -/
def exitReg (x : Ctx) (e : ExitFired) : Option Nat :=
  match e.kind with
  | .call => some 15
  | .loop k => if x.reg k = 0 then none else some k
  | _ => none

/-- The fault under which an exit's block commits (R205, R336). -/
def exitFault (e : ExitFired) : Option FaultD :=
  match e.kind with
  | .trap code => some { cause := 0xE0 + code, index := e.idx }
  | .breakX => some { cause := 0xD0, index := e.idx }
  | _ => none

/-! ## Commit (R274) -/

/-- An operation that a mould records by its identity (Table 10.16): of the remote path, or a full/empty operation at a bank
of a TCM or square memory. -/
def SbOp.counted : SbOp → Bool
  | .stf loc _ | .feempty loc => (vaultOf loc).isNone
  | .remote op _ => recordedOp op
  | _ => false

/-- A store's entry with its serial number and identity. -/
def State.stampEntry (s : State) (c k : Nat) (e : SbEntry) : SbEntry × State :=
  let id := s.nextIdent c k
  let op := match e.op with
    | .remote op x => SbOp.remote { op with ident := id } x
    | op => op
  let s' := if e.op.counted then s.countOp c k else s
  ({ e with op := op, stamp := s.serial, ident := id }, s'.nextSerial)

/-- Entries of a twin's gated buffer: only the primary's are kept. (DEDUCED, unsafe: log 24) -/
def State.gate (s : State) (c k : Nat) (e : SbEntry) : State :=
  s.updSlot c k fun x =>
    if x.shadow then x else { x with twin := x.twin.map fun t => { t with gated := t.gated ++ [e] } }

/-- The store-buffer entry that carries a twin's RPOST through the gated buffer. -/
def postEntry (k : Nat) (op : RemOp) : SbEntry :=
  { slot := k, op := .remote op .die, pc := op.pc, index := op.idx, lsid := op.lsid, lid := op.lid, ea := op.ea
    width := 8, data := op.a.toNat, tid := op.tid }

/-- A message with its identity: a SEND takes it at its commit (R228). -/
def State.stampMsg (s : State) (c k : Nat) (m : Msg) : Msg × State :=
  if m.kind = 3 then ({ m with ident := s.nextIdent c k }, s.countOp c k) else (m, s)

/-- A message enters the outbound buffer and is counted as sent (R132, R142). -/
def State.outMsg (s : State) (c : Nat) (o : Outgoing) : State :=
  ((s.updCore c fun x => { x with outbox := x.outbox ++ [o] }).countSent c o.msg.lid).nextSerial

/-- One LSID of a committing block (R274 step 3). The messages of a twin wait behind its gated stores (R198, R199). -/
def State.commitPend (s : State) (c k : Nat) (p : Pend) : State :=
  let twin := (s.slot c k).twin.isSome
  match p with
  | .store e =>
    let (e, s) := s.stampEntry c k e
    if twin then s.gate c k e else s.updCore c fun x => { x with sb := x.sb ++ [e] }
  | .post op =>
    let (e, s) := s.stampEntry c k (postEntry k op)
    if twin then s.gate c k e else s.post c e
  | .message m h false =>
    let (m, s) := s.stampMsg c k m
    let o : Outgoing := ⟨m, h, k, s.serial, (s.slot c k).tid⟩
    if twin then
      (s.updSlot c k fun x => { x with twin := x.twin.map fun t => { t with gatedMsgs := t.gatedMsgs ++ [o] } }).nextSerial
    else s.outMsg c o
  | .message _ _ true | .command _ | .nulled | .done => s

/-- The commands of a committing block (R274 step 4). (DEDUCED, unsafe: log 44) -/
def State.commitCmds (s : State) (c k : Nat) (cmds : List Cmd) : State :=
  let x := s.slot c k
  if x.shadow then s
  else if x.twin.isSome then cmds.foldl (fun s y =>
    (s.updSlot c k fun x => { x with twin := x.twin.map fun t =>
      { t with gatedCmds := t.gatedCmds ++ [{ y with stamp := s.serial }] } }).nextSerial) s
  else cmds.foldl (fun s y => s.releaseCmd c y) s

/-- An operation of a committed block that forces the comparison of a pair (R225). -/
def Pend.forces : Pend → Bool
  | .store e => e.rel || e.op.isRemote || e.op.isFence || (match e.op with
    | .feempty _ | .notify _ _ _ => true
    | _ => false)
  | .post _ | .message _ _ false => true
  | _ => false

/-- A committed frame is done with: the other one runs where it was fetched for the next PC under the same rights
(R117). -/
def State.nextFrame (s : State) (c k : Nat) (keep : Bool) : State :=
  let x := s.slot c k
  if keep && x.st == .run && !x.halt && x.next.st == .spec && x.next.pc == x.ctx.pc then s.enterExec c k x.next
  else s.updSlot c k fun x => { x with frame := {}, next := {}, fseq := x.fseq + 1 }

/-- MIGRATE leaves (R135, R335); a stop that was pending is taken with the context, frozen or parked where it arrives. -/
def State.migrateAway (s : State) (c k owner : Nat) : State :=
  let x := s.slot c k
  let due := if x.stop = 3 then 0xD4 else if x.stepping then 0xD3 else 0
  let s := if due ≠ 0 then s.updSlot c k fun x =>
      { x with ctx := { x.ctx with wait := waitOf 9 0 }, recDue := due, stepping := false }
    else if x.stop = 1 then s.updSlot c k fun x => { x with ctx := { x.ctx with wait := waitOf 8 0 } }
    else s
  s.leaveFor c k owner 0

/-- What follows the commit of a thread that is no twin: its exit, a step, a stop. -/
def State.afterCommit (s : State) (c k : Nat) (e : ExitFired) (keep : Bool) : State :=
  let x := s.slot c k
  let pc := x.ctx.pc.toNat
  let clear := fun (s : State) => s.updSlot c k fun x => { x with frame := {}, next := {}, fseq := x.fseq + 1 }
  if x.stop = 2 ∧ e.kind ≠ .done then (clear s).endThread c k false
  else match exitFault e with
    | some d => (clear s).freezeFor c k pc d
    | none => match e.kind with
      | .done => (clear s).endThread c k true
      | .migrate o => (clear s).migrateAway c k o
      | _ =>
        if x.stepping then (clear s).freezeWith c k 0xD3 pc
        else if x.stop ≠ 0 ∨ x.htStop then (clear s).applyStop c k
        else if e.kind = .yieldX then match s.yieldSpill c k with
          | some _ => ((clear s).yieldSpill c k).getD (clear s)
          | none => s.nextFrame c k keep
        else s.nextFrame c k keep

/-- What follows the commit of a copy of a twin: its fingerprint, and a comparison where the block forces one. -/
def State.afterTwin (s : State) (c k : Nat) (f : Frame) (cmds : List Cmd) (e : ExitFired) (keep : Bool) : State :=
  let x := s.slot c k
  let d := match exitFault e with
    | some d => some d
    | none => if x.stepping ∧ e.kind ≠ .done then some { cause := 0xD3, iv := false } else none
  let force := f.pend.any (fun p => p.2.forces) || e.kind == .done || e.kind == .yieldX || d.isSome
  let s := s.updSlot c k fun x =>
    { x with
      stop := if e.kind = .done then 5 else if e.kind = .yieldX ∧ x.stop = 0 ∧ !x.shadow then 6 else x.stop
      twin := x.twin.map fun t =>
        { t with
          fp := BitVec.ofNat 64 (crcBlock t.fp.toNat x f cmds x.ctx.pc)
          blocks := t.blocks + 1
          seq := t.seq + 1
          forced := t.forced || force || decide (64 ≤ t.blocks + 1)
          faultRec := if t.faultRec.isSome then t.faultRec else d
          fwd := t.fwd.filter fun g => decide ((t.seq + 1) * 128 ≤ g.1) } }
  s.nextFrame c k (keep && d.isNone && e.kind != .done)

/-- The commit of a complete block whose entries are reserved (R274). -/
def State.commitBlock (s : State) (c k : Nat) (f : Frame) (e : ExitFired) (cmds : List Cmd) : State :=
  let s := s.updSlot c k fun x => x.written f
  let cmds := cmds.map fun y => { y with seg := (s.slot c k).ctx.seg }
  let s := f.pend.foldl (fun s p => s.commitPend c k p.2) s
  let s := s.commitCmds c k cmds
  let keep := f.segNew.isEmpty && f.tswNew.isNone
  let s := s.updSlot c k fun x =>
    let (pc, ctx) := exitTo x.ctx f e
    { (match exitReg x.ctx e with
        | some r => x.whole r
        | none => x) with ctx := { ctx with pc := pc, tsw := ctx.tsw ||| word f.flags.toNat }, migr := 0, skipBrk := false }
  if (s.slot c k).twin.isSome then s.afterTwin c k f cmds e keep else s.afterCommit c k e keep

/-- Whether a copy of a pair may commit: the shadow follows the primary, and the primary waits for a comparison that is
forced (R225, R227). -/
def State.pairMayCommit (s : State) (c k : Nat) : Bool :=
  let x := s.slot c k
  match x.twin, s.twinSlot c k with
  | some t, some j =>
    match (s.slot (twinCore c) j).twin with
    | some u => if x.shadow then decide (t.seq < u.seq) else !t.forced || x.frame.lock
    | none => true
  | _, _ => true

/-- A stop that waited for a commit is still due at a thread that a fault has frozen or parked instead (R213). -/
def Slot.stopDue (x : Slot) : Bool :=
  (x.st == .park || x.st == .frozen) && ((x.stop != 0 && decide (x.stop < 5)) || x.htStop)

/-- BLOCK_COMMIT (R274): a complete block raises the lowest of its faults, or reserves what it needs and commits; it
waits in COMMIT while an entry is missing. -/
def execBlockCommit (c k : Nat) (s : State) : Res :=
  let k := k % 4
  let x := s.slot c k
  let f := x.frame
  .next (if x.stopDue then s.applyStop c k
    else if x.st ≠ .run ∨ (f.st ≠ .exec ∧ f.st ≠ .commit) ∨ x.atEnd ∨ !f.complete ∨ (s.stays c k ∧ f.st = .exec) then s
    else match lowestFault (f.faults ++ if f.lock then [] else s.ownFaults c k f), f.exits with
      | some d, _ => s.raise c k d
      | none, e :: _ =>
        let cmds := f.commands.map fun y => { y with seg := (x.written f).ctx.seg }
        if !s.pairMayCommit c k then s
        else if !s.roomFor c k f cmds then
          (if x.twin.isSome then s.forceAt c k else s.updFrame c k fun f => { f with st := .commit })
        else s.commitBlock c k f e cmds
      | none, [] => s)

end Sys2Proof.Machine
end

