-- ==== Sys2Proof/Machine/Twin.lean ====
section
/-!
DEFINITION. The comparison of a twin pair (R225-R227, Table 10.15).
-/

namespace Sys2Proof.Machine

/-- The record of a pair, from its primary. -/
def State.pairRecord (s : State) (c k pc detail src : Nat) (d : FaultD) : BitVec 256 :=
  mkRecord detail (if causeHasAddr d.cause then d.addr else 0) pc d.cause (tswLid (s.slot c k).ctx.tsw) src 0 d.iv
    (if d.iv then d.index else 0) (if d.iv then d.lsid else 0) k c s.time

/-- A fault of both copies, or of their comparison: one record from the primary, and both copies enter FROZEN, or PARK with
KIND 6 for a translation fault (R116, R170). Poison at a commit output scrubs the registers of both (R217). Their blocks
are abandoned, and a stop that waited for the comparison takes effect where it still can. (DEDUCED, unsafe: log 24) -/
def State.pairFault (s : State) (c k detail : Nat) (d : FaultD) : State :=
  let parks := parksThread d.cause
  let scrub := decide (0x60 ≤ d.cause) && decide (d.cause ≤ 0x63)
  let lost := (s.slot c k).badRegs != 0 || (match s.twinSlot c k with
    | some j => (s.slot (twinCore c) j).badRegs != 0
    | none => false)
  let d := if scrub && lost then { d with cause := 0x65 } else d
  let r := s.pairRecord c k (s.slot c k).ctx.pc.toNat detail (if parks then 1 else 5) d
  let stop := (s.slot c k).stop
  let ht := (s.slot c k).htStop
  let s := (s.abandon c k).dropWaiters c k
  let s := s.both c k fun x =>
    let x := if scrub then scrubRegs x else x
    { x with
      st := if parks then .park else .frozen
      ctx := { x.ctx with wait := keepHt x.ctx.wait (if parks then waitOf 6 d.addr else waitOf 9 0) }
      frec := r, frozenBy := d.cause, stepping := false, spilling := false, stop := 0, htStop := false, parkSeq := s.serial
      parkedAt := s.time, twin := x.twin.map fun t => { t with faultRec := none } }
  let s := s.nextSerial.sendRecord c r
  let stop := if stop = 2 ∨ (parks ∧ stop = 3) then stop else 0
  if stop ≠ 0 ∨ (parks ∧ ht) then (s.updSlot c k fun x => { x with stop := stop, htStop := ht }).applyStop c k else s

/-- An item of the gated buffer (R225), or a message that waits behind its stores (R198). -/
inductive Gated
  | store (e : SbEntry)
  | cmd (x : Cmd)
  | msg (o : Outgoing)
  deriving DecidableEq, Repr

/-- Its place in program order. -/
def Gated.stamp : Gated → Nat
  | .store e => e.stamp
  | .cmd x => x.stamp
  | .msg o => o.stamp

/-- Puts an item before those that follow it in program order. -/
def Gated.insert (g : Gated) : List Gated → List Gated
  | [] => [g]
  | h :: hs => if g.stamp < h.stamp then g :: h :: hs else h :: g.insert hs

/-- What a pair holds back, in program order. -/
def TwinState.items (t : TwinState) : List Gated :=
  (t.gated.map Gated.store ++ t.gatedCmds.map Gated.cmd ++ t.gatedMsgs.map Gated.msg).foldl
    (fun l (g : Gated) => g.insert l) []

/-- What of it is left. -/
def TwinState.hold (t : TwinState) (gs : List Gated) : TwinState :=
  { t with
    gated := gs.filterMap fun g => match g with
      | .store e => some e
      | _ => none
    gatedCmds := gs.filterMap fun g => match g with
      | .cmd x => some x
      | _ => none
    gatedMsgs := gs.filterMap fun g => match g with
      | .msg o => some o
      | _ => none
    passing := true }

/-- An item leaves for the store buffer, an engine or the outbound buffer, or as a posted write; none while there is no
room for it (R173, R181). -/
def State.ungate (s : State) (c : Nat) : Gated → Option State
  | .store e =>
    let e := { e with stamp := s.serial }
    if e.isPost then some (s.post c e).nextSerial
    else if (s.core c).sb.length < Config.sbEntries then
      some (s.updCore c fun x => { x with sb := x.sb ++ [e] }).nextSerial
    else none
  | .cmd x =>
    if s.ranged c (s.core c).sb x && decide (Config.boardEntries ≤ s.boardUsed c) then none else some (s.releaseCmd c x)
  | .msg o => some (s.outMsg c { o with stamp := s.serial })

/-- The gated buffer releases its items in program order (Table 10.15), each once there is room for it; what is left
waits. -/
def State.releaseGated (s : State) (c : Nat) : List Gated → State × List Gated
  | [] => (s, [])
  | g :: gs => match s.ungate c g with
    | some s => s.releaseGated c gs
    | none => (s, g :: gs)

/-- The comparison state after a checkpoint is taken or reloaded. -/
def TwinState.fresh (t : TwinState) (mism : Nat) : TwinState :=
  { t with fp := 0xFFFFFFFFFFFFFFFF, mism := mism, blocks := 0, gated := [], gatedCmds := [], gatedMsgs := []
           passing := false, forced := false, faultRec := none, asks := [] }

/-- Answers the TWIN instructions that forced the comparison (Table 16.17). -/
def State.answerTwin (s : State) (asks : List (Nat × Nat × Nat × Nat)) (r : Nat) : State :=
  asks.foldl (fun s (c, k, n, i) => s.answerAt c k n i (.val (word r))) s

/-- A slot's context becomes its checkpoint; a fault that only one copy has met since is compared next. -/
def Slot.checkpoint (x : Slot) : Slot :=
  let g := fun (t : TwinState) =>
    { t.fresh 0 with chk := x.ctx, chkPmask := x.pmask, chkBad := x.badRegs, forced := t.faultRec.isSome
                     faultRec := t.faultRec }
  { x with twin := x.twin.map g }

/-- A slot's context, PMASK and lost registers are those of its checkpoint again. -/
def Slot.reload (mism : Nat) (x : Slot) : Slot :=
  match x.twin with
  | some t =>
    { x with ctx := t.chk, pmask := t.chkPmask, badRegs := t.chkBad, stop := if x.stop = 5 ∨ x.stop = 6 then 0 else x.stop
             twin := some (t.fresh mism) }
  | none => x

/-- Both copies reload the checkpoint; nothing of the gated buffer is left, and the reservations of its messages are given
back. -/
def State.twinReload (s : State) (c k mism : Nat) : State :=
  let ms := match (s.slot c k).twin with
    | some t => t.gatedMsgs
    | none => []
  ((ms.foldl (fun s o => match o.handle with
    | some h => s.unreserve c o.msg h
    | none => s) s).abandon c k).both c k (Slot.reload mism)

/-- A copy that will neither fire nor take a value before the comparison. -/
def State.stalled (s : State) (c k : Nat) : Bool :=
  let x := s.slot c k
  x.frame.faults.isEmpty && (x.frame.st == .exec || x.frame.st == .commit) &&
    !x.frame.instrs.any fun e => gather e.2.shape x.frame e.1 != .wait &&
      (e.2.shape.cls == .compute || e.2.shape.cls == .exit || e.2.shape.cls == .commit ||
        (match x.twin with
          | some t => (t.fwd.find? (fwdKey x e.1)).isSome
          | none => false))

/-- Whether two copies have raised the same fault. -/
def sameFault (d e : FaultD) : Bool := d.cause == e.cause && d.index == e.index && d.lsid == e.lsid && d.addr == e.addr

/-- Whether the pair can be compared: at one boundary, neither copy in COMMIT, and a copy whose fault the other does not
share waits until that other can go no further. -/
def State.comparable (s : State) (c k j : Nat) (t u : TwinState) : Bool :=
  let x := s.slot c k
  let y := s.slot (twinCore c) j
  t.seq == u.seq && (t.forced || u.forced) && !x.committing && !y.committing &&
    (match t.faultRec, u.faultRec with
      | some _, none => s.stalled (twinCore c) j || y.stop == 5
      | none, some _ => s.stalled c k || x.stop == 5
      | _, _ => true)

/-- The two copies have the same fault, or none has one. -/
def faultsAgree : Option FaultD → Option FaultD → Bool
  | none, none => true
  | some d, some e => sameFault d e
  | _, _ => false

/-- Equal fingerprints (Table 10.15): the gated buffer is released as there is room; then both contexts become the
checkpoint, and a fault of both is raised. (DEDUCED, unsafe: log 24) -/
def State.twinPass (s : State) (c k : Nat) (t u : TwinState) : State :=
  let (s, gs) := s.releaseGated c t.items
  if !gs.isEmpty then s.updSlot c k fun x => { x with twin := x.twin.map fun t => t.hold gs }
  else
    let s := (s.both c k Slot.checkpoint).answerTwin t.asks 0
    match t.faultRec with
    | some d => if faultsAgree t.faultRec u.faultRec then s.pairFault c k 0 d else s
    | none => if u.faultRec.isNone then s.applyStop c k else s

/-- The outcome of a comparison (Table 10.15). -/
def State.compareTwin (s : State) (c k : Nat) (t u : TwinState) : State :=
  if t.passing then s.twinPass c k t u
  else if t.chkLost || u.chkLost then
    (((s.twinReload c k t.mism).both c k fun x =>
      { x with twin := x.twin.map fun t => { t with chkLost := false } }).pairFault c k t.mism
        { cause := 0xC1, iv := false }).answerTwin t.asks 3
  else if t.fp == u.fp && faultsAgree t.faultRec u.faultRec then s.twinPass c k t u
  else if 2 ≤ t.mism then
    ((s.twinReload c k t.mism).pairFault c k 3 { cause := 0xC0, iv := false }).answerTwin t.asks 3
  else ((s.twinReload c k (t.mism + 1)).answerTwin t.asks 2).applyStop c k

/-- TWIN_COMPARISON (R227): the pair whose primary is in slot k of core c. -/
def execTwinComparison (c k : Nat) (s : State) : Res :=
  let k := k % 4
  .next (if (s.slot c k).shadow then s
    else match (s.slot c k).twin, s.twinSlot c k with
      | some t, some j =>
        match (s.slot (twinCore c) j).twin with
        | some u => if t.passing || s.comparable c k j t u then s.compareTwin c k t u else s
        | none => s
      | _, _ => s)

end Sys2Proof.Machine
end

