-- ==== Sys2Proof/Machine/Cut.lean ====
section
/-!
DEFINITION. The totals of a launch's messages (R142, R143), the supervisor's responses (R51), the consistent cut of a
launch and its resumption (R220-R224, Table 10.14).
-/

namespace Sys2Proof.Machine

/-! ## Totals (R143) -/

/-- A pair's counts for a launch; a pair of another generation counts nothing. -/
def pairOf (t : Tab Pair) (lid : Nat) : Nat × Nat :=
  let p := Tab.rd {} t (lid / 32)
  if p.gen = lidGen lid then (p.sent, p.recv) else (0, 0)

/-- The sums of SENT and RECV of a launch over every core and port, modulo 2^32. (DESIGN CHOICE, unsafe: log 8) -/
def State.totals (s : State) (lid : Nat) : Nat × Nat :=
  let add := fun (a : Nat × Nat) (p : Nat × Nat) => ((a.1 + p.1) % 2 ^ 32, (a.2 + p.2) % 2 ^ 32)
  let a := s.cores.foldl (fun a e => add a (pairOf e.2.counts lid)) (0, 0)
  s.ports.foldl (fun a e => add a (pairOf e.2.counts lid)) a

/-! ## Responses (R51, Table 3.6) -/

/-- The location of byte n of the request port of quarter q. -/
def portLoc (q n : Nat) : Nat := tcmLoc (4096 + q) (0x10000 + n)

/-- The firmware state of service core q. -/
def State.svc (s : State) (q : Nat) : Svc := Tab.rd {} s.svcs q

/-- Changes the firmware state of service core q. -/
def State.updSvc (s : State) (q : Nat) (f : Svc → Svc) : State := { s with svcs := Tab.upd {} s.svcs q f }

/-- Writes the MSI-X trigger of vector v: an RST to package 255 (Table 3.3, R47). (DESIGN CHOICE, unsafe: log 78) -/
def State.msix (s : State) (q v : Nat) : State :=
  s.send (.remote { kind := .rst, place := .peer 255 1 (8 * v), a := 1, core := 4096 + q, priv := true })

/-- Writes the next response of quarter q where it is known and the ring has room; none where neither holds. -/
def State.respondOnce (s : State) (q : Nat) : Option State :=
  let n := (s.rdWord (portLoc q 0xFFF0)).toNat
  let ack := (s.rdWord (portLoc q 0xFFE8)).toNat
  if (n + 2 ^ 64 - ack) % 2 ^ 64 < 256 then
    match (s.svc q).rsps.find? (·.1 == n) with
    | some (_, w0, r, w2) =>
      let at_ := portLoc q (0x8000 + 64 * (n % 256))
      let ws : List Word := [word (wbits w0 63 32 * 2 ^ 32), r, w2, 0, 0, 0, 0, 0]
      let s := ws.zipIdx.foldl (fun s (v, i) => s.wrWord (at_ + 8 * i) v) s
      let s := s.wrWord (portLoc q 0xFFF0) (word (n + 1))
      let s := s.updSvc q fun x => { x with rsps := x.rsps.filter (·.1 != n) }
      some (if w0.toNat.testBit 15 then s.msix q q else s)
    | none => none
  else none

/-- Writes the responses of quarter q that can be written, in request order. -/
def State.flushRsps : Nat → Nat → State → State
  | 0, _, s => s
  | f + 1, q, s => match s.respondOnce q with
    | some s => s.flushRsps f q
    | none => s

/-- Request n of quarter q, with word 0 w0, has result r and word 2 w2. -/
def State.respond (s : State) (q n : Nat) (w0 : Word) (r : Nat) (w2 : Nat) : State :=
  (s.updSvc q fun x => { x with rsps := x.rsps ++ [(n, w0, word r, word w2)] }).flushRsps 512 q

/-! ## Halting (Table 10.14 steps 1 and 2) -/

/-- The cores at the router of a square: its four, and the service core that joins it (R15). -/
def routerCores (sq : Nat) : List Nat :=
  squareCores sq ++ ((List.range 16).map (4096 + ·)).filter fun c => squareOf c == sq

/-- The slots of a core that hold threads of a launch. -/
def State.slotsOf (s : State) (c lid : Nat) : List Nat :=
  [0, 1, 2, 3].filter fun k => (s.slot c k).st != .free && tswLid (s.slot c k).ctx.tsw == lid

/-- Halts the thread in a slot at its block boundary; a pair is compared first (R221). -/
def State.haltSlot (s : State) (c k : Nat) : State :=
  let x := s.slot c k
  if x.shadow ∨ x.st = .load ∨ x.st = .out then s
  else if x.twin.isSome ∧ (x.uncompared ∨ x.committing) then s.forceAt c k
  else
    let s := if x.st = .run ∧ !x.committing then s.abandon c k else s
    s.both c k fun x => { x with halt := true, spilling := false }

/-- Halts a launch's threads at the router of a square. -/
def State.haltAt (s : State) (sq lid : Nat) : State :=
  (routerCores sq).foldl (fun s c => (s.slotsOf c lid).foldl (fun s k => s.haltSlot c k) s) s

/-- A launch's threads at a core have halted, and their stores, remote writes, started commands and messages are done (R367). -/
def State.drainedAt (s : State) (lid c : Nat) : Bool :=
  let x := s.core c
  !(s.slotsOf c lid).any (fun k =>
    let y := s.slot c k
    y.st == .load || y.st == .out || !y.halt || y.committing) &&
  !s.unack.any (fun u => u.core == c && u.lid == lid) && !x.sb.any (·.lid == lid) &&
    !x.cmds.any (fun y => y.lid == lid && y.begun) && !x.outbox.any (·.msg.lid == lid)

/-- A launch that is being cut. -/
def State.cutRuns (s : State) (lid : Nat) : Bool := s.lidLive lid && !(s.entry lid).cutWait.isEmpty

/-- The inputs of a square's router: its neighbours and the ports that join it (R19). -/
def routerInputs (sq : Nat) : List Nat :=
  routerNeighbours sq ++ ((List.range 8).filter fun p => portRouter p == sq).map (1024 + ·)

/-- The networks that carry markers: REQ, RSP, MSG and ASYNC. -/
def markerNets : List Nat := [0, 1, 2, 3]

/-- The cut has reached the router of a square: its threads of the launch halt (Table 10.14 step 2). -/
def State.reached (s : State) (sq lid : Nat) : State :=
  (s.updLaunch lid fun x =>
    { x with cutSeen := if x.cutSeen.contains sq then x.cutSeen else x.cutSeen ++ [sq] }).haltAt sq lid

/-- The messages of a launch that pass no link lie in the buffers of the square's router: the cut takes them (Table 10.14
step 3), and what they hold reserved is given back. (DEDUCED, unsafe: log 25) -/
def State.sweepAt (s : State) (sq lid : Nat) : State :=
  let own := fun (p : Packet) => match p with
    | .msg src m _ => m.lid == lid && cutPath src m.dcore == [sq]
    | .migr src c f _ _ => f.lid == lid && cutPath src c == [sq]
    | _ => false
  let mine := s.net.filter own
  let s : State := { s with net := s.net.filter fun p => !own p }
  let s := mine.foldl (fun s p => match p with
    | .msg _ m (some h) => (s.dropResv m.dcore h m.t).servePair m.dcore
    | _ => s) s
  s.updLaunch lid fun e =>
    { e with taken := e.taken ++ mine.map fun p => (sq, match p with
        | .msg src m _ => .msg src m none
        | p => p) }

/-- The router of a square sends its markers: on each output, on each network (Table 10.14 step 3). -/
def State.sendMarkers (s : State) (sq lid : Nat) : State :=
  (routerNeighbours sq).foldl (fun s b => markerNets.foldl (fun s n => s.send (.cutMarker sq b n lid)) s)
    (s.updLaunch lid fun x => { x with cutSent := x.cutSent ++ [sq] })

/-! ## The state that a router writes (R222) -/

/-- What a router records: a context for a core, and the record of a frozen thread. -/
structure CutItem where
  frame : CtxFrame
  frec : Option (BitVec 256) := none
  deriving DecidableEq, Repr

/-- The frames of a message (R128): one, or those of a pair. (DEDUCED, unsafe: log 25) -/
def State.msgFrames (s : State) (m : Msg) : List CutItem :=
  let c := if m.t then evenCore m.dcore else m.dcore
  let x := s.msgCtx c m
  let f : CtxFrame := { lid := m.lid, twin := m.t, dcore := c, origin := m.origin, ctx := x }
  if m.t then [{ frame := f }, { frame := { f with dcore := twinCore c, ctx := shadowCtx x } }] else [{ frame := f }]

/-- The record that a frozen thread on its way to a core is due, if any. -/
def CtxFrame.dueRecord (f : CtxFrame) (c time : Nat) : Option (BitVec 256) :=
  if f.due = 0 then none
  else some (mkRecord 0 0 f.ctx.pc.toNat f.due f.lid 0 0 false 0 0 0 c time)

/-- The items of a launch at the router of a square, in order; a thread that CTXSWAP has loaded frozen has no record. (DEDUCED, unsafe: log 25) -/
def State.cutItems (s : State) (sq lid : Nat) : List CutItem :=
  let cs := routerCores sq
  let slots := cs.flatMap fun c => (s.slotsOf c lid).map fun k =>
    let x := s.slot c k
    ({ frame := s.frameOf c k c 0, frec := if x.st = .frozen ∧ x.frozenBy ≠ 0 then some x.frec else none } : CutItem)
  let queues := cs.flatMap fun c => ((s.core c).inbox.filter (·.lid == lid)).flatMap s.msgFrames
  let taken := ((s.entry lid).taken.filter (·.1 == sq)).flatMap fun e => match e.2 with
    | .msg _ m _ => s.msgFrames m
    | .migr _ c f _ _ => [{ frame := { f with dcore := c }, frec := f.dueRecord c s.time }]
    | _ => []
  slots ++ queues ++ taken

/-- Writes items into reserve entries in ascending order, the records of frozen threads beside them; answers how many
entries are lacking. -/
def State.writeItems : List CutItem → Nat → State → State × Nat
  | [], _, s => (s, 0)
  | x :: xs, lid, s =>
    match s.allocEntry lid with
    | none => (s, xs.length + 1)
    | some (e, s) =>
      let s := s.writeFrame (s.entryLocs lid e) { x.frame with full := true }
      (s.updLaunch lid fun y =>
        { y with
          cutEntries := y.cutEntries ++ [e]
          cutRecs := match x.frec with
            | some r => y.cutRecs.put e r
            | none => y.cutRecs.del e }).writeItems xs lid

/-- A router that has sent its markers and has one from every input on every network writes its part of the cut and
reports (Table 10.14 step 5). -/
def State.cutWrite (s : State) (sq lid : Nat) : State :=
  let e := s.entry lid
  if e.cutSent.contains sq && (routerInputs sq).all fun a => markerNets.all fun n => e.cutIn.contains (a, sq, n) then
    let (s, lack) := s.writeItems (s.cutItems sq lid) lid
    (s.updLaunch lid fun x => { x with cutSent := x.cutSent.filter (· != sq) }).send (.cutReport sq lid lack)
  else s

/-- The entries that a router's part of the cut takes lie on a layer that is powering on. -/
def State.cutWaits (s : State) (sq lid : Nat) : Bool := s.nextWaits lid (s.cutItems sq lid).length

/-- CUT_ORDER (Table 10.14 steps 2 and 3): the router of a square halts the launch, waits for its traffic, takes what lies
in its buffers and sends its markers. -/
def execCutOrder (n : Nat) (s : State) : Res :=
  .next (match s.packet? n with
    | some (.cutOrder sq lid) =>
      if !s.cutRuns lid then s.dropPacket n
      else
        let s := s.reached sq lid
        if (routerCores sq).all (s.drainedAt lid) && !s.cutWaits sq lid then
          (((s.dropPacket n).sweepAt sq lid).sendMarkers sq lid).cutWrite sq lid
        else s
    | _ => s)

/-- Whether MSG traffic of a launch that was sent before packet n has yet to pass the link from node a to node b. (DEDUCED, unsafe: log 25) -/
def State.linkTraffic (s : State) (n a b lid : Nat) : Bool :=
  (s.net.take n).any fun p =>
    let via := fun (src dst : Nat) => let l := cutPath src dst; (l.zip l.tail).contains (a, b)
    match p with
    | .msg src m _ => m.lid == lid && via src m.dcore
    | .migr src c f _ _ => f.lid == lid && via src c
    | _ => false

/-- CUT_MARKER (Table 10.14 steps 2, 4 and 5): a marker arrives behind the traffic of its link; the first halts the
launch at the router. -/
def execCutMarker (n : Nat) (s : State) : Res :=
  .next (match s.net[n]? with
    | some (.cutMarker a b net lid) =>
      if !s.cutRuns lid then s.dropPacket n
      else if (net = 2 ∧ s.linkTraffic n a b lid) ∨ s.cutWaits b lid then s
      else
        let s := (s.dropPacket n).updLaunch lid fun x => { x with cutIn := x.cutIn ++ [(a, b, net)] }
        (s.reached b lid).cutWrite b lid
    | _ => s)

/-! ## The end of a cut (R220, R223) -/

/-- The ports deliver the messages of a launch that they took, in arrival order (R224). -/
def State.deliverHeld (s : State) (lid : Nat) : State :=
  s.ports.foldl (fun s e =>
    let mine := e.2.cutHeld.filter (·.1.lid == lid)
    let s := s.updPort e.1 fun p => { p with cutHeld := p.cutHeld.filter (·.1.lid != lid) }
    mine.foldl (fun s m => s.send (.msg m.2 m.1 none)) s) s

/-- A launch's contexts in the stores go back to their entries, a record that one of them is due stays with its entry (R223);
its lists and waiters are forgotten. -/
def State.storeBack (s : State) (lid : Nat) : State :=
  let s := s.cores.foldl (fun s e => (e.2.store.filter (·.frame.lid == lid)).foldl (fun s x => s.writeBack x) s) s
  let due := s.cores.flatMap fun e => (e.2.runnable.filter fun r => r.lid == lid && r.due != 0).filterMap fun r =>
    r.entry.bind fun n =>
      (CtxFrame.dueRecord { s.readFrame (s.entryLocs lid n) with due := r.due, lid := lid } e.1 s.time).map fun q => (n, q)
  let s := s.updLaunch lid fun x => { x with cutRecs := due.foldl (fun t d => t.put d.1 d.2) x.cutRecs }
  let s : State := { s with waiters := s.waiters.filter (·.lid != lid) }
  let listed := (s.cores.filter fun e => e.2.runnable.any (·.lid == lid)).map (·.1)
  let strip := fun (x : Core) =>
    { x with
      store := x.store.filter (·.frame.lid != lid)
      runnable := x.runnable.filter (·.lid != lid)
      spilled := x.spilled.filter (·.lid != lid)
      inbox := x.inbox.filter (·.lid != lid)
      semWaiters := x.semWaiters.filter (·.lid != lid)
      retry := x.retry.filter (·.2.lid != lid) }
  listed.foldl State.relink { s with cores := s.cores.map fun e => (e.1, strip e.2) }

/-- Every slot that holds a thread of a launch. -/
def State.allSlotsOf (s : State) (lid : Nat) : List (Nat × Nat) :=
  s.cores.flatMap fun e => (s.slotsOf e.1 lid).map fun k => (e.1, k)

/-- The answer of a cut: to the MARKER that asked for it, or to the SUSPEND request. (DEDUCED, unsafe: log 22) -/
def State.answerCut (s : State) (lid lack : Nat) : State :=
  let e := s.entry lid
  let r := if lack = 0 then 0 else 2
  let s := match e.cutAsk with
    | some (c, k, n, i) => s.answerAt c k n i (.val (word (lack * 2 ^ 32 + r)))
    | none => s
  let s := match e.cutReq with
    | some (q, n, w0) => s.respond q n w0 r lack
    | none => s
  s.updLaunch lid fun x => { x with cutAsk := none, cutReq := none, cutLack := 0 }

/-- The cut is taken: every thread and message of the launch lies in its reserve. (DEDUCED, unsafe: log 25) -/
def State.cutDone (s : State) (lid : Nat) : State :=
  let taken := (s.entry lid).taken
  let s := taken.foldl (fun s e => match e.2 with
    | .msg _ m _ => s.countRecv m.dcore lid
    | .migr _ c _ _ _ => s.countRecv c lid
    | _ => s) s
  let s := s.storeBack lid
  let s := s.updLaunch lid fun x => { x with taken := [], suspended := true, cutSeen := [], cutIn := [], cutEntries := [] }
  let slots := s.allSlotsOf lid
  let s := slots.foldl (fun s e => (s.abandon e.1 e.2).updSlot e.1 e.2 fun x => { x with slice := none }) s
  slots.foldl (fun s e => s.freeSlot e.1 e.2) s

/-- The cut is abandoned (R223): the threads continue, and what was taken is delivered. -/
def State.cutAbandoned (s : State) (lid : Nat) : State :=
  let e := s.entry lid
  let s := e.cutEntries.foldl (fun s r => s.freeEntry lid r) s
  let s := s.updLaunch lid fun x =>
    { x with
      cutRecs := e.cutEntries.foldl Tab.del x.cutRecs, cutEntries := [], cutSeen := [], cutIn := [], taken := []
      held := false, waveDue := s.time }
  let s := (s.allSlotsOf lid).foldl (fun s k => s.updSlot k.1 k.2 fun x => { x with halt := false }) s
  (e.taken.foldl (fun s t => s.send t.2) s).deliverHeld lid

/-- ROUTER_REPORT (Table 10.14 step 7): with every report in, the cut ends. -/
def execRouterReport (n : Nat) (s : State) : Res :=
  .next (match s.packet? n with
    | some (.cutReport sq lid lack) =>
      if !s.cutRuns lid then s.dropPacket n
      else
        let s := (s.dropPacket n).updLaunch lid fun x =>
          { x with cutWait := x.cutWait.filter (· != sq), cutLack := x.cutLack + lack }
        let e := s.entry lid
        if !e.cutWait.isEmpty then s
        else if e.cutLack = 0 then (s.cutDone lid).answerCut lid 0
        else (s.cutAbandoned lid).answerCut lid e.cutLack
    | _ => s)

/-! ## Beginning a cut, and resuming (R220, R224) -/

/-- Every square of the package. -/
def allSquares : List Nat := List.range 1024

/-- Whether a launch can be cut: WAITING, ACTIVE or DRAINING, and not cut already. -/
def Entry.mayCut (e : Entry) : Bool := (e.st == .waiting || e.st == .active || e.st == .draining) && !e.held

/-- The home dispenser begins a cut (Table 10.14 step 1): orders go to every router, and each port sends its markers into
the mesh. A WAITING launch is held back at once. -/
def State.beginCut (s : State) (lid : Nat) : State :=
  if (s.entry lid).st = .waiting then s.updLaunch lid fun e => { e with held := true, suspended := true }
  else
    let s := s.updLaunch lid fun e =>
      { e with
        held := true, cutWait := allSquares, cutLack := 0, cutEntries := [], cutSeen := [], cutSent := [], cutIn := []
        wave := none, lastWave := none }
    let ports := (List.range 8).flatMap fun p => markerNets.map fun n => Packet.cutMarker (1024 + p) (portRouter p) n lid
    { s with net := s.net ++ (allSquares.map fun sq => Packet.cutOrder sq lid) ++ ports }

/-- The runnable references of a launch's reserve, by DCORE, in ascending entry number; the shadow of a pair goes with
its primary. -/
def State.reserveRefs (s : State) (lid : Nat) (es : List Nat) : List (Nat × RunRef) :=
  let fs := es.map fun e => (e, s.readFrame (s.entryLocs lid e))
  let shadowOf := fun (f : CtxFrame) => (fs.find? fun g =>
    g.2.twin && tswShadow g.2.ctx.tsw && g.2.slice == f.slice && g.2.dcore == twinCore f.dcore).map (·.1)
  (fs.filter fun g => !(g.2.twin && tswShadow g.2.ctx.tsw)).map fun g =>
    (g.2.dcore, { lid := lid, entry := some g.1, key := 0, mate := if g.2.twin then shadowOf g.2 else none })

/-- Places a launch's reserve entries on the runnable lists of their cores, which then serve them (R224). -/
def State.placeReserve (s : State) (lid : Nat) (es : List Nat) : State :=
  let rs := s.reserveRefs lid es
  let s := rs.foldl (fun s r => s.enlist r.1 r.2) s
  rs.foldl (fun s r => s.serveCore r.1) s

/-- The reserve entries of a launch in use, in ascending order. -/
def Entry.inUse (e : Entry) : List Nat := (List.range e.lrec.ctxres).filter e.reserve.contains

/-- A launch resumes from its cut (R224). A MOULD launch starts a new recording from the cut (R230). (DEDUCED, unsafe: log 25) -/
def State.resumeLaunch (s : State) (lid : Nat) : State :=
  let e := s.entry lid
  let s := s.updLaunch lid fun x => { x with held := false, suspended := false, waveDue := s.time }
  let s := if e.lrec.mould ∧ e.st ≠ .waiting then
      if s.mouldHeaderOk lid then
        let s := (s.markMould lid 2).setMouldWord lid 0x20 e.next
        s.updLaunch lid fun x => { x with recording := true, seqs := [], chunks := [], ords := [] }
      else (s.updLaunch lid fun x => { x with recording := false }).dieRecord (lidDie lid) 0xD6 lid
    else s
  (s.placeReserve lid e.inUse).deliverHeld lid

end Sys2Proof.Machine
end

