-- ==== Sys2Proof/Machine/System.lean ====
section
/-!
DEFINITION. The system instructions (R399-R404, Table 16.17), CTXSWAP (R218, Table 10.13) and the scrub of one vault.
-/

namespace Sys2Proof.Machine

/-- A system instruction of class P (R399): f at the lock; a twin compares first. -/
def sysOp (i : Instr) (l : Nat) (f : State → Who → Tok → Tok → Perf × State) (s : State) : State :=
  performOp i l true Tok.isNull (fun s _ _ _ => (.ok none, s)) (fun s a x y _ => f s a x y) s

/-- A result word. -/
def doneWord (n : Nat) (s : State) : Perf × State := (.done (.val (word n)) 0, s)

/-- The slot an identity token names, or none where it names none (R399). -/
def State.slotNamed (s : State) (w : Word) : Option (Nat × Nat) :=
  if wbits w 31 24 = s.pkg ∧ wbits w 12 0 ≤ Config.lastCore then some (wbits w 12 0, wbits w 21 20) else none

/-- Whether a slot holds the thread at the cursor, or its pair. -/
def State.isOwn (s : State) (c k : Nat) : Bool := s.leadSlot c k == (s.cc, s.ck)

/-! ## CSRs (R400) -/

/-- CSRRD once the thread's stores are performed (R271). -/
def doCsrrd (s : State) (_ : Who) (x _y : Tok) : Perf × State :=
  if !s.drained s.cc s.ck then (.wait, s)
  else match s.csrRead s.cc s.cur.ctx.tsw (wbits x.w 11 0) with
    | some v => (.done (.val v) 0, s)
    | none => (.refuse { cause := 0x17 } false, s)

/-- CSRRD (R399, R400). -/
def execCsrrd (p : Pr) (l t : Nat) (s : State) : Res :=
  .next (syncOp (.csrrd p l t) l false doCsrrd s)

/-- A write of the TSW, taken at commit step 2 (R400); what R114 refuses changes nothing. -/
def State.writeTsw (s : State) (v : Word) : State :=
  if tswRefused v then s else s.updF fun f => { f with tswNew := some (tswWritten s.cur.ctx.tsw v) }

/-- CSRWR at the lock: the old value. -/
def doCsrwr (s : State) (_ : Who) (x y : Tok) : Perf × State :=
  let n := wbits x.w 11 0
  match s.csrRead s.cc s.cur.ctx.tsw n with
  | none => (.refuse { cause := 0x17 } false, s)
  | some v => (.done (.val v) 0, if n = 5 then s.writeTsw y.w else s.csrWrite s.cc n y.w)

/-- What the shadow of a pair does beside taking the primary's result: g, with its own inputs. -/
def shadowDoes (i : Instr) (g : State → Tok → Tok → State) (s s' : State) : State :=
  match gather i.shape s.cur.frame s.ci, s.forwarded with
  | .vals x y _, some _ => if s.isShadow && !x.isNull && !y.isNull then g s' x y else s'
  | _, _ => s'

/-- CSRWR (R399, R400). -/
def execCsrwr (p : Pr) (l t : Nat) (s : State) : Res :=
  let i := Instr.csrwr p l t
  .next (shadowDoes i (fun s x y => if wbits x.w 11 0 = 5 then s.writeTsw y.w else s) s (sysOp i l doCsrwr s))

/-! ## Segment registers (R401) -/

/-- An ordinary access of a 16-byte image, once its port lets it. -/
def imagePerform (kind : AKind) (f : State → Nat → Nat → Perf × State) (s : State) (a : Who) (t : Tok) : Perf × State :=
  match ordAccess s a t.w 16 16 kind false 1 (some 0x24) with
  | (.error d, s) => (.refuse d false, s)
  | (.ok acc, s) =>
    match s.portSays a.core acc.locs with
    | .wait => (.wait, s)
    | .park n => (.guard acc.ea n, s)
    | .off => (.refuse { cause := 0x50, addr := acc.ea } false, s)
    | .go => f s acc.ea (acc.locs.headD 0)

/-- The check of such an access. -/
def imageCheck (kind : AKind) (l : Nat) (s : State) (a : Who) (t : Tok) (_ : Tok) :
    Except FaultD (Option (Nat × Nat)) × State :=
  match ordAccess s a t.w 16 16 kind false 1 (some 0x24) with
  | (.error d, s) => (.error d, s)
  | (.ok acc, s) => (.ok none, s.watch acc.ea 16 l (kind == .load) (kind == .store))

/-- The key under which a primary forwards a segment image to its shadow. -/
def imageKey (x : Slot) : Nat := 2 ^ 64 + fwdKey x 0

/-- SEGLD at the lock. -/
def doSegld (k : Nat) (s : State) (ea loc : Nat) : Perf × State :=
  if s.anyPois loc 16 then (.refuse { cause := 0x61, addr := ea } false, s)
  else
    let g := BitVec.ofNat 128 (s.rdMem loc 16)
    if !segOk g then (.refuse { cause := 0x12, addr := ea } false, s)
    else
      let s := match s.twinSlot s.cc s.ck with
        | some j =>
          let put := fun (t : TwinState) => { t with fwd := t.fwd.put (imageKey s.cur) (.vec (BitVec.ofNat 512 g.toNat) 0) }
          s.updSlot (twinCore s.cc) j fun y => { y with twin := y.twin.map put }
        | none => s
      (.done (.val 0) 0, (s.touchRow loc).updF fun f => { f with segNew := f.segNew.put k g })

/-- The shadow takes the image that its primary read. -/
def State.takeImage (s : State) (k : Nat) : State :=
  match s.cur.twin.bind fun t => t.fwd.find? (imageKey s.cur) with
  | some x =>
    let s := s.updF fun f => { f with segNew := f.segNew.put k (BitVec.ofNat 128 x.v.toNat) }
    s.updCur fun y => { y with twin := y.twin.map fun t => { t with fwd := t.fwd.del (imageKey y) } }
  | none => s

/-- SEGLD (R401). -/
def execSegld (p : Pr) (l t : Nat) (s : State) : Res :=
  let i := Instr.segld p l t
  let s' := performOp i l true Tok.isNull (imageCheck .load l)
    (fun s a x y _ => imagePerform .load (doSegld (wbits y.w 2 0)) s a x) s
  .next (shadowDoes i (fun s _ y => s.takeImage (wbits y.w 2 0)) s s')

/-- SEGST at the lock. -/
def doSegst (k : Nat) (s : State) (_ea loc : Nat) : Perf × State :=
  let g := (s.cur.ctx.segReg k).toNat
  let s := (s.wrWord loc (word g)).wrWord (loc + 8) (word (g / 2 ^ 64))
  (.done (.val 0) 0, (s.dropReadBufs [loc, loc + 8]).touchRow loc)

/-- SEGST (R401). -/
def execSegst (p : Pr) (l t : Nat) (s : State) : Res :=
  .next (performOp (.segst p l t) l true Tok.isNull (imageCheck .store l)
    (fun s a x y _ => imagePerform .store (doSegst (wbits y.w 2 0)) s a x) s)

/-! ## Slots (Table 16.17) -/

/-- A slot command: result 0 where it is allowed, 1 where it is not or the identity names no slot. -/
def slotCmd (own : Bool) (f : State → Nat → Nat → Option State) (s : State) (_ : Who) (x _y : Tok) : Perf × State :=
  match s.slotNamed x.w with
  | none => doneWord 1 s
  | some (c, k) =>
    if !own && s.isOwn c k then doneWord 1 s
    else match f s c k with
      | some s' => doneWord 0 s'
      | none => doneWord 1 s

/-- WAKE (R399). -/
def execWake (p : Pr) (l t : Nat) (s : State) : Res :=
  .next (sysOp (.wake p l t) l (slotCmd false State.cmdResume) s)

/-- SLOTPARK (R399). -/
def execSlotpark (p : Pr) (l t : Nat) (s : State) : Res :=
  .next (sysOp (.slotpark p l t) l (slotCmd true State.cmdPark) s)

/-- SLOTFREE (R399): bit 63 set retires, clear kills. -/
def doSlotfree (s : State) (a : Who) (x y : Tok) : Perf × State :=
  if x.w.toNat.testBit 63 then slotCmd false State.cmdRetire s a x y else slotCmd true State.cmdKill s a x y

/-- SLOTFREE (R399). -/
def execSlotfree (p : Pr) (l t : Nat) (s : State) : Res := .next (sysOp (.slotfree p l t) l doSlotfree s)

/-! ## CTXSWAP (R218) -/

/-- The address check of a context frame (R218): Address of R148 with kind store, with R asked of the segment where W is. -/
def frameAddress (a : Who) (t : Word) : Except FaultD Nat :=
  let g := Tab.rd 0 a.segs (tokSeg t)
  match address a (tokSeg t) (tokOff t) 320 1 .store with
  | .error d =>
    if d.cause ≠ 0x27 ∧ d.cause ≠ 0x20 ∧ !segRights .load g then .error { d with cause := 0x22 } else .error d
  | .ok ea =>
    if segRights .load g then .ok ea else .error { cause := 0x22, addr := (segBase g + tokOff t) % 2 ^ 56 }

/-- Translates one page's part of a frame for W and then for R; a page that lacks either faults alike (R218). -/
def translateBoth (a : Who) (s : State) (ea n : Nat) : Except FaultD (List Piece) × State :=
  match translateAll a .store 2 s ea n with
  | (.error d, s) => (.error d, s)
  | (.ok ps, s) => match translateAll a .load 2 s ea n with
    | (.error d, s) => (.error { d with cause := 0x3A }, s)
    | (.ok _, s) => (.ok ps, s)

/-- The 320 locations of a context frame; none where it is misaligned or no vault memory of the package. -/
def swapLocs (s : State) (a : Who) (t : Word) : Except FaultD (Option (List Nat)) × State :=
  match frameAddress a t with
  | .error d => (.error d, s)
  | .ok ea =>
    if regionOf (isSvc a.core) ea ≠ .virt ∨ ea % 64 ≠ 0 then (.ok none, s)
    else
      let n := min 320 (2 ^ 16 - ea % 2 ^ 16)
      match translateBoth a s ea n with
      | (.error d, s) => (.error d, s)
      | (.ok ps, s) => match translateBoth a s (ea + n) (320 - n) with
        | (.error d, s) => (.error d, s)
        | (.ok qs, s) =>
          let ps := ps ++ qs
          let far := ps.any fun p => match p.phys with
            | .far _ _ _ => true
            | .here _ => false
          if far then (.ok none, s)
          else (.ok (some (ps.flatMap fun p => match p.phys with
            | .here loc => locRange loc p.len
            | .far _ _ _ => [])), s)

/-- A word of a frame that has a reserved bit set, or a field at a reserved value (Tables 7.1-7.3, 7.6, R9, R113); a
poisoned word is lost instead (R217). -/
def frameWordBad (o : Nat) (v : Word) : Bool :=
  if o = 0x20 then wbits v 62 32 != 0
  else if o = 0xA8 then wbits v 63 56 != 0 || wbits v 3 0 != 0
  else if o = 0xB0 then !tswOk v || (tswShadow v && !tswTwin v)
  else if o = 0xB8 then wbits v 58 56 != 0
  else decide (0xC0 ≤ o) && o % 16 == 8 && wbits v 63 48 != 0

/-- A full frame that is not accepted (Table 10.13): its header poisoned, of another KIND or with a reserved bit set, a
reserved bit set in another word, or a launch id that is not live. (DEDUCED, unsafe: log 23) -/
def State.frameBad (s : State) (ls : List Nat) (f : CtxFrame) : Bool :=
  let h := s.rdMem (ls.headD 0) 8
  s.mem.isPois (ls.headD 0) || bits h 63 60 != 4 || bits h 57 56 != 0 || bits h 31 29 != 0 || bits h 15 0 != 0 ||
    (f.lid != 0 && !s.lidLive f.lid) ||
    (List.range 36).any fun i => match ls[0x20 + 8 * i]? with
      | some loc => !s.mem.isPois loc && frameWordBad (0x20 + 8 * i) (s.rdWord loc)
      | none => false

/-- Exchanges the context in a slot with a frame: the frame it reads is loaded, or the slot left FREE. (DEDUCED, unsafe: log 23) -/
def State.swapOne (s : State) (c k : Nat) (ls : List Nat) (f : CtxFrame) (shadow : Bool) : State :=
  let L := fun (off : Nat) => ls[off]?
  let x := s.slot c k
  let old := s.frameOf c k c 0
  let s := (s.dropWaiters c k).touchFrame L
  let F := ls.headD 0
  let tid := Tab.rd 0 s.outTids F
  let s := if x.st = .free then s.setFull F false
    else { (s.writeFrame L old).wakeWord F [1] with outTids := Tab.set 0 s.outTids F x.tid }
  if f.full then
    let g := { f with ctx := { f.ctx with tsw := wput f.ctx.tsw 61 61 shadow.toNat }, tid := tid }
    (s.loadFrame c k g 0 false).updSlot c k fun y => { y with spilling := false, halt := false }
  else s

/-- What the port answers to an access to a frame (R162, R380); f where it lets it pass. -/
def frameGate (s : State) (a : Who) (t : Word) (ls : List Nat) (f : State → Perf × State) : Perf × State :=
  match s.portSays a.core ls with
  | .wait => (.wait, s)
  | .park n => (.guard (tokEa a t) n, s)
  | .off => (.refuse { cause := 0x50, addr := tokEa a t } false, s)
  | .go => f s

/-- The part of CTXSWAP once its frame is found. (DEDUCED, unsafe: log 23) -/
def State.ctxswap (s : State) (a : Who) (t : Word) (ls : List Nat) (c k : Nat) : Perf × State :=
  let L := fun (off : Nat) => ls[off]?
  let x := s.slot c k
  let f := s.readFrame L
  let twin := if x.st = .free then f.full && f.twin else x.twin.isSome
  let other := if x.st = .free then s.openSlot (twinCore c) else s.twinSlot c k
  if x.st = .load ∨ x.st = .out ∨ x.halt ∨ (x.st = .free ∧ x.held) ∨ s.isOwn c k then doneWord 1 s
  else if f.full ∧ s.frameBad ls f then doneWord 2 s
  else if (f.full ∧ f.twin ≠ twin) ∨ (twin ∧ (isSvc c ∨ c % 2 = 1)) then doneWord 3 s
  else if x.committing then (.wait, s.updSlot c k fun y => { y with swapBy := some (s.cc, s.ck, s.cur.fseq) })
  else if x.uncompared then (.wait, s.forceAt c k)
  else if !twin then
    let s := (s.abandon c k).swapOne c k ls f false
    doneWord 0 (if f.full then s else s.freeSlot c k)
  else match swapLocs s a (t + 320), other with
    | (.error d, s), _ => (.refuse d false, s)
    | (.ok none, s), _ => doneWord 4 s
    | (.ok _, s), none => doneWord 1 s
    | (.ok (some ls'), s), some j =>
      let c' := twinCore c
      let f' := { s.readFrame (fun off => ls'[off]?) with full := f.full }
      frameGate s a (t + 320) ls' fun s =>
        if f.full ∧ s.frameBad ls' f' then doneWord 2 s
        else if f.full ∧ !f'.twin then doneWord 3 s
        else
          let s := s.abandon c k
          let s := (s.swapOne c k ls f false).swapOne c' j ls' f' true
          doneWord 0 (if f.full then s.pairUp c k j else (s.freeSlot c' j).freeSlot c k)

/-- CTXSWAP at the lock. -/
def doCtxswap (s : State) (a : Who) (x y : Tok) : Perf × State :=
  match s.slotNamed x.w with
  | none => doneWord 1 s
  | some (c, k) =>
    match swapLocs s a y.w with
    | (.error d, s) => (.refuse d false, s)
    | (.ok none, s) => doneWord 4 s
    | (.ok (some ls), s) => frameGate s a y.w ls fun s =>
      let (c, k) := s.leadSlot c k
      s.ctxswap a y.w ls c k

/-- The check of CTXSWAP's frame token. -/
def ctxswapCheck (s : State) (a : Who) (x y : Tok) : Except FaultD (Option (Nat × Nat)) × State :=
  match s.slotNamed x.w with
  | none => (.ok none, s)
  | some _ =>
    match swapLocs s a y.w with
    | (.error d, s) => (.error d, s)
    | (.ok none, s) => (.ok none, s)
    | (.ok (some _), s) => (.ok (some (tokEa a y.w, 320)), s)

/-- CTXSWAP (R218). -/
def execCtxswap (p : Pr) (l t : Nat) (s : State) : Res :=
  .next (performOp (.ctxswap p l t) l true Tok.isNull ctxswapCheck (fun s a x y _ => doCtxswap s a x y) s)

/-! ## TLBINV (R402) -/

/-- The cores whose TLBs a reach covers. -/
def reachCores (c reach : Nat) : List Nat → List Nat :=
  List.filter fun d =>
    if reach = 0 then d == c
    else if reach = 1 then d == c || (!isSvc d && squareOf d == squareOf c)
    else if reach = 2 then dieOf d == dieOf c
    else true

/-- TLBINV at the lock. -/
def doTlbinv (s : State) (_ : Who) (x _y : Tok) : Perf × State :=
  let w := x.w
  let reach := wbits w 62 60
  let va := wbits w 55 16 * 2 ^ 16
  let keep := fun (e : TlbEntry) => !w.toNat.testBit 63 && !(decide (e.page ≤ va) && decide (va < e.page + e.size))
  if 4 ≤ reach then (.refuse { cause := 0x16 } false, s)
  else (.done (.val 0) 0, (reachCores s.cc reach (s.cores.map (·.1))).foldl (fun s d =>
    s.updCore d fun y => { y with tlb := y.tlb.filter keep }) s)

/-- TLBINV (R402). -/
def execTlbinv (p : Pr) (l : Nat) (s : State) : Res := .next (sysOp (.tlbinv p l) l doTlbinv s)

/-! ## MARKER, QWAVE, TWIN and SCRUB (R403, R404, R227) -/

/-- The instruction at the cursor asks and waits: who asks, for the answer. -/
def State.asker (s : State) : Nat × Nat × Nat × Nat := (s.cc, s.ck, s.cur.fseq, s.ci)

/-- Notes that the instruction at the cursor waits for an answer. -/
def State.asks (s : State) : State := s.updF fun f => { f with asked := f.asked.put s.ci 0 }

/-- Whether the instruction at the cursor waits for its answer. -/
def State.asking (s : State) : Bool := (s.cur.frame.asked.find? s.ci).isSome

/-- MARKER at the lock. (DEDUCED, unsafe: log 25) -/
def doMarker (s : State) (_ : Who) (x _y : Tok) : Perf × State :=
  let lid := wbits x.w 15 0
  let e := s.entry lid
  if s.asking then (.wait, s)
  else if !s.lidLive lid ∨ e.st = .ending then doneWord 1 s
  else if e.suspended then doneWord 0 s
  else if !e.mayCut then (.wait, s)
  else if e.st = .waiting then doneWord 0 (s.beginCut lid)
  else (.wait, ((s.asks).updLaunch lid fun y => { y with cutAsk := some s.asker }).beginCut lid)

/-- MARKER (R403). -/
def execMarker (p : Pr) (l t : Nat) (s : State) : Res := .next (sysOp (.marker p l t) l doMarker s)

/-- QWAVE at the lock. -/
def doQwave (s : State) (_ : Who) (x _y : Tok) : Perf × State :=
  let t := s.totals (wbits x.w 15 0)
  doneWord (t.1 % 2 ^ 32 * 2 ^ 32 + t.2 % 2 ^ 32) s

/-- QWAVE (R403). -/
def execQwave (p : Pr) (l t : Nat) (s : State) : Res := .next (sysOp (.qwave p l t) l doQwave s)

/-- TWIN at the lock. -/
def doTwin (s : State) (_ : Who) (x _y : Tok) : Perf × State :=
  if s.asking then (.wait, s)
  else match s.slotNamed x.w with
    | none => doneWord 1 s
    | some (c, k) =>
      let (c, k) := s.leadSlot c k
      let y := s.slot c k
      if y.twin.isNone then doneWord 1 s
      else if !y.uncompared then doneWord 0 s
      else
        let who := s.asker
        (.wait, ((s.asks).forceAt c k).updSlot c k fun y =>
          { y with twin := y.twin.map fun t => { t with asks := t.asks ++ [who] } })

/-- TWIN (Table 16.17). -/
def execTwin (p : Pr) (l t : Nat) (s : State) : Res := .next (sysOp (.twin p l t) l doTwin s)

/-- SCRUB at the lock: the pass starts, and its end answers. -/
def doScrub (s : State) (_ : Who) (x _y : Tok) : Perf × State :=
  let c := wbits x.w 11 0
  let pass := wbits x.w 13 12
  if s.asking then (.wait, s)
  else if pass = 3 then doneWord (2 ^ 63) s
  else if (s.vault c).scrub.isSome then (.wait, s)
  else
    let who := s.asker
    (.wait, (s.asks).updVault c fun v => { v with scrub := some (pass, who) })

/-- SCRUB (R404). -/
def execScrub (p : Pr) (l t : Nat) (s : State) : Res := .next (sysOp (.scrub p l t) l doScrub s)

/-- Writes the pattern of pass 1 to n words of a vault, full and unpoisoned (R65). -/
def State.fillPattern (s : State) (c : Nat) : Nat → State
  | 0 => s
  | n + 1 =>
    let s := s.fillPattern c n
    (s.wrWord (vaultLoc c (8 * n)) (word (scrubPattern (8 * n)))).setFull (vaultLoc c (8 * n)) true

/-- A word of a vault reads back as the pattern, full and unpoisoned. -/
def State.holdsPattern (s : State) (c o : Nat) : Bool :=
  let loc := vaultLoc c o
  s.rdMem loc 8 == scrubPattern o && s.mem.isFull loc && !s.mem.isPois loc

/-- The rows of a vault with a word that does not read back; bad names rows whose words the hardware reads wrong. -/
def State.badRows (s : State) (c : Nat) (bad : List RowName) : List (Nat × Nat) :=
  (List.range 32).flatMap fun b => ((List.range 2048).filter fun r =>
    bad.any (fun x => x.core == c && x.bank == b && x.row == r) ||
      !(List.range 256).all fun i => s.holdsPattern c (rowOff b r (8 * i))).map fun r => (b, r)

/-- SCRUB_PASS_COMPLETE (R404, R65): the pass over the vault of core c ends and its result is delivered. -/
def execScrubPassComplete (c : Nat) (bad : List RowName) (s : State) : Res :=
  .next (match (s.vault c).scrub with
    | none => s
    | some (pass, k0, k, n, i) =>
      let s := s.updVault c fun v => { v with scrub := none }
      let end_ := fun (s : State) (r : Nat) => s.answerAt k0 k n i (.val (word r))
      if pass = 0 then end_ ((s.fillPattern c (2 ^ 24)).dropRange (vaultLoc c 0) (vaultLoc c (2 ^ 27))) 0
      else if pass = 1 then
        let rows := s.badRows c bad
        end_ (s.updVault c fun v => { v with candidates := v.candidates ++ rows }) rows.length
      else end_ (s.clearMem (vaultLoc c 0) (vaultLoc c (2 ^ 27))) 0)

end Sys2Proof.Machine
end

