-- ==== Sys2Proof/Machine/Launch.lean ====
section
/-!
DEFINITION. Launches at their home dispenser: queues and records (R52-R57, R75-R79), a replay's mould (R231), the end of a
launch (R58-R60, R94-R97) and its quiescence waves (R143).
-/

namespace Sys2Proof.Machine

/-! ## Queues (R52, Table 3.8) -/

/-- A work queue descriptor. -/
structure Desc where
  loc : Nat
  ring : Nat
  root : Nat
  consumed : Nat
  weight : Nat
  log2n : Nat
  en : Bool
  irqen : Bool
  vec : Nat
  ok : Bool
  deriving DecidableEq, Repr

/-- The fields of a descriptor of 256 bits that lies at a location. -/
def descOf (loc v : Nat) : Desc :=
  let rsvd := bits v 5 0 + bits v 63 56 + bits v 75 64 + bits v 127 120 + bits v 207 206 + bits v 223 219
  { loc := loc, ring := bits v 55 6 * 64, root := bits v 119 76 * 2 ^ 12, consumed := bits v 191 128
    weight := bits v 199 192, log2n := bits v 203 200, en := v.testBit 204, irqen := v.testBit 205, vec := bits v 218 208
    ok := rsvd == 0 && decide (16 ≤ bits v 218 208) && bits v 203 200 != 0 && bits v 199 192 != 0 }

/-- The descriptor of queue q of die d; none while DQBASE is 0 or names no vault memory (R400). -/
def State.desc (s : State) (d q : Nat) : Option Desc :=
  let base := (s.die d).dqbase.toNat
  if base = 0 ∨ 8192 ≤ q then none else (physLoc (base + 32 * q)).map fun loc => descOf loc (s.rdMem loc 32)

/-- Record slot k mod 2^LOG2N of a queue: the location of its byte o. (DESIGN CHOICE, unsafe: log 73) -/
def State.slotLoc (s : State) (x : Desc) (k o : Nat) : Option Nat :=
  s.vaLoc x.root (x.ring + 64 * (k % 2 ^ x.log2n) + o) .store

/-- A record slot, or its queue's descriptor, on a layer that is powering on (R162). -/
def State.slotWaits (s : State) (x : Desc) (k : Nat) : Bool :=
  s.layerBusy x.loc || s.vaWaits x.root (x.ring + 64 * (k % 2 ^ x.log2n)) .store

/-- Whether word 7 of a slot is full (R53). -/
def State.slotFull (s : State) (x : Desc) (k : Nat) : Bool :=
  match s.slotLoc x k 56 with
  | some loc => s.mem.isFull loc
  | none => false

/-- The 512 bits of the record in a slot. -/
def State.slotRecord (s : State) (x : Desc) (k : Nat) : Nat :=
  match s.slotLoc x k 0 with
  | some loc => s.rdMem loc 64
  | none => 0

/-! ## The launch record (Table 3.9) -/

/-- The fields of a launch record. -/
def recOf (v : Nat) : LaunchRec :=
  let dep := fun (n : Nat) => sgn 32 (bits v (351 + 32 * n) (320 + 32 * n))
  { prio := bits v 506 504, irq := v.testBit 502, indep := v.testBit 501, abortOnFault := v.testBit 500
    replay := v.testBit 499, mould := v.testBit 498, twin := v.testBit 497, det := v.testBit 496
    ctxres := bits v 495 480, sigd := sgn 32 (bits v 479 448)
    deps := [dep 0, dep 1, dep 2, dep 3].filter (· != 0)
    larea := bits v 311 262 * 64, segt := bits v 247 198 * 64, dmask := BitVec.ofNat 64 (bits v 191 128)
    argp := word (bits v 127 64), slices := bits v 63 32 + 1, entry := bits v 31 0 }

/-- Check 2 of R56 on the record alone. (DEDUCED, unsafe: log 9) -/
def recOk (v die : Nat) : Bool :=
  let r := recOf v
  bits v 511 508 == 5 && !v.testBit 507 && !v.testBit 503 && bits v 319 312 == 0 && bits v 261 248 == 0 &&
    bits v 197 192 == 0 && !(decide (-7 ≤ r.sigd) && decide (r.sigd ≤ 0)) &&
    bits r.dmask.toNat (16 * die + 15) (16 * die) != 0 && (!r.replay || r.det)

/-- The segment template of a record; none where it is not readable or an image has a reserved bit set (R76). -/
def State.template (s : State) (root : Nat) (r : LaunchRec) : Option (Tab (BitVec 128)) :=
  (List.range 8).foldl (fun t k =>
    match t, s.vaLoc root (r.segt + 16 * k) .load with
    | some t, some loc =>
      let g := BitVec.ofNat 128 (s.rdMem loc 16)
      if segOk g then some (Tab.set 0 t k g) else none
    | _, _ => none) (some [])

/-- A range of an address space is mapped and writable throughout. -/
def State.mapped (s : State) (root lo n : Nat) : Bool :=
  (List.range ((lo % 2 ^ 16 + n + 2 ^ 16 - 1) / 2 ^ 16)).all fun i =>
    (s.vaLoc root (max lo (lo / 2 ^ 16 * 2 ^ 16 + i * 2 ^ 16)) .store).isSome

/-- The signal word of a launch. -/
def State.signalLoc (s : State) (lid : Nat) : Option Nat := s.areaLoc lid ((s.entry lid).lrec.sigd * 8)

/-- The address of the signal word of a launch record. -/
def LaunchRec.signal (r : LaunchRec) : Nat := trunc 56 (r.larea + r.sigd * 8)

/-- The address of the launch area of a dependence. -/
def LaunchRec.depAt (r : LaunchRec) (k : Int) : Nat := trunc 56 (r.larea + k * 64)

/-- An access to the completion record or the signal word of a launch waits (R162). -/
def State.doneWaits (s : State) (root : Nat) (r : LaunchRec) : Bool :=
  s.rangeWaits root r.larea 64 || s.vaWaits root r.signal .store

/-- An access to a dependence's record waits. -/
def State.depsWait (s : State) (root : Nat) (r : LaunchRec) : Bool := r.deps.any fun k => s.vaWaits root (r.depAt k) .load

/-- An access that the checks and the preparation of a record make waits. -/
def State.prepareWaits (s : State) (root : Nat) (r : LaunchRec) : Bool :=
  s.rangeWaits root r.larea (64 + 320 * r.ctxres) || s.doneWaits root r || s.depsWait root r ||
    (List.range 8).any fun k => s.vaWaits root (r.segt + 16 * k) .load

/-- The rows that reading a record's template and dependences opens (R158). -/
def State.touchPrepare (s : State) (root : Nat) (r : LaunchRec) : State :=
  ((List.range 8).map (fun k => r.segt + 16 * k) ++ r.deps.map r.depAt).foldl (fun s a => s.touchVa root a .load) s

/-- Word i of the completion record. -/
def State.setDone (s : State) (lid i : Nat) (v : Word) : State :=
  match s.areaLoc lid (8 * i : Nat) with
  | some loc => (s.touchVa (s.entry lid).root ((s.entry lid).lrec.larea + 8 * i) .store).dispWrite loc v
  | none => s

/-- Whether a write of a launch waits in a store buffer, at a core, or for its acknowledgement, in a scope. -/
def State.writesWait (s : State) (lid : Nat) (x : Scope) : Bool :=
  (s.cores.any fun y =>
    (y.2.sb.any fun e => e.lid == lid && (match e.op with
      | .remote op _ => scopeHas y.1 x op.place
      | _ => true)) || y.2.posts.any fun op => op.lid == lid && scopeHas y.1 x op.place) ||
    s.unack.any fun u => u.lid == lid && scopeHas u.core x u.place

/-- The scope of the release of a completion record (R59 step 2). -/
def State.doneScope (s : State) (lid : Nat) : Scope :=
  let e := s.entry lid
  match s.desc (lidDie lid) e.queue with
  | some x => if e.lrec.irq && !x.irqen then .sys else .pkg
  | none => .pkg

/-! ## Completion (R59) -/

/-- Shadows of a launch leave the tables of its guests. -/
def State.dropGuests (s : State) (lid : Nat) : State :=
  let mine := fun (g : Guest) => g.home == lidDie lid && g.homeEntry == lidEntry lid
  (s.entry lid).guests.foldl (fun s d =>
    let gs := (s.die d).guests.filter mine
    let s := gs.foldl (fun s g => s.updEntry d g.shadow fun x =>
      { x with st := .ended, endedAt := s.time, avail := false }) s
    s.updDie d fun x => { x with guests := x.guests.filter fun g => !mine g }) s

/-- The record, the signal word and the MSI-X trigger, in this order; the entry is ENDED (R59). The signal word holds
LSEQ modulo 2^63 under its bit 63. (DESIGN CHOICE, unsafe: log 77) -/
def State.complete (s : State) (lid status : Nat) : State :=
  let e := s.entry lid
  let ws : List (Nat × Word) := [(1, word e.retired), (2, word e.tstart), (3, word s.time), (4, word e.discarded),
    (5, word e.withheld), (6, word (e.waves % 2 ^ 32)), (7, word e.lseq)]
  let s := ws.foldl (fun s w => s.setDone lid w.1 w.2) s
  let s := s.setDone lid 0 (word (e.faults % 2 ^ 32 * 2 ^ 32 + e.cause % 2 ^ 8 * 2 ^ 8 + status))
  let s := match s.signalLoc lid with
    | some loc => ((s.dropReadBufs [loc]).storeFull loc (word (2 ^ 63 + e.lseq % 2 ^ 63))).touchRow loc
    | none => s
  let s := match s.desc (lidDie lid) e.queue with
    | some x => if e.lrec.irq && x.irqen then s.msix (4 * lidDie lid) x.vec else s
    | none => s
  let s := s.dropGuests lid
  (s.updLaunch lid fun x =>
    { x with
      st := .ended, endedAt := s.time, avail := false, tend := s.time, status := status, recording := false }).noteAllAges

/-! ## Reading records (R56, R76-R78) -/

/-- The entry that a record is read into: available, and ENDED longest (R75). (DEDUCED, unsafe: log 15) -/
def State.freeEntryOf (s : State) (d : Nat) : Option Nat :=
  (List.range 512).foldl (fun a e =>
    let x := s.entryAt d e
    if x.st == .ended && x.avail then
      match a with
      | none => some e
      | some f => if x.endedAt < (s.entryAt d f).endedAt then some e else a
    else a) none

/-- The next generation of an entry (R75). -/
def nextGen (g : Nat) : Nat := g % 31 + 1

/-- Entries of a queue that are not ENDED. -/
def State.queueLoad (s : State) (d q : Nat) : Nat :=
  ((s.die d).table.filter fun e => e.2.st != .ended && e.2.st != .guest && e.2.queue == q).length

/-- Frees slots in ring order up to the first that is not read (R53): word 7 empty, CONSUMED counted. -/
def State.freeSlots : Nat → Nat → Nat → State → State
  | 0, _, _, s => s
  | f + 1, d, q, s =>
    match s.desc d q with
    | none => s
    | some x =>
      if (s.queue d q).early.contains x.consumed then
        let s := match s.slotLoc x x.consumed 56 with
          | some loc => s.setFull loc false
          | none => s
        let s := s.dispWrite (x.loc + 16) (word (x.consumed + 1))
        (s.updQueue d q fun y => { y with early := y.early.filter (· != x.consumed) }).freeSlots f d q
      else s

/-- A readable byte of an address space. -/
def State.readable (s : State) (root : Nat) (va : Nat) : Option Nat := s.vaLoc root va .load

/-- The checks and the preparation of a record read into an entry (R56); nothing has been applied for its launch id (R328). -/
def State.prepare (s : State) (d q e n v : Nat) (x : Desc) : State :=
  let r := recOf v
  let old := s.entryAt d e
  let lid := lidOf d e (nextGen old.gen)
  let fresh := fun (k : Nat) (w : RoWord) => if k / 2 ^ 40 = lid then { w with maxApplied := 0 } else w
  let s : State := { s with ro := s.ro.map fun w => (w.1, fresh w.1 w.2) }
  let s := (s.updEntry d e fun _ =>
    { gen := nextGen old.gen, queue := q, lrec := r, root := x.root, lseq := n, order := s.serial
      st := .waiting }).nextSerial
  let areaOk := s.mapped x.root r.larea (64 + 320 * r.ctxres) &&
    s.mapped x.root r.signal 8
  if !areaOk then
    let rej := wbits (s.rdWord (x.loc + 24)) 47 32
    let s := s.dispWrite (x.loc + 24) (wput (s.rdWord (x.loc + 24)) 47 32 (min 0xFFFF (rej + 1)))
    (s.updEntry d e fun y => { y with st := .ended, endedAt := s.time, avail := false }).dieRecord d 0xF1 0
  else match s.template x.root r with
    | none => s.complete lid 6
    | some segs =>
      if !recOk v d then s.complete lid 6
      else if !r.deps.all (fun k => (s.readable x.root (r.depAt k)).isSome) then s.complete lid 7
      else
        let s := s.updEntry d e fun y => { y with segs := segs }
        let s := s.setDone lid 0 (word 0x0F)
        let s := (List.range 6).foldl (fun s i => s.setDone lid (i + 1) 0) s
        let s := s.setDone lid 7 (word n)
        match s.signalLoc lid with
        | some loc => (s.dispWrite loc 0).setFull loc false
        | none => s

/-- Reads record n of a queue into entry e, and frees what can be freed; an access that meets a layer that is powering on
waits (R162). -/
def State.readRecord (s : State) (d q e n : Nat) (x : Desc) : State :=
  let v := s.slotRecord x n
  if s.prepareWaits x.root (recOf v) then s
  else
    let s := ((s.touchRow x.loc).touchVa x.root (x.ring + 64 * (n % 2 ^ x.log2n)) .store).touchPrepare x.root (recOf v)
    ((s.prepare d q e n v x).updQueue d q fun y => { y with early := y.early ++ [n] }).freeSlots 16 d q

/-- Whether record n, ahead of the next by k slots, may be read early (R78). -/
def State.mayReadAhead (s : State) (d q k : Nat) (x : Desc) : Bool :=
  let num := fun (j : Nat) => (x.consumed + j) % 2 ^ 64
  let cand := fun (j : Nat) => !(s.queue d q).early.contains (num j) && s.slotFull x (num j) &&
    (s.slotRecord x (num j)).testBit 501
  decide (k ≤ 7) && decide (k < 2 ^ x.log2n) && !s.slotFull x x.consumed && cand k &&
    !((List.range k).any fun j => j != 0 && cand j)

/-- DISPENSER_READ_RECORD (R52, R56, R76-R79): the dispenser of a die looks at queue q; ahead 0 reads the next record in
ring order, 1-7 one of the early records of R78. (DEDUCED, unsafe: log 84) -/
def execDispenserReadRecord (die q ahead : Nat) (s : State) : Res :=
  let d := die % 4
  .next (match s.desc d q with
    | none => s
    | some x =>
      if !x.en then s.updQueue d q fun y => { y with lastSeen := false, f0 := false }
      else
        let s := if (s.queue d q).lastSeen then s
          else s.updQueue d q fun y => { y with credit := x.weight, lastSeen := true }
        if !x.ok then
          (if (s.queue d q).f0 then s else (s.updQueue d q fun y => { y with f0 := true }).dieRecord d 0xF0 0)
        else if (List.range 512).all fun e => (s.entryAt d e).st == .waiting then
          (if (s.die d).f3 then s else (s.updDie d fun y => { y with f3 := true }).dieRecord d 0xF3 0)
        else
          let s := s.updDie d fun y => { y with f3 := false }
          match s.freeEntryOf d with
          | none => s
          | some e =>
            if 32 ≤ s.queueLoad d q ∨ s.slotWaits x x.consumed ∨ s.slotWaits x (x.consumed + ahead) then s
            else if ahead = 0 then (if s.slotFull x x.consumed then s.readRecord d q e x.consumed x else s)
            else if s.mayReadAhead d q ahead x then s.readRecord d q e ((x.consumed + ahead) % 2 ^ 64) x
            else s)

/-- ENTRY_REUSE_DELAY (R75). -/
def execEntryReuseDelay (die e : Nat) (s : State) : Res :=
  let d := die % 4
  let x := s.entryAt d e
  .next (if x.st = .ended ∧ x.endedAt + 1000000 ≤ s.time then s.updEntry d e fun y => { y with avail := true } else s)

/-! ## A replay's mould (R231) -/

/-- The entry at an offset of the mould area. -/
def State.mouldEntryAt (s : State) (lid off : Nat) : MouldEntry :=
  let lo := s.mouldWord lid off
  let hi := s.mouldWord lid (off + 8)
  ⟨bits hi 63 60, bits hi 59 48, bits hi 47 0, word lo⟩

/-- The unit whose stream an entry belongs to. (DEDUCED, unsafe: log 17) -/
def MouldEntry.key (m : MouldEntry) : Nat :=
  match m.kind with
  | 1 => unitDie m.unit
  | 4 => unitAgent m.unit
  | 5 => unitBank (if m.a.testBit 47 then sqLoc (squareOf m.unit) (bits m.a 23 0) else tcmLoc m.unit (bits m.a 23 0))
  | 7 => unitPort m.unit
  | _ => unitCore m.unit

/-- Adds a chunk's entries to the units' streams, up to the first that was not written. raw counts the raw entries that
still follow a transaction of the unit of key. (DEDUCED, unsafe: log 17) -/
def addEntries : List MouldEntry → Nat → Nat → Tab (List MouldEntry) → Tab (List MouldEntry)
  | [], _, _, t => t
  | m :: ms, raw + 1, key, t => addEntries ms raw key (t.put key (Tab.rd [] t key ++ [m]))
  | m :: ms, 0, _, t =>
    if m.kind = 0 then t
    else addEntries ms (if m.kind = 7 then ceilDiv (bits m.a 8 0) 16 else 0) m.key
      (t.put m.key (Tab.rd [] t m.key ++ [m]))

/-- Whether the Pyzil header of a mould that is to be replayed is one (R229): its values, and its reserved fields zero (R9). -/
def State.replayHeaderOk (s : State) (lid : Nat) : Bool :=
  let w := fun (i : Nat) => s.mouldWord lid (8 * i)
  w 0 == 0x1_4C5A_5950 && w 1 % 4096 == 0 && w 2 % 4096 == 0 && decide (4096 ≤ w 2) && decide (w 2 ≤ w 1) &&
    decide (w 3 < 8) && w 6 == 0 && w 7 == 0

/-- Gives each unit its chunks in sequence order (R231); a malformed mould is rejected with record 0xD6, and the launch
runs free. (DEDUCED, unsafe: log 17) -/
def State.loadMould (s : State) (lid : Nat) : State :=
  if !s.replayHeaderOk lid then
    (s.updLaunch lid fun e => { e with units := [], freeRun := true }).dieRecord (lidDie lid) 0xD6 lid
  else
    let n := (min (s.mouldWord lid 0x10) (s.mouldWord lid 8) - 4096) / 4096
    let units := (List.range n).foldl (fun t i =>
      addEntries ((List.range 255).map fun j => s.mouldEntryAt lid (4096 + 4096 * i + 16 * (j + 1))) 0 0 t) []
    s.updLaunch lid fun e =>
      { e with
        units := units, unmetSince := units.map fun u => (u.1, s.time), freeRun := false
        trunc := (s.mouldWord lid 0x18).testBit 0 }

/-- The numbers below n as ranges, without the listed ones, of which l holds each once in ascending order. -/
def rangesWithout (n : Nat) : Nat → List Nat → List (Nat × Nat)
  | lo, [] => if lo < n then [(lo, n)] else []
  | lo, x :: l => (if lo < min x n then [(lo, min x n)] else []) ++ rangesWithout n (max lo (x + 1)) l

/-- A list of numbers in ascending order, each once. -/
def ascending (l : List Nat) : List Nat :=
  l.foldl (fun a x => if a.contains x then a
    else a.takeWhile (fun y => decide (y < x)) ++ [x] ++ a.dropWhile fun y => decide (y < x)) []

/-- A replay that starts from a cut takes its reserve and its next slice from it (R231). Of the slices below, those of the
reserve's contexts run on, those that the mould starts were not dispensed, and the others had ended. (DEDUCED, unsafe: log 17) -/
def State.fromCut (s : State) (lid : Nat) : State :=
  if (s.entry lid).enforcing && (s.mouldWord lid 0x18).testBit 2 then
    let es := (List.range (s.entry lid).lrec.ctxres).filter fun e => match s.entryLocs lid e 0 with
      | some loc => s.mem.isFull loc
      | none => false
    let n := s.mouldWord lid 0x20
    let inside := es.filterMap fun e => (s.readFrame (s.entryLocs lid e)).slice
    let starts := ascending (((s.entry lid).units.flatMap fun u => u.2.filterMap fun m =>
      if m.kind = 1 then some (wbits m.b 63 32) else none).filter fun i => decide (i < n))
    (s.updLaunch lid fun x =>
      { x with
        next := n, reserve := es, returned := starts
        ended := rangesWithout n 0 (ascending (inside ++ starts)) }).placeReserve lid es
  else s

/-! ## Taking a record (R57, R77) -/

/-- How the dependences of a launch stand (R57). -/
inductive Deps | met | wait | failed
  deriving DecidableEq, Repr

/-- The state of the dependences: word 0 of each named completion record. (DEDUCED, unsafe: log 11) (DESIGN CHOICE, unsafe: log 76) -/
def State.depsOf (s : State) (x : Entry) : Deps :=
  let st := fun (k : Int) => match s.readable x.root (x.lrec.depAt k) with
    | some loc => bits (s.rdMem loc 8) 7 0
    | none => 0
  if x.lrec.deps.any fun k => decide (2 ≤ st k) && decide (st k ≤ 7) then .failed
  else if x.lrec.deps.all fun k => st k == 1 then .met
  else .wait

/-- The entry becomes DRAINING once its last slice has been accepted (Table 5.1). (DEDUCED, unsafe: log 12) -/
def State.checkDraining (s : State) (lid : Nat) : State :=
  let e := s.entry lid
  let inHand := e.guests.any fun d => (s.die d).guests.any fun g =>
    g.home == lidDie lid && g.homeEntry == lidEntry lid && g.hasWork
  let onWay := s.net.any fun p => match p with
    | .start _ l _ _ _ _ => l == lid
    | _ => false
  if e.st = .active ∧ e.returned.isEmpty ∧ e.lrec.slices ≤ e.next ∧ !inHand ∧ !onWay then
    s.updLaunch lid fun x => { x with st := .draining, waveDue := s.time }
  else s

/-- An entry becomes ACTIVE: a MOULD launch begins to record, a REPLAY launch is given its mould (R230, R231). -/
def State.activate (s : State) (lid : Nat) : State :=
  let r := (s.entry lid).lrec
  let s := s.updLaunch lid fun x => { x with st := .active }
  let s := if !r.mould then s
    else if s.mouldHeaderOk lid then s.updLaunch lid fun x => { x with recording := true }
    else s.dieRecord (lidDie lid) 0xD6 lid
  let s := if r.replay then (s.loadMould lid).fromCut lid else s
  (s.checkDraining lid).noteAges (lidDie lid)

/-- The launch id of entry e of die d. -/
def State.lidAt (s : State) (d e : Nat) : Nat := lidOf d e (s.entryAt d e).gen

/-- RECORD_TAKE (R77): the earlier entries of a queue are those read before. (DESIGN CHOICE, unsafe: log 16) -/
def execRecordTake (die e : Nat) (s : State) : Res :=
  let d := die % 4
  let x := s.entryAt d e
  let earlier := (s.die d).table.any fun y => y.2.st == .waiting && y.2.queue == x.queue && decide (y.2.order < x.order)
  .next (if x.st ≠ .waiting ∨ x.held ∨ (!x.lrec.indep ∧ earlier) ∨ s.depsWait x.root x.lrec ∨ s.doneWaits x.root x.lrec then s
    else match s.depsOf x with
      | .wait => s
      | .failed => s.complete (s.lidAt d e) 7
      | .met => s.activate (s.lidAt d e))

/-! ## Ends (R94-R97) -/

/-- SLICE_END_REPORT (R94). What reaches the home dispenser after the kill wave counts in RETIRED no more (R96). -/
def execSliceEndReport (n : Nat) (s : State) : Res :=
  .next (match s.packet? n with
    | some (.sliceEnd lid slice retired) =>
      let s := s.dropPacket n
      let e := s.entry lid
      if s.lidLive lid then s.endSlice lid slice (retired && (e.st != .ending || e.killWave)) else s
    | _ => s)

/-- The wave of a launch passes a core or a port (8,192 + port) that it has not passed yet, and adds its pair. -/
def State.wavePass (s : State) (lid unit : Nat) : State :=
  let p := pairOf (if 8192 ≤ unit then (s.port (unit - 8192)).counts else (s.core unit).counts) lid
  s.updLaunch lid fun x => match x.wave with
    | none => x
    | some (a, b, t) =>
      if x.waveSeen.contains unit then x
      else { x with wave := some ((a + p.1) % 2 ^ 32, (b + p.2) % 2 ^ 32, t), waveSeen := x.waveSeen ++ [unit] }

/-- QUIESCENCE_WAVE (R143): a wave of a DRAINING launch starts, or the wave that is under way passes a core or port, which
adds its current pair. (DESIGN CHOICE, unsafe: log 8) -/
def execQuiescenceWave (lid unit : Nat) (s : State) : Res :=
  let x := s.entry lid
  .next (if x.st ≠ .draining ∨ x.held ∨ x.quiescent ∨ x.wave.isNone ∧ s.time < x.waveDue then s
    else
      let s := if x.wave.isSome then s else s.updLaunch lid fun y =>
        { y with wave := some (0, 0, s.time), waveSeen := [], waves := y.waves + 1 }
      s.wavePass lid unit)

/-- No thread of a launch is in a slot, a store or the reserve, and no engine command it started is in flight (R95); no
message of it waits for a slot. (DEDUCED, unsafe: log 92) -/
def State.launchEmpty (s : State) (lid : Nat) : Bool :=
  (s.allSlotsOf lid).isEmpty && (s.entry lid).reserve.isEmpty &&
    !s.cores.any fun e => e.2.store.any (·.frame.lid == lid) || e.2.runnable.any (·.lid == lid) ||
      e.2.spilled.any (·.lid == lid) || e.2.cmds.any (·.lid == lid) || e.2.inbox.any (·.lid == lid)

/-- An accepted contribution of a launch waits for its turn: the launch is not complete (R184). -/
def State.holdsSums (s : State) (lid : Nat) : Bool := s.ro.any fun e => e.2.held.any fun op => op.lid == lid

/-- What R95 asks of a DRAINING launch beside quiescence: every slice has ended, nothing of the launch is left, and no
contribution of it waits (R184). -/
def State.allEnded (s : State) (lid : Nat) : Bool :=
  let x := s.entry lid
  x.ended == [(0, x.lrec.slices)] && s.launchEmpty lid && !s.holdsSums lid

/-- QUIESCENCE_WAVE_RETURN (R143): the wave has passed the cores and ports that remained, and its totals return. Quiescence
is declared only of a launch of which nothing runs. (DEDUCED, unsafe: log 92) -/
def execQuiescenceWaveReturn (die e : Nat) (s : State) : Res :=
  let d := die % 4
  .next (if (s.entryAt d e).wave.isNone then s
    else
      let units : List Nat := s.cores.map (fun x => x.1) ++ s.ports.map fun x => 8192 + x.1
      let s := units.foldl (fun (s : State) u => s.wavePass (s.lidAt d e) u) s
      s.updEntry d e fun y => match y.wave with
        | none => y
        | some (a, b, _) =>
          { y with
            wave := none, waveSeen := [], lastWave := some (a, b), waveDue := s.time + 1000
            quiescent := y.st == .draining && a == b && y.lastWave == some (a, b) && s.allEnded (s.lidAt d e) })

/-- LAUNCH_END (R95): a DRAINING launch meets every condition of a normal end. -/
def execLaunchEnd (die e : Nat) (s : State) : Res :=
  let d := die % 4
  let x := s.entryAt d e
  .next (if x.st = .draining ∧ !x.held ∧ x.quiescent ∧ s.allEnded (s.lidAt d e) then
    s.updEntry d e fun y => { y with status := 1 }
  else s)

/-- LAUNCH_COMPLETION (R59, R96): the record of a normal end, or of a forced end whose kill wave has returned and whose
engine commands have completed; every write of the launch in the scope of the record's release is performed. -/
def execLaunchCompletion (die e : Nat) (s : State) : Res :=
  let d := die % 4
  let x := s.entryAt d e
  let lid := s.lidAt d e
  .next (if s.writesWait lid (s.doneScope lid) ∨ s.doneWaits x.root x.lrec then s
    else if x.st = .draining ∧ x.status ≠ 0 then s.complete lid (if x.faults = 0 then 1 else 2)
    else if x.st = .ending ∧ !x.killWave ∧ !s.cores.any (fun c => c.2.cmds.any (·.lid == lid)) then
      s.complete lid (x.forced.getD 4)
    else s)

/-- A packet that carries a launch's thread or message. -/
def packetOf (lid : Nat) : Packet → Bool
  | .msg _ m _ | .resvReq _ _ _ _ m => m.lid == lid
  | .migr _ _ f _ _ => f.lid == lid
  | .start _ l _ _ _ _ | .spill _ l | .cutOrder _ l | .cutMarker _ _ _ l | .cutReport _ l _ => l == lid
  | _ => false

/-- A packet that is a handler message of a launch. -/
def handlerOf (lid : Nat) : Packet → Bool
  | .msg _ m _ => m.lid == lid
  | _ => false

/-- A MSG transaction of a launch that waits at a port for room: it has not left (R34). -/
def txnOf (lid : Nat) (x : Txn) : Bool := x.op == 0x40 && bits (leNat ((x.data.drop 8).take 8)) 47 32 == lid

/-- The handler messages of a launch that a kill wave removes. -/
def State.messagesOf (s : State) (lid : Nat) : Nat :=
  (s.net.filter (handlerOf lid)).length + ((s.entry lid).taken.filter fun e => handlerOf lid e.2).length +
    s.cores.foldl (fun n e => n + (e.2.inbox.filter (·.lid == lid)).length +
      (e.2.outbox.filter (·.msg.lid == lid)).length) 0 +
    s.ports.foldl (fun n e => n + (e.2.cutHeld.filter (·.1.lid == lid)).length + (e.2.held.filter (txnOf lid)).length) 0

/-- Reservations that messages of a launch hold are given back: those of messages on the mesh, in the outbound buffers and
at the ports. -/
def State.giveBack (s : State) (lid : Nat) : State :=
  let s := s.net.foldl (fun s p => match p with
    | .msg src m (some h) => if m.lid == lid then s.send (.resvRel src m.dcore h) else s
    | _ => s) s
  let s := s.cores.foldl (fun s e => e.2.outbox.foldl (fun s o => match o.handle with
    | some h => if o.msg.lid == lid then s.unreserve e.1 o.msg h else s
    | none => s) s) s
  s.ports.foldl (fun s e => (e.2.held.filter (txnOf lid)).foldl (fun s x =>
    if bits (leNat (x.data.take 8)) 63 60 = 3 then s else s.linkSend e.1 (unrsvTxn x.rhnd)) s) s

/-- The kill wave removes everything of a launch (R96 step 2). -/
def State.killLaunch (s : State) (lid : Nat) : State :=
  let n := s.messagesOf lid
  let s := s.giveBack lid
  let strip := fun (x : Core) =>
    { x with
      store := x.store.filter (·.frame.lid != lid), runnable := x.runnable.filter (·.lid != lid)
      spilled := x.spilled.filter (·.lid != lid), inbox := x.inbox.filter (·.lid != lid)
      outbox := x.outbox.filter (·.msg.lid != lid), semWaiters := x.semWaiters.filter (·.lid != lid)
      retry := x.retry.filter (·.2.lid != lid) }
  let listed := (s.cores.filter fun e => e.2.runnable.any (·.lid == lid)).map (·.1)
  let s : State :=
    { s with
      net := s.net.filter fun p => !packetOf lid p
      waiters := s.waiters.filter (·.lid != lid)
      cores := s.cores.map fun e => (e.1, strip e.2)
      ports := s.ports.map fun e => (e.1, { e.2 with
        cutHeld := e.2.cutHeld.filter (·.1.lid != lid), held := e.2.held.filter fun x => !txnOf lid x }) }
  let s := (listed.foldl State.relink s).dropCmds lid
  let slots := s.allSlotsOf lid
  let s := slots.foldl (fun s e => (s.abandon e.1 e.2).updSlot e.1 e.2 fun x => { x with slice := none }) s
  let s := slots.foldl (fun s e => s.freeSlot e.1 e.2) s
  let s := (s.entry lid).reserve.foldl (fun s e => s.freeEntry lid e) s
  let e := s.entry lid
  let s := match e.cutAsk with
    | some (c, k, m, i) => s.answerAt c k m i (.val 1)
    | none => s
  let s := match e.cutReq with
    | some (q, m, w0) => s.respond q m w0 1 0
    | none => s
  s.updLaunch lid fun x =>
    { x with
      killWave := false, discarded := x.discarded + n, taken := [], cutWait := [], cutLack := 0, cutRecs := []
      cutEntries := [], cutSeen := [], cutSent := [], cutIn := []
      cutAsk := none, cutReq := none, held := false, suspended := false, wave := none }

/-- KILL_WAVE_RETURN (R96): a thread whose block commits is killed when that commit ends, and the wave waits for it. (DESIGN CHOICE, unsafe: log 8) (DEDUCED, unsafe: log 25) -/
def execKillWaveReturn (die e : Nat) (s : State) : Res :=
  let d := die % 4
  let lid := s.lidAt d e
  let x := s.entryAt d e
  let busy := (s.allSlotsOf lid).filter fun k => (s.slot k.1 k.2).committing || (s.slot k.1 k.2).uncompared
  .next (if x.st ≠ .ending ∨ !x.killWave then s
    else if busy.isEmpty then s.killLaunch lid
    else busy.foldl (fun s k => (s.updSlot k.1 k.2 (Slot.stopFor 2)).forceAt k.1 k.2) s)

/-- ABORT of a launch (R96, R97): the request's result. -/
def State.abortLaunch (s : State) (lid : Nat) : Nat × State :=
  let x := s.entry lid
  if !s.lidLive lid then (1, s)
  else if x.st = .waiting then (0, s.complete lid 4)
  else (0, s.forcedEnd lid 4)

end Sys2Proof.Machine
end

