-- ==== Sys2Proof/Machine/Dispenser.lean ====
section
/-!
DEFINITION. The dispenser's grants (R80-R93, R98-R100): guests and their batches, candidates, eligible launches, weighted
picking, start messages, withholding, spill requests and the divergence of a replay (R232).
-/

namespace Sys2Proof.Machine

/-! ## Guests (R80, R81) -/

/-- The districts of die d in a mask. -/
def maskOf (m : BitVec 64) (d : Nat) : Nat := bits m.toNat (16 * d + 15) (16 * d)

/-- GUEST_OFFER (R80): the home dispenser of entry e of a die offers its ACTIVE launch to another die. -/
def execGuestOffer (die e guest : Nat) (s : State) : Res :=
  let d := die % 4
  let g := guest % 4
  let x := s.entryAt d e
  .next (if x.st ≠ .active ∨ g = d ∨ x.guests.contains g ∨ maskOf x.lrec.dmask g = 0 then s
    else match s.freeEntryOf g with
      | none => s
      | some f =>
        let me : Guest := { home := d, homeEntry := e, shadow := f }
        let w := match s.desc d x.queue with
          | some y => y.weight
          | none => 0
        let s := s.updEntry g f fun y => { y with st := .guest }
        let s := s.updDie g fun y => { y with guests := y.guests ++ [me] }
        let s := s.updQueue g me.queue fun _ => { credit := w, lastSeen := true }
        s.updEntry d e fun y => { y with guests := y.guests ++ [g] })

/-- Changes guest n of die d. -/
def State.updGuest (s : State) (d n : Nat) (f : Guest → Guest) : State :=
  s.updDie d fun x => { x with guests := x.guests.modify n f }

/-- GUEST_BATCH_CLAIM (R81): guest number g of a die claims up to 64 consecutive indices once at most 16 of its batch
remain. -/
def execGuestBatchClaim (die g : Nat) (s : State) : Res :=
  let d := die % 4
  .next (match (s.die d).guests[g]? with
    | none => s
    | some x =>
      let e := s.entryAt x.home x.homeEntry
      let n := min 64 (e.lrec.slices - e.next)
      if e.st ≠ .active ∨ e.held ∨ 16 < x.indices.length ∨ n = 0 then s
      else
        let s := s.updEntry x.home x.homeEntry fun y => { y with next := y.next + n }
        ((s.updGuest d g fun y => { y with indices := y.indices ++ (List.range n).map (e.next + ·) }).noteAges d).noteAges
          x.home)

/-! ## Candidates and offerings (R82-R84) -/

/-- A launch as a dispenser serves it: its own entry, or a guest number with the home's entry. -/
structure Served where
  lid : Nat
  queue : Nat
  order : Nat
  guest : Option Nat
  lrec : LaunchRec
  work : Bool                                  -- it has undispensed slices on this die
  deriving DecidableEq, Repr

/-- The decision that a replay's dispenser makes next (kind 1): core, slot, slice. -/
def decisionOf (m : MouldEntry) : Nat × Nat × Nat := (wbits m.b 28 16, wbits m.b 1 0, wbits m.b 63 32)

/-- A slice of a launch that no dispenser has started. -/
def State.undispensed (s : State) (lid i : Nat) : Bool :=
  let e := s.entry lid
  decide (e.next ≤ i ∧ i < e.lrec.slices) || e.returned.contains i ||
    e.guests.any fun d => (s.die d).guests.any fun g =>
      g.home == lidDie lid && g.homeEntry == lidEntry lid && (g.indices.contains i || g.returned.contains i)

/-- Whether die d has an undispensed slice of a launch: has tells whether it has one in hand. Under REPLAY it is one
recorded for that die that no dispenser has started, wherever its index lies (R89). (DEDUCED, unsafe: log 17) -/
def State.serves (s : State) (d lid : Nat) (has : Bool) : Bool :=
  match if (s.entry lid).enforcing then Tab.rd [] (s.entry lid).units (unitDie d) else [] with
  | [] => has
  | ms => ms.any fun m => m.kind == 1 && s.undispensed lid (decisionOf m).2.2

/-- The ACTIVE launches of die d, each in its queue, in the order their records were read. (DESIGN CHOICE, unsafe: log 16) -/
def State.served (s : State) (d : Nat) : List Served :=
  let own := ((s.die d).table.filter fun e => e.2.st == .active).map fun e =>
    let lid := lidOf d e.1 e.2.gen
    { lid := lid, queue := e.2.queue, order := e.2.order, guest := none, lrec := e.2.lrec
      work := s.serves d lid e.2.hasWork : Served }
  let guests := ((s.die d).guests.zipIdx.filter fun g => (s.entryAt g.1.home g.1.homeEntry).st == .active).map fun g =>
    let e := s.entryAt g.1.home g.1.homeEntry
    let lid := lidOf g.1.home g.1.homeEntry e.gen
    { lid := lid, queue := g.1.queue, order := 0, guest := some g.2, lrec := e.lrec, work := s.serves d lid g.1.hasWork
      : Served }
  let sorted := own.foldl (fun a x => a.takeWhile (fun y => decide (y.order < x.order)) ++ [x] ++
    a.dropWhile (fun y => decide (y.order < x.order))) []
  sorted ++ guests

/-- Slots of a core that start messages on their way have claimed. -/
def State.claims (s : State) (c : Nat) : Nat :=
  (s.net.filter fun p => match p with
    | .start _ _ _ x t _ => x == c || (t && twinCore x == c)
    | _ => false).length

/-- The free slots of a core that nothing claims or holds. -/
def State.freeSlotsOf (s : State) (c : Nat) : Nat :=
  ([0, 1, 2, 3].filter fun k => slotOpen (s.slot c k)).length - s.claims c

/-- A core has a free slot that nothing claims or holds. -/
def State.hasSlot (s : State) (c : Nat) : Bool := decide (0 < s.freeSlotsOf c)

/-- A core in service for slice threads: its square is on, and its CDIS bit was clear as the mesh cycle began. -/
def State.inService (s : State) (c : Nat) : Bool :=
  (s.square (squareOf c)).on && !(s.die (dieOf c)).cdisUsed.contains (c % 1024)

/-- The power conditions of R82. -/
def State.powerOk (s : State) (c : Nat) : Bool :=
  let q := s.square (squareOf c)
  let d := s.die (dieOf c)
  s.levelOf c == 0 && !q.overB && (!q.idle || decide ((if d.exitUs = s.time / 1000 then d.exits else 0) < 16))

/-- A candidate core (R82). -/
def State.candidate (s : State) (c : Nat) : Bool := s.hasSlot c && s.inService c && s.powerOk c

/-- The candidates of a die as a mesh cycle begins, each once for every slot that it can give. -/
def State.sampled (s : State) (d : Nat) : List Nat :=
  (List.range 1024).flatMap fun n =>
    if s.candidate (1024 * d + n) then List.replicate (s.freeSlotsOf (1024 * d + n)) n else []

/-- Whether a launch is eligible for core c of die d (R82); slots tells whether free slots are asked for. Under REPLAY the
decision before the recorded one has been taken. -/
def State.eligible (s : State) (d c : Nat) (x : Served) (slots : Bool) : Bool :=
  x.work && !(s.entry x.lid).held && x.lrec.dmask.toNat.testBit (districtOf c) &&
    (!x.lrec.twin || (c % 2 == 0 && (!slots || s.hasSlot (twinCore c)) && s.inService (twinCore c))) &&
    (if (s.entry x.lid).enforcing then
      match s.expects x.lid (unitDie d) with
      | some m => m.kind == 1 && s.undispensed x.lid (decisionOf m).2.2 && (decisionOf m).1 == c && (!slots || slotOpen (s.slot c (decisionOf m).2.1))
      | none => (s.entry x.lid).trunc
    else true)

/-- The first launch of a queue that may be offered to core c: every ACTIVE one before it whose mask names the district is in
its way unless it is INDEP (R83). -/
def State.firstFor (s : State) (d c : Nat) : List Served → Bool → Option Served
  | [], _ => none
  | x :: xs, blocked =>
    if (!blocked || x.lrec.indep) && s.eligible d c x true then some x
    else s.firstFor d c xs (blocked || x.lrec.dmask.toNat.testBit (districtOf c))

/-- A queue's offering for core c (R83). -/
def State.offer (s : State) (d c q : Nat) : Option Served := s.firstFor d c ((s.served d).filter (·.queue == q)) false

/-- A queue's effective class (R84). -/
def State.effClass (s : State) (d q : Nat) : Nat :=
  let prio := match (s.served d).find? fun x => x.queue == q && x.work with
    | some x => x.lrec.prio
    | none => 0
  let age := match (s.queue d q).ageFrom with
    | some t => s.time - t
    | none => 0
  min 7 (prio + age / 1000000)

/-! ## Picking (R85) -/

/-- The queues of a die that serve something, in ascending number without repeats. -/
def State.queueNumbers (s : State) (d : Nat) : List Nat :=
  (s.served d).foldl (fun a x => if a.contains x.queue then a
    else a.takeWhile (fun q => decide (q < x.queue)) ++ [x.queue] ++ a.dropWhile (fun q => decide (q < x.queue))) []

/-- FirstFrom of R85. -/
def State.firstFrom (s : State) (d p cls c : Nat) : Option Nat :=
  let qs := s.queueNumbers d
  ((qs.filter fun q => decide (p ≤ q)) ++ qs.filter fun q => decide (q < p)).find? fun q =>
    s.effClass d q == cls && decide (0 < (s.queue d q).credit) && (s.offer d c q).isSome

/-- The weight of a queue or of a guest's pseudo-queue (R83). -/
def State.weightOf (s : State) (d q : Nat) : Nat :=
  let home := if q < 8192 then some (d, q) else
    ((s.die d).guests.find? fun g => g.queue == q).map fun g => (g.home, (s.entryAt g.home g.homeEntry).queue)
  match home.bind fun h => s.desc h.1 h.2 with
  | some x => x.weight
  | none => 0

/-- WrrPick of R85. -/
def State.wrrPick (s : State) (d cls c : Nat) : Option Nat × State :=
  let p := Tab.rd 0 (s.die d).ptr cls
  match s.firstFrom d p cls c with
  | some q => (some q, s)
  | none =>
    let qs := (s.queueNumbers d).filter fun q => s.effClass d q == cls
    if qs.any fun q => (s.offer d c q).isSome then
      let s := qs.foldl (fun s q => s.updQueue d q fun y => { y with credit := s.weightOf d q }) s
      (s.firstFrom d p cls c, s)
    else (none, s)

/-- The classes from 7 down: the first queue picked. -/
def State.pickFrom (s : State) (d c : Nat) : List Nat → Option (Nat × Nat) × State
  | [] => (none, s)
  | cls :: rest => match s.wrrPick d cls c with
    | (some q, s) => (some (cls, q), s)
    | (none, s) => s.pickFrom d c rest

/-! ## Starting a slice (R86-R89) -/

/-- The lowest number of a list. -/
def lowest : List Nat → Option Nat
  | [] => none
  | x :: xs => some (xs.foldl min x)

/-- Takes slice i out of what an entry has yet to dispense. -/
def Entry.takeIndex (e : Entry) (i : Nat) : Entry :=
  if e.returned.contains i then { e with returned := e.returned.filter (· != i) }
  else if e.next ≤ i then
    { e with next := i + 1, returned := e.returned ++ (List.range (i - e.next)).map (e.next + ·) }
  else e

/-- Takes slice i out of a guest's indices. -/
def Guest.takeIndex (g : Guest) (i : Nat) : Guest :=
  { g with indices := g.indices.filter (· != i), returned := g.returned.filter (· != i) }

/-- The slice that a dispenser starts next: a returned one, or the next; under REPLAY the recorded one. -/
def State.nextIndex (s : State) (d : Nat) (x : Served) : Option Nat :=
  let recorded := if (s.entry x.lid).enforcing then (s.expects x.lid (unitDie d)).map fun m => (decisionOf m).2.2 else none
  match recorded with
  | some i => some i
  | none => match x.guest with
    | none =>
      let e := s.entry x.lid
      match lowest e.returned with
      | some i => some i
      | none => if e.next < e.lrec.slices then some e.next else none
    | some g => match (s.die d).guests[g]? with
      | some y => match lowest y.returned with
        | some i => some i
        | none => lowest y.indices
      | none => none

/-- StartSlice of R85: the start message of the next slice leaves for core c. A recorded slice is taken out wherever its
index lies (R89). -/
def State.startSlice (s : State) (d c : Nat) (x : Served) : State :=
  match s.nextIndex d x with
  | none => s
  | some i =>
    let mine := fun (y : Guest) => y.home == lidDie x.lid && y.homeEntry == lidEntry x.lid
    let s := if (s.entry x.lid).enforcing then
        (s.entry x.lid).guests.foldl (fun s d => s.updDie d fun y =>
          { y with guests := y.guests.map fun g => if mine g then g.takeIndex i else g })
          (s.updLaunch x.lid fun e => e.takeIndex i)
      else match x.guest with
        | none => s.updLaunch x.lid fun e => e.takeIndex i
        | some g => s.updGuest d g fun y => y.takeIndex i
    let m : Msg := { kind := 0, t := x.lrec.twin, lid := x.lid, dpkg := s.pkg, dcore := c, origin := x.lrec.argp
                     handler := x.lrec.entry, retw := word i, granted := s.time }
    s.send (.start d x.lid i c x.lrec.twin m)

/-- The first candidate core of a die from corePtr, among those that its mesh cycle has left. (DEDUCED, unsafe: log 14) -/
def State.nextCore (s : State) (d : Nat) : Option Nat :=
  ((List.range 1024).map fun i => ((s.die d).corePtr + i) % 1024).find? (s.die d).cands.contains

/-! ## What a mesh cycle leaves beside its grants (R91, R98-R100) -/

/-- WITHHELD counts the cores withheld from each launch for power alone (R91). (DEDUCED, unsafe: log 14) -/
def State.countWithheld (s : State) (d : Nat) : State :=
  let cs := ((List.range 1024).map (1024 * d + ·)).filter fun c => s.hasSlot c && s.inService c && !s.powerOk c
  if cs.isEmpty then s
  else (s.served d).foldl (fun s x =>
    s.updLaunch x.lid fun e => { e with withheld := e.withheld + (cs.filter fun c => s.eligible d c x true).length }) s

/-- Whether a core would be a candidate with a slot, and holds a parked thread. -/
def State.wantsSpill (s : State) (c : Nat) : Bool :=
  s.inService c && s.powerOk c && !s.hasSlot c && !s.anyFree c && ([0, 1, 2, 3].any fun k => (s.slot c k).st == .park)

/-- The launches for which core c is asked to spill, of the highest effective class first. -/
def State.spillLaunches (s : State) (d c : Nat) : List Served :=
  ((s.served d).filter fun x => s.eligible d c x false).foldl (fun a x =>
    let ahead := fun (y : Served) => decide (s.effClass d x.queue ≤ s.effClass d y.queue)
    a.takeWhile ahead ++ [x] ++ a.dropWhile ahead) []

/-- Spill requests of a die (R98 step 2): each core that lacks only a slot is asked for every launch that is eligible for
it, unless the request is still on its way. -/
def State.spillRequests (s : State) (d : Nat) : State :=
  (((List.range 1024).map (1024 * d + ·)).filter s.wantsSpill).foldl (fun s c =>
    (s.spillLaunches d c).foldl (fun s x =>
      if s.net.contains (.spill c x.lid) then s else s.send (.spill c x.lid)) s) s

/-- The records 0xF4 and 0xF5 (Table 5.3), once per launch. -/
def State.maskRecords (s : State) (d : Nat) : State :=
  (s.served d).foldl (fun s x =>
    let e := s.entry x.lid
    let barred := (List.range 4096).all fun c => !x.lrec.dmask.toNat.testBit (districtOf c) ||
      (s.die (dieOf c)).cdisUsed.contains (c % 1024)
    let s := if barred ∧ !e.f4 then
        (s.updLaunch x.lid fun y => { y with f4 := true }).dieRecord (lidDie x.lid) 0xF4 x.lid
      else s
    match if e.enforcing then s.expects x.lid (unitDie d) else none with
    | some m =>
      let c := (decisionOf m).1
      let off := !x.lrec.dmask.toNat.testBit (districtOf c) || (s.die (dieOf c)).cdisUsed.contains (c % 1024)
      if m.kind = 1 ∧ off ∧ !e.f5 then
        (s.updLaunch x.lid fun y => { y with f5 := true }).dieRecord (lidDie x.lid) 0xF5 x.lid
      else s
    | none => s) s

/-- A mesh cycle of a die begins: CDIS and the candidates are sampled (R82, R90, R93), WITHHELD is counted and spill requests
go out (R91, R98). (DEDUCED, unsafe: log 14) -/
def State.meshCycle (s : State) (d : Nat) : State :=
  let s := s.updDie d fun x => { x with cdisUsed := x.cdis, cycleAt := s.time, cycleGrants := 0 }
  let s := s.updDie d fun x => { x with cands := s.sampled d }
  (s.countWithheld d).spillRequests d

/-- The rest of a mesh cycle grants nothing more. (DEDUCED, unsafe: log 14) -/
def State.noGrant (s : State) (d : Nat) : State := (s.maskRecords d).updDie d fun x => { x with cycleGrants := 4 }

/-- The grant of a launch's next slice to core n of die d, from queue q at class cls (R85): the slots that it takes are no
longer candidates of the cycle. -/
def State.grantTo (s : State) (d n cls q : Nat) (x : Served) : State :=
  let s := s.updDie d fun y =>
    { y with cycleGrants := y.cycleGrants + 1
             cands := if x.lrec.twin then (y.cands.erase n).erase (twinCore n) else y.cands.erase n }
  let s := s.startSlice d (1024 * d + n) x
  let left := (s.queue d q).credit - 1
  let s := s.updQueue d q fun y => { y with credit := left, ageFrom := some s.time }
  (if left = 0 then s.updDie d fun y => { y with ptr := y.ptr.put cls (q + 1) } else s).noteAges d

/-- Grant() of R85 over the candidates that are left, at most n of them: one for which no launch is eligible is passed over
in this mesh cycle, and the next is tried (R98). (DEDUCED, unsafe: log 14) -/
def State.grantNext (s : State) (d : Nat) : Nat → State
  | 0 => s.noGrant d
  | f + 1 => match s.nextCore d with
    | none => s.noGrant d
    | some n =>
      let s := s.updDie d fun x => { x with corePtr := (n + 1) % 1024 }
      match s.pickFrom d (1024 * d + n) [7, 6, 5, 4, 3, 2, 1, 0] with
      | (none, s) => (s.updDie d fun x => { x with cands := x.cands.filter (· != n) }).grantNext d f
      | (some (cls, q), s) =>
        match s.offer d (1024 * d + n) q with
        | none => s
        | some x => s.grantTo d n cls q x

/-- GRANT (R85): one grant of a die, of up to four in a mesh cycle; the next one begins another cycle. (DEDUCED, unsafe: log 14) -/
def execGrant (die : Nat) (s : State) : Res :=
  let d := die % 4
  let s := if (s.die d).cycleAt = s.time ∧ (s.die d).cycleGrants < 4 then s else s.meshCycle d
  .next (s.grantNext d ((s.die d).cands.length + 1))

/-! ## Start messages (R87-R89) -/

/-- A refused start: the index goes to the return list of the die that granted it (R87). (DEDUCED, unsafe: log 13) -/
def State.refuseStart (s : State) (d lid i : Nat) : State :=
  let put := fun (g : Guest) =>
    if g.home = lidDie lid ∧ g.homeEntry = lidEntry lid then { g with returned := g.returned ++ [i] } else g
  let s := if d = lidDie lid then s.updLaunch lid fun e => { e with returned := e.returned ++ [i] }
    else s.updDie d fun x => { x with guests := x.guests.map put }
  s.noteAges d

/-- The slots a start takes: open ones; under REPLAY the recorded one. -/
def State.startSlots (s : State) (d lid c : Nat) (twin : Bool) : Option (Nat × Nat) :=
  match if (s.entry lid).enforcing then s.expects lid (unitDie d) else none with
  | some m =>
    let k := (decisionOf m).2.1
    if !slotOpen (s.slot c k) then none
    else if twin then (s.openSlot (twinCore c)).map fun j => (k, j) else some (k, 0)
  | none => s.slotsFor c twin

/-- An accepted start is recorded, or is the recorded one (R89, R231). -/
def State.tallyStart (s : State) (d lid i c k : Nat) : State :=
  let b := word (i % 2 ^ 32 * 2 ^ 32 + c % 2 ^ 13 * 2 ^ 16 + k % 4)
  let e := s.entry lid
  let n := (s.die d).ordinal
  let s := s.updDie d fun x => { x with ordinal := n + 1 }
  if e.enforcing then
    (match s.expects lid (unitDie d) with
      | some m => if m.kind = 1 ∧ m.b = b then s.met lid (unitDie d) else s
      | none => s)
  else if e.recording then s.record lid (unitDie d) ⟨1, d, n, b⟩ else s

/-- START_MESSAGE (R87, R88). (DEDUCED, unsafe: log 13) -/
def execStartMessage (n : Nat) (s : State) : Res :=
  .next (match s.packet? n with
    | some (.start d lid i c twin m) =>
      let s0 := s.dropPacket n
      let e := s.entry lid
      if !s.lidLive lid ∨ e.st ≠ .active then s0
      else if e.held then s0.refuseStart d lid i
      else if s.isIdle c then s.askExit c
      else if s.stuckAt n c then s
      else match s0.startSlots d lid c twin with
        | none => s0.refuseStart d lid i
        | some (k, k') =>
          let s := s0.tallyStart d lid i c k
          let s := s.updLaunch lid fun e =>
            { e with started := true, tstart := if e.started then min e.tstart m.granted else m.granted }
          (s.loadThread c k k' (s.startCtx m) (some i) 0 0 false).checkDraining lid
    | _ => s)

/-! ## Cores out of service (R93) -/

/-- CDIS_CHANGE (R93): CGEN is full, and the dispenser reads the die control area. -/
def execCdisChange (die : Nat) (s : State) : Res :=
  let d := die % 4
  let base := (s.die d).dqbase.toNat
  .next (if base = 0 then s
    else match physLoc (base + 0x40000) with
      | none => s
      | some loc =>
        if !s.mem.isFull (loc + 128) ∨ s.layerBusy loc then s
        else
          let s := s.touchRow loc
          let map := s.rdMem loc 128
          let rsvd := s.rdMem (loc + 136) 120
          let s := s.setFull (loc + 128) false
          if rsvd ≠ 0 then s.dieRecord d 0xF6 0
          else s.updDie d fun x => { x with cdis := (List.range 1024).filter fun i => map.testBit i })

/-! ## Spill requests (R98, R123) -/

/-- The effective class of the queue of a launch, at its home die. -/
def State.lidClass (s : State) (lid : Nat) : Nat := s.effClass (lidDie lid) (s.entry lid).queue

/-- The reserve of a launch has the entries that a thread needs. -/
def State.reserveRoom (s : State) (x : Slot) : Bool :=
  let lid := tswLid x.ctx.tsw
  decide ((s.entry lid).reserve.length + (if x.twin.isSome then 2 else 1) ≤ (s.entry lid).lrec.ctxres)

/-- SPILL_REQUEST (R98, R123): the core spills its longest-parked eligible thread; where only threads of L could be
spilled and its reserve is full, L ends. -/
def execSpillRequest (core lid : Nat) (s : State) : Res :=
  .next (match s.net.findIdx? (· == .spill core lid) with
    | none => s
    | some n =>
      let lives := s.lidLive lid && (s.entry lid).st == .active
      let fits := fun (x : Slot) => spillable x && s.reserveRoom x
      let lower := fun (x : Slot) => decide (s.lidClass (tswLid x.ctx.tsw) ≤ s.lidClass lid)
      let any := match s.longestParked core fun x => fits x && lower x with
        | some k => some k
        | none => s.longestParked core fun x => fits x && decide (x.parkedAt + 2000 ≤ s.time)
      let parked := [0, 1, 2, 3].filter fun k => (s.slot core k).st == .park && spillable (s.slot core k) &&
        lower (s.slot core k)
      let s := s.dropPacket n
      if !lives ∨ s.anyFree core then s
      else match any with
        | some k =>
          let s := s.askSpill core k
          let (c, k) := s.leadSlot core k
          s.answerSpill c k
        | none =>
          if !parked.isEmpty && parked.all fun k => tswLid (s.slot core k).ctx.tsw == lid then s.reserveEnd lid else s)

/-! ## The divergence of a replay (R232) -/

/-- The performing operation of a slot's locked block, where a bank of a TCM or square memory performs it: the word of that
bank. -/
def State.bankAt (s : State) (c k : Nat) : Option Nat :=
  let f := (s.slot c k).frame
  match if f.lock then f.performing else none with
  | some (j, x) => match gather x.shape f j with
    | .vals t _ _ => match (ordAccess s (s.who c k) t.w 8 8 .atomic false 1 (some 0x24)).1 with
      | .ok acc => acc.locs.head?
      | .error _ => none
    | _ => none
  | none => none

/-- The recorded events that wait at the threads of a launch (R232): operations at banks, from blocks and from store
buffers, and TIME. -/
def State.heldAtCores (s : State) (lid unit : Nat) : List Nat :=
  let atBank := fun (loc : Nat) => (vaultOf loc).isNone && unitBank loc == unit
  s.cores.flatMap fun (c, y) =>
    (match y.sb.head? with
      | some e => match e.op with
        | .stf loc _ | .feempty loc => if e.lid = lid ∧ atBank loc then [e.ident] else []
        | _ => []
      | none => []) ++
    ([0, 1, 2, 3].filter fun k => (s.slot c k).st == .run && tswLid (s.slot c k).ctx.tsw == lid).flatMap fun k =>
      let f := (s.slot c k).frame
      (if (s.bankAt c k).any atBank then [s.nextIdent c k] else []) ++
        (if unitCore c = unit then (f.instrs.filter fun e => (match e.2 with
            | .time _ _ _ => true
            | _ => false) && f.st == .exec && (match gather e.2.shape f e.1 with
            | .vals _ _ _ => true
            | _ => false)).map fun _ => s.nextIdent c k else [])

/-- The identities of the recorded events that a unit holds (R232). -/
def State.heldEvents (s : State) (lid unit : Nat) : List Nat :=
  (s.net.filterMap fun p => match p with
    | .msg _ m _ => if m.lid = lid ∧ unitCore m.dcore = unit then some m.ident else none
    | .migr _ c f _ _ => if f.lid = lid ∧ unitCore c = unit then some f.ident else none
    | .resvReq c _ _ _ m => if m.lid = lid ∧ unitCore c = unit then some m.ident else none
    | .remote op => match op.place with
      | .mem loc =>
        let u := match vaultOf loc with
          | some (c, _) => unitAgent c
          | none => unitBank loc
        if op.lid = lid ∧ u = unit ∧ recordedOp op ∧ !isRoadd op.kind then some op.ident else none
      | _ => none
    | _ => none) ++ s.heldAtCores lid unit ++
  s.ro.flatMap fun e => e.2.held.filterMap fun op => match op.place with
    | .mem loc => match vaultOf loc with
      | some (c, _) => if op.lid = lid ∧ unitAgent c = unit ∧ op.slice ≤ s.roLow lid then some op.ident else none
      | none => none
    | _ => none

/-- A launch has a thread that runs or could: in a slot that runs, loads or leaves, or on a runnable list. -/
def State.anyRunnable (s : State) (lid : Nat) : Bool :=
  (s.allSlotsOf lid).any (fun k => (s.slot k.1 k.2).st == .run || (s.slot k.1 k.2).st == .load || (s.slot k.1 k.2).st == .out) ||
    s.cores.any fun e => e.2.runnable.any (·.lid == lid)

/-- Whether an entry is the recorded event of an identity (Table 10.16): a TIME holds its identity in A. -/
def MouldEntry.isOf (m : MouldEntry) (id : Nat) : Bool := if m.kind = 6 then m.a == id % 2 ^ 47 else m.b.toNat == id

/-- REPLAY_DIVERGENCE (R232): unit, by the key of its stream, of the launch in entry e of a die. A unit past its last entry
has no next one; one of a truncated mould then runs free. -/
def execReplayDivergence (die e unit : Nat) (s : State) : Res :=
  let d := die % 4
  let x := s.entryAt d e
  let lid := s.lidAt d e
  .next (if !s.lidLive lid ∨ !x.enforcing then s
    else
      let held := s.heldEvents lid unit
      let next := s.expects lid unit
      let stuck := decide (64 ≤ held.length) && (match next with
        | some m => !held.any m.isOf
        | none => !x.trunc)
      let unmet := next.isSome && !s.anyRunnable lid && decide (Tab.rd 0 x.unmetSince unit + 10000000 ≤ s.time)
      if stuck || unmet then
        ((s.markMould lid 1).dieRecord d 0xD5 lid).updLaunch lid fun y => { y with freeRun := true }
      else s)

end Sys2Proof.Machine
end

