-- ==== Sys2Proof/Machine/Link.lean ====
section
/-!
DEFINITION. The Burmir link (02_): training, retry and ports that go down; the transactions of peers (R41-R43, R129) and the
responses to this module's own; the link's part of the mould and of a replay (R228, R231).
-/

namespace Sys2Proof.Machine

/-! ## Transactions (Tables 2.2 and 2.3) -/

/-- Whether LEN is legal for an operation (Table 2.3). -/
def lenOk (op len : Nat) : Bool :=
  if op = 4 then decide (8 ≤ len) && decide (len ≤ 256) && len % 8 == 0
  else if op = 0x0D then len == 16
  else if 8 ≤ op ∧ op ≤ 0x12 then len == 8
  else if op = 0x20 ∨ op = 0x40 then decide (16 ≤ len) && decide (len ≤ 256)
  else if op = 0x21 then len == 16
  else if op = 0x22 then len == 8
  else decide (1 ≤ len) && decide (len ≤ 256)

/-- Operations accepted from the host (Table 2.3). -/
def fromHost (op : Nat) : Bool := (decide (1 ≤ op) && decide (op ≤ 4)) || (decide (8 ≤ op) && decide (op ≤ 0x12)) || op == 0x40

/-- Operations accepted from a peer. -/
def fromPeer (op : Nat) : Bool := op == 0x20 || op == 0x21 || op == 0x22 || op == 0x40

/-- A reserved bit of the words of a message is set (Table 7.7); of an RSV's data, of its word 0. -/
def msgRsvd (v : Nat) : Bool := bits v 57 56 != 0 || bits v 31 29 != 0 || bits v 15 0 != 0 || bits v 191 160 != 0

/-- A malformed transaction (R33): a peer's address is laid out by Table 2.5, a message by Table 7.7; QTR is for a host's requests only, RHND for a SPAWN or CALLAT only. -/
def malformedTxn (x : Txn) (host : Bool) : Bool :=
  !(if host then fromHost x.op else fromPeer x.op) || x.rsvd != 0 || x.status != 0 ||
    ((!host || x.op == 0x40) && x.qtr != 0) ||
    ((x.op != 0x40 || bits (leNat (x.data.take 8)) 63 60 == 3) && x.rhnd != 0) || !lenOk x.op x.len ||
    (decide (x.op ≤ 4) && decide (256 < x.addr % 256 + x.len)) ||
    (decide (8 ≤ x.op) && decide (x.op ≤ 0x12) && x.addr % 8 != 0) || x.flits != txnFlits x ||
    (x.op == 0x20 && (bits x.addr 55 40 != 0 || x.addr.testBit 27)) ||
    ((x.op == 0x21 || x.op == 0x40) && msgRsvd (leNat x.data))

/-- The receiving side of a class. -/
def Port.rxSide (t : Port) (k : Nat) : RxSide := Tab.rd {} t.rx k

/-- A port has accepted a transaction's flits, some of them before: the next SEQ is expected, and an acknowledgement goes out
(R34). (DEDUCED, unsafe: log 19) -/
def State.accept (s : State) (p : Nat) (x : Txn) : State :=
  let k := txnClass x.op
  s.updPort p fun t =>
    let a := t.rxSide k
    let e := (a.expect + (x.flits - a.part)) % 4096
    { t with rx := t.rx.put k { expect := e, full := none, out := a.out ++ [(0, (e + 4095) % 4096)] } }

/-- The port's error count (R33). -/
def State.countErr (s : State) (p : Nat) : State := s.updPort p fun t => { t with errs := t.errs + 1 }

/-! ## Ports (R29, R34, R35) -/

/-- The class of a flit as a number. -/
def clsNo : FlitClass → Nat
  | .req => 0 | .rsp => 1 | .msg => 2

/-- The management controller logs an event: 8 failed training, 9 reduced width, 10 port down. (DEDUCED, unsafe: log 19) -/
def State.logEvent (s : State) (code detail : Nat) : State :=
  { s with mgmt := { s.mgmt with events := s.mgmt.events ++ [(code, detail)] } }

/-- Whether a port may train: host-role ports once the dies have power, peer-role ports outside a turnover's steps 1-4. -/
def State.mayTrain (s : State) (p : Nat) : Bool :=
  s.role p != 2 && s.powered && (s.role p == 0 || s.mgmt.phase == .ready || s.mgmt.phase == .loaded)

/-- The lanes a port comes up on: all, the lower half, or the upper half; none where neither half trained whole. -/
def trainedLanes (lanes : BitVec 16) : Option (BitVec 16) :=
  if lanes = 0xFFFF then some 0xFFFF
  else if lanes.toNat % 256 = 255 then some 0x00FF
  else if lanes.toNat / 256 = 255 then some 0xFF00 else none

/-- LINK_TRAINING (R29): lanes has a bit for each lane that trained; a failed attempt is repeated every 1 s. (DEDUCED, unsafe: log 19) (DESIGN CHOICE, unsafe: log 52) -/
def execLinkTraining (p : Nat) (lanes : BitVec 16) (s : State) : Res :=
  .next (if (s.port p).up ∨ !s.mayTrain p ∨ s.time < (s.port p).retryAt then s
    else match trainedLanes lanes with
      | some l =>
        let s := s.updPort p fun t =>
          { t with up := true, lanes := l, retryAt := 0, tx := [], rx := [], outq := [], held := [], wire := [] }
        if l = 0xFFFF then s else s.logEvent 9 p
      | none => (s.updPort p fun t =>
          { t with attempts := t.attempts + 1, retryAt := s.time + 1000000000 }).logEvent 8 p)

/-- A message whose transaction is acknowledged, or lost, counts as received for its sender's launch (R142, R43). -/
def State.recvFor (s : State) (m : Nat × Nat × Nat) : State := s.countRecv m.2.1 m.2.2

/-- Whether a release at SYS scope of a thread waits (R186): in the store buffer, at the lock, or before a message. (DEDUCED, unsafe: log 26) -/
def State.sysWaits (s : State) (c k : Nat) : Bool :=
  let f := (s.slot c k).frame
  ((s.core c).sb.any fun e => e.tid == (s.slot c k).tid && e.scope == some .sys) ||
    ((s.core c).outbox.any fun o => o.tid == (s.slot c k).tid && o.msg.dpkg != s.pkg) ||
    (f.lock && match f.performing with
      | some (_, .arrive _ _ .sys _) => true
      | _ => false)

/-- An operation to a peer goes through port p. -/
def State.through (s : State) (p : Nat) : Place → Bool
  | .peer g _ _ => s.route g == some p
  | _ => false

/-- The threads whose SYS release waits on writes that have left through port p. (DEDUCED, unsafe: log 26) -/
def State.lostReleases (s : State) (p : Nat) : List (Nat × Nat) :=
  let left := s.unack.filter fun u =>
    s.through p u.place && !(s.core u.core).posts.any fun op => op.tid == u.tid && op.stamp == u.stamp
  s.cores.flatMap fun e => ([0, 1, 2, 3].filter fun k =>
    (s.slot e.1 k).st != .free && left.any (·.tid == (s.slot e.1 k).tid) && s.sysWaits e.1 k).map fun k => (e.1, k)

/-- An outstanding request takes its response from the mould, whatever becomes of the port (R231). -/
def State.mouldAnswers (s : State) (x : Outstanding) : Bool :=
  match x.op, x.msgFor with
  | some op, _ => s.peerHeld op.lid
  | none, some (c, k, _, _) => s.peerHeld (tswLid (s.slot c k).ctx.tsw)
  | none, none => false

/-- A request ends with the port: STATUS 5; a reservation is answered bounced (R35, R43). -/
def State.endRequest (s : State) (x : Outstanding) : State :=
  match x.op, x.msgFor with
  | some op, _ => s.conclude op (.bad 0x84)
  | none, some (c, k, n, i) =>
    if s.awaitsAt c k n i then s.atWordOf c k i fun s =>
      match s.cur.frame.instrAt s.ci with
      | some y => match gather y.shape s.cur.frame s.ci with
        | .vals a b z => s.answered (s.msgOf (if z.isNull then 1 else 2) a b z) none
        | _ => s
      | none => s
    else s
  | none, none => s

/-! ### The adapter's side of its ports (R37) -/

/-- The host-role ports, lowest first. -/
def State.hostPorts (s : State) : List Nat := [0, 1, 2, 3, 4, 5, 6, 7].filter fun p => s.role p == 0

/-- The port that is to carry a quarter's transactions (R37); none while no host-role port is up. -/
def State.wantPort (s : State) (q : Nat) : Option Nat :=
  match s.hostPorts with
  | [] => none
  | [a] => if (s.port a).up then some a else none
  | a :: b :: _ =>
    let (x, y) := if q < 8 then (a, b) else (b, a)
    if (s.port x).up then some x else if (s.port y).up then some y else none

/-- Whether a transaction of a quarter is outstanding on another port: the quarter moves only after it. -/
def State.movesAfter (s : State) (q p : Nat) : Bool :=
  (s.adapter.outstanding.any fun r => r.qtr == q && r.port != p) ||
    s.adapter.sent.any fun e => e.2.qtr == q && e.1 != p

/-- The port that a quarter's next transaction takes now (R37). -/
def State.portOf (s : State) (q : Nat) : Option Nat :=
  match s.wantPort q with
  | some p => if s.movesAfter q p then none else some p
  | none => none

/-- A completion for the host. (DEDUCED, unsafe: log 20) -/
def State.complPcie (s : State) (c : PcieCpl) : State := { s with adapter := { s.adapter with cpls := s.adapter.cpls ++ [c] } }

/-- The adapter puts a transaction on port p; one that expects a response is outstanding under its tag. -/
def State.adapterPut (s : State) (p : Nat) (x : Txn) : State :=
  let a := s.adapter
  { s with adapter := { a with
      sent := a.sent ++ [(p, x)]
      qport := a.qport.put x.qtr p
      outstanding := if txnReads x then a.outstanding ++ [{ tag := x.tag, qtr := x.qtr, port := p, op := x.op, sentAt := s.time }]
        else a.outstanding } }

/-- A transaction for which no host-role port is up: a read or atomic completes with an error, a write is lost. (DESIGN CHOICE, unsafe: log 68) -/
def State.adapterLose (s : State) (x : Txn) : State :=
  if txnReads x then s.complPcie { tag := x.tag, status := 2 } else s

/-- The transactions that wait for their quarter's move go out, in order, where it is done (R37). -/
def State.adapterPump (s : State) : State :=
  s.adapter.waiting.foldl (fun s e =>
    let q := e.2.qtr
    if s.adapter.waiting.any fun w => w.2.qtr == q then { s with adapter := { s.adapter with waiting := s.adapter.waiting ++ [e] } }
    else match s.wantPort q, s.portOf q with
      | none, _ => s.adapterLose e.2
      | some _, some p => s.adapterPut p e.2
      | some _, none => { s with adapter := { s.adapter with waiting := s.adapter.waiting ++ [e] } })
    { s with adapter := { s.adapter with waiting := [] } }

/-- What the adapter loses with a port (R35, R37): reads and atomics complete with an error, posted writes are lost. -/
def Adapter.portLost (a : Adapter) (p : Nat) : Adapter :=
  { a with
    outstanding := a.outstanding.filter (·.port != p)
    cpls := a.cpls ++ ((a.outstanding.filter (·.port == p)).map fun r => { tag := r.tag, status := 2 })
    sent := a.sent.filter (·.1 != p)
    answers := a.answers.filter (·.1 != p) }

/-- A port goes down (R35, R43): flits and gathered acknowledgements of the port are never delivered. (DEDUCED, unsafe: log 26) -/
def State.portDown (s : State) (p : Nat) : State :=
  let t := s.port p
  if !t.up then s
  else
    let lost := s.lostReleases p
    let held := t.held.filter fun x => txnClass x.op == 2
    let origin := fun (x : Txn) =>
      let o := leNat ((x.data.drop 8).take 8)
      ((0, bits o 12 0, bits o 47 32) : Nat × Nat × Nat)
    let s := s.updPort p fun t =>
      { t with up := false, lanes := 0, tx := [], rx := [], outq := [], held := [], wire := [], resv := []
               pending := t.pending.filter s.mouldAnswers, msgsOut := [], retryAt := s.time }
    let s : State := { s with gathers := s.gathers.filter fun g => g.src / 8192 != p }
    let s := (t.pending.filter fun x => !s.mouldAnswers x).foldl (fun s x => s.endRequest x) s
    let s := (t.msgsOut ++ held.map origin).foldl (fun s m => s.recvFor m) s
    let s := t.resv.foldl (fun s r => s.send (.resvRel (8192 + p) r.core r.coreHandle)) s
    let s := ({ s with adapter := s.adapter.portLost p }).adapterPump
    let s := lost.foldl (fun s k =>
      if (s.slot k.1 k.2).st = .frozen then s else s.freezeWith k.1 k.2 0x83 (s.slot k.1 k.2).ctx.pc.toNat) s
    s.logEvent 10 p

/-- PORT_DOWN (R35): lane training is lost. -/
def execPortDown (p : Nat) (s : State) : Res := .next (s.portDown p)

/-- A class's held transactions go out, in order, while its replay buffer has room (R34). -/
def Port.pump (now dpkg spkg : Nat) : Nat → Port → Port
  | 0, t => t
  | n + 1, t =>
    let first := fun (x : Txn) => t.held.find? (fun y => txnClass y.op == txnClass x.op) == some x
    match t.held.find? fun x => first x && decide ((t.txSide (txnClass x.op)).buf.length + txnFlits x ≤ 512) with
    | some x => Port.pump now dpkg spkg n ({ t with held := t.held.erase x }.emit now dpkg spkg x)
    | none => t

/-- An acknowledgement up to SEQ frees the flits up to it, and the messages it covers. (DEDUCED, unsafe: log 45) -/
def State.acked (s : State) (p k seq : Nat) : State :=
  let t := s.port p
  let a := t.txSide k
  match a.buf.findIdx? (·.seq == seq) with
  | none => s
  | some n =>
    let gone := (a.buf.take (n + 1)).map (·.seq)
    let done := if k = 2 then t.msgsOut.filter fun m => gone.contains m.1 else []
    let s := s.updPort p fun t =>
      Port.pump s.time (s.farPkg p) s.pkg 512 { t with
        tx := t.tx.put k { a with buf := a.buf.drop (n + 1), busySince := none, lastAck := s.time }
        wire := t.wire.filter fun f => !(flitClass f.hdr == k && gone.contains (flitSeq f.hdr))
        msgsOut := if k = 2 then t.msgsOut.filter fun m => !gone.contains m.1 else t.msgsOut }
    done.foldl (fun s m => s.recvFor m) s

/-- The flits that a class holds from a SEQ on, in order. -/
def TxSide.since (a : TxSide) (seq : Nat) : List HeldFlit := a.buf.dropWhile (·.seq != seq)

/-- A class is replayed from a SEQ on (R34): its flits go out again, in order; counted by flit after a negative
acknowledgement (R35). -/
def Port.replay (t : Port) (k seq : Nat) (counted : Bool) : Port :=
  let a := t.txSide k
  let again := a.since seq
  { t with
    wire := t.wire ++ again.map (·.flit)
    tx := t.tx.put k { a with
      busySince := none
      buf := a.buf.take (a.buf.length - again.length) ++
        again.map fun f => if counted then { f with replays := f.replays + 1 } else f } }

/-- LINK_CONTROL_FLIT (R34, R35): kind 0 acknowledges up to a SEQ, 1 negatively acknowledges and names the expected one,
2 is a busy indication. One flit replayed 16 times takes the port down. -/
def execLinkControlFlit (p : Nat) (cls : FlitClass) (kind seq : Nat) (s : State) : Res :=
  let k := clsNo cls
  let a := (s.port p).txSide k
  .next (if !(s.port p).up then s
    else if kind = 0 then s.acked p k seq
    else if kind = 1 then
      let s := s.updPort p fun t => t.replay k seq true
      if ((s.port p).txSide k).buf.any fun f => decide (16 ≤ f.replays) then s.portDown p else s
    else s.updPort p fun t => { t with tx := t.tx.put k { a with busySince := some s.time, replayFrom := seq, lastAck := s.time } })

/-- BUSY_REPLAY (R34): the class from the SEQ of the busy indication on, not sooner than 1 us after it. -/
def execBusyReplay (p : Nat) (cls : FlitClass) (s : State) : Res :=
  let k := clsNo cls
  let a := (s.port p).txSide k
  .next (match a.busySince with
    | some t => if t + 1000 ≤ s.time then s.updPort p fun x => x.replay k a.replayFrom false else s
    | none => s)

/-- LINK_ACK_TIMEOUT (R35): unacknowledged flits for 100 us with neither an acknowledgement nor a busy indication. -/
def execLinkAckTimeout (p : Nat) (cls : FlitClass) (s : State) : Res :=
  let a := (s.port p).txSide (clsNo cls)
  .next (if !a.buf.isEmpty ∧ a.lastAck + 100000 ≤ s.time then s.portDown p else s)

/-- FLIT_DISCARD (R34): a flit arrives, and is discarded for another SEQ, a bad LCRC or want of space, which an RSP flit
always has; any other is accepted and acknowledged by itself. lo and hi are the halves of its payload. -/
def execFlitDiscard (p : Nat) (hdr : BitVec 64) (lo hi : BitVec 256) (space : Bool) (s : State) : Res :=
  let k := flitClass hdr
  let a := (s.port p).rxSide k
  let put := fun (a : RxSide) => s.updPort p fun t => { t with rx := t.rx.put k a }
  .next (if !(s.port p).up ∨ k = 3 then s
    else if !lcrcOk hdr (leBytes 32 lo.toNat ++ leBytes 32 hi.toNat) ∨ flitSeq hdr ≠ a.expect then put { a with out := a.out ++ [(1, a.expect)] }
    else if space ∨ k = 1 then
      put { expect := (a.expect + 1) % 4096, part := a.part + 1, out := a.out ++ [(0, a.expect)] }
    else put { a with full := some s.time, out := a.out ++ [(2, a.expect)] })

/-- BUSY_REPEAT_TIMER (R34): the indication is repeated every 10 us while the receiver discards for lack of space. -/
def execBusyRepeatTimer (p : Nat) (cls : FlitClass) (s : State) : Res :=
  let k := clsNo cls
  let a := (s.port p).rxSide k
  .next (match a.full with
    | some t =>
      if t + 10000 ≤ s.time then
        s.updPort p fun x => { x with rx := x.rx.put k { a with full := some s.time, out := a.out ++ [(2, a.expect)] } }
      else s
    | none => s)

/-! ## The link's part of a mould (Table 10.16, kind 7) and of a replay -/

/-- The 16-byte raw entries of a transaction's bytes. -/
def rawEntries : List Byte → Nat → List MouldEntry
  | _, 0 => []
  | bs, n + 1 =>
    let v := leNat (bs.take 16)
    ⟨bits v 127 124, bits v 123 112, bits v 111 64, word v⟩ :: rawEntries (bs.drop 16) n

/-- Records a transaction from the link for a launch, in one chunk. (DEDUCED, unsafe: log 17) -/
def State.recordTxn (s : State) (lid p : Nat) (x : Txn) : State :=
  if lid = 0 ∨ !(s.entry lid).recording then s
  else
    let bs := txnBytes x
    let raws := rawEntries bs (ceilDiv bs.length 16)
    let key := unitPort p
    let room := match (s.entry lid).chunks.find? key with
      | some (_, n) => decide (n + raws.length < 256)
      | none => false
    let s := if room then s else s.claimChunk lid key p
    let n := (s.port p).arrivals
    let s := s.updPort p fun t => { t with arrivals := n + 1 }
    (⟨7, p, bs.length, word n⟩ :: raws).foldl (fun s m => s.record lid key m) s

/-- The bits of raw entries. -/
def rawBits : List MouldEntry → Nat
  | [] => 0
  | m :: ms => mouldBits m + 2 ^ 128 * rawBits ms

/-- The transaction that a replay's port delivers next, where it has this OP and TAG: its bits and its entries. -/
def State.nextTxn (s : State) (lid p op tag : Nat) : Option (Nat × Nat) :=
  match Tab.rd [] (s.entry lid).units (unitPort p) with
  | m :: ms =>
    let n := ceilDiv (bits m.a 8 0) 16
    let v := rawBits (ms.take n)
    if m.kind = 7 ∧ bits v 127 120 = op ∧ bits v 107 96 = tag then some (v, n + 1) else none
  | [] => none

/-- A unit has met n entries. -/
def State.metMany (s : State) (lid key : Nat) : Nat → State
  | 0 => s
  | n + 1 => (s.met lid key).metMany lid key n

/-- A response for a launch: the live one, accepted and recorded; under REPLAY the recorded one in its turn, for which
nothing arrives on the link; none while it is held. f takes STATUS and the data bits. -/
def State.response (s : State) (lid p : Nat) (x : Txn) (f : State → Nat → Nat → State) : Option State :=
  if s.peerHeld lid then
    match s.nextTxn lid p x.op x.tag with
    | some (v, n) => some (f (s.metMany lid (unitPort p) n) (bits v 110 108) (v / 2 ^ 128))
    | none => if (s.entry lid).trunc then some (f (s.accept p x) x.status (leNat x.data)) else none
  else some (f ((s.accept p x).recordTxn lid p x) x.status (leNat x.data))

/-! ## Responses to this module's requests (R32, R42, R43) -/

/-- The cause that a peer's STATUS gives; none for OK. -/
def statusCause (kind : RemKind) : Nat → Option Nat
  | 0 => none
  | 1 | 2 | 6 => some 0x85
  | 3 => some (if kind = .rld then 0x60 else 0x61)
  | 4 => some 0x51
  | _ => some 0x84

/-- The token of a remote operation's result bits. -/
def resultTok (kind : RemKind) (v : Nat) : Tok :=
  match kind with
  | .rvamo _ _ => .vec (BitVec.ofNat 512 v) 0
  | .roadd _ | .rst | .rstf | .rpost => .val 0
  | .rld | .ramo _ | .rcas => .val (word v)

/-- The data bytes of a remote operation's result. -/
def resultBytes : RemKind → Nat
  | .rvamo _ _ => 64
  | _ => 8

/-- The outstanding request under a tag. -/
def State.pendingAt (s : State) (p tag : Nat) : Option Outstanding :=
  (s.port p).pending.find? fun x => x.tag == tag && !x.posted

/-- A request leaves the outstanding ones. -/
def State.settle (s : State) (p : Nat) (x : Outstanding) : State :=
  s.updPort p fun t => { t with pending := t.pending.erase x }

/-- STATUS of the adapter's answer to the RMT of a tag (R40, R47): to an RST the one of its performance, to any other
operation 1; none while the RST has not been performed. -/
def State.adapterStatus (s : State) (p tag : Nat) (op : RemOp) : Option Nat :=
  if op.kind = .rst then (s.adapter.answers.find? fun a => a.1 == p && a.2.1 == tag).map (·.2.2) else some 1

/-- RMTRSP (R42, R47): the result of a remote operation to a peer, or the adapter's answer. -/
def execRmtrsp (p tag status : Nat) (v : BitVec 512) (s : State) : Res :=
  .next (match s.pendingAt p tag with
    | some x => match x.op with
      | some op =>
        match if s.role p = 0 then s.adapterStatus p tag op else some status with
        | none => s
        | some st =>
          let n := resultBytes op.kind
          let y : Txn := { op := 0x83, len := n, status := st, tag := tag, data := leBytes n v.toNat }
          let y := { y with flits := txnFlits y }
          let s : State := { s with adapter := { s.adapter with
            answers := s.adapter.answers.filter fun a => !(a.1 == p && a.2.1 == tag) } }
          let fin := fun (s : State) (st d : Nat) =>
            (s.settle p x).conclude op (match statusCause op.kind st with
              | some c => .bad c
              | none => .done (resultTok op.kind d))
          ((s.response op.lid p y fin).getD s)
      | none => s
    | none => s)

/-- The posted writes of a core that a PACK acknowledges, earliest first: those whose core has the PACK's 12 bits. (DESIGN CHOICE, unsafe: log 70) -/
def State.posted (s : State) (p core n : Nat) : List Outstanding :=
  ((s.port p).pending.filter fun x => x.posted && (match x.op with
    | some op => op.core % 4096 == core % 4096
    | none => false)).take n

/-- PACK (R42): the acknowledgement count of a core's posted writes. -/
def execPack (p core count : Nat) (s : State) : Res :=
  let xs := s.posted p core count
  let lid := match xs.head? with
    | some x => (x.op.map (·.lid)).getD 0
    | none => 0
  let y : Txn := { op := 0x84, len := 8, data := leBytes 8 (count % 2 ^ 12 * 2 ^ 16 + core % 2 ^ 12), flits := 1 }
  let fin := fun (s : State) (_ : Nat) (d : Nat) => (s.posted p (bits d 11 0) (bits d 27 16)).foldl (fun s x =>
    let s := s.settle p x
    match x.op with
    | some op => s.conclude op (.done (.val 0))
    | none => s) s
  .next (if xs.isEmpty then s else (s.response lid p y fin).getD s)

/-- The message of the instruction at the cursor, as it was when it asked. -/
def State.askedMsg (s : State) : Option Msg :=
  match s.cur.frame.instrAt s.ci with
  | some i => match gather i.shape s.cur.frame s.ci with
    | .vals x y z =>
      let kind := match i with
        | .callat _ _ => 2
        | _ => 1
      some { s.msgOf kind x y z with ident := ((s.cur.frame.asked.find? s.ci).getD 0) }
    | _ => none
  | none => none

/-- The answer of a reservation at a peer reaches the instruction that asked; a block that is gone gives it back. (DEDUCED, unsafe: log 45) -/
def State.resvAnswer (s : State) (p c k n i d : Nat) : Option State :=
  let bounced := d.testBit 0
  let h := bits d 27 16
  if !s.awaitsAt c k n i then some (if bounced then s else s.linkSend p (unrsvTxn h))
  else
    let at_ : State := { s with cursor := { s.cursor with core := c, slot := k, word := i } }
    match at_.askedMsg with
    | none => some s
    | some m => (s.tallyAnswer m.lid c bounced m.ident).map fun s =>
        s.atWordOf c k i fun s => s.answered m (if bounced then none else some h)

/-- RSVRSP (R43). -/
def execRsvrsp (p tag : Nat) (d : Word) (s : State) : Res :=
  .next (match s.pendingAt p tag with
    | some x => match x.msgFor with
      | some (c, k, n, i) =>
        let lid := tswLid (s.slot c k).ctx.tsw
        let y : Txn := { op := 0x85, len := 8, tag := tag, data := leBytes 8 d.toNat, flits := 1 }
        let fin := fun (s : State) (_ v : Nat) => (s.resvAnswer p c k n i v).map fun s => s.settle p x
        match s.response lid p y (fun s st v => (fin s st v).getD s) with
        | some s' => if (s'.port p).pending.contains x then s else s'
        | none => s
      | none => s
    | none => s)

/-- REQUEST_TIMEOUT (Table 2.4): no response within the requester's limit, STATUS 7. -/
def execRequestTimeout (p tag : Nat) (s : State) : Res :=
  .next (match s.pendingAt p tag with
    | some x => if x.sentAt + Config.requestLimit ≤ s.time ∧ !s.mouldAnswers x then (s.settle p x).endRequest x else s
    | none => s)

/-! ## Requests of peers (R41-R43) -/

/-- STATUS of an operation that its agent turned away (Table 2.4). (DEDUCED, unsafe: log 18) -/
def causeStatus (c : Nat) : Nat :=
  if c = 0x51 then 4 else if c = 0x60 ∨ c = 0x61 then 3 else if c = 0x85 then 1 else 6

/-- The vault location of a link physical address (Table 2.5). -/
def linkLoc (addr : Nat) : Option Nat :=
  if addr / 2 ^ 40 = 0 ∧ !addr.testBit 27 then some (vaultLoc (bits addr 39 28) (bits addr 26 0)) else none

/-- The bytes to which an operation is aligned. -/
def remAlign : RemKind → Nat
  | .roadd .f32 => 4
  | .rvamo _ _ => 64
  | _ => 8

/-- RMT (R41): the operation op, at the address of the transaction, is handed to the vault's agent, for no launch of this
package. A posted write that is not performed is acknowledged too. (DEDUCED, unsafe: log 18) (DESIGN CHOICE, unsafe: log 69) -/
def execRmt (p : Nat) (x : Txn) (op : RemOp) (s : State) : Res :=
  let posted := op.kind == .rpost
  let answer := fun (s : State) (agent st : Nat) (d : List Byte) =>
    if posted then s.gatherPost agent (p * 8192 + op.core % 8192) op else s.reply p 0x83 x.tag st d
  .next (if !(s.port p).up ∨ s.role p = 2 then s
    else if x.op ≠ 0x20 ∨ malformedTxn x false ∨ s.role p = 0 then
      (if posted then (s.accept p x).countErr p else (s.accept p x).reply p 0x83 x.tag 6 [0])
    else match linkLoc x.addr with
      | none => answer (s.accept p x) (8192 + p) 1 [0]
      | some loc =>
        if loc % remAlign op.kind ≠ 0 then answer (s.accept p x) (ownerOf loc) 2 [0]
        else match (s.accept p x).remAt { op with place := .mem loc, lid := 0 } loc with
          | (.wait, _) => s
          | (.bad c, s2) => answer s2 (ownerOf loc) (causeStatus c) [0]
          | (.done t, s2) => answer s2 (ownerOf loc) 0 (match t with
            | .vec v _ => leBytes 64 v.toNat
            | t => leBytes 8 t.w.toNat))

/-- The import launch of a port for a message (R129): none where it is discarded. -/
def State.imported (s : State) (p : Nat) (m : Msg) : Option Msg :=
  let w := (s.port p).pimp
  let lid := wbits w 15 0
  if !w.toNat.testBit 63 || !s.lidLive lid then none
  else some { m with lid := lid, p := m.p && w.toNat.testBit 62 }

/-- A message from the link that no core of the package can take: a reserved KIND, another package, no such core. -/
def State.badMsg (s : State) (m : Msg) : Bool :=
  m.kind == 0 || decide (3 < m.kind) || m.dpkg != s.pkg || decide (Config.lastCore < m.dcore) || (m.t && isSvc m.dcore)

/-- RSV (R43): the port asks the destination core, and holds the reservation under a handle. data holds words 0 and 1 of
the message. -/
def execRsv (p : Nat) (x : Txn) (s : State) : Res :=
  let w := leNat (x.data.take 8)
  let m : Msg := { kind := bits w 63 60, p := w.testBit 59, t := w.testBit 58, lid := bits w 55 40, dpkg := bits w 39 32
                   dcore := bits w 28 16, origin := word (leNat ((x.data.drop 8).take 8)) }
  let t := s.port p
  .next (if !t.up ∨ s.role p = 2 then s
    else
      let s := s.accept p x
      if x.op ≠ 0x21 ∨ malformedTxn x false ∨ s.role p = 0 then s.reply p 0x85 x.tag 6 (leBytes 8 1)
      else if s.badMsg m ∨ (s.imported p m).isNone ∨ 4096 ≤ t.resv.length then s.reply p 0x85 x.tag 0 (leBytes 8 1)
      else match s.reserveAt m.dcore m.t with
        | none => s.reply p 0x85 x.tag 0 (leBytes 8 1)
        | some (ch, s) =>
          let h := lowestFree (t.resv.map (·.handle))
          let s := s.updPort p fun t =>
            { t with resv := t.resv ++ [⟨h, if m.t then evenCore m.dcore else m.dcore, ch⟩] }
          s.reply p 0x85 x.tag 0 (leBytes 8 (h * 2 ^ 16)))

/-- UNRSV (R43). -/
def execUnrsv (p : Nat) (x : Txn) (s : State) : Res :=
  let h := leNat (x.data.take 8) % 2 ^ 12
  .next (if !(s.port p).up ∨ s.role p = 2 then s
    else
      let s := s.accept p x
      if x.op ≠ 0x22 ∨ malformedTxn x false ∨ s.role p = 0 then s.countErr p
      else match (s.port p).resv.find? (·.handle == h) with
        | some r =>
          (s.updPort p fun t => { t with resv := t.resv.filter (·.handle != h) }).send (.resvRel (8192 + p) r.core r.coreHandle)
        | none => s)

/-- A port takes a message into its import launch (R129, R142): into its reservation, or as a SEND; while the launch is
cut the port keeps it (Table 10.14 step 6). -/
def State.importMsg (s : State) (p : Nat) (m : Msg) (rhnd : Nat) : State :=
  let s := s.updPort p fun t => { t with counts := countUpd t.counts m.lid fun c => { c with sent := (c.sent + 1) % 2 ^ 32 } }
  let r := if m.kind = 3 then none else (s.port p).resv.find? (·.handle == rhnd)
  let s := match r with
    | some r => s.updPort p fun t => { t with resv := t.resv.filter (·.handle != r.handle) }
    | none => s
  let src := 8192 + p
  if s.cuts m.lid then
    let s := match r with
      | some r => s.send (.resvRel src r.core r.coreHandle)
      | none => s
    s.updPort p fun t => { t with cutHeld := t.cutHeld ++ [(m, src)] }
  else s.send (.msg src m (r.map (·.coreHandle)))

/-- Whether a message of the link finds its reservation, or a SEND room at its core. -/
def State.hasPlace (s : State) (p : Nat) (m : Msg) (rhnd : Nat) : Bool :=
  if m.kind = 3 then s.inboxRoom m.dcore || (s.openSlot m.dcore).isSome
  else (s.port p).resv.any (·.handle == rhnd)

/-- A message of the mould's bytes (Table 7.7). -/
def msgOfBits (v : Nat) : Msg :=
  let w := fun (i : Nat) => bits v (64 * i + 63) (64 * i)
  { kind := bits (w 0) 63 60, p := (w 0).testBit 59, t := (w 0).testBit 58, lid := bits (w 0) 55 40, dpkg := bits (w 0) 39 32
    dcore := bits (w 0) 28 16, origin := word (w 1), handler := bits (w 2) 31 0, retw := word (w 3)
    pay := (List.range 4).map fun i => word (w (4 + i)) }

/-- MSG (R43, R129): the message in the data of x, from a peer or the host. A SEND that finds no room is not accepted, and
its class is busy (R34). Under REPLAY live messages are discarded, and the port delivers the next recorded one, as replayed
says (R231). A message that is discarded leaves its reservation held. (DEDUCED, unsafe: log 17) (DESIGN CHOICE, unsafe: log 71)
(DESIGN CHOICE, unsafe: log 88) -/
def execMsg (p : Nat) (x : Txn) (replayed : Bool) (s : State) : Res :=
  let role := s.role p
  let m := msgOfBits (leNat x.data)
  .next (if !(s.port p).up ∨ role = 2 then s
    else if replayed then
      let lid := wbits (s.port p).pimp 15 0
      match if s.peerHeld lid then s.nextTxn lid p 0x40 0 else none with
      | some (v, n) =>
        match s.imported p (msgOfBits (v / 2 ^ 128)) with
        | some m => (s.metMany lid (unitPort p) n).importMsg p m 4096
        | none => s
      | none => s
    else if x.op ≠ 0x40 ∨ malformedTxn x (role == 0) ∨ s.badMsg m then (s.accept p x).countErr p
    else match s.imported p m with
      | none => (s.accept p x).countErr p
      | some m =>
        if s.peerHeld m.lid then (s.accept p x).countErr p
        else if !s.hasPlace p m x.rhnd then
          (if m.kind = 3 then s.updPort p fun t =>
            let a := t.rxSide 2
            { t with rx := t.rx.put 2 { a with full := some s.time, out := a.out ++ [(2, a.expect)] } }
          else (s.accept p x).countErr p)
        else ((s.accept p x).recordTxn m.lid p x).importMsg p m x.rhnd)

end Sys2Proof.Machine
end

