-- ==== Sys2Proof/Machine/HostSide.lean ====
section
/-!
DEFINITION. The host side: the adapter (R37, R38, R47), the transactions that the service cores perform for the host
(R36, R44-R50) and the requests that the supervisor serves (R51, Table 3.7).
-/

namespace Sys2Proof.Machine

/-! ## Where a host transaction lands (R44, R45, R49) -/

/-- The target of a host transaction: a byte of the request port, or of a vault of the quarter; it is not known while the
walk waits for a layer that powers on (R162). -/
inductive HostPlace
  | port (n : Nat)
  | mem (loc : Nat)
  | waits
  deriving DecidableEq, Repr

/-- A byte of the queue window for the service core of quarter q: through its frame table and the supervisor's address
space, whose virtual region alone is translated and which has no table while SROOT is 0, to a vault of the quarter (R45,
R400). -/
def State.queuePlace (s : State) (q off : Nat) (kind : AKind) : Option HostPlace :=
  let e := Tab.rd 0 (s.svc q).frames (off / 4096)
  let va := wbits e 55 12 * 4096 + off % 4096
  if !e.toNat.testBit 63 || regionOf true va != .virt then none
  else
    match walk s (s.rootOf (4096 + q) 0) va kind with
    | .error d => if d.waits then some .waits else none
    | .ok (l, size) =>
      if !pageRights kind true l then none
      else match leafPhys s.pkg l va size with
        | .here loc => if quarterOf (ownerOf loc) = q then some (.mem loc) else none
        | .far _ _ _ => none

/-- The place of a host transaction (Table 3.1). -/
def State.hostPlace (s : State) (x : Txn) (kind : AKind) : Option HostPlace :=
  let hi := bits x.addr 55 48
  if hi = 0 then s.queuePlace x.qtr (bits x.addr 47 0) kind
  else if hi = 1 ∧ bits x.addr 47 16 = 0 then some (.port (bits x.addr 15 0))
  else none

/-- The error log of a request port takes a transaction (R48, Table 3.5). (DEDUCED, unsafe: log 53) -/
def State.logTxn (s : State) (x : Txn) (status : Nat) : State :=
  let n := (s.rdWord (portLoc x.qtr 0xC100)).toNat
  let at_ := portLoc x.qtr (0xC000 + 16 * (n % 16))
  let s := s.wrWord (portLoc x.qtr 0xC100) (word (n + 1))
  let s := s.wrWord at_ (word (x.op % 2 ^ 8 * 2 ^ 56 + x.addr % 2 ^ 56))
  s.wrWord (at_ + 8) (word ((n + 1) % 2 ^ 32 * 2 ^ 32 + x.tag % 2 ^ 12 * 2 ^ 16 + status))

/-! ## Reading and writing for the host (R36, Table 3.2) -/

/-- Word i of those that n bytes from an address touch: its offset among the bytes and how many of them lie in it. -/
def wordPiece (a n i : Nat) : Nat × Nat := (8 * i - a % 8, min n (8 * (i + 1) - a % 8) - (8 * i - a % 8))

/-- The words that n bytes from an address touch. -/
def wordsTouched (a n : Nat) : Nat := (a % 8 + n + 7) / 8

/-- A read of n bytes of a word: a poisoned word reads as all ones, with STATUS 3 (R36). -/
def State.hostRead (s : State) (loc n : Nat) : Nat × List Byte :=
  let bs := (List.range n).map fun i => if s.mem.isPois (loc + i) then 0xFF else s.byte (loc + i)
  (if s.anyPois loc n then 3 else 0, bs)

/-- A write of bytes of a word; a part of a poisoned word is not written (R36). -/
def State.hostWrite (s : State) (loc : Nat) (bs : List Byte) : Nat × State :=
  let cs : Cells := bs.zipIdx.map fun (b, i) => (loc + i, b, true)
  let (bad, s) := s.writeCells cs
  (if bad ≠ [] then 3 else 0, (s.dropReadBufs (cs.map (·.1))).touchRow loc)

/-- The last word of a WRF, as STF (Table 3.2): a part of the word is merged, and is not performed on a poisoned one.
(DEDUCED, unsafe: log 82) -/
def State.hostStf (s : State) (loc : Nat) (bs : List Byte) : Nat × State :=
  let (st, s) := s.hostWrite loc bs
  let l := wordLoc loc
  (st, if st ≠ 0 then s else s.storeFull l (s.rdWord l))

/-- A word of a host write: the last of a WRF is full after it. -/
def State.hostPut (s : State) (stf : Bool) (loc : Nat) (bs : List Byte) : Nat × State :=
  if stf then s.hostStf loc bs else s.hostWrite loc bs

/-- Bytes of the request port that the host may write as memory: the request ring (Table 3.6). -/
def ringBytes (n len : Nat) : Bool := decide (n + len ≤ 0x8000)

/-- RSPACK takes a count (R51), modulo 2^64: one above RSPCNT is taken as RSPCNT, one below its value is ignored; room
lets held responses out. -/
def State.writeRspack (s : State) (q v : Nat) : State :=
  let old := (s.rdWord (portLoc q 0xFFE8)).toNat
  let ahead := ((s.rdWord (portLoc q 0xFFF0)).toNat + 2 ^ 64 - old) % 2 ^ 64
  let by_ := (v + 2 ^ 64 - old) % 2 ^ 64
  if 2 ^ 63 ≤ by_ then s
  else (s.putWord (portLoc q 0xFFE8) (word (old + min by_ ahead))).flushRsps 512 q

/-- A word with n of its bytes from byte i on replaced. -/
def mergeBytes (w : Word) (i : Nat) (bs : List Byte) : Nat :=
  if bs.isEmpty then w.toNat else putBits w.toNat (8 * (i + bs.length) - 1) (8 * i) (leNat bs)

/-- Bytes of RSPACK. -/
def rspackBytes (n len : Nat) : Bool := decide (0xFFE8 ≤ n ∧ n + len ≤ 0xFFF0)

/-- A word of a host write to the request port: its STATUS (R49). A part of RSPACK is merged as a part of any word is. (DEDUCED, unsafe: log 53) -/
def State.portWrite (s : State) (stf : Bool) (q n : Nat) (bs : List Byte) : Nat × State :=
  if ringBytes n bs.length then s.hostPut stf (portLoc q n) bs
  else
    let loc := portLoc q 0xFFE8
    let s := s.writeRspack q (mergeBytes (s.rdWord loc) (n - 0xFFE8) bs)
    (0, if stf then s.storeFull loc (s.rdWord loc) else s)

/-- A host read of a word of the request port (R49): reserved areas read zero. -/
def State.portRead (s : State) (q n len : Nat) : Nat × List Byte :=
  let r := s.hostRead (portLoc q n) len
  (r.1, r.2.zipIdx.map fun (b, i) => if 0xC108 ≤ n + i ∧ n + i < 0xFFE8 then 0 else b)

/-- Whether a host transaction may leave the link for the service core of its quarter (R46, R64): the port is up, the core
is not held, the adapter has sent it, and no earlier transaction of the quarter is on the link. -/
def State.hostArrives (s : State) (p : Nat) (x : Txn) : Bool :=
  (s.port p).up && s.role p == 0 && !(s.svc x.qtr).held &&
    (s.adapter.sent.filter fun e => e.2.qtr == x.qtr).head? == some (p, x)

/-- A host transaction is accepted from the link, and a quarter that waits to move may go on (R37). -/
def State.hostTakes (s : State) (p : Nat) (x : Txn) : State :=
  ({ s with adapter := { s.adapter with sent := s.adapter.sent.erase (p, x) } }.accept p x).adapterPump

/-- What a service core does next with a host transaction: it waits for a layer that powers on, has performed a word of it,
or has ended it. -/
inductive HostTurn
  | waits
  | goesOn (a : HostPart) (s : State)
  | done (s : State)

/-- The first of a service core's host transactions has ended. -/
def State.hostEnded (s : State) (q : Nat) : State :=
  s.updSvc q fun v => { v with inFlight := v.inFlight.tail, part := {} }

/-- The first of a service core's host transactions goes on by one word. -/
def State.hostGoesOn (s : State) (q : Nat) (f : HostPart → State → HostTurn) : State :=
  match f (s.svc q).part s with
  | .waits => s
  | .goesOn a t => t.updSvc q fun v => { v with part := a }
  | .done t => t.hostEnded q

/-- A service core performs its host transactions one at a time in arrival order, of up to 64 in flight (R46), and each of
them word by word (R36). other is what happens to one that no service core takes. (DEDUCED, unsafe: log 53) -/
def State.hostServes (s : State) (p : Nat) (x : Txn) (f : HostPart → State → HostTurn) (other : State → State) : State :=
  let mine := (s.svc x.qtr).inFlight
  if (s.svc x.qtr).held then s
  else if mine.head? = some (p, x) then s.hostGoesOn x.qtr f
  else if !s.hostArrives p x then other s
  else if 64 ≤ mine.length then s
  else
    let t := (s.hostTakes p x).updSvc x.qtr fun v => { v with inFlight := mine ++ [(p, x)] }
    if mine.isEmpty then t.hostGoesOn x.qtr f else t

/-- A malformed transaction is logged at the request port that its QTR names (R48). (DEDUCED, unsafe: log 53) -/
def State.logBad (s : State) (x : Txn) : State := if x.qtr < 16 then s.logTxn x 6 else s

/-- Where the rest of a host transaction goes on: at a byte of the request port, at one of a vault; or its end with a STATUS,
or the wait for a layer. -/
def State.hostAt (s : State) (x : Txn) (kind : AKind) (port mem : Nat → HostTurn) (bad : Nat → HostTurn) : HostTurn :=
  match s.hostPlace x kind with
  | none => bad 1
  | some .waits => .waits
  | some (.port n) => port n
  | some (.mem loc) => if s.layerOff loc then bad 4 else if s.layerBusy loc then .waits else mem loc

/-- RD at the service core (R36, R45): its words in ascending order, then RDRSP. A read of REQCNT is not performed (R50). -/
def hostLoad (p : Nat) (x : Txn) (a : HostPart) (s : State) : HostTurn :=
  let bad := fun (st : Nat) => HostTurn.done (s.reply p 0x80 x.tag st (List.replicate x.len 0))
  let w := wordPiece x.addr x.len a.done
  let next := fun (r : Nat × List Byte) (s : State) =>
    let a : HostPart := ⟨a.done + 1, a.buf ++ r.2, max a.st r.1⟩
    if a.done < wordsTouched x.addr x.len then HostTurn.goesOn a s else .done (s.reply p 0x80 x.tag a.st a.buf)
  s.hostAt x .load
    (fun n => if 0xFFF8 < n + x.len then bad 1 else next (s.portRead x.qtr (n + w.1) w.2) s)
    (fun loc => next (s.hostRead (loc + w.1) w.2) (s.touchRow (loc + w.1))) bad

/-- A host write at the service core, its words in ascending order: answered with ACK where it is not posted, or entered in
the error log (R45, R48). (DEDUCED, unsafe: log 53) -/
def hostStore (p : Nat) (x : Txn) (a : HostPart) (s : State) : HostTurn :=
  let fin := fun (st : Nat) (s : State) =>
    HostTurn.done (if x.op = 2 then s.reply p 0x81 x.tag st [] else if st = 0 then s else s.logTxn x st)
  let w := wordPiece x.addr x.len a.done
  let bs := ((x.data ++ List.replicate x.len 0).drop w.1).take w.2
  let more := decide (a.done + 1 < wordsTouched x.addr x.len)
  let stf := x.op == 4 && !more
  let next := fun (r : Nat × State) =>
    if more then HostTurn.goesOn ⟨a.done + 1, [], max a.st r.1⟩ r.2 else fin (max a.st r.1) r.2
  s.hostAt x .store
    (fun n => if ringBytes n x.len || rspackBytes n x.len then next (s.portWrite stf x.qtr (n + w.1) bs)
      else fin 1 (if x.op = 2 then s.logTxn x 1 else s))
    (fun loc => next (s.hostPut stf (loc + w.1) bs)) (fin · s)

/-- The operation of an AMO code (Table 2.3). -/
def amoOfCode : Nat → AmoOp
  | 8 => .add | 9 => .and | 0xA => .or | 0xB => .xor | 0xC => .swap | 0xD => .cas
  | 0xE => .min | 0xF => .max | 0x10 => .minn | 0x11 => .maxn | _ => .fadd

/-- An atomic of the host on a word: its STATUS and the old value. -/
def State.hostAtomic (s : State) (x : Txn) (loc : Nat) : Nat × Word × State :=
  let a := word (leNat (x.data.take 8))
  let b := word (leNat ((x.data.drop 8).take 8))
  match s.amoAt (amoOfCode x.op) loc a b with
  | some (o, _, s) => (0, o, s)
  | none => (3, 0xFFFFFFFFFFFFFFFF, s)

/-- ADD on REQCNT (R50): the word takes the sum and becomes full; as an atomic it wakes the line's waiters (R318). -/
def State.addReqcnt (s : State) (x : Txn) : Nat × Word × State :=
  let loc := portLoc x.qtr 0xFFF8
  let o := s.rdWord loc
  (0, o, ((s.dropReadBufs [loc]).storeFull loc (o + word (leNat (x.data.take 8)))).wakeLine loc)

/-- An AMO on the request port (R49, R50). -/
def State.portAtomic (s : State) (x : Txn) (n : Nat) : Nat × Word × State :=
  if n = 0xFFF8 then (if x.op = 8 then s.addReqcnt x else (1, 0, s))
  else if ringBytes n 8 then s.hostAtomic x (portLoc x.qtr n)
  else if n = 0xFFE8 then
    let o := s.rdWord (portLoc x.qtr n)
    let (v, _) := amoCalc (amoOfCode x.op) 64 o.toNat (leNat (x.data.take 8)) (leNat ((x.data.drop 8).take 8))
    (0, o, (s.writeRspack x.qtr v).wakeLine (portLoc x.qtr n))
  else (1, 0, s.logTxn x 1)

/-- AMO at the service core (R36, R45): answered with AMORSP. -/
def hostAmo (p : Nat) (x : Txn) (_ : HostPart) (s : State) : HostTurn :=
  let fin := fun (r : Nat × Word × State) => HostTurn.done (r.2.2.reply p 0x82 x.tag r.1 (leBytes 8 r.2.1.toNat))
  s.hostAt x .atomic (fun n => fin (s.portAtomic x n)) (fun loc => fin (s.hostAtomic x loc)) (fun st => fin (st, 0, s))

/-- How a port answers a host transaction that it rejects (R33): with the response that the operation expects; none where it
expects none, where the error count takes it. An operation that no table names is taken for the row's own, row. -/
def rejection (row : Nat) (x : Txn) : Option (Nat × List Byte) :=
  let op := if fromHost x.op || fromPeer x.op then x.op else row
  if op = 1 then some (0x80, List.replicate x.len 0)
  else if op = 2 then some (0x81, [])
  else if 8 ≤ op ∧ op ≤ 0x12 then some (0x82, leBytes 8 0)
  else if op = 0x20 then some (0x83, [0])
  else if op = 0x21 then some (0x85, leBytes 8 1)
  else none

/-- Rejects a host transaction: STATUS 6, or the port's error count (R33). -/
def State.reject (s : State) (p row : Nat) (x : Txn) : State :=
  match rejection row x with
  | some (op, data) => s.reply p op x.tag 6 data
  | none => s.countErr p

/-- A host transaction at its service core, performed as the operation it names (R45), or rejected and logged (R48). -/
def hostTxn (p row : Nat) (x : Txn) (a : HostPart) (s : State) : HostTurn :=
  if malformedTxn x true then .done ((s.logBad x).reject p row x)
  else if x.op = 1 then hostLoad p x a s
  else if x.op ≤ 4 then hostStore p x a s
  else hostAmo p x a s

/-- A host's operation on a peer's port is malformed (R32, R33). -/
def State.notHost (s : State) (p row : Nat) (x : Txn) : State :=
  if !(s.port p).up ∨ s.role p ≠ 1 then s else (s.accept p x).reject p row x

/-- A transaction of the host's operations at a port; a MSG is none. -/
def State.hostOp (s : State) (p row : Nat) (x : Txn) : State :=
  if x.op = 0x40 then s else s.hostServes p x (hostTxn p row x) (·.notHost p row x)

/-- RD (R36, R45). -/
def execRd (p : Nat) (x : Txn) (s : State) : Res := .next (s.hostOp p 1 x)

/-- WR (R45). -/
def execWr (p : Nat) (x : Txn) (s : State) : Res := .next (s.hostOp p 2 x)

/-- WRP (R45). -/
def execWrp (p : Nat) (x : Txn) (s : State) : Res := .next (s.hostOp p 3 x)

/-- WRF (R38, R39, R45). -/
def execWrf (p : Nat) (x : Txn) (s : State) : Res := .next (s.hostOp p 4 x)

/-- HOST_AMO (R36, R45). -/
def execHostAmo (p : Nat) (x : Txn) (s : State) : Res := .next (s.hostOp p 8 x)

/-- REQCNT_ADD (R50): a host AMO ADD whose address is REQCNT. -/
def execReqcntAdd (p : Nat) (x : Txn) (s : State) : Res :=
  .next (if x.op = 8 ∧ x.addr = 0x100000000FFF8 then s.hostOp p 8 x else s)

/-- RSPACK_WRITE (R51): a host write whose address is RSPACK. -/
def execRspackWrite (p : Nat) (x : Txn) (s : State) : Res :=
  .next (if 2 ≤ x.op ∧ x.op ≤ 4 ∧ x.addr = 0x100000000FFE8 then s.hostOp p x.op x else s)

/-! ## The adapter (R37, R38, R64, R73) -/

/-- The adapter sends a transaction for quarter q under the next tag (R37): at once, or after the quarter's move; with no
host-role port up a read or atomic completes with an error and a write is lost. (DESIGN CHOICE, unsafe: log 68) -/
def State.adapterSend (s : State) (q : Nat) (x : Txn) : State :=
  let x := { x with tag := s.adapter.nextTag % 4096, qtr := q }
  let x := { x with flits := txnFlits x }
  let s : State := { s with adapter := { s.adapter with nextTag := s.adapter.nextTag + 1 } }
  match s.wantPort q with
  | none => s.adapterLose x
  | some p =>
    if s.movesAfter q p || s.adapter.waiting.any fun e => e.2.qtr == q then
      { s with adapter := { s.adapter with waiting := s.adapter.waiting ++ [(p, x)] } }
    else s.adapterPut p x

/-- The pieces of n bytes from an address, split at 256-byte boundaries (R37); fuel bounds them. -/
def pieces256 : Nat → Nat → Nat → List (Nat × Nat)
  | 0, _, _ => []
  | f + 1, a, n =>
    if n = 0 then [] else
      let k := min n (256 - a % 256)
      (a, k) :: pieces256 f (a + k) (n - k)

/-- Where a window's byte goes: quarter, link address, doorbell; none where the access is refused. -/
def State.windowOf (s : State) (w : HostWindow) (a : Nat) : Option (Nat × Nat × Bool) :=
  if s.mgmt.state ≠ 8 ∧ s.mgmt.state ≠ 9 then none
  else match w with
    | .management => none
    | .request => if a < 2 ^ 20 then some (a / 2 ^ 16, 2 ^ 48 + a % 2 ^ 16, false) else none
    | .queue =>
      let e := Tab.rd 0 s.adapter.frames (a / 4096)
      if a < s.mgmt.config.queueWindow ∧ e.toNat.testBit 63 then some (wbits e 61 58, a, e.toNat.testBit 62) else none

/-- A piece of a host write (R38). One of fewer than 8 bytes that ends a record off an 8-byte boundary is a WRP. (DESIGN CHOICE, unsafe: log 87) -/
def State.writePiece (s : State) (w : HostWindow) (a : Nat) (bs : List Byte) : State :=
  let n := bs.length
  let txn := fun (op addr : Nat) (d : List Byte) => ({ op := op, len := d.length, addr := addr, data := d } : Txn)
  match s.windowOf w a with
  | none => s
  | some (q, addr, bell) =>
    if bell ∧ (a + n) % 64 = 0 ∧ a % 8 = 0 then s.adapterSend q (txn 4 addr bs)
    else if bell ∧ (a + n) % 64 = 0 ∧ 8 < n then
      (s.adapterSend q (txn 3 addr (bs.take (n - 8)))).adapterSend q (txn 4 (addr + n - 8) (bs.drop (n - 8)))
    else s.adapterSend q (txn 3 addr bs)

/-- The management window as the host reads it (Table 4.2). From STATE 9 on the report area shows what stands in it. (DESIGN CHOICE, unsafe: log 90) -/
def State.mgmtByte (s : State) (o : Nat) : Byte :=
  let m := s.mgmt
  let over_ := m.state == 8 || m.state == 9
  let byteOf := fun (v i : Nat) => BitVec.ofNat 8 (v / 256 ^ i)
  if o < 8 then byteOf (m.count % 2 ^ 32 * 2 ^ 32 + m.fail * 2 ^ 8 + m.state) o
  else if 0x10 ≤ o ∧ o < 0x18 then byteOf m.tenantReg.toNat (o - 0x10)
  else if 0x40 ≤ o ∧ o < 0x60 then byteOf m.nonceReg.toNat (o - 0x40)
  else if 0x1000 ≤ o ∧ o < 0x1200 then (if over_ then Tab.rd 0 m.report (o - 0x1000) else 0)
  else if 0x1200 ≤ o ∧ o < 0x1200 + 3309 then
    (if over_ then Config.sigByte (leNat ((List.range 512).map fun i => Tab.rd 0 m.report i)) (o - 0x1200) else 0)
  else if 0x2000 ≤ o ∧ o < 0x4000 then Config.certByte (o - 0x2000)
  else if 0x4000 ≤ o ∧ o < 0xC000 then
    (if over_ then byteOf (m.frames.getD ((o - 0x4000) / 8) 0).toNat (o % 8) else 0)
  else 0

/-- A host write of the management window: TENANT and NONCE take the bytes written, CMD acts, staging is kept. -/
def State.mgmtStore (s : State) (o : Nat) (bs : List Byte) : State :=
  let cs := bs.zipIdx.map fun (b, i) => (o + i, b)
  let words : List Nat := (cs.map fun c => c.1 / 8 * 8).eraseDups
  let one := fun (s : State) (a : Nat) =>
    let old := leNat ((List.range 8).map fun i => if a = 8 then 0 else s.mgmtByte (a + i))
    let new : Nat := cs.foldl (fun v c =>
      if c.1 / 8 * 8 = a then putBits v (8 * (c.1 % 8) + 7) (8 * (c.1 % 8)) c.2.toNat else v) old
    if a = 8 then (if new = 7 && s.mayTurnover then s.beginTurnover s.mgmt.tenantReg else s)
    else s.mgmtWrite a (word new)
  let s := words.foldl one s
  { s with mgmt := { s.mgmt with staging := cs.foldl (fun t c =>
      if 0xC000 ≤ c.1 ∧ c.1 < 0x10000 then t.put (c.1 - 0xC000) c.2 else t) s.mgmt.staging } }

/-- PCIE_MEMORY_WRITE (R37, R38): addr is an offset in the window. -/
def execPcieMemoryWrite (w : HostWindow) (addr : Nat) (data : List Byte) (s : State) : Res :=
  .next (if w = .management then s.mgmtStore addr data
    else (pieces256 (data.length + 1) addr data.length).foldl (fun s p =>
      s.writePiece w p.1 ((data.drop (p.1 - addr)).take p.2)) s)

/-- PCIE_MEMORY_READ (R37). -/
def execPcieMemoryRead (w : HostWindow) (addr len : Nat) (s : State) : Res :=
  .next (if w = .management then
      s.complPcie { tag := s.adapter.nextTag % 4096, status := 0, data := (List.range len).map fun i => s.mgmtByte (addr + i) }
    else (pieces256 (len + 1) addr len).foldl (fun s p =>
      match s.windowOf w p.1 with
      | none => s.complPcie { tag := s.adapter.nextTag % 4096, status := 1 }
      | some (q, a, _) => s.adapterSend q { op := 1, len := p.2, addr := a }) s)

/-- PCIE_ATOMICOP (R37): 64 bits become an AMO; 32 bits complete with Completer Abort, at the management window too; a window
that is not served or not mapped completes with Unsupported Request before that (R38, R64). -/
def execPcieAtomicop (w : HostWindow) (addr : Nat) (kind : PcieAtomic) (n : Nat) (a b : Word) (s : State) : Res :=
  let tag := s.adapter.nextTag % 4096
  .next (match s.windowOf w addr with
    | none => s.complPcie { tag := tag, status := if w = .management ∧ n ≠ 64 then 2 else 1 }
    | some (q, x, _) =>
      if n ≠ 64 then s.complPcie { tag := tag, status := 2 }
      else
        let txn := fun (op len : Nat) (d : List Byte) => ({ op := op, len := len, addr := x, data := d } : Txn)
        s.adapterSend q (match kind with
          | .fetchAdd => txn 8 8 (leBytes 8 a.toNat)
          | .swap => txn 0xC 8 (leBytes 8 a.toNat)
          | .cas => txn 0xD 16 (leBytes 8 a.toNat ++ leBytes 8 b.toNat)))

/-- A response on a host-role port reaches the adapter and completes the host's request. (DEDUCED, unsafe: log 20) -/
def hostResponse (p op tag : Nat) (s : State) : State :=
  match (s.port p).outq.find? fun x => x.op == op && x.tag == tag with
  | none => s
  | some x =>
    if s.role p ≠ 0 then s
    else
      let s := s.updPort p fun t => { t with outq := t.outq.erase x }
      match s.adapter.outstanding.find? fun r => r.tag == tag && r.port == p with
      | none => s
      | some r =>
        let s : State := { s with adapter := { s.adapter with outstanding := s.adapter.outstanding.erase r } }
        let status := if x.status = 0 ∨ x.status = 3 then 0 else if x.status = 1 then 1 else 2
        (s.complPcie { tag := tag, status := status, data := x.data }).adapterPump

/-- RDRSP (R32). -/
def execRdrsp (p tag : Nat) (s : State) : Res := .next (hostResponse p 0x80 tag s)

/-- ACK (R32). -/
def execAck (p tag : Nat) (s : State) : Res := .next (hostResponse p 0x81 tag s)

/-- AMORSP (R36). -/
def execAmorsp (p tag : Nat) (s : State) : Res := .next (hostResponse p 0x82 tag s)

/-- The RST that waits at the adapter in the RMT of a tag on port p: the operation, its core and its offset. -/
def State.adapterRst (s : State) (p tag : Nat) : Option (RemOp × Nat × Nat) :=
  match s.pendingAt p tag with
  | some x => match x.op with
    | some op => match op.place with
      | .peer 255 c o =>
        if op.kind = .rst && (s.port p).outq.any fun t => t.op == 0x20 && t.tag == tag then some (op, c, o) else none
      | _ => none
    | none => none
  | none => none

/-- The adapter has performed an RMT: it leaves the link, and its RMTRSP has a STATUS. -/
def State.adapterDid (s : State) (p tag st : Nat) : State :=
  let s := s.updPort p fun t => { t with outq := t.outq.filter fun x => !(x.op == 0x20 && x.tag == tag) }
  { s with adapter := { s.adapter with answers := s.adapter.answers ++ [(p, tag, st)] } }

/-- Whether a host-role port is up, by which an RST reaches the adapter (R40). -/
def State.reachesAdapter (s : State) : Bool := (s.route 255).isSome

/-- FRAME_TABLE_ENTRY_WRITE (R47, Table 3.3): the RST of TAG n / 8 at port n % 8 writes an entry of the adapter's frame
table. -/
def execFrameTableEntryWrite (n : Nat) (s : State) : Res :=
  let p := n % 8
  let tag := n / 8
  .next (match s.adapterRst p tag with
    | some (op, 0, o) =>
      if o % 8 ≠ 0 ∨ 2 ^ 27 ≤ o then s.adapterDid p tag 1
      else { s with adapter := { s.adapter with frames := Tab.set 0 s.adapter.frames (o / 8) op.a } }.adapterDid p tag 0
    | _ => s)

/-- MSI_X_TRIGGER (R47, Table 3.3): the RST of TAG n / 8 at port n % 8 raises a vector; an address of neither table has
STATUS 1. -/
def execMsiXTrigger (n : Nat) (s : State) : Res :=
  let p := n % 8
  let tag := n / 8
  .next (match s.adapterRst p tag with
    | some (_, 0, _) | none => s
    | some (_, c, o) =>
      if c ≠ 1 ∨ o % 8 ≠ 0 ∨ 2048 ≤ o / 8 then s.adapterDid p tag 1
      else { s with adapter := { s.adapter with msix := (o / 8) :: s.adapter.msix } }.adapterDid p tag 0)

/-! ## The supervisor's requests (R51, Table 3.7) -/

/-- The request that a supervisor takes next: its number and words; none while there is none or the response ring is
full. -/
def State.nextRequest (s : State) (q : Nat) : Option (Nat × List Word) :=
  let x := s.svc q
  let cnt := (s.rdWord (portLoc q 0xFFF8)).toNat
  let done := (s.rdWord (portLoc q 0xFFF0)).toNat
  let ack := (s.rdWord (portLoc q 0xFFE8)).toNat
  if x.held ∨ x.taken = cnt ∨ 256 ≤ (done + 2 ^ 64 - ack) % 2 ^ 64 then none
  else some (x.taken, (List.range 8).map fun i => s.rdWord (portLoc q (64 * (x.taken % 512) + 8 * i)))

/-- A supervisor of quarter q serves its next request where it has a code: f answers with a result and word 2, or takes
the request and answers later, or, where waits says so, an access of it waits (R162). A request of an unknown code is answered 3, one with a reserved bit set 1 (R9). (DEDUCED, unsafe: log 22) -/
def serve (code q : Nat) (f : State → Nat → List Word → Option (Nat × Nat) × State) (s : State)
    (waits : List Word → Bool := fun _ => false) : State :=
  match s.nextRequest q with
  | none => s
  | some (n, ws) =>
    let w0 := ws.headD 0
    let c := wbits w0 14 0
    let taken := fun (s : State) => s.updSvc q fun x => { x with taken := (n + 1) % 2 ^ 64 }
    if c = 0 ∨ 7 < c then (taken s).respond q n w0 3 0
    else if c ≠ code then s
    else if wbits w0 31 16 ≠ 0 then (taken s).respond q n w0 1 0
    else if waits ws then s
    else match f (taken s) n ws with
      | (some (r, w2), s) => s.respond q n w0 r w2
      | (none, s) => s

/-- The supervisor has cleared EN of a queue: the next time it is set is a new enabling (R52, R99). (DEDUCED, unsafe: log 84)
The marks of the records read early stay. (DESIGN CHOICE, unsafe: log 89) -/
def State.queueOff (s : State) (d k : Nat) : State :=
  (s.clearEn d k).updDie d fun x =>
    { x with queues := Tab.upd {} x.queues k fun y => { y with lastSeen := false, f0 := false } }

/-- QSETUP: EN is cleared, the descriptor is written and the queue enabled (R51, R52). (DESIGN CHOICE, unsafe: log 72) -/
def doQsetup (q : Nat) (s : State) (_n : Nat) (ws : List Word) : Option (Nat × Nat) × State :=
  let d := q / 4
  let k := (ws.getD 1 0).toNat
  if 8192 ≤ k ∨ (s.queueLoc d k 0).isNone then (some (1, 0), s)
  else
    let s := [0, 1, 2].foldl (fun s i => s.setQueueWord d k i (ws.getD (2 + i) 0)) (s.queueOff d k)
    (some (0, 0), s.setQueueWord d k 3 (wput (ws.getD 5 0) 12 12 1))

/-- The descriptor that a request names lies on a layer that powers on. -/
def State.queueWaits (s : State) (q : Nat) (ws : List Word) : Bool :=
  match s.queueLoc (q / 4) (ws.getD 1 0).toNat 0 with
  | some loc => s.layerBusy loc
  | none => false

/-- QSETUP (R51). -/
def execQsetup (q : Nat) (s : State) : Res := .next (serve 1 (q % 16) (doQsetup (q % 16)) s (s.queueWaits (q % 16)))

/-- QDISABLE (R51): EN clears. (DESIGN CHOICE, unsafe: log 72) -/
def doQdisable (q : Nat) (s : State) (_n : Nat) (ws : List Word) : Option (Nat × Nat) × State :=
  let d := q / 4
  let k := (ws.getD 1 0).toNat
  if 8192 ≤ k ∨ (s.queueLoc d k 0).isNone then (some (1, 0), s) else (some (0, 0), s.queueOff d k)

/-- QDISABLE (R51). -/
def execQdisable (q : Nat) (s : State) : Res := .next (serve 2 (q % 16) (doQdisable (q % 16)) s (s.queueWaits (q % 16)))

/-- FRAMEMAP: both copies of an entry (R47), the adapter's and every service core's. (DEDUCED, unsafe: log 21) -/
def doFramemap (s : State) (_n : Nat) (ws : List Word) : Option (Nat × Nat) × State :=
  let f := (ws.getD 1 0).toNat
  let e := ws.getD 2 0
  if 2 ^ 24 ≤ f ∨ wbits e 57 56 ≠ 0 ∨ wbits e 11 0 ≠ 0 then (some (1, 0), s)
  else if !s.reachesAdapter then (some (2, 0), s)
  else
    let s := (List.range 16).foldl (fun s q => s.updSvc q fun x => { x with frames := Tab.set 0 x.frames f e }) s
    (some (0, 0), { s with adapter := { s.adapter with frames := Tab.set 0 s.adapter.frames f e } })

/-- FRAMEMAP (R47, R51). -/
def execFramemap (q : Nat) (s : State) : Res := .next (serve 3 (q % 16) doFramemap s)

/-- The launch of a launch-area address: on the die of the quarter first. (DEDUCED, unsafe: log 22) -/
def State.launchAt (s : State) (q area : Nat) : Option Nat :=
  let here := fun (e : Nat × Entry) => e.2.st != .ended && e.2.st != .guest && e.2.lrec.larea == area
  [q / 4, 0, 1, 2, 3].findSome? fun d => (List.find? here (s.die d).table).map fun e => lidOf d e.1 e.2.gen

/-- ABORT (R96, R97). -/
def doAbort (q : Nat) (s : State) (_n : Nat) (ws : List Word) : Option (Nat × Nat) × State :=
  match s.launchAt q (ws.getD 1 0).toNat with
  | none => (some (1, 0), s)
  | some lid =>
    let (r, s) := s.abortLaunch lid
    (some (r, 0), s)

/-- The completion record of a waiting launch that a request aborts lies on a layer that powers on. -/
def State.abortWaits (s : State) (q : Nat) (ws : List Word) : Bool :=
  match s.launchAt q (ws.getD 1 0).toNat with
  | some lid => (s.entry lid).st == .waiting && s.doneWaits (s.entry lid).root (s.entry lid).lrec
  | none => false

/-- ABORT (R51). -/
def execAbort (q : Nat) (s : State) : Res := .next (serve 4 (q % 16) (doAbort (q % 16)) s (s.abortWaits (q % 16)))

/-- SUSPEND (R220): answered when its cut ends. (DEDUCED, unsafe: log 22) -/
def doSuspend (q : Nat) (s : State) (n : Nat) (ws : List Word) : Option (Nat × Nat) × State :=
  match s.launchAt q (ws.getD 1 0).toNat with
  | none => (some (1, 0), s)
  | some lid =>
    let e := s.entry lid
    if e.st = .ending then (some (1, 0), s)
    else if e.suspended then (some (0, 0), s)
    else if !e.mayCut then (some (2, 0), s)
    else if e.st = .waiting then (some (0, 0), s.beginCut lid)
    else (none, (s.updLaunch lid fun x => { x with cutReq := some (q, n, ws.headD 0) }).beginCut lid)

/-- SUSPEND (R51). -/
def execSuspend (q : Nat) (s : State) : Res := .next (serve 5 (q % 16) (doSuspend (q % 16)) s)

/-- RESUME (R224). -/
def doResume (q : Nat) (s : State) (_n : Nat) (ws : List Word) : Option (Nat × Nat) × State :=
  match s.launchAt q (ws.getD 1 0).toNat with
  | none => (some (1, 0), s)
  | some lid => if (s.entry lid).suspended then (some (0, 0), s.resumeLaunch lid) else (some (1, 0), s)

/-- RESUME (R51). -/
def execResume (q : Nat) (s : State) : Res := .next (serve 6 (q % 16) (doResume (q % 16)) s)

/-- TURNOVER: the request is answered, and the sequence starts (R61). (DEDUCED, unsafe: log 22) -/
def execTurnover (q : Nat) (s : State) : Res :=
  let q := q % 16
  .next (match s.nextRequest q with
    | some (_, ws) =>
      let w := ws.headD 0
      if wbits w 14 0 = 7 ∧ wbits w 31 16 = 0 ∧ s.mayTurnover then
        (serve 7 q (fun s _ _ => (some (0, 0), s)) s).beginTurnover (ws.getD 1 0)
      else serve 7 q (fun s _ _ => (some (2, 0), s)) s
    | none => s)

end Sys2Proof.Machine
end

