-- ==== Sys2Proof/Machine/Dispatch.lean ====
section
/-!
DEFINITION. One arm per constructor of Instr: each calls the meaning of its instruction.
-/

namespace Sys2Proof.Machine

/-- Executes one instruction or machine step. -/
def exec (i : Instr) (s : State) : Host.Outcome State Fault Refusal :=
  match i with
  | .readReg a1 a2 a3 => Sys2Proof.Machine.execReadReg a1 a2 a3 s
  | .mov a1 a2 a3 => Sys2Proof.Machine.execMov a1 a2 a3 s
  | .mov4 a1 a2 a3 a4 a5 => Sys2Proof.Machine.execMov4 a1 a2 a3 a4 a5 s
  | .movi a1 a2 a3 => Sys2Proof.Machine.execMovi a1 a2 a3 s
  | .const a1 a2 => Sys2Proof.Machine.execConst a1 a2 s
  | .consth a1 a2 => Sys2Proof.Machine.execConsth a1 a2 s
  | .null a1 a2 a3 => Sys2Proof.Machine.execNull a1 a2 a3 s
  | .add a1 a2 a3 a4 => Sys2Proof.Machine.execAdd a1 a2 a3 a4 s
  | .sub a1 a2 a3 a4 => Sys2Proof.Machine.execSub a1 a2 a3 a4 s
  | .mul a1 a2 a3 a4 => Sys2Proof.Machine.execMul a1 a2 a3 a4 s
  | .mulh a1 a2 a3 a4 => Sys2Proof.Machine.execMulh a1 a2 a3 a4 s
  | .mulhn a1 a2 a3 a4 => Sys2Proof.Machine.execMulhn a1 a2 a3 a4 s
  | .div a1 a2 a3 a4 => Sys2Proof.Machine.execDiv a1 a2 a3 a4 s
  | .divn a1 a2 a3 a4 => Sys2Proof.Machine.execDivn a1 a2 a3 a4 s
  | .rem a1 a2 a3 a4 => Sys2Proof.Machine.execRem a1 a2 a3 a4 s
  | .remn a1 a2 a3 a4 => Sys2Proof.Machine.execRemn a1 a2 a3 a4 s
  | .and a1 a2 a3 a4 => Sys2Proof.Machine.execAnd a1 a2 a3 a4 s
  | .or a1 a2 a3 a4 => Sys2Proof.Machine.execOr a1 a2 a3 a4 s
  | .xor a1 a2 a3 a4 => Sys2Proof.Machine.execXor a1 a2 a3 a4 s
  | .andn a1 a2 a3 a4 => Sys2Proof.Machine.execAndn a1 a2 a3 a4 s
  | .shl a1 a2 a3 a4 => Sys2Proof.Machine.execShl a1 a2 a3 a4 s
  | .shr a1 a2 a3 a4 => Sys2Proof.Machine.execShr a1 a2 a3 a4 s
  | .sra a1 a2 a3 a4 => Sys2Proof.Machine.execSra a1 a2 a3 a4 s
  | .rol a1 a2 a3 a4 => Sys2Proof.Machine.execRol a1 a2 a3 a4 s
  | .ror a1 a2 a3 a4 => Sys2Proof.Machine.execRor a1 a2 a3 a4 s
  | .min a1 a2 a3 a4 => Sys2Proof.Machine.execMin a1 a2 a3 a4 s
  | .max a1 a2 a3 a4 => Sys2Proof.Machine.execMax a1 a2 a3 a4 s
  | .minn a1 a2 a3 a4 => Sys2Proof.Machine.execMinn a1 a2 a3 a4 s
  | .maxn a1 a2 a3 a4 => Sys2Proof.Machine.execMaxn a1 a2 a3 a4 s
  | .sel a1 a2 => Sys2Proof.Machine.execSel a1 a2 s
  | .clz a1 a2 a3 a4 => Sys2Proof.Machine.execClz a1 a2 a3 a4 s
  | .ctz a1 a2 a3 a4 => Sys2Proof.Machine.execCtz a1 a2 a3 a4 s
  | .popc a1 a2 a3 a4 => Sys2Proof.Machine.execPopc a1 a2 a3 a4 s
  | .brev a1 a2 a3 a4 => Sys2Proof.Machine.execBrev a1 a2 a3 a4 s
  | .bswap a1 a2 a3 a4 => Sys2Proof.Machine.execBswap a1 a2 a3 a4 s
  | .abs a1 a2 a3 a4 => Sys2Proof.Machine.execAbs a1 a2 a3 a4 s
  | .sext a1 a2 a3 a4 => Sys2Proof.Machine.execSext a1 a2 a3 a4 s
  | .zext a1 a2 a3 a4 => Sys2Proof.Machine.execZext a1 a2 a3 a4 s
  | .bfx a1 a2 a3 a4 a5 => Sys2Proof.Machine.execBfx a1 a2 a3 a4 a5 s
  | .bfi a1 a2 a3 a4 => Sys2Proof.Machine.execBfi a1 a2 a3 a4 s
  | .kvslot a1 a2 a3 => Sys2Proof.Machine.execKvslot a1 a2 a3 s
  | .addi a1 a2 a3 => Sys2Proof.Machine.execAddi a1 a2 a3 s
  | .muli a1 a2 a3 => Sys2Proof.Machine.execMuli a1 a2 a3 s
  | .andi a1 a2 a3 => Sys2Proof.Machine.execAndi a1 a2 a3 s
  | .ori a1 a2 a3 => Sys2Proof.Machine.execOri a1 a2 a3 s
  | .xori a1 a2 a3 => Sys2Proof.Machine.execXori a1 a2 a3 s
  | .shli a1 a2 a3 => Sys2Proof.Machine.execShli a1 a2 a3 s
  | .shri a1 a2 a3 => Sys2Proof.Machine.execShri a1 a2 a3 s
  | .srai a1 a2 a3 => Sys2Proof.Machine.execSrai a1 a2 a3 s
  | .teq a1 a2 a3 a4 => Sys2Proof.Machine.execTeq a1 a2 a3 a4 s
  | .tne a1 a2 a3 a4 => Sys2Proof.Machine.execTne a1 a2 a3 a4 s
  | .tlt a1 a2 a3 a4 => Sys2Proof.Machine.execTlt a1 a2 a3 a4 s
  | .tle a1 a2 a3 a4 => Sys2Proof.Machine.execTle a1 a2 a3 a4 s
  | .tltn a1 a2 a3 a4 => Sys2Proof.Machine.execTltn a1 a2 a3 a4 s
  | .tlen a1 a2 a3 a4 => Sys2Proof.Machine.execTlen a1 a2 a3 a4 s
  | .teqi a1 a2 a3 => Sys2Proof.Machine.execTeqi a1 a2 a3 s
  | .tnei a1 a2 a3 => Sys2Proof.Machine.execTnei a1 a2 a3 s
  | .tlti a1 a2 a3 => Sys2Proof.Machine.execTlti a1 a2 a3 s
  | .tlei a1 a2 a3 => Sys2Proof.Machine.execTlei a1 a2 a3 s
  | .tltni a1 a2 a3 => Sys2Proof.Machine.execTltni a1 a2 a3 s
  | .tleni a1 a2 a3 => Sys2Proof.Machine.execTleni a1 a2 a3 s
  | .tbit a1 a2 a3 => Sys2Proof.Machine.execTbit a1 a2 a3 s
  | .fadd a1 a2 a3 a4 a5 => Sys2Proof.Machine.execFadd a1 a2 a3 a4 a5 s
  | .fsub a1 a2 a3 a4 a5 => Sys2Proof.Machine.execFsub a1 a2 a3 a4 a5 s
  | .fmul a1 a2 a3 a4 a5 => Sys2Proof.Machine.execFmul a1 a2 a3 a4 a5 s
  | .fdiv a1 a2 a3 a4 a5 => Sys2Proof.Machine.execFdiv a1 a2 a3 a4 a5 s
  | .fma a1 a2 a3 a4 => Sys2Proof.Machine.execFma a1 a2 a3 a4 s
  | .fms a1 a2 a3 a4 => Sys2Proof.Machine.execFms a1 a2 a3 a4 s
  | .fsqrt a1 a2 a3 a4 a5 => Sys2Proof.Machine.execFsqrt a1 a2 a3 a4 a5 s
  | .fmin a1 a2 a3 a4 => Sys2Proof.Machine.execFmin a1 a2 a3 a4 s
  | .fmax a1 a2 a3 a4 => Sys2Proof.Machine.execFmax a1 a2 a3 a4 s
  | .fabs a1 a2 a3 a4 => Sys2Proof.Machine.execFabs a1 a2 a3 a4 s
  | .fneg a1 a2 a3 a4 => Sys2Proof.Machine.execFneg a1 a2 a3 a4 s
  | .fsgn a1 a2 a3 a4 => Sys2Proof.Machine.execFsgn a1 a2 a3 a4 s
  | .feq a1 a2 a3 a4 => Sys2Proof.Machine.execFeq a1 a2 a3 a4 s
  | .flt a1 a2 a3 a4 => Sys2Proof.Machine.execFlt a1 a2 a3 a4 s
  | .fle a1 a2 a3 a4 => Sys2Proof.Machine.execFle a1 a2 a3 a4 s
  | .funord a1 a2 a3 a4 => Sys2Proof.Machine.execFunord a1 a2 a3 a4 s
  | .fclass a1 a2 a3 a4 => Sys2Proof.Machine.execFclass a1 a2 a3 a4 s
  | .fcvt a1 a2 a3 a4 a5 => Sys2Proof.Machine.execFcvt a1 a2 a3 a4 a5 s
  | .fcvti a1 a2 a3 a4 a5 => Sys2Proof.Machine.execFcvti a1 a2 a3 a4 a5 s
  | .icvtf a1 a2 a3 a4 a5 => Sys2Proof.Machine.execIcvtf a1 a2 a3 a4 a5 s
  | .frnd a1 a2 a3 a4 a5 => Sys2Proof.Machine.execFrnd a1 a2 a3 a4 a5 s
  | .ld a1 a2 a3 a4 a5 => Sys2Proof.Machine.execLd a1 a2 a3 a4 a5 s
  | .ldS a1 a2 a3 a4 a5 => Sys2Proof.Machine.execLdS a1 a2 a3 a4 a5 s
  | .ldDAcq a1 a2 a3 a4 => Sys2Proof.Machine.execLdDAcq a1 a2 a3 a4 s
  | .st a1 a2 a3 a4 a5 => Sys2Proof.Machine.execSt a1 a2 a3 a4 a5 s
  | .ldfe a1 a2 a3 => Sys2Proof.Machine.execLdfe a1 a2 a3 s
  | .ldff a1 a2 a3 => Sys2Proof.Machine.execLdff a1 a2 a3 s
  | .feprobe a1 a2 a3 => Sys2Proof.Machine.execFeprobe a1 a2 a3 s
  | .stef a1 a2 => Sys2Proof.Machine.execStef a1 a2 s
  | .stf a1 a2 => Sys2Proof.Machine.execStf a1 a2 s
  | .feempty a1 a2 => Sys2Proof.Machine.execFeempty a1 a2 s
  | .amo a1 a2 a3 a4 a5 a6 => Sys2Proof.Machine.execAmo a1 a2 a3 a4 a5 a6 s
  | .binit a1 a2 => Sys2Proof.Machine.execBinit a1 a2 s
  | .arrive a1 a2 a3 a4 => Sys2Proof.Machine.execArrive a1 a2 a3 a4 s
  | .bwait a1 a2 a3 => Sys2Proof.Machine.execBwait a1 a2 a3 s
  | .btest a1 a2 a3 => Sys2Proof.Machine.execBtest a1 a2 a3 s
  | .join a1 a2 a3 => Sys2Proof.Machine.execJoin a1 a2 a3 s
  | .leave a1 a2 a3 => Sys2Proof.Machine.execLeave a1 a2 a3 s
  | .waita a1 a2 a3 => Sys2Proof.Machine.execWaita a1 a2 a3 s
  | .notify a1 a2 a3 => Sys2Proof.Machine.execNotify a1 a2 a3 s
  | .fence a1 a2 a3 => Sys2Proof.Machine.execFence a1 a2 a3 s
  | .fenceXp a1 a2 a3 => Sys2Proof.Machine.execFenceXp a1 a2 a3 s
  | .fenceLoop a1 a2 => Sys2Proof.Machine.execFenceLoop a1 a2 s
  | .rowopen a1 a2 => Sys2Proof.Machine.execRowopen a1 a2 s
  | .rowclose a1 a2 => Sys2Proof.Machine.execRowclose a1 a2 s
  | .semwait a1 a2 a3 => Sys2Proof.Machine.execSemwait a1 a2 a3 s
  | .semsig a1 a2 a3 => Sys2Proof.Machine.execSemsig a1 a2 a3 s
  | .semset a1 a2 => Sys2Proof.Machine.execSemset a1 a2 s
  | .rld a1 a2 a3 => Sys2Proof.Machine.execRld a1 a2 a3 s
  | .rst a1 a2 => Sys2Proof.Machine.execRst a1 a2 s
  | .rstf a1 a2 a3 => Sys2Proof.Machine.execRstf a1 a2 a3 s
  | .rpost a1 a2 => Sys2Proof.Machine.execRpost a1 a2 s
  | .ramo a1 a2 a3 a4 => Sys2Proof.Machine.execRamo a1 a2 a3 a4 s
  | .rcas a1 a2 => Sys2Proof.Machine.execRcas a1 a2 s
  | .roadd a1 a2 a3 => Sys2Proof.Machine.execRoadd a1 a2 a3 s
  | .rvamo a1 a2 a3 a4 a5 => Sys2Proof.Machine.execRvamo a1 a2 a3 a4 a5 s
  | .spawn a1 a2 a3 => Sys2Proof.Machine.execSpawn a1 a2 a3 s
  | .callat a1 a2 => Sys2Proof.Machine.execCallat a1 a2 s
  | .send a1 a2 => Sys2Proof.Machine.execSend a1 a2 s
  | .tid a1 a2 a3 => Sys2Proof.Machine.execTid a1 a2 a3 s
  | .whereQ a1 a2 a3 => Sys2Proof.Machine.execWhereQ a1 a2 a3 s
  | .time a1 a2 a3 => Sys2Proof.Machine.execTime a1 a2 a3 s
  | .br a1 a2 a3 => Sys2Proof.Machine.execBr a1 a2 a3 s
  | .bri a1 a2 => Sys2Proof.Machine.execBri a1 a2 s
  | .call a1 a2 a3 => Sys2Proof.Machine.execCall a1 a2 a3 s
  | .ret a1 a2 => Sys2Proof.Machine.execRet a1 a2 s
  | .loop a1 a2 a3 a4 => Sys2Proof.Machine.execLoop a1 a2 a3 a4 s
  | .migrate a1 a2 a3 => Sys2Proof.Machine.execMigrate a1 a2 a3 s
  | .trap a1 a2 a3 a4 => Sys2Proof.Machine.execTrap a1 a2 a3 a4 s
  | .doneX a1 a2 => Sys2Proof.Machine.execDoneX a1 a2 s
  | .yieldX a1 a2 a3 => Sys2Proof.Machine.execYieldX a1 a2 a3 s
  | .breakX a1 a2 a3 => Sys2Proof.Machine.execBreakX a1 a2 a3 s
  | .vadd a1 a2 a3 a4 => Sys2Proof.Machine.execVadd a1 a2 a3 a4 s
  | .vsub a1 a2 a3 a4 => Sys2Proof.Machine.execVsub a1 a2 a3 a4 s
  | .vmul a1 a2 a3 a4 => Sys2Proof.Machine.execVmul a1 a2 a3 a4 s
  | .vfma a1 a2 a3 => Sys2Proof.Machine.execVfma a1 a2 a3 s
  | .vmin a1 a2 a3 a4 => Sys2Proof.Machine.execVmin a1 a2 a3 a4 s
  | .vmax a1 a2 a3 a4 => Sys2Proof.Machine.execVmax a1 a2 a3 a4 s
  | .vabs a1 a2 a3 a4 => Sys2Proof.Machine.execVabs a1 a2 a3 a4 s
  | .vneg a1 a2 a3 a4 => Sys2Proof.Machine.execVneg a1 a2 a3 a4 s
  | .vand a1 a2 a3 a4 => Sys2Proof.Machine.execVand a1 a2 a3 a4 s
  | .vor a1 a2 a3 a4 => Sys2Proof.Machine.execVor a1 a2 a3 a4 s
  | .vxor a1 a2 a3 a4 => Sys2Proof.Machine.execVxor a1 a2 a3 a4 s
  | .vandn a1 a2 a3 a4 => Sys2Proof.Machine.execVandn a1 a2 a3 a4 s
  | .vshl a1 a2 a3 a4 => Sys2Proof.Machine.execVshl a1 a2 a3 a4 s
  | .vshr a1 a2 a3 a4 => Sys2Proof.Machine.execVshr a1 a2 a3 a4 s
  | .vsra a1 a2 a3 a4 => Sys2Proof.Machine.execVsra a1 a2 a3 a4 s
  | .vcmp a1 a2 a3 a4 a5 => Sys2Proof.Machine.execVcmp a1 a2 a3 a4 a5 s
  | .vsel a1 a2 a3 => Sys2Proof.Machine.execVsel a1 a2 a3 s
  | .vbcast a1 a2 a3 a4 => Sys2Proof.Machine.execVbcast a1 a2 a3 a4 s
  | .vext a1 a2 a3 a4 => Sys2Proof.Machine.execVext a1 a2 a3 a4 s
  | .vins a1 a2 a3 => Sys2Proof.Machine.execVins a1 a2 a3 s
  | .vshuf a1 a2 a3 a4 => Sys2Proof.Machine.execVshuf a1 a2 a3 a4 s
  | .vperm a1 a2 a3 a4 => Sys2Proof.Machine.execVperm a1 a2 a3 a4 s
  | .vrot a1 a2 a3 a4 => Sys2Proof.Machine.execVrot a1 a2 a3 a4 s
  | .vredadd a1 a2 a3 a4 => Sys2Proof.Machine.execVredadd a1 a2 a3 a4 s
  | .vredmax a1 a2 a3 a4 => Sys2Proof.Machine.execVredmax a1 a2 a3 a4 s
  | .vredmin a1 a2 a3 a4 => Sys2Proof.Machine.execVredmin a1 a2 a3 a4 s
  | .vscan a1 a2 a3 a4 => Sys2Proof.Machine.execVscan a1 a2 a3 a4 s
  | .vpopc a1 a2 a3 a4 => Sys2Proof.Machine.execVpopc a1 a2 a3 a4 s
  | .vpfxc a1 a2 a3 a4 => Sys2Proof.Machine.execVpfxc a1 a2 a3 a4 s
  | .vcvt a1 a2 a3 a4 a5 => Sys2Proof.Machine.execVcvt a1 a2 a3 a4 a5 s
  | .vexp2 a1 a2 a3 a4 => Sys2Proof.Machine.execVexp2 a1 a2 a3 a4 s
  | .vlog2 a1 a2 a3 a4 => Sys2Proof.Machine.execVlog2 a1 a2 a3 a4 s
  | .vrcp a1 a2 a3 a4 => Sys2Proof.Machine.execVrcp a1 a2 a3 a4 s
  | .vrsqrt a1 a2 a3 a4 => Sys2Proof.Machine.execVrsqrt a1 a2 a3 a4 s
  | .vld a1 a2 a3 a4 => Sys2Proof.Machine.execVld a1 a2 a3 a4 s
  | .vst a1 a2 a3 => Sys2Proof.Machine.execVst a1 a2 a3 s
  | .vldg a1 a2 a3 a4 => Sys2Proof.Machine.execVldg a1 a2 a3 a4 s
  | .vsts a1 a2 => Sys2Proof.Machine.execVsts a1 a2 s
  | .vtld a1 a2 a3 a4 => Sys2Proof.Machine.execVtld a1 a2 a3 a4 s
  | .vamo a1 a2 a3 a4 a5 => Sys2Proof.Machine.execVamo a1 a2 a3 a4 a5 s
  | .csrrd a1 a2 a3 => Sys2Proof.Machine.execCsrrd a1 a2 a3 s
  | .csrwr a1 a2 a3 => Sys2Proof.Machine.execCsrwr a1 a2 a3 s
  | .segld a1 a2 a3 => Sys2Proof.Machine.execSegld a1 a2 a3 s
  | .segst a1 a2 a3 => Sys2Proof.Machine.execSegst a1 a2 a3 s
  | .wake a1 a2 a3 => Sys2Proof.Machine.execWake a1 a2 a3 s
  | .ctxswap a1 a2 a3 => Sys2Proof.Machine.execCtxswap a1 a2 a3 s
  | .slotpark a1 a2 a3 => Sys2Proof.Machine.execSlotpark a1 a2 a3 s
  | .slotfree a1 a2 a3 => Sys2Proof.Machine.execSlotfree a1 a2 a3 s
  | .tlbinv a1 a2 => Sys2Proof.Machine.execTlbinv a1 a2 s
  | .marker a1 a2 a3 => Sys2Proof.Machine.execMarker a1 a2 a3 s
  | .qwave a1 a2 a3 => Sys2Proof.Machine.execQwave a1 a2 a3 s
  | .twin a1 a2 a3 => Sys2Proof.Machine.execTwin a1 a2 a3 s
  | .scrub a1 a2 a3 => Sys2Proof.Machine.execScrub a1 a2 a3 s
  | .mma a1 => Sys2Proof.Machine.execMma a1 s
  | .tileLd a1 => Sys2Proof.Machine.execTileLd a1 s
  | .tileSt a1 => Sys2Proof.Machine.execTileSt a1 s
  | .tileCp a1 => Sys2Proof.Machine.execTileCp a1 s
  | .tileDeal a1 => Sys2Proof.Machine.execTileDeal a1 s
  | .tileResume a1 => Sys2Proof.Machine.execTileResume a1 s
  | .castDec a1 => Sys2Proof.Machine.execCastDec a1 s
  | .castPlane a1 => Sys2Proof.Machine.execCastPlane a1 s
  | .castTable a1 => Sys2Proof.Machine.execCastTable a1 s
  | .xswap a1 => Sys2Proof.Machine.execXswap a1 s
  | .pgPromote a1 => Sys2Proof.Machine.execPgPromote a1 s
  | .pgRequant a1 => Sys2Proof.Machine.execPgRequant a1 s
  | .kvAlloc a1 => Sys2Proof.Machine.execKvAlloc a1 s
  | .kvFree a1 => Sys2Proof.Machine.execKvFree a1 s
  | .kvAppend a1 => Sys2Proof.Machine.execKvAppend a1 s
  | .kvEvict a1 => Sys2Proof.Machine.execKvEvict a1 s
  | .pfxMatch a1 => Sys2Proof.Machine.execPfxMatch a1 s
  | .pfxInsert a1 => Sys2Proof.Machine.execPfxInsert a1 s
  | .pfxUnref a1 => Sys2Proof.Machine.execPfxUnref a1 s
  | .moduleResetRelease => Sys2Proof.Machine.execModuleResetRelease s
  | .squareEnableStep => Sys2Proof.Machine.execSquareEnableStep s
  | .thermalShutdown a1 a2 => Sys2Proof.Machine.execThermalShutdown a1 a2 s
  | .flowShutdown a1 a2 => Sys2Proof.Machine.execFlowShutdown a1 a2 s
  | .moduleRestart => Sys2Proof.Machine.execModuleRestart s
  | .configStoreUpdate a1 a2 => Sys2Proof.Machine.execConfigStoreUpdate a1 a2 s
  | .linkTraining a1 a2 => Sys2Proof.Machine.execLinkTraining a1 a2 s
  | .linkControlFlit a1 a2 a3 a4 => Sys2Proof.Machine.execLinkControlFlit a1 a2 a3 a4 s
  | .busyRepeatTimer a1 a2 => Sys2Proof.Machine.execBusyRepeatTimer a1 a2 s
  | .linkAckTimeout a1 a2 => Sys2Proof.Machine.execLinkAckTimeout a1 a2 s
  | .portDown a1 => Sys2Proof.Machine.execPortDown a1 s
  | .rd a1 a2 => Sys2Proof.Machine.execRd a1 a2 s
  | .wr a1 a2 => Sys2Proof.Machine.execWr a1 a2 s
  | .wrp a1 a2 => Sys2Proof.Machine.execWrp a1 a2 s
  | .wrf a1 a2 => Sys2Proof.Machine.execWrf a1 a2 s
  | .hostAmo a1 a2 => Sys2Proof.Machine.execHostAmo a1 a2 s
  | .reqcntAdd a1 a2 => Sys2Proof.Machine.execReqcntAdd a1 a2 s
  | .rspackWrite a1 a2 => Sys2Proof.Machine.execRspackWrite a1 a2 s
  | .rmt a1 a2 a3 => Sys2Proof.Machine.execRmt a1 a2 a3 s
  | .rsv a1 a2 => Sys2Proof.Machine.execRsv a1 a2 s
  | .unrsv a1 a2 => Sys2Proof.Machine.execUnrsv a1 a2 s
  | .msg a1 a2 a3 => Sys2Proof.Machine.execMsg a1 a2 a3 s
  | .rdrsp a1 a2 => Sys2Proof.Machine.execRdrsp a1 a2 s
  | .ack a1 a2 => Sys2Proof.Machine.execAck a1 a2 s
  | .amorsp a1 a2 => Sys2Proof.Machine.execAmorsp a1 a2 s
  | .rmtrsp a1 a2 a3 a4 => Sys2Proof.Machine.execRmtrsp a1 a2 a3 a4 s
  | .pack a1 a2 a3 => Sys2Proof.Machine.execPack a1 a2 a3 s
  | .rsvrsp a1 a2 a3 => Sys2Proof.Machine.execRsvrsp a1 a2 a3 s
  | .packGatherTimeout a1 a2 => Sys2Proof.Machine.execPackGatherTimeout a1 a2 s
  | .pcieMemoryWrite a1 a2 a3 => Sys2Proof.Machine.execPcieMemoryWrite a1 a2 a3 s
  | .pcieMemoryRead a1 a2 a3 => Sys2Proof.Machine.execPcieMemoryRead a1 a2 a3 s
  | .pcieAtomicop a1 a2 a3 a4 a5 a6 => Sys2Proof.Machine.execPcieAtomicop a1 a2 a3 a4 a5 a6 s
  | .frameTableEntryWrite a1 => Sys2Proof.Machine.execFrameTableEntryWrite a1 s
  | .msiXTrigger a1 => Sys2Proof.Machine.execMsiXTrigger a1 s
  | .qsetup a1 => Sys2Proof.Machine.execQsetup a1 s
  | .qdisable a1 => Sys2Proof.Machine.execQdisable a1 s
  | .framemap a1 => Sys2Proof.Machine.execFramemap a1 s
  | .abort a1 => Sys2Proof.Machine.execAbort a1 s
  | .suspend a1 => Sys2Proof.Machine.execSuspend a1 s
  | .resume a1 => Sys2Proof.Machine.execResume a1 s
  | .turnover a1 => Sys2Proof.Machine.execTurnover a1 s
  | .turnoverCmd a1 => Sys2Proof.Machine.execTurnoverCmd a1 s
  | .turnoverScrub a1 => Sys2Proof.Machine.execTurnoverScrub a1 s
  | .turnoverClear => Sys2Proof.Machine.execTurnoverClear s
  | .turnoverHealth a1 a2 a3 => Sys2Proof.Machine.execTurnoverHealth a1 a2 a3 s
  | .turnoverFirmware a1 a2 => Sys2Proof.Machine.execTurnoverFirmware a1 a2 s
  | .turnoverAttest a1 a2 a3 => Sys2Proof.Machine.execTurnoverAttest a1 a2 a3 s
  | .dispenserReadRecord a1 a2 a3 => Sys2Proof.Machine.execDispenserReadRecord a1 a2 a3 s
  | .recordTake a1 a2 => Sys2Proof.Machine.execRecordTake a1 a2 s
  | .guestOffer a1 a2 a3 => Sys2Proof.Machine.execGuestOffer a1 a2 a3 s
  | .guestBatchClaim a1 a2 => Sys2Proof.Machine.execGuestBatchClaim a1 a2 s
  | .grant a1 => Sys2Proof.Machine.execGrant a1 s
  | .startMessage a1 => Sys2Proof.Machine.execStartMessage a1 s
  | .cdisChange a1 => Sys2Proof.Machine.execCdisChange a1 s
  | .sliceEndReport a1 => Sys2Proof.Machine.execSliceEndReport a1 s
  | .quiescenceWave a1 a2 => Sys2Proof.Machine.execQuiescenceWave a1 a2 s
  | .quiescenceWaveReturn a1 a2 => Sys2Proof.Machine.execQuiescenceWaveReturn a1 a2 s
  | .launchEnd a1 a2 => Sys2Proof.Machine.execLaunchEnd a1 a2 s
  | .launchCompletion a1 a2 => Sys2Proof.Machine.execLaunchCompletion a1 a2 s
  | .killWaveReturn a1 a2 => Sys2Proof.Machine.execKillWaveReturn a1 a2 s
  | .spillRequest a1 a2 => Sys2Proof.Machine.execSpillRequest a1 a2 s
  | .reserveEntryAllocation a1 a2 => Sys2Proof.Machine.execReserveEntryAllocation a1 a2 s
  | .messageArrival a1 => Sys2Proof.Machine.execMessageArrival a1 s
  | .migrationArrival a1 => Sys2Proof.Machine.execMigrationArrival a1 s
  | .reservationRequest a1 => Sys2Proof.Machine.execReservationRequest a1 s
  | .reservationRelease a1 => Sys2Proof.Machine.execReservationRelease a1 s
  | .slotOutComplete a1 a2 => Sys2Proof.Machine.execSlotOutComplete a1 a2 s
  | .threadWake a1 => Sys2Proof.Machine.execThreadWake a1 s
  | .waiterRetryTimer a1 a2 => Sys2Proof.Machine.execWaiterRetryTimer a1 a2 s
  | .blockFetch a1 a2 => Sys2Proof.Machine.execBlockFetch a1 a2 s
  | .blockLock a1 a2 => Sys2Proof.Machine.execBlockLock a1 a2 s
  | .blockCommit a1 a2 => Sys2Proof.Machine.execBlockCommit a1 a2 s
  | .faultRaiseTimeout a1 a2 => Sys2Proof.Machine.execFaultRaiseTimeout a1 a2 s
  | .noProgressTimeout a1 a2 => Sys2Proof.Machine.execNoProgressTimeout a1 a2 s
  | .storeBufferDrain a1 => Sys2Proof.Machine.execStoreBufferDrain a1 s
  | .remoteOperation a1 => Sys2Proof.Machine.execRemoteOperation a1 s
  | .roaddApply a1 => Sys2Proof.Machine.execRoaddApply a1 s
  | .faultRecord a1 => Sys2Proof.Machine.execFaultRecord a1 s
  | .cutOrder a1 => Sys2Proof.Machine.execCutOrder a1 s
  | .cutMarker a1 => Sys2Proof.Machine.execCutMarker a1 s
  | .routerReport a1 => Sys2Proof.Machine.execRouterReport a1 s
  | .twinComparison a1 a2 => Sys2Proof.Machine.execTwinComparison a1 a2 s
  | .replayDivergence a1 a2 a3 => Sys2Proof.Machine.execReplayDivergence a1 a2 a3 s
  | .multicastWindowClose a1 a2 => Sys2Proof.Machine.execMulticastWindowClose a1 a2 s
  | .engineCommandStart a1 a2 a3 => Sys2Proof.Machine.execEngineCommandStart a1 a2 a3 s
  | .engineCommandComplete a1 a2 => Sys2Proof.Machine.execEngineCommandComplete a1 a2 s
  | .xswapNoPair a1 a2 => Sys2Proof.Machine.execXswapNoPair a1 a2 s
  | .invalidationWaveReturn a1 a2 => Sys2Proof.Machine.execInvalidationWaveReturn a1 a2 s
  | .remapComplete a1 => Sys2Proof.Machine.execRemapComplete a1 s
  | .layerPowerOnComplete a1 a2 => Sys2Proof.Machine.execLayerPowerOnComplete a1 a2 s
  | .refresh a1 a2 => Sys2Proof.Machine.execRefresh a1 a2 s
  | .rowTimeout a1 a2 => Sys2Proof.Machine.execRowTimeout a1 a2 s
  | .layerThrottleSample a1 a2 a3 => Sys2Proof.Machine.execLayerThrottleSample a1 a2 a3 s
  | .transitionComplete a1 => Sys2Proof.Machine.execTransitionComplete a1 s
  | .currentEstimate a1 a2 => Sys2Proof.Machine.execCurrentEstimate a1 a2 s
  | .powerMeasurement a1 => Sys2Proof.Machine.execPowerMeasurement a1 s
  | .damageSample a1 a2 => Sys2Proof.Machine.execDamageSample a1 a2 s
  | .damageWindow a1 => Sys2Proof.Machine.execDamageWindow a1 s
  | .hardThresholdPark a1 => Sys2Proof.Machine.execHardThresholdPark a1 s
  | .idleEntry a1 => Sys2Proof.Machine.execIdleEntry a1 s
  | .idleExit a1 => Sys2Proof.Machine.execIdleExit a1 s
  | .heartbeatTimeout a1 => Sys2Proof.Machine.execHeartbeatTimeout a1 s
  | .pchb a1 a2 => Sys2Proof.Machine.execPchb a1 a2 s
  | .pcsign a1 a2 => Sys2Proof.Machine.execPcsign a1 a2 s
  | .vlpwrWrite a1 a2 => Sys2Proof.Machine.execVlpwrWrite a1 a2 s
  | .camreqWrite a1 a2 => Sys2Proof.Machine.execCamreqWrite a1 a2 s
  | .debugContextWrite a1 a2 a3 => Sys2Proof.Machine.execDebugContextWrite a1 a2 a3 s
  | .scmdResume a1 a2 => Sys2Proof.Machine.execScmdResume a1 a2 s
  | .retire a1 a2 => Sys2Proof.Machine.execRetire a1 a2 s
  | .kill a1 a2 => Sys2Proof.Machine.execKill a1 a2 s
  | .freeze a1 a2 => Sys2Proof.Machine.execFreeze a1 a2 s
  | .step a1 a2 => Sys2Proof.Machine.execStep a1 a2 s
  | .registerWrite a1 a2 a3 => Sys2Proof.Machine.execRegisterWrite a1 a2 a3 s
  | .flitDiscard a1 a2 a3 a4 a5 => Sys2Proof.Machine.execFlitDiscard a1 a2 a3 a4 a5 s
  | .busyReplay a1 a2 => Sys2Proof.Machine.execBusyReplay a1 a2 s
  | .requestTimeout a1 a2 => Sys2Proof.Machine.execRequestTimeout a1 a2 s
  | .entryReuseDelay a1 a2 => Sys2Proof.Machine.execEntryReuseDelay a1 a2 s
  | .slotLoadComplete a1 a2 => Sys2Proof.Machine.execSlotLoadComplete a1 a2 s
  | .layerPowerOffComplete a1 a2 => Sys2Proof.Machine.execLayerPowerOffComplete a1 a2 s
  | .scrubPassComplete a1 a2 => Sys2Proof.Machine.execScrubPassComplete a1 a2 s

end Sys2Proof.Machine
end

