-- ==== Sys2Proof/Machine/Sched.lean ====
section
/-!
DEFINITION. What moves next (log 3): the next ready word of the cursor's thread, the steps that are due, and the choices
of the agenda that are no instruction.
-/

namespace Sys2Proof.Machine

/-- Whether word i of a frame can fire or be decided (R265). -/
def Frame.readyAt (f : Frame) (i : Nat) : Bool :=
  match f.instrAt i with
  | some x => gather x.shape f i != .wait
  | none => false

/-- The lowest ready word of the listed ones, at or above n. -/
def firstReady (f : Frame) (n : Nat) : List (Nat × Instr) → Option (Nat × Instr)
  | [] => none
  | (i, x) :: t => if n ≤ i ∧ gather x.shape f i ≠ .wait then some (i, x) else firstReady f n t

/-- A primary of a pair executes words only while its shadow has committed as many blocks (R225). (DEDUCED, unsafe: log 24) -/
def State.shadowKeepsUp (s : State) : Bool :=
  let x := s.cur
  match x.twin, s.twinSlot s.cc s.ck with
  | some t, some j => match (s.slot (twinCore s.cc) j).twin with
    | some u => x.shadow || decide (t.seq ≤ u.seq)
    | none => true
  | _, _ => true

/-- Whether the cursor's thread executes words: it runs a block that no halt, fault or end of a pair stops. -/
def State.executes (s : State) : Bool :=
  let x := s.cur
  x.st == .run && (x.frame.st == .commit || (x.frame.st == .exec && !s.stays s.cc s.ck)) && !x.atEnd && s.shadowKeepsUp

/-- The next word of the cursor's thread, from the cursor's scan on. -/
def State.nextWord (s : State) : Option (Nat × Instr) :=
  if s.executes then firstReady s.cur.frame s.cursor.scan s.cur.frame.instrs else none

/-- The cursor at word i. -/
def State.atWord (s : State) (i : Nat) : State := { s with cursor := { s.cursor with word := i, scan := i + 1 } }

/-! ## Issue (R119) -/

/-- The ready words of the EXEC frame in slot k of core c: their operands have arrived, their predicates match, and they
have not issued. One that has issued may still wait for what it asked. -/
def State.readyWords (s : State) (c k : Nat) : List Nat :=
  let at_ : State := { s with cursor := ⟨c, k, 0, 0⟩ }
  let f := (s.slot c k).frame
  if !at_.executes || f.st != .exec then []
  else (f.instrs.filter fun e => !f.issued.contains e.1 && match gather e.2.shape f e.1 with
      | .wait | .mismatch => false
      | _ => true).map (·.1)

/-- Slots in ascending order of the age of their frames. -/
def State.byAge (s : State) (c : Nat) : List Nat → List Nat
  | [] => []
  | k :: ks =>
    let older := fun (j : Nat) => decide ((s.slot c j).frame.age < (s.slot c k).frame.age)
    let l := s.byAge c ks
    l.takeWhile older ++ k :: l.dropWhile older

/-- A vector compute instruction: opcodes 0x70 to 0x7A. -/
def Frame.vectorAt (f : Frame) (i : Nat) : Bool :=
  let op := (f.body.getD i 0).toNat / 2 ^ 25
  decide (0x70 ≤ op) && decide (op ≤ 0x7A)

/-- The ready instructions of a core as slot and word, in the order of Issue: of the skipped slots first and of the others
after them, each in order of age. -/
def State.readyList (s : State) (c : Nat) : List (Nat × Nat) :=
  let run := [0, 1, 2, 3].filter fun k => (s.slot c k).st == .run
  let first := s.byAge c (run.filter fun k => (s.slot c k).skipped)
  let rest := s.byAge c (run.filter fun k => !(s.slot c k).skipped)
  (first ++ rest).flatMap fun k => (s.readyWords c k).map fun i => (k, i)

/-- Whether a ready instruction is for the vector unit. -/
def State.isVector (s : State) (c : Nat) (w : Nat × Nat) : Bool := (s.slot c w.1).frame.vectorAt w.2

/-- The cores of a square in rotating order after the one that its vector unit granted last, each with its place; a service
core is the fifth. (DESIGN CHOICE, unsafe: log 3) -/
def State.unitOrder (s : State) (q : Nat) : List (Nat × Nat) :=
  let cs := (routerCores q).zipIdx
  let n := (s.square q).grant + 1
  cs.drop n ++ cs.take n

/-- The core that the vector unit of a square grants in this core cycle, with its place (R342). -/
def State.granted (s : State) (q : Nat) : Option (Nat × Nat) :=
  (s.unitOrder q).find? fun e => (s.readyList e.1).any (s.isVector e.1)

/-- The instructions of a core that are ready once its vector unit has granted core g: of the vector compute instructions
only the first of the granted core (R342). -/
def State.readyUnder (s : State) (g : Option (Nat × Nat)) (c : Nat) : List (Nat × Nat) :=
  let l := s.readyList c
  let vec := if g.map (·.1) = some c then l.find? (s.isVector c) else none
  l.filter fun w => !s.isVector c w || vec == some w

/-- The instructions of a core that issue in a core cycle: up to four, the granted one among them. (DESIGN CHOICE, unsafe: log 3) -/
def State.issues (s : State) (g : Option (Nat × Nat)) (c : Nat) : List (Nat × Nat) :=
  let l := s.readyUnder g c
  match (l.drop 4).find? (s.isVector c) with
  | some v => l.take 3 ++ [v]
  | none => l.take 4

/-- Each RUN slot of a core that had a ready instruction and issues none is skipped. -/
def State.noteSkipped (s : State) (g : Option (Nat × Nat)) (c : Nat) : State :=
  let had := s.readyUnder g c
  let out := s.issues g c
  ([0, 1, 2, 3].filter fun k => (s.slot c k).st == .run).foldl (fun t k => t.updSlot c k fun x =>
    { x with skipped := had.any (·.1 == k) && !out.any (·.1 == k) }) s

/-- The words of a core that issue have issued. -/
def State.noteIssued (t : State) (c : Nat) (ws : List (Nat × Nat)) : State :=
  ws.foldl (fun t w => t.updFrame c w.1 fun f => { f with issued := f.issued ++ [w.2] }) t

/-- A core cycle of a square: its cores issue, and its vector unit moves on. -/
def State.issueCycle (s : State) (q : Nat) : State :=
  let g := s.granted q
  let cs := routerCores q
  let t := cs.foldl (fun t c => (t.noteSkipped g c).noteIssued c (s.issues g c)) s
  let t := match g with
    | some e => t.updSquare q fun x => { x with grant := e.2 }
    | none => t
  { t with agenda := (cs.flatMap fun c => (s.issues g c).map fun w => Choice.issue c w.1 w.2) ++ s.agenda }

/-- A step that the machine takes by itself. (DEDUCED, safe: log 51) -/
abbrev Due := State → Res

/-- The step of packet n of the mesh. -/
def packetDue (n : Nat) : Packet → Due
  | .start _ _ _ _ _ _ => execStartMessage n
  | .msg _ _ _ => execMessageArrival n
  | .migr _ _ _ _ _ => execMigrationArrival n
  | .resvReq _ _ _ _ _ => execReservationRequest n
  | .resvRel _ _ _ => execReservationRelease n
  | .remote _ => execRemoteOperation n
  | .sliceEnd _ _ _ => execSliceEndReport n
  | .wake _ => execThreadWake n
  | .fault q _ => execFaultRecord q
  | .cutOrder _ _ => execCutOrder n
  | .cutMarker _ _ _ _ => execCutMarker n
  | .cutReport _ _ _ => execRouterReport n
  | .spill c l => execSpillRequest c l
  | .claim _ _ => execStartMessage n

/-- The steps of the adapter and of the ports: the RMTs at the adapter and their answers, gathered acknowledgements, and
host transactions in flight. -/
def State.linkDue (s : State) : List Due :=
  (s.ports.flatMap fun e => (if s.role e.1 = 0 then e.2.pending else []).flatMap fun x =>
    [execFrameTableEntryWrite (8 * x.tag + e.1), execMsiXTrigger (8 * x.tag + e.1), execRmtrsp e.1 x.tag 0 0]) ++
  (s.gathers.map fun g => execPackGatherTimeout g.agent g.src) ++
  (s.svcs.filterMap fun e => e.2.inFlight.head?).flatMap fun x =>
    [execRd x.1 x.2, execWr x.1 x.2, execWrp x.1 x.2, execWrf x.1 x.2, execHostAmo x.1 x.2].drop
      (if x.2.op ≤ 4 then x.2.op - 1 else 4) |>.take 1

/-- The steps that may be due, in the order in which they are tried: of the cursor's slot and core, of the mesh, of the
power-up, and the raising of faults last. (DESIGN CHOICE, unsafe: log 3) -/
def State.dueList (s : State) : List Due :=
  let c := s.cursor.core
  let k := s.cursor.slot
  let idle := s.cur.frame.st == .idle
  [execSlotLoadComplete c k, execBlockLock c k, execBlockCommit c k] ++
    (if idle then [execBlockFetch c k] else []) ++
    [execTwinComparison c k, execStoreBufferDrain c, execSlotOutComplete c k, execReserveEntryAllocation c k] ++
    (s.net.zipIdx.map fun e => packetDue e.2 e.1) ++ s.linkDue ++
    [0, 1, 2, 3, 4].map (execEngineCommandStart c k) ++
    (List.range (s.core c).cmds.length).map (execEngineCommandComplete c) ++
    (s.ro.map fun e => execRoaddApply e.1) ++
    [execModuleResetRelease, execSquareEnableStep, execTurnoverClear, execFaultRaiseTimeout c k]

/-- What a step does to a state, where it does anything. -/
def Due.on (f : Due) (s : State) : Option Res :=
  match f s with
  | .next t => if t = s then none else some (.next t)
  | r => some r

/-- The step that is due when no word is ready: none lets time pass. -/
def State.dueStep (s : State) : Option Res := s.dueList.findSome? fun f => f.on s

/-- The scan for ready words begins again at word 0. (DESIGN CHOICE, unsafe: log 3) -/
def State.rescan (s : State) : State := { s with cursor := { s.cursor with word := 0, scan := 0 } }

/-- A nanosecond passes, and the scan begins again. (DEDUCED, safe: log 51) -/
def State.idleTick (s : State) : State :=
  { s.rescan with time := s.time + 1 }

/-- A choice of the agenda that is no instruction. (DESIGN CHOICE, unsafe: log 3) (DEDUCED, unsafe: log 55) (DESIGN CHOICE, unsafe: log 58) -/
def State.choose (s : State) : Choice → State
  | .run c k => { s with cursor := ⟨c, k, 0, 0⟩ }
  | .tick n => { s with time := s.time + n }
  | .tlbDrop c n => s.updCore c fun x => { x with tlb := x.tlb.eraseIdx n }
  | .portRead c a => match vaultOf a with
    | some (d, _) => if d = c then s.takeBuf c a (s.rdMem (wordLoc a) 8) else s
    | none => s
  | .cycle q => s.issueCycle q
  | .issue _ _ _ => s
  | .eccFix c => s.updVault c fun v => { v with ecnt := min (v.ecnt + 1) (2 ^ 64 - 1) }
  | .eccLost loc => s.setPois (wordLoc loc) true
  | .regLost c k r => s.updSlot c k fun x => { x with badRegs := x.badRegs ||| BitVec.ofNat 16 (2 ^ r) }
  | .chkLost c k => s.updSlot c k fun x => { x with twin := x.twin.map fun t => { t with chkLost := true } }
  | .event _ => s

/-- The words of a numbered instruction: as many as it has, zero where the number gives none. -/
def tableWords (w : Nat) : List (BitVec 32) :=
  let ws := (List.range 8).map fun i => w / 2 ^ (32 * i) % 2 ^ 32
  (ws.take (wordCount (w % 2 ^ 32))).map (BitVec.ofNat 32)

/-- A frame in EXEC that holds one instruction whose inputs have arrived, its predicate matching. (DESIGN CHOICE, unsafe: log 6) -/
def tableFrame (w : Nat) : Frame :=
  let p : Word := match decodeWord (w % 2 ^ 32) ((tableWords w).map (·.toNat) |>.drop 1) with
    | .ok i => if i.shape.pr = .onTrue then 1 else 0
    | .error _ => 0
  { st := .exec, body := tableWords w, ops := [(0, .val 0), (1, .val 0), (2, .val p)] }

end Sys2Proof.Machine
end

