-- ==== Sys2Proof/Machine/Step.lean ====
section
/-!
DEFINITION. One step: the head of the agenda, or else the next ready word of the cursor's thread, or else the step that
is due, or else a nanosecond.
-/

namespace Sys2Proof.Machine

/-- One step of the machine (log 3). (DESIGN CHOICE, unsafe: log 3) -/
def step (s : State) : Host.Outcome State Fault Refusal :=
  match s.agenda with
  | .event i :: t => exec i { s with agenda := t }
  | .issue c k n :: t =>
    let s' : State := { s with agenda := t, cursor := ⟨c, k, n, n + 1⟩ }
    match if s'.executes then s'.cur.frame.instrAt n else none with
    | some i => exec i s'
    | none => .next s'
  | ch :: t => .next ({ s with agenda := t }.choose ch)
  | [] =>
    match s.nextWord with
    | some (n, i) => exec i (s.atWord n)
    | none => (s.rescan.dueStep).getD (.next s.idleTick)

/-- The state with one instruction, its inputs arrived, in the block that the cursor's thread executes: the load of a
block stands for the fetch of R119 (log 6). (DESIGN CHOICE, unsafe: log 6) -/
def State.withFetchWord (s : State) (_nbits w : Nat) : State :=
  ({ s with agenda := [], cursor := ⟨0, 0, 0, 0⟩ }).updSlot 0 0 fun x =>
    { x with st := .run, frame := tableFrame w }

end Sys2Proof.Machine
end

