-- ==== Sys2Proof/Safety.lean ====
section
/-!
DEFINITION. What counts as a safe state and a safe run: memory in its canonical form, so that equal memories are equal
data, in every state that the machine reaches. And the terms in which the statements speak of an instruction that is
about to act: its inputs, what lets it act, and what it then leaves.
-/

namespace Sys2Proof

/-- A safe state. -/
def Safe (s : Machine.State) : Prop := s.mem.wf = true

/-- Every state within n steps is safe, or the run has stopped. -/
def SafeRun : Nat → Machine.State → Prop
  | 0, s => Safe s
  | n + 1, s => Safe s ∧ ∀ t, Machine.step s = .next t → SafeRun n t

namespace Machine

/-! ## Inputs and results -/

/-- The inputs of instruction i at the cursor have arrived as the data tokens l, r and p, and its predicate matches. -/
def State.has (s : State) (i : Instr) (l r p : Tok) : Prop := gather i.shape s.cur.frame s.ci = .vals l r p

/-- The inputs of instruction i at the cursor are the scalars x, y and z, none of them null. -/
def State.ready (s : State) (i : Instr) (x y z : Word) : Prop :=
  ∃ l r p, s.has i l r p ∧ (l.isNull || r.isNull || p.isNull) = false ∧ l.w = x ∧ r.w = y ∧ p.w = z

/-- The low bits of a word at a width, zero-extended (R286). -/
def low (w : Width) (x : Word) : Word := (x.setWidth (wBits w)).setWidth 64

/-- An n-bit result, zero-extended (R286). -/
def zext {n : Nat} (x : BitVec n) : Word := x.setWidth 64

/-- The low bits of a word at a width, as they stand. -/
def cut (w : Width) (x : Word) : BitVec (wBits w) := x.setWidth (wBits w)

/-- A truth value as a word. -/
def truth (b : Bool) : Word := if b then 1 else 0

/-- The instruction at the cursor fires with the word v and no FP flags. -/
def State.fires (s : State) (i : Instr) (v : Word) : State := s.fireWith i (.val v) 0

/-- The instruction at the cursor fires with a token and FP flags. -/
def State.gives (s : State) (i : Instr) (r : Tok × Nat) : State := s.fireWith i r.1 r.2

/-! ## Memory instructions -/

/-- The segments, privilege and root of the cursor's thread. -/
def State.me (s : State) : Who := s.who s.cc s.ck

/-- Nothing holds a load of LSID l (R225, R269, R271, R272): its thread is no shadow, no fence of the thread is pending,
no synchronising read below it is open, and no replay makes it wait. -/
def State.mayLoad (s : State) (l : Nat) : Prop :=
  s.isShadow = false ∧ s.fenced s.cc s.ck = false ∧ s.cur.frame.syncBelow l = false ∧
    (s.cur.frame.waitAll.contains l && s.cur.frame.storeBelow l) = false

/-- A load fires with a token, and its block keeps what it read. -/
def State.loads (s : State) (i : Instr) (l : Nat) (x : Tok) (ls : List Nat) : State :=
  (s.fireOut i x).updF fun f => { f with loads := f.loads.put l (s.loadRec l false ls) }

/-- A load shows no load above it to have been performed too early (R179, R180). -/
def State.loadInOrder (s : State) (l : Nat) (ls : List Nat) : Prop := s.staleLoads l false ls = []

/-- A class K instruction fires and leaves p at LSID l for the commit of its block (R274). -/
def State.leaves (s : State) (l : Nat) (p : Pend) : State :=
  s.updF fun f => { f.mark s.ci true with pend := f.pend.put l p }

/-- Nothing keeps a store out of its block: the layers of its bytes are on and no command guards them (R380), no load of the
block has read them (R269), no watchpoint covers them (R214). -/
def State.storeFree (s : State) (l : Nat) (e : SbEntry) : Prop :=
  s.gateOf e = .clear ∧ s.cur.frame.overtaken l e.touchAll = [] ∧
    (e.op.accesses && e.watched.any fun x => watchHit s s.cc x.1 x.2 false true) = false

/-- A synchronising read of LSID l may be performed now, with the tokens x and y (R225, R271). -/
def State.maySync (s : State) (i : Instr) (l : Nat) (force : Bool) (x y : Tok) : Prop :=
  (∃ p, s.has i x y p) ∧ (x.isNull || y.isNull) = false ∧ s.cur.frame.kept.find? s.ci = none ∧ s.isShadow = false ∧
    (s.cur.frame.openBelow l || s.fenced s.cc s.ck) = false ∧ (force && s.mustCompare) = false

/-- A synchronising read fires, and its block keeps its value over a replay (R271). -/
def State.synced (s : State) (i : Instr) (t : Tok) : State :=
  (s.fireOut i t).updF fun f => { f with kept := f.kept.put s.ci t }

/-- A performing operation is at its lock with its address checked (R225, R273), with the tokens x, y and z. -/
def State.mayPerform (s : State) (i : Instr) (force nulled : Bool) (x y z : Tok) : Prop :=
  s.has i x y z ∧ (x.isNull || nulled || z.isNull) = false ∧ s.isShadow = false ∧ s.cur.frame.checked = true ∧
    s.cur.frame.lock = true ∧ (force && s.mustCompare) = false

/-- A performing operation is done: it fires, its LSID l resolves. -/
def State.performed (s : State) (i : Instr) (l : Nat) (t : Tok) (fl : Nat) : State :=
  ((s.forward t).fireWith i t fl).resolve l .done

/-- An access of n bytes through token t passes its checks and the port lets it go: s1 is the state with the translation
kept, ea the effective address, loc its first location. -/
def State.reaches (s : State) (t : Tok) (n : Nat) (kind : AKind) (onView ea loc : Nat) (s1 : State) : Prop :=
  ∃ acc, ordAccess s s.me t.w n n kind false 1 (some onView) = (.ok acc, s1) ∧ s1.portSays s.me.core acc.locs = .go ∧
    acc.ea = ea ∧ acc.locs.headD 0 = loc

/-- A barrier object at token t is reached and accepts operations (R138, R323). -/
def State.reachesObject (s : State) (t : Tok) (ea loc : Nat) (s1 : State) : Prop :=
  barAccess s s.me t.w = (.ok (ea, loc), s1) ∧ s1.layerOff loc = false ∧ s1.layerBusy loc = false ∧
    s1.barrierOk loc = true ∧ s1.anyPois loc 32 = false

/-- No mould is recorded or replayed for the launch of the cursor's thread (R228). -/
def State.unrecorded (s : State) : Prop :=
  tswLid s.cur.ctx.tsw = 0 ∨
    ((s.entry (tswLid s.cur.ctx.tsw)).enforcing = false ∧ (s.entry (tswLid s.cur.ctx.tsw)).recording = false)

/-- An operation on a word of a TCM or square memory counts among those that a mould names (R228); s: the state before. -/
def State.bankCount (t s : State) (loc : Nat) : State := if (vaultOf loc).isNone then t.countOp s.cc s.ck else t

/-- Two states differ in translations kept by TLBs and in open rows at most (R158, R168): what a walk leaves. -/
def State.sameButTlb (s t : State) : Prop :=
  t = { s with cores := t.cores, vaults := t.vaults } ∧
    (∀ c, { t.core c with tlb := [] } = { s.core c with tlb := [] }) ∧
    ∀ c, { t.vault c with openRows := [] } = { s.vault c with openRows := [] }

/-- A host transaction goes on now (R46), in the state s1: it heads those that its service core has taken, or arrives there
with none before it. -/
def State.hostTurn (s : State) (p : Nat) (x : Txn) (s1 : State) : Prop :=
  (s.svc x.qtr).held = false ∧
    (((s.svc x.qtr).inFlight.head? = some (p, x) ∧ s1 = s) ∨
      ((s.svc x.qtr).inFlight = [] ∧ s.hostArrives p x = true ∧
        s1 = (s.hostTakes p x).updSvc x.qtr fun v => { v with inFlight := [(p, x)] }))

/-- An engine's action m, begun with work w, gives r and leaves the work w'. -/
def runs {α : Type} (m : Eng α) (w : Work) (r : Except Stop α) (w' : Work) : Prop := (m.run).run w = (r, w')

/-- Outside the n bytes from loc on, two states hold the same bytes. -/
def State.sameOutside (s t : State) (loc n : Nat) : Prop := ∀ a, (a < loc ∨ loc + n ≤ a) → t.byte a = s.byte a

/-- A frame agrees with another on everything that executing a body word of class C does not write. -/
def Frame.sameBut (f g : Frame) : Prop :=
  g = { f with ops := g.ops, regs := g.regs, fired := g.fired, faults := g.faults, flags := g.flags }

end Machine

end Sys2Proof
end

