-- ==== Sys2Proof/Certificates/Slice0/Obligations.lean ====
section
/-!
DEFINITION. The statements for the provers, in the order of the machine: words and steps, firing and delivery, results of
instructions, memory, exits and system instructions, the events of the machine, invariants.
-/

open Sys2Proof Sys2Proof.Machine

/-! ## Words and steps -/

/-- Every well-formed instruction that has words is what its words decode to, whatever bytes follow them (R256-R264). -/
def Obligations.DecodeOfEncode : Prop :=
  ∀ (i : Instr) (rest : List Byte), i.wf = true → encode i ≠ [] →
    decode ((encode i).flatMap (leBytes 4) ++ rest) = .ok (i, rest)

/-- Words decode only to a well-formed instruction whose words they are: no bit of a word is ignored (R257, R260). -/
def Obligations.EncodeOfDecode : Prop :=
  ∀ (w : Nat) (ws : List Nat) (i : Instr), w < 2 ^ 32 → (∀ x ∈ ws, x < 2 ^ 32) → wordCount w ≤ ws.length + 1 →
    decodeWord w ws = .ok i → i.wf = true ∧ encode i = (w :: ws).take (wordCount w)

/-- Words of Tables 12.3 and 12.4, written out bit by bit, decode to the instructions they stand for. -/
def Obligations.DecodeGivesTableWords : Prop :=
  decodeWord 0b0000000_0001_111111111_000001100 [] = .ok (.readReg 1 511 12) ∧
  decodeWord 0b0010000_00_000_11_110000010_000001101 [] = .ok (.add .always .w64 386 13) ∧
  decodeWord 0b0000011_00_00000000000101_000001010 [] = .ok (.movi .always 5 10) ∧
  decodeWord 0b1011000_00_00000_000000001_000000011 [] = .ok (.st .always 0 1 false .w64) ∧
  decodeWord 0b1101000_00_000_00000000000000000011 [] = .ok (.br .always 0 3) ∧
  decodeWord 0b1000100_00_111_0_0_111111111_110000111 [] = .ok (.fma .dyn .sp 511 391) ∧
  decodeWord 0b1111111_00_000000_001_00000_110000101 [3, 0x10802, 0, 0, 0, 0, 0] =
    .ok (.tileLd { p := .always, lsid := 0, t := 389, wsem := 0, wthr := 0, ssem := 3, sinc := 1, flags := 0x802, f := 0 })

/-- A step runs the decoded instruction. With nothing on the agenda, when word n of the block that the cursor's thread
executes is the first from the scan on that is ready, word n decodes to the instruction i of the frame, and the step is
exec of i with the cursor at word n; the scan goes on after it. An event on the agenda is executed as it stands.
(In what order the machine takes its events and words: the model's choice, log 3.) -/
def Obligations.StepRunsDecodedInstruction : Prop :=
  (∀ (s : State) (n : Nat) (i : Instr), s.agenda = [] → s.executes = true → (n, i) ∈ s.cur.frame.instrs →
    s.cursor.scan ≤ n → gather i.shape s.cur.frame n ≠ .wait →
    (∀ e ∈ s.cur.frame.instrs, s.cursor.scan ≤ e.1 → e.1 < n → gather e.2.shape s.cur.frame e.1 = .wait) →
    s.cur.frame.instrAt n = some i ∧
      step s = exec i { s with cursor := { s.cursor with word := n, scan := n + 1 } }) ∧
  (∀ (s : State) (i : Instr) (t : List Choice), s.agenda = .event i :: t → step s = exec i { s with agenda := t })

/-! ## Firing and delivery -/

/-- When an instruction fires (R265): not twice; not while an input is missing; not on a predicate whose low bit is not
the one it fires on, whatever the other inputs; and otherwise with the tokens of its inputs.
An instruction with a poisoned input hands on poison, that of the lower origin index (R267); one whose predicate is
null hands on null (R266). -/
def Obligations.FiringRule : Prop :=
  (∀ (h : Shape) (f : Frame) (i : Nat),
    (f.fired.find? i ≠ none → gather h f i = .wait) ∧
    (f.fired.find? i = none → (h.pr = .onTrue ∨ h.pr = .onFalse) → ∀ v : Word, f.input i 2 = some (.val v) →
      v.getLsbD 0 ≠ (h.pr == .onTrue) → gather h f i = .mismatch) ∧
    (f.fired.find? i = none → (h.pr = .always ∨ ∃ v : Word, f.input i 2 = some (.val v) ∧ v.getLsbD 0 = (h.pr == .onTrue)) →
      (∃ k, k < 3 ∧ h.has k = true ∧ f.input i k = none) → gather h f i = .wait) ∧
    (f.fired.find? i = none → (h.pr = .always ∨ ∃ v : Word, f.input i 2 = some (.val v) ∧ v.getLsbD 0 = (h.pr == .onTrue)) →
      ∀ l r p : Tok, (if h.has 0 then f.input i 0 else some (.val 0)) = some l →
        (if h.has 1 then f.input i 1 else some (.val 0)) = some r →
        (if h.has 2 then f.input i 2 else some (.val 0)) = some p →
        l.isPoison = false → r.isPoison = false → p.isPoison = false →
        gather h f i = .vals l r (if h.d then p else .val 0))) ∧
  (∀ (h : Shape) (f : Frame) (i : Nat) (l r : Tok), f.fired.find? i = none → h.pr = .always → h.d = false →
    h.l = true → h.r = true → f.input i 0 = some l → f.input i 1 = some r →
    (∀ d m, l = .poison d m → r.isPoison = false → gather h f i = .poison d m) ∧
    (∀ d m, l.isPoison = false → r = .poison d m → gather h f i = .poison d m) ∧
    (∀ d m d' m', l = .poison d m → r = .poison d' m' → d.index ≤ d'.index → gather h f i = .poison d m) ∧
    (∀ d m d' m', l = .poison d m → r = .poison d' m' → d'.index < d.index → gather h f i = .poison d' m') ∧
    (∀ b : Bool, l.isPoison = false → r.isPoison = false → f.input i 2 = some .null →
      gather { h with pr := if b then .onTrue else .onFalse } f i = .null))

/-- A result reaches each of its targets once (R259, R265): an input below 384, a register write from 384 on; the first
token of a target stays, and nothing else of the frame's inputs and registers changes.
A second token at an input or register write is the fault 0x06 of the block (R265): with the index of the word that
has the input, or for a register of the word that sent it; the first token stays. -/
def Obligations.ResultReachesTargets : Prop :=
  (∀ (f : Frame) (src : Nat) (ts : List Nat) (x : Tok) (t : Nat),
    (t < 384 → (f.deliver src ts x).ops.find? t =
      if f.ops.find? t = none ∧ t ∈ ts then some x else f.ops.find? t) ∧
    (t < 16 → (f.deliver src ts x).regs.find? t =
      if f.regs.find? t = none ∧ t + 384 ∈ ts then some x else f.regs.find? t) ∧
    (f.deliver src ts x).fired = f.fired ∧ (f.deliver src ts x).pend = f.pend ∧ (f.deliver src ts x).exits = f.exits) ∧
  (∀ (f : Frame) (src t : Nat) (x y : Tok),
    (t < 384 → f.ops.find? t = some y →
      f.deliver1 src t x = { f with faults := f.faults ++ [{ cause := 0x06, index := t / 3, lsid := f.lsidAt (t / 3) }] }) ∧
    (384 ≤ t → t < 400 → f.regs.find? (t - 384) = some y →
      f.deliver1 src t x = { f with faults := f.faults ++ [{ cause := 0x06, index := src, lsid := f.lsidAt src }] }))

/-- The frame of class C: an instruction of class C other than TID, WHERE and TIME changes nothing but its own frame, and
of that only operand tokens, register writes, fired marks, faults and FP flags. Memory, every register, every other slot
and everything outside the core stay; the fired mark of no other word changes.
What a class C instruction that does not compute does (R265-R267): it waits, is decided as not firing, or hands on
poison or null to its targets. -/
def Obligations.ComputeFrame : Prop :=
  (∀ (i : Instr) (s t : State), i.shape.cls = .compute →
    (∀ p a b, i ≠ .tid p a b ∧ i ≠ .whereQ p a b ∧ i ≠ .time p a b) → exec i s = .next t →
    t = { s with cores := t.cores } ∧
    (∀ c, c ≠ s.cc → t.core c = s.core c) ∧
    ({ t.core s.cc with slots := (s.core s.cc).slots } = s.core s.cc) ∧
    (∀ k, k ≠ s.ck → t.slot s.cc k = s.slot s.cc k) ∧
    { t.cur with frame := s.cur.frame } = s.cur ∧ s.cur.frame.sameBut t.cur.frame ∧
    (∀ n, n ≠ s.ci → t.cur.frame.fired.find? n = s.cur.frame.fired.find? n)) ∧
  (∀ (i : Instr) (s : State), i.shape.cls = .compute → (∀ p a b, i ≠ .tid p a b ∧ i ≠ .whereQ p a b ∧ i ≠ .time p a b) →
    (gather i.shape s.cur.frame s.ci = .wait → exec i s = .next s) ∧
    (gather i.shape s.cur.frame s.ci = .mismatch → exec i s = .next (s.updF fun f => f.mark s.ci false)) ∧
    (∀ d m, gather i.shape s.cur.frame s.ci = .poison d m → exec i s = .next (s.fireWith i (.poison d m) 0)) ∧
    (gather i.shape s.cur.frame s.ci = .null → exec i s = .next (s.fireWith i .null 0)))

/-! ## Scalar instructions -/

/-- The structural instructions (R290): READ gives its register, or poison 0x60 for one that PMASK or an uncorrectable
error marks; MOV and MOV4 hand their token on; MOVI and CONST give their immediate sign-extended; CONSTH shifts its left
input up by 16 and adds the immediate; NULL gives null.
(The record behind a poisoned register, and one lost to ECC: log 55 and 56.)
The immediate instructions on 64 bits (R263, R297): a 14-bit immediate is sign-extended; a shift count is below 64. -/
def Obligations.StructuralResults : Prop :=
  (∀ (s : State) (p : Pr) (k s1 t t2 t3 im : Nat) (l r q : Tok) (x y z : Word),
    (s.has (.readReg k s1 t) l r q → k < 16 → s.cur.pmask.getLsbD k = false → s.cur.badRegs.getLsbD k = false →
      exec (.readReg k s1 t) s = .next (s.fires (.readReg k s1 t) (s.cur.ctx.reg k))) ∧
    (s.has (.readReg k s1 t) l r q → k < 16 → s.cur.pmask.getLsbD k = true → s.cur.badRegs.getLsbD k = false →
      exec (.readReg k s1 t) s =
        .next (s.gives (.readReg k s1 t) (.poison { cause := 0x60, index := s.ci } false, 0))) ∧
    (s.has (.readReg k s1 t) l r q → k < 16 → s.cur.badRegs.getLsbD k = true →
      exec (.readReg k s1 t) s =
        .next (s.gives (.readReg k s1 t) (.poison { cause := 0x60, index := s.ci } true, 0))) ∧
    (s.has (.mov p s1 t) l r q → exec (.mov p s1 t) s = .next (s.gives (.mov p s1 t) (l, 0))) ∧
    (s.has (.mov4 p s1 t t3 t2) l r q → exec (.mov4 p s1 t t3 t2) s = .next (s.gives (.mov4 p s1 t t3 t2) (l, 0))) ∧
    (s.ready (.movi p im t) x y z →
      exec (.movi p im t) s = .next (s.fires (.movi p im t) ((BitVec.ofNat 14 im).signExtend 64))) ∧
    (s.ready (.const t im) x y z →
      exec (.const t im) s = .next (s.fires (.const t im) ((BitVec.ofNat 16 im).signExtend 64))) ∧
    (s.ready (.consth t im) x y z → im < 65536 →
      exec (.consth t im) s = .next (s.fires (.consth t im) ((x <<< 16) ||| (BitVec.ofNat 16 im).setWidth 64))) ∧
    (s.has (.null p s1 t) l r q → exec (.null p s1 t) s = .next (s.gives (.null p s1 t) (.null, 0)))) ∧
  (∀ (s : State) (p : Pr) (im n t : Nat) (x y z : Word), n < 64 →
    (s.ready (.addi p im t) x y z →
      exec (.addi p im t) s = .next (s.fires (.addi p im t) (x + (BitVec.ofNat 14 im).signExtend 64))) ∧
    (s.ready (.muli p im t) x y z →
      exec (.muli p im t) s = .next (s.fires (.muli p im t) (x * (BitVec.ofNat 14 im).signExtend 64))) ∧
    (s.ready (.andi p im t) x y z →
      exec (.andi p im t) s = .next (s.fires (.andi p im t) (x &&& (BitVec.ofNat 14 im).signExtend 64))) ∧
    (s.ready (.ori p im t) x y z →
      exec (.ori p im t) s = .next (s.fires (.ori p im t) (x ||| (BitVec.ofNat 14 im).signExtend 64))) ∧
    (s.ready (.xori p im t) x y z →
      exec (.xori p im t) s = .next (s.fires (.xori p im t) (x ^^^ (BitVec.ofNat 14 im).signExtend 64))) ∧
    (s.ready (.shli p n t) x y z → exec (.shli p n t) s = .next (s.fires (.shli p n t) (x <<< n))) ∧
    (s.ready (.shri p n t) x y z → exec (.shri p n t) s = .next (s.fires (.shri p n t) (x >>> n))) ∧
    (s.ready (.srai p n t) x y z → exec (.srai p n t) s = .next (s.fires (.srai p n t) (x.sshiftRight n))))

/-- Integer arithmetic and logic on the low bits of a width (R286, R291).
Rotations take their count modulo the width; minima and maxima (R292). -/
def Obligations.IntegerResults : Prop :=
  (∀ (s : State) (p : Pr) (w : Width) (s1 t : Nat) (x y z : Word),
    (s.ready (.add p w s1 t) x y z → exec (.add p w s1 t) s = .next (s.fires (.add p w s1 t) (low w (x + y)))) ∧
    (s.ready (.sub p w s1 t) x y z → exec (.sub p w s1 t) s = .next (s.fires (.sub p w s1 t) (low w (x - y)))) ∧
    (s.ready (.mul p w s1 t) x y z → exec (.mul p w s1 t) s = .next (s.fires (.mul p w s1 t) (low w (x * y)))) ∧
    (s.ready (.mulh p w s1 t) x y z → exec (.mulh p w s1 t) s = .next (s.fires (.mulh p w s1 t)
      (low w ((((cut w x).signExtend 128 * (cut w y).signExtend 128) >>> wBits w).setWidth 64)))) ∧
    (s.ready (.mulhn p w s1 t) x y z → exec (.mulhn p w s1 t) s = .next (s.fires (.mulhn p w s1 t)
      (low w ((((cut w x).setWidth 128 * (cut w y).setWidth 128) >>> wBits w).setWidth 64)))) ∧
    (s.ready (.and p w s1 t) x y z → exec (.and p w s1 t) s = .next (s.fires (.and p w s1 t) (low w (x &&& y)))) ∧
    (s.ready (.or p w s1 t) x y z → exec (.or p w s1 t) s = .next (s.fires (.or p w s1 t) (low w (x ||| y)))) ∧
    (s.ready (.xor p w s1 t) x y z → exec (.xor p w s1 t) s = .next (s.fires (.xor p w s1 t) (low w (x ^^^ y)))) ∧
    (s.ready (.andn p w s1 t) x y z → exec (.andn p w s1 t) s = .next (s.fires (.andn p w s1 t) (low w (x &&& ~~~y))))) ∧
  (∀ (s : State) (p : Pr) (w : Width) (s1 t : Nat) (x y z : Word),
    (s.ready (.rol p w s1 t) x y z →
      exec (.rol p w s1 t) s = .next (s.fires (.rol p w s1 t) (zext ((cut w x).rotateLeft y.toNat)))) ∧
    (s.ready (.ror p w s1 t) x y z →
      exec (.ror p w s1 t) s = .next (s.fires (.ror p w s1 t) (zext ((cut w x).rotateRight y.toNat)))) ∧
    (s.ready (.min p w s1 t) x y z → exec (.min p w s1 t) s = .next (s.fires (.min p w s1 t)
      (if (cut w x).sle (cut w y) then low w x else low w y))) ∧
    (s.ready (.max p w s1 t) x y z → exec (.max p w s1 t) s = .next (s.fires (.max p w s1 t)
      (if (cut w x).sle (cut w y) then low w y else low w x))) ∧
    (s.ready (.minn p w s1 t) x y z → exec (.minn p w s1 t) s = .next (s.fires (.minn p w s1 t)
      (if (cut w x).ule (cut w y) then low w x else low w y))) ∧
    (s.ready (.maxn p w s1 t) x y z → exec (.maxn p w s1 t) s = .next (s.fires (.maxn p w s1 t)
      (if (cut w x).ule (cut w y) then low w y else low w x))))

/-- Division and remainder (R293): signed toward zero, the remainder with the sign of the dividend, unsigned as it
stands; by zero all ones, or the dividend as remainder; by zero under DZT poison of cause 0xB0, or 0xB1 for a
remainder. -/
def Obligations.DivisionResults : Prop :=
  ∀ (s : State) (p : Pr) (w : Width) (s1 t : Nat) (x y z : Word),
    (s.ready (.div p w s1 t) x y z → exec (.div p w s1 t) s = .next (
      if cut w y = 0 then
        (if s.cur.dzt then s.gives (.div p w s1 t) (.poison { cause := 0xB0, index := s.ci } false, 0)
          else s.fires (.div p w s1 t) (zext (BitVec.allOnes (wBits w))))
      else s.fires (.div p w s1 t) (zext ((cut w x).sdiv (cut w y))))) ∧
    (s.ready (.divn p w s1 t) x y z → exec (.divn p w s1 t) s = .next (
      if cut w y = 0 then
        (if s.cur.dzt then s.gives (.divn p w s1 t) (.poison { cause := 0xB0, index := s.ci } false, 0)
          else s.fires (.divn p w s1 t) (zext (BitVec.allOnes (wBits w))))
      else s.fires (.divn p w s1 t) (zext (cut w x / cut w y)))) ∧
    (s.ready (.rem p w s1 t) x y z → exec (.rem p w s1 t) s = .next (
      if cut w y = 0 then
        (if s.cur.dzt then s.gives (.rem p w s1 t) (.poison { cause := 0xB1, index := s.ci } false, 0)
          else s.fires (.rem p w s1 t) (zext (cut w x)))
      else s.fires (.rem p w s1 t) (zext ((cut w x).srem (cut w y))))) ∧
    (s.ready (.remn p w s1 t) x y z → exec (.remn p w s1 t) s = .next (
      if cut w y = 0 then
        (if s.cur.dzt then s.gives (.remn p w s1 t) (.poison { cause := 0xB1, index := s.ci } false, 0)
          else s.fires (.remn p w s1 t) (zext (cut w x)))
      else s.fires (.remn p w s1 t) (zext (cut w x % cut w y))))

/-- Shifts (R295): the count is the whole right token, unsigned, so that a count of the width or more shifts everything
out; SHL and SHR fill with zeros, SRA with the sign bit. -/
def Obligations.ShiftResults : Prop :=
  ∀ (s : State) (p : Pr) (w : Width) (s1 t : Nat) (x y z : Word),
    (s.ready (.shl p w s1 t) x y z →
      (wBits w ≤ y.toNat → exec (.shl p w s1 t) s = .next (s.fires (.shl p w s1 t) 0)) ∧
      exec (.shl p w s1 t) s = .next (s.fires (.shl p w s1 t) (zext (cut w x <<< y.toNat)))) ∧
    (s.ready (.shr p w s1 t) x y z →
      (wBits w ≤ y.toNat → exec (.shr p w s1 t) s = .next (s.fires (.shr p w s1 t) 0)) ∧
      exec (.shr p w s1 t) s = .next (s.fires (.shr p w s1 t) (zext (cut w x >>> y.toNat)))) ∧
    (s.ready (.sra p w s1 t) x y z →
      (wBits w ≤ y.toNat → exec (.sra p w s1 t) s = .next (s.fires (.sra p w s1 t)
        (zext (if (cut w x).msb then BitVec.allOnes (wBits w) else 0#(wBits w))))) ∧
      exec (.sra p w s1 t) s = .next (s.fires (.sra p w s1 t) (zext ((cut w x).sshiftRight y.toNat))))

/-- Counts and reversals of the low bits (R294): CLZ counts the zeros above the highest one, CTZ those below the lowest,
each the width when there is no one; POPC counts the ones; BREV reverses the bits and BSWAP the bytes.
Bit fields at position n of length l + 1 (R298), and KVSLOT (R299).
Selection by the low bit of the predicate operand (R296); absolute value and extension of the low bits (R294). -/
def Obligations.BitResults : Prop :=
  (∀ (s : State) (p : Pr) (w : Width) (s1 t : Nat) (x y z : Word),
    (s.ready (.clz p w s1 t) x y z → ∃ n, n ≤ wBits w ∧ (∀ j, wBits w - n ≤ j → (cut w x).getLsbD j = false) ∧
      (n < wBits w → (cut w x).getLsbD (wBits w - 1 - n) = true) ∧
      exec (.clz p w s1 t) s = .next (s.fires (.clz p w s1 t) (BitVec.ofNat 64 n))) ∧
    (s.ready (.ctz p w s1 t) x y z → ∃ n, n ≤ wBits w ∧ (∀ j, j < n → (cut w x).getLsbD j = false) ∧
      (n < wBits w → (cut w x).getLsbD n = true) ∧
      exec (.ctz p w s1 t) s = .next (s.fires (.ctz p w s1 t) (BitVec.ofNat 64 n))) ∧
    (s.ready (.popc p w s1 t) x y z → exec (.popc p w s1 t) s = .next (s.fires (.popc p w s1 t)
      (BitVec.ofNat 64 ((List.range (wBits w)).countP fun j => (cut w x).getLsbD j)))) ∧
    (s.ready (.brev p w s1 t) x y z →
      exec (.brev p w s1 t) s = .next (s.fires (.brev p w s1 t) (zext (cut w x).reverse))) ∧
    (s.ready (.bswap p w s1 t) x y z → ∃ v : BitVec (wBits w),
      (∀ j b, j < wBits w / 8 → b < 8 → v.getLsbD (8 * j + b) = (cut w x).getLsbD (8 * (wBits w / 8 - 1 - j) + b)) ∧
      exec (.bswap p w s1 t) s = .next (s.fires (.bswap p w s1 t) (zext v)))) ∧
  (∀ (s : State) (p : Pr) (l n s1 t : Nat) (x y z : Word),
    (s.ready (.bfx p false l n t) x y z → n + l < 64 → exec (.bfx p false l n t) s =
      .next (s.fires (.bfx p false l n t) (zext ((x >>> n).setWidth (l + 1))))) ∧
    (s.ready (.bfx p true l n t) x y z → n + l < 64 → exec (.bfx p true l n t) s =
      .next (s.fires (.bfx p true l n t) (((x >>> n).setWidth (l + 1)).signExtend 64))) ∧
    (s.ready (.bfi p l n t) x y z → n + l < 64 → ∃ v : Word,
      (∀ j, j < 64 → v.getLsbD j = if n ≤ j ∧ j ≤ n + l then y.getLsbD (j - n) else x.getLsbD j) ∧
      exec (.bfi p l n t) s = .next (s.fires (.bfi p l n t) v)) ∧
    (s.ready (.kvslot p s1 t) x y z → ∃ v : Word,
      v.getLsbD 63 = !x.getLsbD (y.setWidth 6).toNat ∧
      (v.setWidth 16 = (y >>> 16).setWidth 16 +
        BitVec.ofNat 16 ((List.range (y.setWidth 6).toNat).countP fun j => x.getLsbD j)) ∧
      (∀ j, 16 ≤ j → j < 63 → v.getLsbD j = false) ∧
      exec (.kvslot p s1 t) s = .next (s.fires (.kvslot p s1 t) v))) ∧
  (∀ (s : State) (p : Pr) (w : Width) (s1 t : Nat) (x y z : Word),
    (s.ready (.sel s1 t) x y z → exec (.sel s1 t) s = .next (s.fires (.sel s1 t) (if z.getLsbD 0 then x else y))) ∧
    (s.ready (.abs p w s1 t) x y z → exec (.abs p w s1 t) s = .next (s.fires (.abs p w s1 t) (zext (cut w x).abs))) ∧
    (s.ready (.sext p w s1 t) x y z →
      exec (.sext p w s1 t) s = .next (s.fires (.sext p w s1 t) ((cut w x).signExtend 64))) ∧
    (s.ready (.zext p w s1 t) x y z → exec (.zext p w s1 t) s = .next (s.fires (.zext p w s1 t) (low w x))))

/-- The comparisons (R300): 1 where the relation holds and 0 where it does not. -/
def Obligations.ComparisonResults : Prop :=
  ∀ (s : State) (p : Pr) (w : Width) (s1 t im n : Nat) (x y z : Word), im < 16384 → n < 64 →
    (s.ready (.teq p w s1 t) x y z →
      exec (.teq p w s1 t) s = .next (s.fires (.teq p w s1 t) (truth (cut w x == cut w y)))) ∧
    (s.ready (.tne p w s1 t) x y z →
      exec (.tne p w s1 t) s = .next (s.fires (.tne p w s1 t) (truth (cut w x != cut w y)))) ∧
    (s.ready (.tlt p w s1 t) x y z →
      exec (.tlt p w s1 t) s = .next (s.fires (.tlt p w s1 t) (truth ((cut w x).slt (cut w y))))) ∧
    (s.ready (.tle p w s1 t) x y z →
      exec (.tle p w s1 t) s = .next (s.fires (.tle p w s1 t) (truth ((cut w x).sle (cut w y))))) ∧
    (s.ready (.tltn p w s1 t) x y z →
      exec (.tltn p w s1 t) s = .next (s.fires (.tltn p w s1 t) (truth ((cut w x).ult (cut w y))))) ∧
    (s.ready (.tlen p w s1 t) x y z →
      exec (.tlen p w s1 t) s = .next (s.fires (.tlen p w s1 t) (truth ((cut w x).ule (cut w y))))) ∧
    (s.ready (.teqi p im t) x y z →
      exec (.teqi p im t) s = .next (s.fires (.teqi p im t) (truth (x == (BitVec.ofNat 14 im).signExtend 64)))) ∧
    (s.ready (.tnei p im t) x y z →
      exec (.tnei p im t) s = .next (s.fires (.tnei p im t) (truth (x != (BitVec.ofNat 14 im).signExtend 64)))) ∧
    (s.ready (.tlti p im t) x y z →
      exec (.tlti p im t) s = .next (s.fires (.tlti p im t) (truth (x.slt ((BitVec.ofNat 14 im).signExtend 64))))) ∧
    (s.ready (.tlei p im t) x y z →
      exec (.tlei p im t) s = .next (s.fires (.tlei p im t) (truth (x.sle ((BitVec.ofNat 14 im).signExtend 64))))) ∧
    (s.ready (.tltni p im t) x y z →
      exec (.tltni p im t) s = .next (s.fires (.tltni p im t) (truth (x.ult (BitVec.ofNat 64 im))))) ∧
    (s.ready (.tleni p im t) x y z →
      exec (.tleni p im t) s = .next (s.fires (.tleni p im t) (truth (x.ule (BitVec.ofNat 64 im))))) ∧
    (s.ready (.tbit p n t) x y z → exec (.tbit p n t) s = .next (s.fires (.tbit p n t) (truth (x.getLsbD n))))

/-! ## Floating point and vectors -/

/-- The floating-point instructions (R301-R310) fire with the result and the flags of their operation at their precision, in
the mode that RM or the TSW selects: the operands' low bits enter, the result is zero-extended. -/
def Obligations.FloatResults : Prop :=
  ∀ (s : State) (p : Pr) (m : Rm) (q : Prec) (s1 t : Nat) (x y z : Word),
    (s.ready (.fadd p m q s1 t) x y z → exec (.fadd p m q s1 t) s = .next (s.gives (.fadd p m q s1 t)
      (fres ((qFmt q).add (s.cur.mode m) (lowQ q x) (lowQ q y))))) ∧
    (s.ready (.fsub p m q s1 t) x y z → exec (.fsub p m q s1 t) s = .next (s.gives (.fsub p m q s1 t)
      (fres ((qFmt q).sub (s.cur.mode m) (lowQ q x) (lowQ q y))))) ∧
    (s.ready (.fmul p m q s1 t) x y z → exec (.fmul p m q s1 t) s = .next (s.gives (.fmul p m q s1 t)
      (fres ((qFmt q).mul (s.cur.mode m) (lowQ q x) (lowQ q y))))) ∧
    (s.ready (.fdiv p m q s1 t) x y z → exec (.fdiv p m q s1 t) s = .next (s.gives (.fdiv p m q s1 t)
      (fres ((qFmt q).div (s.cur.mode m) (lowQ q x) (lowQ q y))))) ∧
    (s.ready (.fma m q s1 t) x y z → exec (.fma m q s1 t) s = .next (s.gives (.fma m q s1 t)
      (fres ((qFmt q).fma (s.cur.mode m) false (lowQ q x) (lowQ q y) (lowQ q z))))) ∧
    (s.ready (.fms m q s1 t) x y z → exec (.fms m q s1 t) s = .next (s.gives (.fms m q s1 t)
      (fres ((qFmt q).fma (s.cur.mode m) true (lowQ q x) (lowQ q y) (lowQ q z))))) ∧
    (s.ready (.fsqrt p m q s1 t) x y z → exec (.fsqrt p m q s1 t) s = .next (s.gives (.fsqrt p m q s1 t)
      (fres ((qFmt q).sqrt (s.cur.mode m) (lowQ q x))))) ∧
    (s.ready (.fcvt p m q s1 t) x y z → exec (.fcvt p m q s1 t) s = .next (s.gives (.fcvt p m q s1 t)
      (fres ((qFmt q).convert (qFmt (otherQ q)) (s.cur.mode m) (lowQ (otherQ q) x))))) ∧
    (s.ready (.fcvti p m q s1 t) x y z → exec (.fcvti p m q s1 t) s = .next (s.gives (.fcvti p m q s1 t)
      (.val (wordOfInt (((qFmt q).decode (lowQ q x)).toInt (s.cur.mode m) 64).1),
        (((qFmt q).decode (lowQ q x)).toInt (s.cur.mode m) 64).2))) ∧
    (s.ready (.icvtf p m q s1 t) x y z → exec (.icvtf p m q s1 t) s = .next (s.gives (.icvtf p m q s1 t)
      (fres ((qFmt q).ofInt (s.cur.mode m) x.toInt)))) ∧
    (s.ready (.frnd p m q s1 t) x y z → exec (.frnd p m q s1 t) s = .next (s.gives (.frnd p m q s1 t)
      (fres ((qFmt q).integral (s.cur.mode m) (lowQ q x))))) ∧
    (s.ready (.fmin p q s1 t) x y z → exec (.fmin p q s1 t) s = .next (s.gives (.fmin p q s1 t)
      (fres ((qFmt q).minMax false (lowQ q x) (lowQ q y))))) ∧
    (s.ready (.fmax p q s1 t) x y z → exec (.fmax p q s1 t) s = .next (s.gives (.fmax p q s1 t)
      (fres ((qFmt q).minMax true (lowQ q x) (lowQ q y))))) ∧
    (s.ready (.fabs p q s1 t) x y z → exec (.fabs p q s1 t) s = .next (s.gives (.fabs p q s1 t)
      (fres ((qFmt q).setSign (lowQ q x) false (snanFlag q x x))))) ∧
    (s.ready (.fneg p q s1 t) x y z → exec (.fneg p q s1 t) s = .next (s.gives (.fneg p q s1 t)
      (fres ((qFmt q).setSign (lowQ q x) (!(lowQ q x).testBit (qFmt q).low) (snanFlag q x x))))) ∧
    (s.ready (.fsgn p q s1 t) x y z → exec (.fsgn p q s1 t) s = .next (s.gives (.fsgn p q s1 t)
      (fres ((qFmt q).setSign (lowQ q x) ((lowQ q y).testBit (qFmt q).low) (snanFlag q x y))))) ∧
    (s.ready (.feq p q s1 t) x y z → exec (.feq p q s1 t) s = .next (s.gives (.feq p q s1 t)
      (fbool ((qFmt q).rel .eq (lowQ q x) (lowQ q y))))) ∧
    (s.ready (.flt p q s1 t) x y z → exec (.flt p q s1 t) s = .next (s.gives (.flt p q s1 t)
      (fbool ((qFmt q).rel .lt (lowQ q x) (lowQ q y))))) ∧
    (s.ready (.fle p q s1 t) x y z → exec (.fle p q s1 t) s = .next (s.gives (.fle p q s1 t)
      (fbool ((qFmt q).rel .le (lowQ q x) (lowQ q y))))) ∧
    (s.ready (.funord p q s1 t) x y z → exec (.funord p q s1 t) s = .next (s.gives (.funord p q s1 t)
      (fbool ((qFmt q).rel .unord (lowQ q x) (lowQ q y))))) ∧
    (s.ready (.fclass p q s1 t) x y z → exec (.fclass p q s1 t) s = .next (s.gives (.fclass p q s1 t)
      (fres ((qFmt q).fclass (lowQ q x), 0))))

/-- Rounding to an integer multiple (R240): RNE gives the nearest, of two the even one; RNA of two the larger magnitude; RTZ
the magnitude's floor; RDN and RUP the value below and above, by the sign. Inexact exactly when something was dropped.
A finite FP64 or FP32 value rounds to its own encoding, in every mode and without a flag (R234, R240, R241): decoding
loses nothing and rounding changes no value that the format has. -/
def Obligations.RoundingRule : Prop :=
  (∀ (neg : Bool) (m k : Nat),
    (∀ mode, (roundShift mode neg m k false).2 = decide (m % 2 ^ k ≠ 0)) ∧
    (∀ y, y = (roundShift .rne neg m k false).1 →
      2 * m ≤ 2 * (y * 2 ^ k) + 2 ^ k ∧ 2 * (y * 2 ^ k) ≤ 2 * m + 2 ^ k ∧
        ((2 * m = 2 * (y * 2 ^ k) + 2 ^ k ∨ 2 * (y * 2 ^ k) = 2 * m + 2 ^ k) → y % 2 = 0)) ∧
    (∀ y, y = (roundShift .rna neg m k false).1 →
      2 * m < 2 * (y * 2 ^ k) + 2 ^ k ∧ 2 * (y * 2 ^ k) ≤ 2 * m + 2 ^ k) ∧
    (roundShift .rtz neg m k false).1 = m / 2 ^ k ∧
    (roundShift .rdn neg m k false).1 = (if neg then (m + 2 ^ k - 1) / 2 ^ k else m / 2 ^ k) ∧
    (roundShift .rup neg m k false).1 = (if neg then m / 2 ^ k else (m + 2 ^ k - 1) / 2 ^ k)) ∧
  (∀ (q : Prec) (mode : RMode) (sat neg : Bool) (x m : Nat) (e : Int), x < 2 ^ ((qFmt q).low + 1) →
    (qFmt q).decode x = .fin neg m e → (qFmt q).round mode sat neg m e false = (x, 0))

/-- The lane-wise vector instructions (R343-R345, R350-R352) fire with the lanes of their operation, each lane computed from
the same lanes of the operands, with the flags of the lanes that are not null.
Selection, movement, reductions and prefixes (R346-R350) fire with the lanes, or for VEXT and a reduction the scalar,
that their rules give. -/
def Obligations.VectorResults : Prop :=
  (∀ (s : State) (p : Pr) (c : VCond) (y d : VT) (s1 t : Nat) (l r z : Tok),
    (s.has (.vadd p y s1 t) l r z → exec (.vadd p y s1 t) s = .next (s.gives (.vadd p y s1 t)
      (lane2 y (vaddLane y s.cur.rmode) l r))) ∧
    (s.has (.vsub p y s1 t) l r z → exec (.vsub p y s1 t) s = .next (s.gives (.vsub p y s1 t)
      (lane2 y (vsubLane y s.cur.rmode) l r))) ∧
    (s.has (.vmul p y s1 t) l r z → exec (.vmul p y s1 t) s = .next (s.gives (.vmul p y s1 t)
      (lane2 y (vmulLane y s.cur.rmode) l r))) ∧
    (s.has (.vmin p y s1 t) l r z → exec (.vmin p y s1 t) s = .next (s.gives (.vmin p y s1 t)
      (lane2 y (vminLane y) l r))) ∧
    (s.has (.vmax p y s1 t) l r z → exec (.vmax p y s1 t) s = .next (s.gives (.vmax p y s1 t)
      (lane2 y (vmaxLane y) l r))) ∧
    (s.has (.vabs p y s1 t) l r z → exec (.vabs p y s1 t) s = .next (s.gives (.vabs p y s1 t)
      (lane1 y (vabsLane y) l))) ∧
    (s.has (.vneg p y s1 t) l r z → exec (.vneg p y s1 t) s = .next (s.gives (.vneg p y s1 t)
      (lane1 y (vnegLane y) l))) ∧
    (s.has (.vand p y s1 t) l r z → exec (.vand p y s1 t) s = .next (s.gives (.vand p y s1 t)
      (lane2 y (fun a b => noFlag (a &&& b)) l r))) ∧
    (s.has (.vor p y s1 t) l r z → exec (.vor p y s1 t) s = .next (s.gives (.vor p y s1 t)
      (lane2 y (fun a b => noFlag (a ||| b)) l r))) ∧
    (s.has (.vxor p y s1 t) l r z → exec (.vxor p y s1 t) s = .next (s.gives (.vxor p y s1 t)
      (lane2 y (fun a b => noFlag (a ^^^ b)) l r))) ∧
    (s.has (.vandn p y s1 t) l r z → exec (.vandn p y s1 t) s = .next (s.gives (.vandn p y s1 t)
      (lane2 y (fun a b => noFlag (a &&& (2 ^ vBits y - 1 - b))) l r))) ∧
    (s.has (.vshl p y s1 t) l r z → exec (.vshl p y s1 t) s = .next (s.gives (.vshl p y s1 t)
      (lane2 y (fun a b => noFlag (shlBits (vBits y) a b)) l r))) ∧
    (s.has (.vshr p y s1 t) l r z → exec (.vshr p y s1 t) s = .next (s.gives (.vshr p y s1 t)
      (lane2 y (fun a b => noFlag (shrBits (vBits y) a b)) l r))) ∧
    (s.has (.vsra p y s1 t) l r z → exec (.vsra p y s1 t) s = .next (s.gives (.vsra p y s1 t)
      (lane2 y (fun a b => noFlag (sraBits (vBits y) a b)) l r))) ∧
    (s.has (.vcmp p c y s1 t) l r z → exec (.vcmp p c y s1 t) s = .next (s.gives (.vcmp p c y s1 t)
      (lane2 y (vcmpLane c y) l r))) ∧
    (s.has (.vfma y s1 t) l r z → exec (.vfma y s1 t) s = .next (s.gives (.vfma y s1 t)
      (vfmaOf y s.cur.rmode l r z))) ∧
    (s.has (.vpopc p y s1 t) l r z → exec (.vpopc p y s1 t) s = .next (s.gives (.vpopc p y s1 t)
      (lane1 y (fun a => noFlag (popcount (vBits y) a)) l))) ∧
    (s.has (.vexp2 p y s1 t) l r z → exec (.vexp2 p y s1 t) s = .next (s.gives (.vexp2 p y s1 t)
      (lane1 y ((vFmt y).exp2 s.cur.rmode) l))) ∧
    (s.has (.vlog2 p y s1 t) l r z → exec (.vlog2 p y s1 t) s = .next (s.gives (.vlog2 p y s1 t)
      (lane1 y ((vFmt y).log2 s.cur.rmode) l))) ∧
    (s.has (.vrcp p y s1 t) l r z → exec (.vrcp p y s1 t) s = .next (s.gives (.vrcp p y s1 t)
      (lane1 y ((vFmt y).rcp s.cur.rmode) l))) ∧
    (s.has (.vrsqrt p y s1 t) l r z → exec (.vrsqrt p y s1 t) s = .next (s.gives (.vrsqrt p y s1 t)
      (lane1 y ((vFmt y).rsqrt s.cur.rmode) l))) ∧
    (s.has (.vcvt p d y s1 t) l r z → exec (.vcvt p d y s1 t) s = .next (s.gives (.vcvt p d y s1 t)
      (vcvtOf y d s.cur.rmode l)))) ∧
  (∀ (s : State) (p : Pr) (y : VT) (s1 t : Nat) (l r z : Tok),
    (s.has (.vsel y s1 t) l r z → exec (.vsel y s1 t) s = .next (s.gives (.vsel y s1 t)
      (vselOf y l r z, 0))) ∧
    (s.has (.vbcast p y s1 t) l r z → exec (.vbcast p y s1 t) s = .next (s.gives (.vbcast p y s1 t)
      (vbcastOf y l, 0))) ∧
    (s.has (.vext p y s1 t) l r z → exec (.vext p y s1 t) s = .next (s.gives (.vext p y s1 t)
      (vextOf y l r, 0))) ∧
    (s.has (.vins y s1 t) l r z → exec (.vins y s1 t) s = .next (s.gives (.vins y s1 t)
      (vinsOf y l r z, 0))) ∧
    (s.has (.vshuf p y s1 t) l r z → exec (.vshuf p y s1 t) s = .next (s.gives (.vshuf p y s1 t)
      (vshufOf y l r, 0))) ∧
    (s.has (.vperm p y s1 t) l r z → exec (.vperm p y s1 t) s = .next (s.gives (.vperm p y s1 t)
      (vpermOf y l r, 0))) ∧
    (s.has (.vrot p y s1 t) l r z → exec (.vrot p y s1 t) s = .next (s.gives (.vrot p y s1 t)
      (vrotOf y l r, 0))) ∧
    (s.has (.vredadd p y s1 t) l r z → exec (.vredadd p y s1 t) s = .next (s.gives (.vredadd p y s1 t)
      (reduceLanes y (vaddLane y s.cur.rmode) l))) ∧
    (s.has (.vredmax p y s1 t) l r z → exec (.vredmax p y s1 t) s = .next (s.gives (.vredmax p y s1 t)
      (reduceLanes y (vmaxLane y) l))) ∧
    (s.has (.vredmin p y s1 t) l r z → exec (.vredmin p y s1 t) s = .next (s.gives (.vredmin p y s1 t)
      (reduceLanes y (vminLane y) l))) ∧
    (s.has (.vscan p y s1 t) l r z → exec (.vscan p y s1 t) s = .next (s.gives (.vscan p y s1 t)
      (vecFlags (vBits y) (scanLanes (vaddLane y s.cur.rmode) none (lanes (vBits y) l))))) ∧
    (s.has (.vpfxc p y s1 t) l r z → exec (.vpfxc p y s1 t) s = .next (s.gives (.vpfxc p y s1 t)
      (vecTok (vBits y) (prefixCounts (vBits y) 0 (lanes (vBits y) l)), 0))))

/-- A result's lanes read back as they were computed, null lanes as null (R338, R339); lane i of a two-input operation is
null when lane i of either input is, and otherwise the operation of the two lanes.
The tree of R348 over lanes that are all integers and not null adds them, in whatever order: VREDADD of an integer type
is their sum modulo the lane width; a reduction whose lanes are all null is null. -/
def Obligations.LanesOfResults : Prop :=
  (∀ (y : VT),
    (∀ ls : List (Option Nat), ls.length = 512 / vBits y → (∀ a ∈ ls, ∀ v, a = some v → v < 2 ^ vBits y) →
      lanes (vBits y) (vecTok (vBits y) ls) = ls) ∧
    (∀ (f : Nat → Nat → Nat × Nat) (l r : Tok) (i : Nat), (∀ a b, (f a b).1 < 2 ^ vBits y) → i < 512 / vBits y →
      (lanes (vBits y) (lane2 y f l r).1)[i]? =
        some (match (lanes (vBits y) l).getD i none, (lanes (vBits y) r).getD i none with
          | some a, some b => some (f a b).1
          | _, _ => none))) ∧
  (∀ (y : VT) (m : RMode) (l : Tok), y.isFloat = false →
    (∀ vs : List Nat, lanes (vBits y) l = vs.map some →
      reduceLanes y (vaddLane y m) l = (.val (word (vs.sum % 2 ^ vBits y)), 0)) ∧
    ((∀ a ∈ lanes (vBits y) l, a = none) → reduceLanes y (vaddLane y m) l = (.null, 0)))

/-! ## Loads and stores -/

/-- Loads of plain bytes (R314, R354). An access that passes its checks, at a port that lets it go, with no store of its
own thread pending and no load of a replay held, reads its bytes of memory, little-endian: LD zero-extends or, as LD.s,
sign-extends; VLD gives the 64 bytes with no lane null. Nothing but the frame, the open row and the watchpoint changes,
where no later load of the block turns out to have been performed too early.
A load fires with what it obtains (R269, R314, R354-R356): from memory, from pending stores, through a view, or
poison. VLDG and VTLD obtain their lanes in ascending order, as one load. Once it has fired, its block keeps what it read;
but where it shows a load above it to have been performed too early, the block replays (R180). While its walk waits for a
layer that is powering on, it has not fired (R162). -/
def Obligations.LoadResults : Prop :=
  (∀ (s s1 : State) (p : Pr) (w : Width) (l im t loc : Nat) (acc : Acc) (x y z : Tok), x.isNull = false → s.mayLoad l →
    acc.view = none → s1.portSays s.me.core acc.locs = .go → s1.addressedBelow s.me l = [] →
    s1.cur.frame.storesBelow l = [] → s1.ownEntries s.cc s.ck = [] → s1.readBufs = [] → s1.async = [] →
    (∀ a ∈ acc.locs, s1.mem.isPois a = false) →
    (∀ i u, (i = .ld w p l im t ∨ i = .ldS w p l im t) → s.has i x y z → acc.locs = locRange loc (wBytes w) →
      ordAccess s s.me (mTok x.w im (wBytes w)) (wBytes w) (wBytes w) .load (w == .w32) 1 none = (.ok acc, s1) →
      u = (s1.touchRow loc).watch acc.ea (wBytes w) l true false → u.loadInOrder l acc.locs →
      exec i s = .next (u.loads i l (.val (if i = .ld w p l im t then word (s1.rdMem loc (wBytes w))
          else (BitVec.ofNat (wBits w) (s1.rdMem loc (wBytes w))).signExtend 64)) acc.locs)) ∧
    (∀ u, s.has (.vld p l w t) x y z → acc.locs = locRange loc 64 →
      ordAccess s s.me x.w 64 64 .load (w == .w32) 16 none = (.ok acc, s1) →
      u = (s1.touchRow loc).watch acc.ea 64 l true false → u.loadInOrder l acc.locs →
      exec (.vld p l w t) s = .next (u.loads (.vld p l w t) l (.vec (BitVec.ofNat 512 (s1.rdMem loc 64)) 0) acc.locs))) ∧
  (∀ (s s1 : State) (p : Pr) (w : Width) (l im t : Nat) (v x y z : Tok) (ls : List Nat), x.isNull = false →
    s.mayLoad l →
    (∀ i, (i = .ld w p l im t ∧ scalarLoad w false l im s s.me x y = (.tok v ls, s1) ∨
        i = .ldS w p l im t ∧ scalarLoad w true l im s s.me x y = (.tok v ls, s1) ∨
        i = .vld p l w t ∧ vectorLoad w l s s.me x y = (.tok v ls, s1) ∨
        i = .vldg p l w t ∧ vectorGather w l s s.me x y = (.tok v ls, s1) ∨
        i = .vtld p l w t ∧ vectorColumn w l s s.me x y = (.tok v ls, s1)) →
      s.has i x y z → v.waits = true → exec i s = .next s1) ∧
    (v.waits = false →
    (s.has (.ld w p l im t) x y z → scalarLoad w false l im s s.me x y = (.tok v ls, s1) →
      exec (.ld w p l im t) s = .next (s1.loadDone (.ld w p l im t) l false v ls)) ∧
    (s.has (.ldS w p l im t) x y z → scalarLoad w true l im s s.me x y = (.tok v ls, s1) →
      exec (.ldS w p l im t) s = .next (s1.loadDone (.ldS w p l im t) l false v ls)) ∧
    (s.has (.vld p l w t) x y z → vectorLoad w l s s.me x y = (.tok v ls, s1) →
      exec (.vld p l w t) s = .next (s1.loadDone (.vld p l w t) l false v ls)) ∧
    (s.has (.vldg p l w t) x y z → vectorGather w l s s.me x y = (.tok v ls, s1) →
      exec (.vldg p l w t) s = .next (s1.loadDone (.vldg p l w t) l false v ls)) ∧
    (s.has (.vtld p l w t) x y z → vectorColumn w l s s.me x y = (.tok v ls, s1) →
      exec (.vtld p l w t) s = .next (s1.loadDone (.vtld p l w t) l false v ls)) ∧
    (∀ i, (s.loadInOrder l ls → s.loadDone i l false v ls = s.loads i l v ls) ∧
      (¬s.loadInOrder l ls → s.cur.frame.lock = false → s.loadDone i l false v ls = s.replay []))))

/-- A store writes nothing when it fires: it leaves an entry for the commit of its block, at the address and with the
bytes of its operands (R261, R274, R315-R317, R324). Memory is as before.
The other instructions of class K fire and leave what they build (R274, R316, R320, R321, R326, R354, R355, R369): a
vector store, a barrier image, a row command, a remote store, a posted write, a semaphore's value, a fence. -/
def Obligations.StoreResults : Prop :=
  (∀ (s s1 : State) (p : Pr) (w : Width) (rel : Bool) (c : Scope) (l im : Nat) (acc : Acc) (x y z : Tok) (e : SbEntry),
    x.isNull = false → y.isNull = false → s1.storeFree l e →
    (s.has (.st p l im rel w) x y z → acc.view = none →
      ordAccess s s.me (mTok x.w im (wBytes w)) (wBytes w) (wBytes w) .store (w == .w32) 1 none = (.ok acc, s1) →
      e = { s1.entryOf l with
        rel := rel, ea := acc.ea, width := wBytes w, data := y.w.toNat % 2 ^ (8 * wBytes w)
        op := .data [.raw acc.loop (acc.locs.zip (leBytes (wBytes w) y.w.toNat))] } →
      exec (.st p l im rel w) s = .next (s1.leaves l (.store e)) ∧ (s1.leaves l (.store e)).mem = s.mem) ∧
    (ordAccess s s.me x.w 8 8 .store false 1 (some 0x74) = (.ok acc, s1) →
      (s.has (.stf p l) x y z → e = { s1.entryOf l with
          rel := true, op := .stf (acc.locs.headD 0) y.w, loopback := acc.loop, ea := acc.ea, width := 8
          data := y.w.toNat } →
        exec (.stf p l) s = .next (s1.leaves l (.store e))) ∧
      (s.has (.feempty p l) x y z → e = { s1.entryOf l with
          op := .feempty (acc.locs.headD 0), loopback := acc.loop, ea := acc.ea, width := 8 } →
        exec (.feempty p l) s = .next (s1.leaves l (.store e))) ∧
      (s.has (.notify p l c) x y z → e = { s1.entryOf l with
          rel := true, op := .notify (acc.locs.headD 0) y.w c, loopback := acc.loop, ea := acc.ea, width := 8
          data := y.w.toNat } →
        exec (.notify p l c) s = .next (s1.leaves l (.store e))))) ∧
  (∀ (s s1 : State) (p : Pr) (w : Width) (c : Scope) (l : Nat) (x y z : Tok) (e : SbEntry) (op : RemOp),
    s1.storeFree l e →
    (s.has (.vst p l w) x y z → buildVst w l s s.me x y = (.ok (.store e), s1) →
      exec (.vst p l w) s = .next (s1.leaves l (.store e))) ∧
    (s.has (.vsts l w) x y z → buildVsts w l s s.me x y z = (.ok (.store e), s1) →
      exec (.vsts l w) s = .next (s1.leaves l (.store e))) ∧
    (s.has (.binit p l) x y z → buildBinit l s s.me x y = (.ok (.store e), s1) →
      exec (.binit p l) s = .next (s1.leaves l (.store e))) ∧
    (s.has (.rowopen p l) x y z → buildRow true l s s.me x = (.ok (.store e), s1) →
      exec (.rowopen p l) s = .next (s1.leaves l (.store e))) ∧
    (s.has (.rowclose p l) x y z → buildRow false l s s.me x = (.ok (.store e), s1) →
      exec (.rowclose p l) s = .next (s1.leaves l (.store e))) ∧
    (s.has (.rst p l) x y z → buildRst false .die l s s.me x y = (.ok (.store e), s1) →
      exec (.rst p l) s = .next (s1.leaves l (.store e))) ∧
    (s.has (.rstf p l c) x y z → buildRst true c l s s.me x y = (.ok (.store e), s1) →
      exec (.rstf p l c) s = .next (s1.leaves l (.store e))) ∧
    (s.has (.rpost p l) x y z → buildRpost l s s.me x y = (.ok (.post op), s1) → watchHit s1 s1.cc op.ea 8 false true = false →
      exec (.rpost p l) s = .next (s1.leaves l (.post op))) ∧
    (s.has (.semset p l) x y z → x.isNull = false → y.isNull = false → s1 = s →
      e = { s.entryOf l with op := .semset (wbits x.w 7 0) (wbits y.w 31 0) } →
      exec (.semset p l) s = .next (s.leaves l (.store e))) ∧
    (s.has (.fence p l c) x y z → s1 = s → e = { s.entryOf l with op := .fence 0 c } →
      exec (.fence p l c) s = .next (s.leaves l (.store e))) ∧
    (s.has (.fenceXp p l c) x y z → s1 = s → e = { s.entryOf l with op := .fence 1 c } →
      exec (.fenceXp p l c) s = .next (s.leaves l (.store e))) ∧
    (s.has (.fenceLoop p l) x y z → s1 = s → e = { s.entryOf l with op := .fence 2 .die } →
      exec (.fenceLoop p l) s = .next (s.leaves l (.store e))))

/-- The head of a store buffer drains (R181). Plain bytes reach memory at their locations, the first listed of a location
holding; every other byte, every full/empty and poison bit, every slot stays, and the entry leaves the buffer.
The other entries as they drain (R181, R192, R316, R317, R321, R324, R326, R370): STF writes its word and sets it full,
FEEMPTY empties its word and wakes those who wait for that, NOTIFY writes and wakes, BINIT writes the object of Table 7.9
and wakes its waiters, SEMSET sets a semaphore; FENCE and FENCE.XP make their thread observe what they order (R188, R192); a
remote store is sent, stays at the head until acknowledged on its die, and waits for its acknowledgement elsewhere. -/
def Obligations.StoreBufferDrain : Prop :=
  (∀ (s : State) (c : Nat) (e : SbEntry) (es : List SbEntry) (lp : Bool) (cs : List Host.Cell),
    Safe s → (s.core c).sb = e :: es → s.mayDrain c e = true → e.op = .data [.raw lp cs] →
    (∀ x ∈ cs, s.layerOff x.1 = false ∧ s.mem.isPois x.1 = false) →
    ∃ t, exec (.storeBufferDrain c) s = .next t ∧
      (∀ a, t.byte a = ((cs.find? (·.1 == a)).map (·.2)).getD (s.byte a)) ∧
      (∀ a, t.mem.isFull a = s.mem.isFull a ∧ t.mem.isPois a = s.mem.isPois a) ∧
      (t.core c).sb = es ∧ (∀ d k, t.slot d k = s.slot d k)) ∧
  (∀ (s : State) (c loc : Nat) (e : SbEntry) (es : List SbEntry) (v : Word), (s.core c).sb = e :: es →
    s.mayDrain c e = true → s.layerOff loc = false → (loc < 2 ^ 39 ∨ e.lid = 0) →
    (∀ pop : State → State, pop = (fun t => t.updCore c fun x => { x with sb := es }) →
      (e.op = .stf loc v → exec (.storeBufferDrain c) s =
        .next (pop ((((s.dropReadBufs [loc]).storeFull loc v).publish c e [loc]).touchRow loc))) ∧
      (e.op = .feempty loc → s.mem.isPois loc = false → exec (.storeBufferDrain c) s =
        .next (pop (((s.setFull loc false).wakeWord loc [2]).touchRow loc))) ∧
      (∀ x, e.op = .notify loc v x → exec (.storeBufferDrain c) s =
        .next (pop (((((s.wrWord loc v).dropReadBufs [loc]).publish c e [loc]).wakeWord loc [3]).touchRow loc))) ∧
      (∀ n k, e.op = .semset n k → exec (.storeBufferDrain c) s = .next (pop ((s.setSem c n k).wakeSem c n))) ∧
      (∀ k x, e.op = .fence k x → exec (.storeBufferDrain c) s = .next (pop (if k = 0 then s.fenceAt c e.tid x
        else if k = 1 then s.fenceXp e.tid else s))) ∧
      (∀ o, e.op = .row o loc → exec (.storeBufferDrain c) s = .next (pop (s.rowControl o loc))) ∧
      (∀ op x u, e.op = .remote op x → u = (if e.rel then s.carry c e.tid x op.ident else s).send (.remote op) →
        (onDie c op.place = false → exec (.storeBufferDrain c) s = .next ((pop u).await c e)) ∧
        (onDie c op.place = true → exec (.storeBufferDrain c) s =
          .next (u.updCore c fun x => { x with sb := { e with sent := true } :: es })))) ∧
    (∀ a b, Safe s → e.op = .binit loc a b → loc % 32 = 0 → ∃ t, exec (.storeBufferDrain c) s = .next t ∧
      t.barrier loc = binitImage a b ∧ (∀ x, (x < loc ∨ loc + 32 ≤ x) → t.byte x = s.byte x) ∧ (t.core c).sb = es))

/-! ## Synchronising reads and performing operations -/

/-- The full/empty family at its word (R317). LDFE of a full word gives it and empties it; STEF of an empty word writes
it and sets it full; LDFF of a full word gives it; FEPROBE tells whether it is full. -/
def Obligations.FullEmptyResults : Prop :=
  ∀ (s s1 : State) (p : Pr) (l t ea loc : Nat) (x y z : Tok), s.unrecorded → s1.mem.isPois loc = false →
    (s.mayPerform (.ldfe p l t) true false x y z → s.reaches x 8 .atomic 0x74 ea loc s1 → s1.mem.isFull loc = true →
      exec (.ldfe p l t) s =
        .next ((((((s1.touchRow loc).setFull loc false).wakeWord loc [2]).acquireWord s1.cur.tid loc).bankCount s
          loc).performed (.ldfe p l t) l (.val (s1.rdWord loc)) 0)) ∧
    (s.mayPerform (.stef p l) true y.isNull x y z → s.reaches x 8 .store 0x74 ea loc s1 → s1.mem.isFull loc = false →
      s1.released s.cc s.ck .die = true → exec (.stef p l) s =
        .next ((((((s1.touchRow loc).dropReadBufs [loc]).storeFull loc y.w).releaseWord s1.cc s1.cur.tid .die false
          loc).bankCount s loc).performed (.stef p l) l (.val 0) 0)) ∧
    (s.maySync (.ldff p l t) l true x y → s.drained s.cc s.ck = true → s.reaches x 8 .load 0x74 ea loc s1 →
      s1.mem.isFull loc = true → exec (.ldff p l t) s =
        .next (((((s1.touchRow loc).acquireWord s1.cur.tid loc).watch ea 8 l true false).bankCount s loc).synced
          (.ldff p l t) (.val (s1.rdWord loc)))) ∧
    (s.maySync (.feprobe p l t) l true x y → s.drained s.cc s.ck = true → s.reaches x 8 .load 0x74 ea loc s1 →
      exec (.feprobe p l t) s =
        .next ((((s1.touchRow loc).watch ea 8 l true false).bankCount s loc).synced (.feprobe p l t)
          (.val (truth (s1.mem.isFull loc)))))

/-- The local atomics (R319, R357). AMO gives the word as it was and writes the result of its operation; only the eight
bytes of the word change. VAMO gives the 64-byte line as it was and writes every lane that is not null.
The operations of the integer atomics on a word (R319): old o, operand r, new value v of a compare and swap. -/
def Obligations.AtomicResults : Prop :=
  (∀ (s s1 s2 : State) (p : Pr) (l t ea loc : Nat) (o : AmoOp) (acq rel : Bool) (w : Width) (x y z old : Tok),
    s.unrecorded →
    (s.mayPerform (.amo p l o acq rel t) true y.isNull x y z → s.reaches x 8 .atomic 0x24 ea loc s1 →
      s1.mem.isPois loc = false → (rel = true → s1.released s.cc s.ck .die = true) →
      ∃ v : Nat × Nat, v = amoCalc o 64 (s1.rdWord loc).toNat y.w.toNat z.w.toNat ∧
        ∀ u u' : State, u = ((s1.putBytes loc 8 v.1).wakeLine loc).touchRow loc →
          u' = (if acq then u.acquireWord s1.cur.tid loc else u.noteRead none s1.cur.tid loc) →
          exec (.amo p l o acq rel t) s = .next (((if rel then u'.releaseWord s1.cc s1.cur.tid .die true loc
            else u').bankCount s loc).performed (.amo p l o acq rel t) l (.val (s1.rdWord loc)) v.2)) ∧
    (∀ (u : State) (v : Nat), Safe u → (∀ a, (a < loc ∨ loc + 8 ≤ a) → (u.putBytes loc 8 v).byte a = u.byte a) ∧
      (u.putBytes loc 8 v).rdWord loc = word v) ∧
    (s.mayPerform (.vamo p l w o t) true (lineNull w y) x y z → s.reaches x 64 .atomic 0x24 ea loc s1 →
      s1.lineAt o w loc y = some (old, s2) →
      exec (.vamo p l w o t) s = .next ((s2.bankCount s loc).performed (.vamo p l w o t) l old 0))) ∧
  (∀ o r v : Word,
    word (amoCalc .add 64 o.toNat r.toNat v.toNat).1 = o + r ∧
    word (amoCalc .and 64 o.toNat r.toNat v.toNat).1 = o &&& r ∧
    word (amoCalc .or 64 o.toNat r.toNat v.toNat).1 = o ||| r ∧
    word (amoCalc .xor 64 o.toNat r.toNat v.toNat).1 = o ^^^ r ∧
    word (amoCalc .min 64 o.toNat r.toNat v.toNat).1 = (if o.sle r then o else r) ∧
    word (amoCalc .max 64 o.toNat r.toNat v.toNat).1 = (if o.sle r then r else o) ∧
    word (amoCalc .minn 64 o.toNat r.toNat v.toNat).1 = (if o.ule r then o else r) ∧
    word (amoCalc .maxn 64 o.toNat r.toNat v.toNat).1 = (if o.ule r then r else o) ∧
    word (amoCalc .swap 64 o.toNat r.toNat v.toNat).1 = r ∧
    word (amoCalc .cas 64 o.toNat r.toNat v.toNat).1 = (if o = r then v else o) ∧
    (∀ x, x ≠ .fadd → (amoCalc x 64 o.toNat r.toNat v.toNat).2 = 0))

/-- The barrier operations at their object (R139, R322): ARRIVE counts in ARRA, gives NOT PHASE and keeps it for GPH; JOIN
and LEAVE give EXPA as it was and change it by one; BWAIT passes when the phase is the thread's; BTEST tells so.
FlipCheck (R139): a phase whose counts are met flips once, the surplus of both counts is carried over and the number
of phases rises by one; nothing flips while a count is short, or when both expected counts are zero. -/
def Obligations.BarrierResults : Prop :=
  (∀ (s s1 : State) (p : Pr) (c : Scope) (l t ea loc : Nat) (x y z : Tok), s.reachesObject x ea loc s1 →
    (s.mayPerform (.arrive p l c t) true false x y z → s1.released s.cc s.ck c = true →
      bits (s1.barrier loc) 31 0 ≠ 2 ^ 32 - 1 →
      exec (.arrive p l c t) s = .next (((((s1.touchRow loc).releaseObj s1.cc s1.cur.tid c loc).barrierPut loc
          (putBits (s1.barrier loc) 31 0 (bits (s1.barrier loc) 31 0 + 1))).updF fun f =>
            { f with gph := some (bits (s1.barrier loc) 192 192 == 0) }).performed (.arrive p l c t) l
          (.val (truth (bits (s1.barrier loc) 192 192 == 0))) 0)) ∧
    (s.mayPerform (.join p l t) false false x y z → bits (s1.barrier loc) 63 32 ≠ 2 ^ 32 - 1 →
      exec (.join p l t) s = .next (((s1.touchRow loc).barrierPut loc
          (putBits (s1.barrier loc) 63 32 (bits (s1.barrier loc) 63 32 + 1))).performed (.join p l t) l
          (.val (word (bits (s1.barrier loc) 63 32))) 0)) ∧
    (s.mayPerform (.leave p l t) false false x y z → bits (s1.barrier loc) 63 32 ≠ 0 →
      exec (.leave p l t) s = .next (((s1.touchRow loc).barrierPut loc
          (putBits (s1.barrier loc) 63 32 (bits (s1.barrier loc) 63 32 - 1))).performed (.leave p l t) l
          (.val (word (bits (s1.barrier loc) 63 32))) 0)) ∧
    (s.maySync (.bwait p l t) l false x y → s.drained s.cc s.ck = true →
      bits (s1.barrier loc) 192 192 = (tswGph s1.cur.ctx.tsw).toNat → exec (.bwait p l t) s =
        .next ((((((s1.touchRow loc).readPhase loc).setGw false).acquireObj s1.cur.tid loc).watch ea 32 l true
          false).synced (.bwait p l t)
          (.val (word (bits (s1.barrier loc) 255 224))))) ∧
    (s.maySync (.btest p l t) l false x y → s.drained s.cc s.ck = true →
      (bits (s1.barrier loc) 192 192 = (tswGph s1.cur.ctx.tsw).toNat → exec (.btest p l t) s =
        .next (((((s1.touchRow loc).readPhase loc).acquireObj s1.cur.tid loc).watch ea 32 l true false).synced (.btest p l t)
          (.val 1))) ∧
      (bits (s1.barrier loc) 192 192 ≠ (tswGph s1.cur.ctx.tsw).toNat → exec (.btest p l t) s =
        .next ((((s1.touchRow loc).readPhase loc).watch ea 32 l true false).synced (.btest p l t) (.val 0))))) ∧
  (∀ b : Nat, b < 2 ^ 256 →
    ((bits b 63 32 = 0 ∧ bits b 127 64 = 0) ∨ bits b 31 0 < bits b 63 32 ∨ bits b 191 128 < bits b 127 64 →
      flipCheck b = (b, false)) ∧
    (¬((bits b 63 32 = 0 ∧ bits b 127 64 = 0) ∨ bits b 31 0 < bits b 63 32 ∨ bits b 191 128 < bits b 127 64) →
      ∃ b', flipCheck b = (b', true) ∧ bits b' 31 0 = bits b 31 0 - bits b 63 32 ∧ bits b' 63 32 = bits b 63 32 ∧
        bits b' 127 64 = bits b 127 64 ∧ bits b' 191 128 = bits b 191 128 - bits b 127 64 ∧
        bits b' 192 192 = 1 - bits b 192 192 ∧ bits b' 223 193 = bits b 223 193 ∧
        bits b' 255 224 = (bits b 255 224 + 1) % 2 ^ 32))

/-- WAITA of a word that differs gives it (R324); LD.d.acq loads as an acquire (R271, R314); SEMWAIT takes its count from
a semaphore that has it, SEMSIG adds its count and wakes, each giving the semaphore as it was (R369). -/
def Obligations.WaitAndSemaphoreResults : Prop :=
  ∀ (s s1 : State) (p : Pr) (l im t ea loc : Nat) (x y z v : Tok) (ls : List Nat),
    (s.maySync (.waita p l t) l false x y → s.drained s.cc s.ck = true → s.reaches x 8 .load 0x74 ea loc s1 →
      s1.mem.isPois loc = false → s1.rdWord loc ≠ y.w → exec (.waita p l t) s =
        .next ((((s1.touchRow loc).acquireWord s1.cur.tid loc).watch ea 8 l true false).synced (.waita p l t)
          (.val (s1.rdWord loc)))) ∧
    (s.maySync (.ldDAcq p l im t) l false x y → scalarLoad .w64 false l im s s.me x y = (.tok v ls, s1) →
      v.isPoison = false → exec (.ldDAcq p l im t) s = .next ((s1.acquireWord s1.cur.tid (ls.headD 0)).synced
        (.ldDAcq p l im t) v)) ∧
    (s.maySync (.semwait p l t) l false x y → s.drained s.cc s.ck = true →
      wbits y.w 31 0 ≤ s.sem s.cc (wbits x.w 7 0) → exec (.semwait p l t) s =
        .next (((s.setSem s.cc (wbits x.w 7 0) (s.sem s.cc (wbits x.w 7 0) - wbits y.w 31 0)).acquireSem s.cc s.cur.tid
          (wbits x.w 7 0)).synced (.semwait p l t) (.val (word (s.sem s.cc (wbits x.w 7 0)))))) ∧
    (s.mayPerform (.semsig p l t) true y.isNull x y z → s.released s.cc s.ck .die = true →
      s.sem s.cc (wbits x.w 7 0) + wbits y.w 31 0 < 2 ^ 32 → exec (.semsig p l t) s =
        .next ((((s.setSem s.cc (wbits x.w 7 0) (s.sem s.cc (wbits x.w 7 0) + wbits y.w 31 0)).releaseSem s.cc s.cur.tid
          (wbits x.w 7 0)).wakeSem s.cc (wbits x.w 7 0)).performed (.semsig p l t) l (.val (word (s.sem s.cc (wbits x.w 7 0)))) 0))

/-- Where an operation parks its thread (R121, R317, R322, R324, R369): LDFE on an empty word with KIND 1, STEF on a full
word with KIND 2, WAITA on its value with KIND 3, BWAIT in the other phase with KIND 4, SEMWAIT short of its count with
KIND 5.
What parking does (R118, R121): the slot is in PARK, WAIT holds the kind and the address, both frames are gone; PC,
TSW, registers and segments are as before, so that the block starts again; memory is as before; and in the same step the
thread is registered, at its bank, in the overflow area, or for a later wake. -/
def Obligations.ParkingRule : Prop :=
  (∀ (s s1 : State) (p : Pr) (l t ea loc : Nat) (x y z : Tok),
    (s.mayPerform (.ldfe p l t) true false x y z → s.reaches x 8 .atomic 0x74 ea loc s1 → s1.mem.isPois loc = false →
      s1.mem.isFull loc = false → exec (.ldfe p l t) s = .next ((s1.touchRow loc).parkOn 1 ea loc)) ∧
    (s.mayPerform (.stef p l) true y.isNull x y z → s.reaches x 8 .store 0x74 ea loc s1 → s1.mem.isPois loc = false →
      s1.released s.cc s.ck .die = true → s1.mem.isFull loc = true → exec (.stef p l) s = .next ((s1.touchRow loc).parkOn 2 ea loc)) ∧
    (s.maySync (.waita p l t) l false x y → s.drained s.cc s.ck = true → s.reaches x 8 .load 0x74 ea loc s1 →
      s1.mem.isPois loc = false → s1.rdWord loc = y.w → exec (.waita p l t) s = .next ((s1.touchRow loc).parkOn 3 ea loc)) ∧
    (s.maySync (.bwait p l t) l false x y → s.drained s.cc s.ck = true → s.reachesObject x ea loc s1 →
      bits (s1.barrier loc) 192 192 ≠ (tswGph s1.cur.ctx.tsw).toNat →
      exec (.bwait p l t) s = .next ((((s1.touchRow loc).readPhase loc).setGw true).parkOn 4 ea loc)) ∧
    (s.maySync (.semwait p l t) l false x y → s.drained s.cc s.ck = true →
      s.sem s.cc (wbits x.w 7 0) < wbits y.w 31 0 →
      exec (.semwait p l t) s = .next (s.parkOn 5 (wbits x.w 7 0) (wbits x.w 7 0)))) ∧
  (∀ (s t : State) (kind addr loc : Nat), kind ≠ 5 → t = s.parkOn kind addr loc →
    t.cur.st = .park ∧ t.cur.ctx = { s.cur.ctx with wait := waitOf kind addr } ∧ t.cur.frame = {} ∧ t.cur.next = {} ∧
    t.mem = s.mem ∧
    (mkWaiter s s.cc s.ck loc kind ∈ t.waiters ∨ { mkWaiter s s.cc s.ck loc kind with overflow := true } ∈ t.waiters ∨
      (s.time + 1000, mkWaiter s s.cc s.ck loc kind) ∈ (t.core s.cc).retry))

/-! ## Remote operations and queries -/

/-- A performing remote operation at its lock is sent to its agent, once, and waits for the answer (R41, R273, R327-R329);
so is a remote load that no pending store of its thread answers and no store of it to the same place holds (R326); one that
a pending store answers takes its data (R181).
A remote operation at its agent (R325-R329): an RST writes its word, an RSTF writes it and sets it full, an RLD reads
it, an RAMO or RCAS reads it and writes its result; each then concludes at its issuer, a posted write once its agent has
gathered it (R42). An RST changes only the eight bytes of its word. An answer fires the instruction that waits for it and
resolves it; that of a load is kept with its block. -/
def Obligations.RemoteOperations : Prop :=
  (∀ (s s1 : State) (p : Pr) (l t ea : Nat) (place : Place) (o : AmoOp) (y : RoTy) (w : Width) (x r z : Tok),
    s.cur.frame.asked.find? s.ci = none →
    (s.mayPerform (.ramo p l o t) true r.isNull x r z →
      remAccess s s.me x.w 8 8 .ratomic false = (.ok (ea, place), s1) →
      exec (.ramo p l o t) s = .next (s1.issue { s1.remOf (.ramo o) l place ea with a := r.w })) ∧
    (s.mayPerform (.rcas l t) true r.isNull x r z →
      remAccess s s.me x.w 8 8 .ratomic false = (.ok (ea, place), s1) →
      exec (.rcas l t) s = .next (s1.issue { s1.remOf .rcas l place ea with a := r.w, b := z.w })) ∧
    (s.mayPerform (.roadd p l y) true r.isNull x r z →
      remAccess s s.me x.w (roBytes y) (roBytes y) .ratomic false = (.ok (ea, place), s1) →
      exec (.roadd p l y) s =
        .next (s1.issue { s1.remOf (.roadd y) l place ea with a := r.w, slice := s.roSlice })) ∧
    (s.mayPerform (.rvamo p l o w t) true (lineNull w r) x r z →
      remAccess s s.me x.w 64 64 .ratomic false = (.ok (ea, place), s1) →
      exec (.rvamo p l o w t) s =
        .next (s1.issue { s1.remOf (.rvamo o w) l place ea with v := r.v, nulls := r.nulls })) ∧
    (s.has (.rld p l t) x r z → x.isNull = false → s.mayLoad l →
      remAccess s s.me x.w 8 8 .rload true = (.ok (ea, place), s1) →
      (s1.pendingLoad s.me l (locRange (placeLoc place) 8) = none → s1.onItsWay place = false →
        ∀ u, u = (s1.watch ea 8 l true false).updF (fun f => { f with
            loads := f.loads.put l { remote := true, reads := locRange (placeLoc place) 8 } }) →
          exec (.rld p l t) s = .next (u.issue (u.remOf .rld l place ea))) ∧
      (∀ v, s1.pendingLoad s.me l (locRange (placeLoc place) 8) = some (.ok v) → exec (.rld p l t) s =
        .next ((s1.watch ea 8 l true false).loadDone (.rld p l t) l false (.val (word v))
          (locRange (placeLoc place) 8))))) ∧
  (∀ (s : State) (n loc : Nat) (op : RemOp), s.packet? n = some (.remote op) → op.place = .mem loc →
    (op.lid = 0 ∨ ((s.entry op.lid).enforcing = false ∧ (s.entry op.lid).recording = false)) →
    s.layerOff loc = false → s.layerBusy loc = false →
    (∀ u, u = s.dropPacket n →
      (op.kind = .rst → exec (.remoteOperation n) s =
        .next (((((u.wrWord loc op.a).dropReadBufs [loc]).storeWords op.tid [loc]).touchRow loc).conclude op
          (.done (.val 0)))) ∧
      (op.kind = .rpost → exec (.remoteOperation n) s =
        .next (((((u.wrWord loc op.a).dropReadBufs [loc]).storeWords op.tid [loc]).touchRow loc).gatherPost (ownerOf loc)
          (8 * 8192 + op.core % 8192) op)) ∧
      (op.kind = .rstf → exec (.remoteOperation n) s =
        .next (((((u.dropReadBufs [loc]).storeFull loc op.a).carriedTo op.ident loc).touchRow loc).conclude op
          (.done (.val 0)))) ∧
      (op.kind = .rld → s.mem.isPois loc = false → exec (.remoteOperation n) s =
        .next (((u.touchRow loc).noteRead none op.tid loc).conclude op (.done (.val (s.rdWord loc))))) ∧
      (∀ x b, ((op.kind = .ramo x ∧ b = 0) ∨ (op.kind = .rcas ∧ x = .cas ∧ b = op.b)) → s.mem.isPois loc = false →
        exec (.remoteOperation n) s = .next
          (((((u.putBytes loc 8 (amoCalc x 64 (s.rdWord loc).toNat op.a.toNat b.toNat).1).wakeLine loc).touchRow
            loc).noteRead none op.tid loc).conclude op (.done (.val (s.rdWord loc))))) ∧
      (∀ r u', u.remPlace op = (r, u') → r ≠ .wait → exec (.remoteOperation n) s = .next (u'.opPerformed op r))) ∧
    (Safe s → op.kind = .rst → ∃ t, exec (.remoteOperation n) s = .next t ∧ t.rdWord loc = op.a ∧
      ∀ a, (a < loc ∨ loc + 8 ≤ a) → t.byte a = s.byte a) ∧
    (∀ (u : State) (tok : Tok) (i : Instr), u.awaits op = true →
      (u.slot op.core op.slot).frame.instrAt op.idx = some i → i.shape.cls = .perform →
      ((u.answer op tok).slot op.core op.slot).frame.fired.find? op.idx = some true ∧
        ((u.answer op tok).slot op.core op.slot).frame.pend.find? (i.shape.lsid.getD 0) = some .done ∧
        (u.answer op tok).mem = u.mem) ∧
    (∀ (u v : State) (tok : Tok) (p : Pr) (l t : Nat) (r : LoadRec), u.awaits op = true →
      (u.slot op.core op.slot).frame.instrAt op.idx = some (.rld p l t) →
      (u.slot op.core op.slot).frame.loads.find? l = some r →
      v = (({ u with cursor := { u.cursor with core := op.core, slot := op.slot, word := op.idx } } : State).updF
        fun f => { f with asked := f.asked.del op.idx }) →
      u.answer op tok = { v.loadDone (.rld p l t) l true tok r.reads with cursor := u.cursor }))

/-- The order of ordered additions (R328), at a word that holds no contribution back: one below the highest slice applied is
refused with 0x76; one up to the lowest slice not ended is added at once; a later one is held, or refused with 0x77 where
64 are held for the word; ROADD_APPLY applies what is due. -/
def Obligations.OrderedAdditions : Prop :=
  ∀ (s : State) (op : RemOp) (loc : Nat) (y : RoTy), Safe s → op.kind = .roadd y → op.place = .mem loc →
    s.mem.isPois loc = false →
    (op.lid = 0 ∨ ((s.entry op.lid).enforcing = false ∧ (s.entry op.lid).recording = false)) →
    ((∀ c ∈ (Tab.rd {} s.ro (roKey op loc)).held, s.roLow op.lid < c.slice) →
      (op.slice < (Tab.rd {} s.ro (roKey op loc)).maxApplied → s.roAccept op loc = (.bad 0x76, s)) ∧
      ((Tab.rd {} s.ro (roKey op loc)).maxApplied ≤ op.slice → op.slice ≤ s.roLow op.lid →
        ∃ t, s.roAccept op loc = (.done (.val 0), t) ∧
          (y = .i64 → t.rdWord loc = s.rdWord loc + op.a) ∧
          (∀ a, (a < loc ∨ loc + roBytes y ≤ a) → t.byte a = s.byte a) ∧
          (Tab.rd {} t.ro (roKey op loc)).maxApplied = op.slice) ∧
      ((Tab.rd {} s.ro (roKey op loc)).maxApplied ≤ op.slice → s.roLow op.lid < op.slice →
        (64 ≤ s.roHeld loc → s.roAccept op loc = (.bad 0x77, s)) ∧
        (s.roHeld loc < 64 → ∃ t, s.roAccept op loc = (.done (.val 0), t) ∧
          t.mem = s.mem ∧ (Tab.rd {} t.ro (roKey op loc)).held = (Tab.rd {} s.ro (roKey op loc)).held ++ [op]))) ∧
    (∀ key, exec (.roaddApply key) s = .next (s.roDrain 65 key (s.roLow (key / 2 ^ 40))))

/-- The queries (R332): TID gives the identity of Table 7.8, WHERE the place of Table 14.4, TIME the timestamp. -/
def Obligations.QueryResults : Prop :=
  ∀ (s : State) (p : Pr) (s1 t : Nat) (l r z : Tok), s.isShadow = false → s.unrecorded →
    (s.has (.tid p s1 t) l r z → exec (.tid p s1 t) s = .next (s.fireOut (.tid p s1 t)
      (.val (word (tswLid s.cur.ctx.tsw * 2 ^ 32 + s.pkg % 2 ^ 8 * 2 ^ 24 + s.ck % 4 * 2 ^ 20 + s.cc % 2 ^ 13))))) ∧
    (s.has (.whereQ p s1 t) l r z →
      exec (.whereQ p s1 t) s = .next (s.fireOut (.whereQ p s1 t) (.val (whereWord s s.cc s.ck)))) ∧
    (s.has (.time p s1 t) l r z → exec (.time p s1 t) s =
      .next ((s.countOp s.cc s.ck).fireOut (.time p s1 t) (.val (word s.time))))

/-! ## Exits, messages, commands -/

/-- An exit fires into its block (R276, R334-R337): its kind, its target or signed offset and its index, as the one exit of
the block; its effect comes with the commit. MIGRATE's owner is that of its address.
A second exit of a block is the fault 0x03, raised at once (R205, R275).
Where an exit goes (R276, R277, R334): a branch to its offset from the header; BRI and RET to their token; CALL to its
offset, with the address of the block after it in G15; LOOP back to its block with its counter one lower while that is
above 1, and otherwise on to its offset with the counter 0. A TRAP or BREAK freezes its thread after the commit. -/
def Obligations.ExitResults : Prop :=
  (∀ (s s1 : State) (p : Pr) (e k f o : Nat) (x y z : Tok), x.isNull = false → s.cur.frame.exits = [] →
    (s.has (.br p e f) x y z → exec (.br p e f) s = .next (s.updF fun g =>
      { g.mark s.ci true with exits := [{ kind := .br, off := off20 f, idx := s.ci }] })) ∧
    (s.has (.call p e f) x y z → exec (.call p e f) s = .next (s.updF fun g =>
      { g.mark s.ci true with exits := [{ kind := .call, off := off20 f, idx := s.ci }] })) ∧
    (s.has (.loop p e k f) x y z → exec (.loop p e k f) s = .next (s.updF fun g =>
      { g.mark s.ci true with exits := [{ kind := .loop k, off := off16 f, idx := s.ci }] })) ∧
    (s.has (.trap p e k f) x y z → exec (.trap p e k f) s = .next (s.updF fun g =>
      { g.mark s.ci true with exits := [{ kind := .trap k, off := off16 f, idx := s.ci }] })) ∧
    (s.has (.doneX p e) x y z → exec (.doneX p e) s = .next (s.updF fun g =>
      { g.mark s.ci true with exits := [{ kind := .done, off := 0, idx := s.ci }] })) ∧
    (s.has (.yieldX p e f) x y z → exec (.yieldX p e f) s = .next (s.updF fun g =>
      { g.mark s.ci true with exits := [{ kind := .yieldX, off := off16 f, idx := s.ci }] })) ∧
    (s.has (.breakX p e f) x y z → exec (.breakX p e f) s = .next (s.updF fun g =>
      { g.mark s.ci true with exits := [{ kind := .breakX, off := off16 f, idx := s.ci }] })) ∧
    (s.has (.bri p e) x y z → exec (.bri p e) s = .next (s.updF fun g =>
      { g.mark s.ci true with exits := [{ kind := .bri x.w, off := 0, idx := s.ci }] })) ∧
    (s.has (.ret p e) x y z → exec (.ret p e) s = .next (s.updF fun g =>
      { g.mark s.ci true with exits := [{ kind := .ret x.w, off := 0, idx := s.ci }] })) ∧
    (s.has (.migrate p e f) x y z → migrateOwner s x.w = (.ok o, s1) →
      exec (.migrate p e f) s = .next (s1.updF fun g =>
        { g.mark s1.ci true with exits := [{ kind := .migrate o, off := off20 f, idx := s1.ci }] }))) ∧
  (∀ (s : State) (i : Instr) (x y z : Tok), i.shape.cls = .exit → (∀ p e f, i ≠ .migrate p e f) → s.has i x y z →
    x.isNull = false → s.cur.frame.exits ≠ [] →
    exec i s = .next ((s.updF fun g => g.mark s.ci true).raise s.cc s.ck { cause := 0x03, index := s.ci })) ∧
  (∀ (x : Ctx) (f : Frame) (e : ExitFired) (v : Word) (k code : Nat),
    ((e.kind = .br ∨ e.kind = .yieldX ∨ e.kind = .breakX ∨ e.kind = .trap code) →
      exitTo x f e = (f.pc + wordOfInt (e.off * 16), x)) ∧
    ((e.kind = .bri v ∨ e.kind = .ret v) → exitTo x f e = (v, x)) ∧
    (e.kind = .call → (exitTo x f e).1 = f.pc + wordOfInt (e.off * 16) ∧
      (exitTo x f e).2.reg 15 = f.pc + word (16 * ceilDiv (hdrLen f.header) 16) ∧
      ∀ r, r ≠ 15 → (exitTo x f e).2.reg r = x.reg r) ∧
    (e.kind = .loop k →
      (1 < (x.reg k).toNat → (exitTo x f e).1 = f.pc ∧ (exitTo x f e).2.reg k = x.reg k - 1) ∧
      ((x.reg k).toNat ≤ 1 → (exitTo x f e).1 = f.pc + wordOfInt (e.off * 16) ∧ (exitTo x f e).2.reg k = 0)) ∧
    (e.kind = .trap code → exitFault e = some { cause := 0xE0 + code, index := e.idx }) ∧
    (e.kind = .breakX → exitFault e = some { cause := 0xD0, index := e.idx }))

/-- Messages (R130, R132, R330, R331). SEND gives 0 and leaves its message for the commit; SPAWN and CALLAT ask the
destination for a reservation, once, and wait; the destination's grant or bounce is their status token. -/
def Obligations.MessageResults : Prop :=
  ∀ (s s1 : State) (p : Pr) (l t h : Nat) (x y z : Tok) (m : Msg), x.isNull = false → y ≠ .null → z.isNull = false →
    s.cur.frame.asked.find? s.ci = none → s.isShadow = false → s.msgFault m = none →
    (s.has (.send p l) x y z → m = s.msgOf 3 x y z → exec (.send p l) s =
      .next ((s.fireWith (.send p l) (.val 0) 0).updF fun f =>
        { f with pend := f.pend.put l (.message m none false) })) ∧
    (∀ i, ((i = .spawn p l t ∧ m = s.msgOf 1 x y z) ∨ (i = .callat l t ∧ m = s.msgOf 2 x y z)) → s.has i x y z →
      m.dpkg = s.pkg → exec i s =
        .next (((s.countOp s.cc s.ck).updF fun f => { f with asked := f.asked.put s.ci m.ident }).send
          (.resvReq s.cc s.ck s.cur.fseq s.ci m))) ∧
    (∀ n c k fseq idx q, s.packet? n = some (.resvReq c k fseq idx q) → s.stuckAt n q.dcore = false →
      (s.slot c k).fseq = fseq → (s.slot c k).st = .run → q.lid = 0 →
      ((s.dropPacket n).reserveAt q.dcore q.t = some (h, s1) →
        exec (.reservationRequest n) s = .next (s1.atWordOf c k idx fun u => u.answered q (some h))) ∧
      ((s.dropPacket n).reserveAt q.dcore q.t = none →
        exec (.reservationRequest n) s = .next ((s.dropPacket n).atWordOf c k idx fun u => u.answered q none)))

/-- A long command fires (R359, R362): its ticket, which no command of the core uses, is its status token; its words, with
the tokens that replace fields of F, wait for the commit. -/
def Obligations.CommandsTakeTickets : Prop :=
  ∀ (s : State) (c : Long) (x y z : Tok), (x.isNull || y.isNull || z.isNull) = false → s.isShadow = false →
    ∀ e ∈ ([
      (.mma c, 0, 0), (.tileLd c, 1, 0), (.tileSt c, 1, 1), (.tileCp c, 1, 2), (.tileDeal c, 1, 3),
      (.tileResume c, 1, 4), (.castDec c, 2, 0), (.castPlane c, 2, 1), (.castTable c, 2, 2), (.xswap c, 3, 0),
      (.pgPromote c, 3, 1), (.pgRequant c, 3, 2), (.kvAlloc c, 4, 0), (.kvFree c, 4, 1), (.kvAppend c, 4, 2),
      (.kvEvict c, 4, 3), (.pfxMatch c, 4, 4), (.pfxInsert c, 4, 5), (.pfxUnref c, 4, 6)] : List (Instr × Nat × Nat)),
      s.has e.1 x y z →
      exec e.1 s = .next (((s.updCore s.cc fun q => { q with lastTicket := nextTicket (s.core s.cc) }).fireOut e.1
          (.val (word (nextTicket (s.core s.cc))))).updF fun f =>
        { f with pend := f.pend.put c.lsid (.command
          { eng := e.2.1, cmd := e.2.2, slot := s.ck, ticket := nextTicket (s.core s.cc), wsem := c.wsem, wthr := c.wthr
            ssem := c.ssem, sinc := c.sinc, flags := c.flags, f := fieldsWith c x y z, tid := s.cur.tid, priv := tswPriv s.cur.ctx.tsw
            lid := tswLid s.cur.ctx.tsw, pc := s.cur.ctx.pc, index := s.ci, lsid := c.lsid }) })

/-! ## System instructions -/

/-- CSRs and segment images (R399-R401). CSRRD gives a register once the thread's stores are performed; CSRWR gives its old
value and writes it, TSW at the commit; SEGLD reads an image into a segment register at the commit, SEGST writes one.
CSRRD and CSRWR of a number that names no register they may access are refused with 0x17 (R400): CSRRD as poison, CSRWR
as a fault of its block. -/
def Obligations.SystemRegisterResults : Prop :=
  (∀ (s s1 : State) (p : Pr) (l t loc : Nat) (acc : Acc) (v : Word) (x y z : Tok),
    (s.maySync (.csrrd p l t) l false x y → s.drained s.cc s.ck = true →
      s.csrRead s.cc s.cur.ctx.tsw (wbits x.w 11 0) = some v →
      exec (.csrrd p l t) s = .next (s.synced (.csrrd p l t) (.val v))) ∧
    (s.mayPerform (.csrwr p l t) true y.isNull x y z → s.csrRead s.cc s.cur.ctx.tsw (wbits x.w 11 0) = some v →
      exec (.csrwr p l t) s = .next ((if wbits x.w 11 0 = 5 then s.writeTsw y.w
        else s.csrWrite s.cc (wbits x.w 11 0) y.w).performed (.csrwr p l t) l (.val v) 0)) ∧
    (s.mayPerform (.segld p l t) true y.isNull x y z →
      ordAccess s s.me x.w 16 16 .load false 1 (some 0x24) = (.ok acc, s1) → s1.portSays s.me.core acc.locs = .go →
      acc.locs.headD 0 = loc → s1.anyPois loc 16 = false → segOk (BitVec.ofNat 128 (s1.rdMem loc 16)) = true →
      s1.twinSlot s1.cc s1.ck = none →
      exec (.segld p l t) s = .next (((s1.touchRow loc).updF fun f =>
        { f with segNew := f.segNew.put (wbits y.w 2 0) (BitVec.ofNat 128 (s1.rdMem loc 16)) }).performed
          (.segld p l t) l (.val 0) 0)) ∧
    (s.mayPerform (.segst p l t) true y.isNull x y z →
      ordAccess s s.me x.w 16 16 .store false 1 (some 0x24) = (.ok acc, s1) → s1.portSays s.me.core acc.locs = .go →
      acc.locs.headD 0 = loc →
      exec (.segst p l t) s = .next (((((s1.wrWord loc (word (s1.cur.ctx.segReg (wbits y.w 2 0)).toNat)).wrWord (loc + 8)
        (word ((s1.cur.ctx.segReg (wbits y.w 2 0)).toNat / 2 ^ 64))).dropReadBufs [loc, loc + 8]).touchRow loc).performed
          (.segst p l t) l (.val 0) 0))) ∧
  (∀ (s : State) (p : Pr) (l t : Nat) (x y z : Tok), s.csrRead s.cc s.cur.ctx.tsw (wbits x.w 11 0) = none →
    (s.maySync (.csrrd p l t) l false x y → s.drained s.cc s.ck = true → exec (.csrrd p l t) s =
      .next (s.synced (.csrrd p l t) (s.poisonOf { cause := 0x17 } false l))) ∧
    (s.mayPerform (.csrwr p l t) true y.isNull x y z → exec (.csrwr p l t) s =
      .next (s.raiseOut s.cc s.ck { cause := 0x17, index := s.ci, lsid := l })))

/-- The slot instructions (R399, R218): each acts on the slot its left token names, and gives 0 where the slot's state
allows it, 1 where it does not. SLOTFREE retires with bit 63 set and kills with it clear; CTXSWAP exchanges contexts.
TLBINV drops the translations it names from every TLB of its reach (R402); QWAVE gives the totals of messages sent and
received (R403); MARKER, TWIN and SCRUB start a cut, a comparison and a pass, and wait for their end (R227, R403, R404).
(When along its way a wave reads what it passes: log 8.) -/
def Obligations.SystemInstructionResults : Prop :=
  (∀ (s s1 : State) (p : Pr) (l t c k : Nat) (v x y z : Tok) (fl : Nat), s.slotNamed x.w = some (c, k) →
    (∀ r : Option State, ∀ n : Word, ∀ u : State, (r = some u ∧ n = 0) ∨ (r = none ∧ u = s ∧ n = 1) →
      (s.mayPerform (.wake p l t) true y.isNull x y z → s.isOwn c k = false → s.cmdResume c k = r →
        exec (.wake p l t) s = .next (u.performed (.wake p l t) l (.val n) 0)) ∧
      (s.mayPerform (.slotpark p l t) true y.isNull x y z → s.cmdPark c k = r →
        exec (.slotpark p l t) s = .next (u.performed (.slotpark p l t) l (.val n) 0)) ∧
      (s.mayPerform (.slotfree p l t) true y.isNull x y z → x.w.getLsbD 63 = true → s.isOwn c k = false →
        s.cmdRetire c k = r → exec (.slotfree p l t) s = .next (u.performed (.slotfree p l t) l (.val n) 0)) ∧
      (s.mayPerform (.slotfree p l t) true y.isNull x y z → x.w.getLsbD 63 = false →
        s.cmdKill c k = r → exec (.slotfree p l t) s = .next (u.performed (.slotfree p l t) l (.val n) 0))) ∧
    (s.mayPerform (.ctxswap p l t) true y.isNull x y z → doCtxswap s s.me x y = (.done v fl, s1) →
      exec (.ctxswap p l t) s = .next (s1.performed (.ctxswap p l t) l v fl))) ∧
  (∀ (s : State) (p : Pr) (l t c k : Nat) (x y z : Tok),
    (s.mayPerform (.tlbinv p l) true y.isNull x y z → wbits x.w 62 60 < 4 → ∃ u : State,
      (∀ d, { u.core d with tlb := [] } = { s.core d with tlb := [] } ∧
        (d ∉ reachCores s.cc (wbits x.w 62 60) (s.cores.map (·.1)) → u.core d = s.core d) ∧
        (d ∈ reachCores s.cc (wbits x.w 62 60) (s.cores.map (·.1)) → (u.core d).tlb = (s.core d).tlb.filter fun e =>
          !x.w.getLsbD 63 && !(decide (e.page ≤ wbits x.w 55 16 * 2 ^ 16) &&
            decide (wbits x.w 55 16 * 2 ^ 16 < e.page + e.size)))) ∧
      u = { s with cores := u.cores } ∧ exec (.tlbinv p l) s = .next (u.performed (.tlbinv p l) l (.val 0) 0)) ∧
    (s.mayPerform (.qwave p l t) true y.isNull x y z → exec (.qwave p l t) s = .next (s.performed (.qwave p l t) l
      (.val (word ((s.totals (wbits x.w 15 0)).1 % 2 ^ 32 * 2 ^ 32 + (s.totals (wbits x.w 15 0)).2 % 2 ^ 32))) 0)) ∧
    (s.mayPerform (.marker p l t) true y.isNull x y z → s.asking = false →
      s.lidLive (wbits x.w 15 0) = true → (s.entry (wbits x.w 15 0)).st = .active →
      (s.entry (wbits x.w 15 0)).suspended = false → (s.entry (wbits x.w 15 0)).mayCut = true →
      exec (.marker p l t) s = .next (((s.asks).updLaunch (wbits x.w 15 0) fun e =>
        { e with cutAsk := some s.asker }).beginCut (wbits x.w 15 0))) ∧
    (s.mayPerform (.twin p l t) true y.isNull x y z → s.asking = false → s.slotNamed x.w = some (c, k) →
      s.leadSlot c k = (c, k) → (s.slot c k).twin ≠ none → (s.slot c k).uncompared = true →
      exec (.twin p l t) s = .next (((s.asks).forceAt c k).updSlot c k fun q =>
        { q with twin := q.twin.map fun w => { w with asks := w.asks ++ [s.asker] } })) ∧
    (s.mayPerform (.scrub p l t) true y.isNull x y z → s.asking = false → wbits x.w 13 12 < 3 →
      (s.vault (wbits x.w 11 0)).scrub = none → exec (.scrub p l t) s =
        .next ((s.asks).updVault (wbits x.w 11 0) fun v => { v with scrub := some (wbits x.w 13 12, s.asker) })))

/-! ## Blocks, faults, threads -/

/-- A block enters EXEC (R117, R264, R273). The fetch at PC of a running thread without a block holds the block's header
and body words as they stand at PC; without a fault or breakpoint they execute. A header whose top four bits are not 1011
is the fault 0x01, one with a reserved bit set 0x02. A block at the conditions of the lock enters COMMIT with it; a fault
of its stores or its exit's count that is certain before the lock is raised without it. -/
def Obligations.BlocksEnterExecution : Prop :=
  ∀ (s s1 : State) (c k : Nat), k < 4 → (s.slot c k).st = .run → s.stays c k = false → (s.slot c k).atEnd = false →
    (∀ h b, (s.slot c k).frame.st = .idle → s.fetchBlock (s.who c k) (s.slot c k).ctx.pc = (.ok h b, s1) →
      (s1.core c).ibrk.getLsbD 63 = false →
      exec (.blockFetch c k) s = .next (s1.updSlot c k fun x =>
        { x with frame := { st := .exec, pc := (s.slot c k).ctx.pc, header := h, body := b, age := s1.serial }, next := {}
                 fseq := x.fseq + 1 }).nextSerial) ∧
    (∀ d, (s.slot c k).frame.st = .idle → s.fetchBlock (s.who c k) (s.slot c k).ctx.pc = (.bad d, s1) →
      exec (.blockFetch c k) s = .next ((s1.updSlot c k fun x =>
        { x with frame := { st := .exec, pc := (s.slot c k).ctx.pc, held := some d, age := s1.serial }, next := {}
                 fseq := x.fseq + 1 }).nextSerial.raise c k d)) ∧
    (∀ h : BitVec 128, (h.extractLsb' 124 4 ≠ 0xB#4 → headerFault h = some { cause := 0x01, iv := false }) ∧
      (h.extractLsb' 124 4 = 0xB#4 → h.extractLsb' 0 64 ≠ 0#64 → headerFault h = some { cause := 0x02, iv := false })) ∧
    (∀ n i, (s.slot c k).frame.performing = some (n, i) → i.shape.cls = .perform → (s.slot c k).frame.st = .exec →
      (s.slot c k).frame.lock = false → (s.slot c k).frame.checked = true → (s.slot c k).frame.faults = [] →
      (s.slot c k).frame.outsideReady = true → tswShadow (s.slot c k).ctx.tsw = false →
      (s.earlyFaults c k (s.slot c k).frame ≠ [] → exec (.blockLock c k) s =
        .next (s.updFrame c k fun f => { f with faults := s.earlyFaults c k (s.slot c k).frame })) ∧
      (s.earlyFaults c k (s.slot c k).frame = [] → (s.slot c k).uncompared = false → s.drained c k = true →
        (s.slot c k).frame.sinks = [] → exec (.blockLock c k) s =
          .next (s.updFrame c k fun f => { f with st := .commit, lock := true })))

/-- The commit of a complete block of a thread that is no twin (R114, R274, R276, R362): at once every register of WRMASK
takes its token, a register whose token is null or missing stays, SEGLD's segment, CSRWR's TSW and a barrier's GPH are
written; then the exit takes effect (ExitTargets): the thread goes on at its target, TRAP and BREAK freeze it there with
their record, DONE ends it, MIGRATE sends it to its owner, YIELD may spill it. The block's FP flags are ORed into TSW, one
entry for each store joins the store buffer, each command is queued with its status word written zero and empty; without
commands memory is as before. -/
def Obligations.BlockCommitRule : Prop :=
  (∀ (s : State) (c k : Nat) (e : ExitFired), k < 4 → (s.slot c k).st = .run → (s.slot c k).twin = none →
    ((s.slot c k).frame.st = .exec ∧ s.stays c k = false ∨ (s.slot c k).frame.st = .commit) → (s.slot c k).stop = 0 →
    (s.slot c k).htStop = false → (s.slot c k).stepping = false → (s.slot c k).shadow = false → (s.slot c k).next = {} →
    (s.slot c k).frame.complete = true → (s.slot c k).frame.faults = [] →
    ((s.slot c k).frame.lock = true ∨ s.ownFaults c k (s.slot c k).frame = []) → (s.slot c k).frame.exits = [e] →
    s.roomFor c k (s.slot c k).frame ((s.slot c k).frame.commands.map fun y =>
      { y with seg := ((s.slot c k).written (s.slot c k).frame).ctx.seg }) = true →
    ∃ u : State, ((u.slot c k).ctx = { (exitTo ((s.slot c k).written (s.slot c k).frame).ctx (s.slot c k).frame e).2 with
        pc := (exitTo ((s.slot c k).written (s.slot c k).frame).ctx (s.slot c k).frame e).1
        tsw := ((s.slot c k).written (s.slot c k).frame).ctx.tsw ||| (s.slot c k).frame.flags.setWidth 64 } ∧
      (u.slot c k).st = .run ∧ (u.slot c k).frame = {} ∧
      (u.core c).sb.length = (s.core c).sb.length + (s.slot c k).frame.storeCount false ∧
      (u.core c).cmds.length = (s.core c).cmds.length + (s.slot c k).frame.commands.length ∧
      ((s.slot c k).frame.commands = [] → u.mem = s.mem)) ∧
      (∀ y, Safe s → (s.slot c k).frame.commands = [y] → u.rdWord (statusLoc c y.ticket) = 0 ∧
        u.mem.isFull (statusLoc c y.ticket) = false) ∧
      ((e.kind = .br ∨ (∃ v, e.kind = .bri v ∨ e.kind = .ret v) ∨ e.kind = .call ∨ (∃ r, e.kind = .loop r)) →
        exec (.blockCommit c k) s = .next u) ∧
      (∀ d, exitFault e = some d → exec (.blockCommit c k) s = .next (u.freezeFor c k (u.slot c k).ctx.pc.toNat d)) ∧
      (e.kind = .done → exec (.blockCommit c k) s = .next (u.endThread c k true)) ∧
      (∀ o, e.kind = .migrate o → exec (.blockCommit c k) s = .next (u.leaveFor c k o 0)) ∧
      (e.kind = .yieldX → exec (.blockCommit c k) s = .next ((u.yieldSpill c k).getD u))) ∧
  (∀ (x : Slot) (f : Frame) (r : Nat), r < 16 → ((x.written f).ctx.reg r =
      match if (hdrWrmask f.header).testBit r then f.regs.find? r else none with
      | some t => if t.isNull || t.isPoison then x.ctx.reg r else t.w
      | none => x.ctx.reg r) ∧
    (f.segNew = [] → (x.written f).ctx.seg = x.ctx.seg) ∧
    (∀ n v, f.segNew = [(n, v)] → (x.written f).ctx = (x.written { f with segNew := [] }).ctx.setSeg n v) ∧
    (f.gph = none → (x.written f).ctx.tsw = match f.tswNew with
      | some v => tswWritten x.ctx.tsw v
      | none => x.ctx.tsw) ∧
    (∀ b, f.gph = some b → tswGph (x.written f).ctx.tsw = b))

/-- Taking a fault (R118, R204-R206, R170). The block is abandoned, nothing of it takes effect: registers, segments, TSW and
memory are as before and both frames are gone; PC stays at the block. A fault of class 3 parks the thread with KIND 6 and
the fault address, any other freezes it with KIND 9. FREC holds the record, which goes to the ring of the core's quarter.
The lowest fault at the commit outputs of a complete block is the one raised; so after 256 cycles without a token. -/
def Obligations.FaultEntryRule : Prop :=
  (∀ (s t : State) (c k pc : Nat) (f : FaultD), ¬(0x60 ≤ f.cause ∧ f.cause ≤ 0x63) → t = s.takeFault c k pc f →
    (t.slot c k).st = (if 0x30 ≤ f.cause ∧ f.cause ≤ 0x3F then .park else .frozen) ∧
    (t.slot c k).ctx = { (s.slot c k).ctx with
      pc := word pc, wait := if 0x30 ≤ f.cause ∧ f.cause ≤ 0x3F then waitOf 6 f.addr else waitOf 9 0 } ∧
    (t.slot c k).frame = {} ∧ (t.slot c k).next = {} ∧ t.mem = s.mem ∧
    (t.slot c k).frec = threadRecord s c k (if 0x30 ≤ f.cause ∧ f.cause ≤ 0x3F then 1 else 0) pc f ∧
    Packet.fault (quarterOf c) (t.slot c k).frec ∈ t.net) ∧
  (∀ (s : State) (c k : Nat) (d : FaultD), k < 4 → (s.slot c k).st = .run → (s.slot c k).twin = none →
    (s.slot c k).frame.st = .exec → (s.slot c k).stop = 0 → lowestFault (s.slot c k).frame.faults = some d →
    d.migrate = none →
    (s.stays c k = false → (s.slot c k).frame.complete = true → s.ownFaults c k (s.slot c k).frame = [] →
      exec (.blockCommit c k) s = .next (s.takeFault c k (s.slot c k).ctx.pc.toNat d)) ∧
    ((s.slot c k).frame.anyReady = false →
      exec (.faultRaiseTimeout c k) s = .next (s.takeFault c k (s.slot c k).ctx.pc.toNat d))) ∧
  (∀ (s : State) (c k : Nat), k < 4 → (s.slot c k).st = .run → (s.slot c k).twin = none → (s.slot c k).stop = 0 →
    (s.slot c k).frame.st = .exec → (s.slot c k).frame.anyReady = false → (s.slot c k).frame.faults = [] →
    exec (.noProgressTimeout c k) s =
      .next (s.takeFault c k (s.slot c k).ctx.pc.toNat { cause := 0x04, iv := false }))

/-- A fault record reaches its ring (R203, R206-R208): its launch, where it runs, counts it and keeps the first cause; its four
words go to the entry that FRTAIL names and FRTAIL rises by one, full; a ring with 1,024 records waiting takes none and counts it
as lost, FRTAIL and every entry staying as they are. Its fields stand where Table 10.1 says. -/
def Obligations.FaultRingRule : Prop :=
  (∀ (s : State) (q n : Nat) (r : BitVec 256), s.net.findIdx? (fun p => match p with
      | .fault q' _ => q' == q
      | _ => false) = some n → s.net[n]? = some (.fault q r) →
    exec (.faultRecord q) s = .next (((s.dropPacket n).countFault r).ringRecord q r)) ∧
  (∀ (s : State) (r : BitVec 256), ((recLid r = 0 ∨ s.lidLive (recLid r) = false) → s.countFault r = s) ∧
    (recLid r ≠ 0 → s.lidLive (recLid r) = true → s.sharers (recLid r) = [recLid r] →
      (s.entry (recLid r)).lrec.abortOnFault = false → s.countFault r = s.updLaunch (recLid r) fun e =>
        { e with faults := min (2 ^ 32 - 1) (e.faults + 1), cause := if e.cause = 0 then recCause r else e.cause })) ∧
  (∀ (s t : State) (q : Nat) (r : BitVec 256) (tail head : Word) (ring : Nat → Nat), Safe s → t = s.ringRecord q r →
    (∀ o, ring o = tcmLoc (4096 + q) o) → tail = s.rdWord (ring 0x7FE0) → head = s.rdWord (ring 0x7FE8) →
    (tail - head ≠ 1024 →
      (∀ i, i < 4 → t.rdWord (ring (0x8000 + tail.toNat % 1024 * 32 + 8 * i)) = (r >>> (64 * i)).setWidth 64) ∧
      t.rdWord (ring 0x7FE0) = tail + 1 ∧ t.mem.isFull (ring 0x7FE0) = true ∧
      (∀ a, ¬(ring 0x7FE0 ≤ a ∧ a < ring 0x7FE0 + 8) → ¬(ring (0x8000 + tail.toNat % 1024 * 32) ≤ a ∧
        a < ring (0x8000 + tail.toNat % 1024 * 32) + 32) → t.byte a = s.byte a)) ∧
    (tail - head = 1024 → t.rdWord (ring 0x7FF0) = s.rdWord (ring 0x7FF0) + 1 ∧ t.rdWord (ring 0x7FE0) = tail ∧
      ∀ a, ¬(ring 0x7FF0 ≤ a ∧ a < ring 0x7FF0 + 8) → t.byte a = s.byte a)) ∧
  (∀ detail addr pc cause lid src eng index lsid slot core time : Nat, ∀ iv : Bool, ∀ r : BitVec 256,
    r = mkRecord detail addr pc cause lid src eng iv index lsid slot core time →
    r.extractLsb' 248 8 = BitVec.ofNat 8 detail ∧ r.extractLsb' 192 56 = BitVec.ofNat 56 addr ∧
    r.extractLsb' 128 56 = BitVec.ofNat 56 pc ∧ r.extractLsb' 120 8 = BitVec.ofNat 8 cause ∧
    r.extractLsb' 104 16 = BitVec.ofNat 16 lid ∧ r.extractLsb' 101 3 = BitVec.ofNat 3 src ∧
    r.extractLsb' 98 3 = BitVec.ofNat 3 eng ∧ r.getLsbD 97 = iv ∧ r.extractLsb' 90 7 = BitVec.ofNat 7 index ∧
    r.extractLsb' 85 5 = BitVec.ofNat 5 lsid ∧ r.extractLsb' 83 2 = BitVec.ofNat 2 slot ∧
    r.extractLsb' 64 13 = BitVec.ofNat 13 core ∧ r.extractLsb' 0 64 = BitVec.ofNat 64 time)

/-- The slot commands (R213, Table 10.8) on the slot of a thread that is no twin, outside COMMIT. RESUME of a frozen thread,
or of one parked with KIND 6 or 8, runs its block again from PC with WAIT clear: the return from a fault; a thread that R111
holds stays parked for it. FREEZE stops a running or parked thread with 0xD4; STEP lets a frozen one run one block; RETIRE of
a frozen one, or one parked with KIND 6, and KILL free the slot. A slot in another state is left as it is; each is a write
to a debug window, for which an idle square leaves idle (R108). -/
def Obligations.SlotCommandResults : Prop :=
  ∀ (s : State) (c k : Nat), k < 4 → (s.slot c k).twin = none → tswShadow (s.slot c k).ctx.tsw = false →
    (s.slot c k).committing = false →
    (∀ (b : Bool) (i : Instr), (b = false ∧ i = .scmdResume c k ∧ mayResume (s.slot c k) = true ∨
        b = true ∧ i = .step c k ∧ (s.slot c k).st = .frozen) →
      ∃ t, exec i s = .next t ∧ t.mem = s.mem ∧ (b = true → (t.slot c k).stepping = true) ∧
        (waitHt (s.slot c k).ctx.wait = false → (t.slot c k).st = .run ∧ (t.slot c k).frame = {} ∧
          (t.slot c k).ctx = { (s.slot c k).ctx with wait := 0 }) ∧
        (waitHt (s.slot c k).ctx.wait = true → (t.slot c k).st = .park ∧
          (t.slot c k).ctx = { (s.slot c k).ctx with wait := word (2 ^ 59) })) ∧
    (mayResume (s.slot c k) = decide ((s.slot c k).st = .frozen ∨ (s.slot c k).st = .park ∧
      (waitKind (s.slot c k).ctx.wait = 6 ∨ waitKind (s.slot c k).ctx.wait = 8))) ∧
    (mayResume (s.slot c k) = false → exec (.scmdResume c k) s = .next (s.askExit c)) ∧
    (((s.slot c k).st = .run ∨ (s.slot c k).st = .park) → ∃ t, exec (.freeze c k) s = .next t ∧
      (t.slot c k).st = .frozen ∧
      (t.slot c k).ctx = { (s.slot c k).ctx with wait := keepHt (s.slot c k).ctx.wait (waitOf 9 0) } ∧
      recCause (t.slot c k).frec = 0xD4 ∧ t.mem = s.mem) ∧
    ((s.slot c k).st ≠ .run → (s.slot c k).st ≠ .park → exec (.freeze c k) s = .next (s.askExit c)) ∧
    ((s.slot c k).st ≠ .frozen → exec (.step c k) s = .next (s.askExit c)) ∧
    (((s.slot c k).st = .frozen ∨ (s.slot c k).st = .park ∧ waitKind (s.slot c k).ctx.wait = 6) →
      exec (.retire c k) s = .next ((s.endThread c k true).askExit c)) ∧
    ((s.slot c k).st ≠ .frozen → ((s.slot c k).st = .park → waitKind (s.slot c k).ctx.wait ≠ 6) →
      exec (.retire c k) s = .next (s.askExit c)) ∧
    ((s.slot c k).st ≠ .free → (s.slot c k).st ≠ .out → exec (.kill c k) s = .next ((s.endThread c k false).askExit c)) ∧
    (((s.slot c k).st = .free ∨ (s.slot c k).st = .out) → exec (.kill c k) s = .next (s.askExit c))

/-- Slots that load and leave, and wakes (R116, R122, R123, R135, R153): a loaded context runs with WAIT clear, and GW clear
where it waited for a barrier; a leaving one goes on the mesh to its core once its writes are acknowledged, or spilled to the
store; a wake makes the thread that waits
for it run again; a waiter without an entry is woken after 1 us; a spill takes a reserve entry.
(When a leaving thread is gone: log 42.) -/
def Obligations.SlotAndWakeEvents : Prop :=
  ∀ (s : State) (c k n d : Nat), k < 4 →
    ((s.slot c k).st = .load → (s.slot c k).lost = false → waitKind (s.slot c k).ctx.wait ≠ 9 →
      waitKind (s.slot c k).ctx.wait ≠ 8 → s.levelOf c ≠ 2 → ∃ t, exec (.slotLoadComplete c k) s = .next t ∧
        (t.slot c k).st = .run ∧ (t.slot c k).ctx = { wokenCtx (s.slot c k).ctx with wait := 0 } ∧ t.mem = s.mem) ∧
    ((s.slot c k).st = .out →
      ((s.slot c k).outTo = some d → s.drained c k = true → s.unack.any (·.tid == (s.slot c k).tid) = false →
        exec (.slotOutComplete c k) s =
        .next (((s.send (.migr c d (s.frameOf c k d (s.slot c k).maddr) (s.slot c k).migr (s.slot c k).stepping)).countSent
          c (tswLid (s.slot c k).ctx.tsw)).freeSlot c k)) ∧
      (∀ e, (s.slot c k).outTo = none → (s.slot c k).outEntry = some e → tswShadow (s.slot c k).ctx.tsw = false →
        exec (.slotOutComplete c k) s = .next (s.spilledOut c k e))) ∧
    (∀ w, s.net[n]? = some (.wake w) → exec (.threadWake n) s = .next ((s.dropPacket n).deliverWake w)) ∧
    (∀ w due, (s.core c).retry[n]? = some (due, w) → due ≤ s.time → exec (.waiterRetryTimer c n) s =
      .next ((s.updCore c fun x => { x with retry := x.retry.eraseIdx n }).deliverWake w)) ∧
    (∀ w : Waiter, w.entry = none → (s.slot w.core w.slot).st = .park → (s.slot w.core w.slot).twin = none →
      waitKind (s.slot w.core w.slot).ctx.wait = w.kind → w.kind ≠ 4 → waitHt (s.slot w.core w.slot).ctx.wait = false →
      ((s.deliverWake w).slot w.core w.slot).st = .run ∧ ((s.deliverWake w).slot w.core w.slot).ctx =
        { (s.slot w.core w.slot).ctx with wait := 0 } ∧ (s.deliverWake w).mem = s.mem) ∧
    (((s.wantSlot c).slot c k).st = .park →
      exec (.reserveEntryAllocation c k) s = .next ((s.wantSlot c).answerSpill c k))

/-- Messages and migrations arrive (R128, R132, R133, R136, R142): a message of no launch that finds room is accepted; a migration takes an open slot; a released reservation frees its place. A message that starts a thread gives it
its kind in G0, its origin in G1, its payload in G2 to G5 and its return word in G15. -/
def Obligations.MessagesArrive : Prop :=
  ∀ (s s1 : State) (n src c k h migr : Nat) (m : Msg) (handle slot : Option Nat) (f : CtxFrame) (stepping : Bool),
    (s.packet? n = some (.msg src m handle) → s.isIdle m.dcore = false → m.lid = 0 →
      s.behind n src m.dcore = false → (s.dropPacket n).acceptMsg m.dcore m handle = some s1 →
      exec (.messageArrival n) s = .next s1) ∧
    (s.net[n]? = some (.migr src c f migr stepping) → s.isIdle c = false → f.lid = 0 → s.migrWaits n src c 0 = false →
      s1 = s.dropPacket n → s1.openSlot c = some k →
      exec (.migrationArrival n) s = .next (s1.loadFrame c k f migr stepping)) ∧
    (s.packet? n = some (.resvRel src c h) → (s.core c).resv.find? (·.handle == h) = some ⟨h, slot, false⟩ →
      exec (.reservationRelease n) s = .next (((s.dropPacket n).dropResv c h false).servePair c)) ∧
    ((s.msgCtx c m).reg 0 = word m.kind ∧ (s.msgCtx c m).reg 1 = m.origin ∧
      (∀ i, i < 4 → (s.msgCtx c m).reg (2 + i) = m.pay.getD i 0) ∧ (s.msgCtx c m).reg 15 = m.retw ∧
      (∀ r, 6 ≤ r → r < 15 → (s.msgCtx c m).reg r = 0) ∧ (s.msgCtx c m).wait = 0 ∧
      (s.msgCtx c m).tsw = tswOf m.p m.t m.lid ∧
      (s.msgCtx c m).pc = word ((segBase (Tab.rd 0 (s.msgSegs c m) 0) + m.handler * 16) % 2 ^ 56))

/-! ## Launches -/

/-- How a launch comes to run (R56, R75-R82, R93): a full record of an enabled queue is read into a free entry, once the
layers of what its checks read are on (R162); a waiting record whose dependences are met is taken, one with a failed dependence completes with status 7; an ended entry is available
again after 1 ms; a launch is offered to a die that its mask allows; a guest claims up to 64 slices; the map of cores out of
service is read when its word is full. -/
def Obligations.LaunchRecordsAreTaken : Prop :=
  ∀ (s : State) (d q e g n loc : Nat) (x : Desc) (y : Guest), d < 4 → g < 4 →
    (s.desc d q = some x → x.en = true → x.ok = true → (s.queue d q).lastSeen = true →
      ((List.range 512).all fun e => (s.entryAt d e).st == .waiting) = false →
      ∀ u, u = s.updDie d (fun y => { y with f3 := false }) → u.freeEntryOf d = some e → u.queueLoad d q < 32 →
      u.slotFull x x.consumed = true → u.slotWaits x x.consumed = false →
      exec (.dispenserReadRecord d q 0) s = .next (u.readRecord d q e x.consumed x)) ∧
    (∀ v, v = s.slotRecord x n → (s.prepareWaits x.root (recOf v) = true → s.readRecord d q e n x = s) ∧
      (s.prepareWaits x.root (recOf v) = false → s.readRecord d q e n x = ((((((s.touchRow x.loc).touchVa x.root
        (x.ring + 64 * (n % 2 ^ x.log2n)) .store).touchPrepare x.root (recOf v)).prepare d q e n v x).updQueue d q fun y =>
          { y with early := y.early ++ [n] }).freeSlots 16 d q))) ∧
    ((s.entryAt d e).st = .waiting → (s.entryAt d e).held = false → (s.entryAt d e).lrec.indep = true →
      s.depsWait (s.entryAt d e).root (s.entryAt d e).lrec = false →
      s.doneWaits (s.entryAt d e).root (s.entryAt d e).lrec = false →
      (s.depsOf (s.entryAt d e) = .met → exec (.recordTake d e) s = .next (s.activate (s.lidAt d e))) ∧
      (s.depsOf (s.entryAt d e) = .failed → exec (.recordTake d e) s = .next (s.complete (s.lidAt d e) 7)) ∧
      (s.depsOf (s.entryAt d e) = .wait → exec (.recordTake d e) s = .next s)) ∧
    ((s.entryAt d e).st = .ended → (s.entryAt d e).endedAt + 1000000 ≤ s.time →
      exec (.entryReuseDelay d e) s = .next (s.updEntry d e fun y => { y with avail := true })) ∧
    ((s.entryAt d e).st = .active → g ≠ d → (s.entryAt d e).guests.contains g = false →
      maskOf (s.entryAt d e).lrec.dmask g ≠ 0 → s.freeEntryOf g = some n → ∃ t, exec (.guestOffer d e g) s = .next t ∧
        (t.entryAt g n).st = .guest ∧ (t.entryAt d e).guests = (s.entryAt d e).guests ++ [g] ∧
        (t.die g).guests = (s.die g).guests ++ [{ home := d, homeEntry := e, shadow := n }]) ∧
    (∀ k, (s.die d).guests[g]? = some y → k = min 64 ((s.entryAt y.home y.homeEntry).lrec.slices -
        (s.entryAt y.home y.homeEntry).next) → k ≠ 0 → (s.entryAt y.home y.homeEntry).st = .active →
      (s.entryAt y.home y.homeEntry).held = false → y.indices.length ≤ 16 → exec (.guestBatchClaim d g) s =
        .next (((((s.updEntry y.home y.homeEntry fun z => { z with next := z.next + k }).updGuest d g fun z =>
          { z with indices := z.indices ++ (List.range k).map ((s.entryAt y.home y.homeEntry).next + ·) }).noteAges
            d).noteAges y.home))) ∧
    ((s.die d).dqbase ≠ 0 → physLoc ((s.die d).dqbase.toNat + 0x40000) = some loc → s.mem.isFull (loc + 128) = true →
      s.layerBusy loc = false → s.rdMem (loc + 136) 120 = 0 → exec (.cdisChange d) s =
      .next (((s.touchRow loc).setFull (loc + 128) false).updDie d fun z =>
        { z with cdis := (List.range 1024).filter fun i => (s.rdMem loc 128).testBit i }))

/-- Grants and starts (R82-R88, R94, R123): a dispenser grants the next of its mesh cycle's candidates one slice of the queue
it picks, which costs the queue a credit, up to four in a cycle; a candidate for which no queue offers a launch is passed
over; the beginning of a cycle samples the candidates, counts WITHHELD and sends spill requests (what else of a cycle the
model settles: log 14). A start that finds its slots loads the thread, which finds its slice index in G0 and ARGP in G1, and
its grant's time is TSTART's where it is the first; a slice's end is reported to its home, and
counts in RETIRED until the kill wave has returned; a spill request takes the core's longest-parked thread. -/
def Obligations.SlicesAreStarted : Prop :=
  ∀ (s s1 : State) (d n c q cls lid i k k' : Nat) (twin : Bool) (m : Msg) (x : Served), d < 4 →
    (¬((s.die d).cycleAt = s.time ∧ (s.die d).cycleGrants < 4) → exec (.grant d) s = exec (.grant d) (s.meshCycle d)) ∧
    (((s.meshCycle d).die d).cycleAt = s.time ∧ ((s.meshCycle d).die d).cycleGrants = 0 ∧
      (∀ k, ((s.meshCycle d).die d).cands.contains k = (decide (k < 1024) &&
        (s.updDie d fun y => { y with cdisUsed := y.cdis, cycleAt := s.time, cycleGrants := 0 }).candidate
          (1024 * d + k)))) ∧
    ((s.die d).cycleAt = s.time ∧ (s.die d).cycleGrants < 4 → s.nextCore d = some n →
      ((s.updDie d fun y => { y with corePtr := (n + 1) % 1024 }).pickFrom d (1024 * d + n) [7, 6, 5, 4, 3, 2, 1, 0] =
          (some (cls, q), s1) → s1.offer d (1024 * d + n) q = some x →
        exec (.grant d) s = .next (s1.grantTo d n cls q x) ∧
        ∀ u, u = (s1.updDie d fun y => { y with
            cycleGrants := y.cycleGrants + 1
            cands := if x.lrec.twin then (y.cands.erase n).erase (twinCore n) else y.cands.erase n }).startSlice d
              (1024 * d + n) x → 1 < (u.queue d q).credit → s1.grantTo d n cls q x =
          ((u.updQueue d q fun y => { y with credit := (u.queue d q).credit - 1, ageFrom := some u.time }).noteAges d)) ∧
      ((s.updDie d fun y => { y with corePtr := (n + 1) % 1024 }).pickFrom d (1024 * d + n) [7, 6, 5, 4, 3, 2, 1, 0] =
          (none, s1) →
        exec (.grant d) s = exec (.grant d) (s1.updDie d fun y => { y with cands := y.cands.filter (· != n) }))) ∧
    ((s.die d).cycleAt = s.time ∧ (s.die d).cycleGrants < 4 → s.nextCore d = none →
      exec (.grant d) s = .next (s.noGrant d)) ∧
    (s.packet? n = some (.start d lid i c twin m) → s.lidLive lid = true → (s.entry lid).st = .active →
      (s.entry lid).held = false → s.isIdle c = false → s.stuckAt n c = false →
      (s.dropPacket n).startSlots d lid c twin = some (k, k') →
      ∀ u, u = ((s.dropPacket n).tallyStart d lid i c k).updLaunch lid (fun e => { e with
        started := true, tstart := if e.started then min e.tstart m.granted else m.granted }) →
      exec (.startMessage n) s =
        .next ((u.loadThread c k k' (u.startCtx m) (some i) 0 0 false).checkDraining lid)) ∧
    ((s.startCtx m).reg 0 = m.retw ∧ (s.startCtx m).reg 1 = m.origin ∧ (∀ r, 2 ≤ r → (s.startCtx m).reg r = 0) ∧
      (s.startCtx m).seg = (s.entry m.lid).segs ∧ (s.startCtx m).wait = 0) ∧
    (s.packet? n = some (.sliceEnd lid i twin) → (s.dropPacket n).lidLive lid = true →
      exec (.sliceEndReport n) s = .next ((s.dropPacket n).endSlice lid i
        (twin && ((s.entry lid).st != .ending || (s.entry lid).killWave)))) ∧
    (s.net.findIdx? (· == .spill c lid) = some n → s.lidLive lid = true → (s.entry lid).st = .active →
      (s.dropPacket n).anyFree c = false → (s.longestParked c fun y => (spillable y && s.reserveRoom y) &&
        decide (s.lidClass (tswLid y.ctx.tsw) ≤ s.lidClass lid)) = some k →
      ∀ u, u = (s.dropPacket n).askSpill c k →
        exec (.spillRequest c lid) s = .next (u.answerSpill (u.leadSlot c k).1 (u.leadSlot c k).2))

/-- How a launch ends (R59, R95, R96, R143): a draining launch sends waves, each of which adds the pair of every core and port
as it passes it, once (log 8); two waves in a row with one total of messages sent and received, the same both times, make it
quiescent once every slice has ended and nothing of it is left (log 92); it then ends, and completes with status 1, or 2
when it had faults, after its writes in the scope of the record's release. A forced end completes once its kill wave has
returned. -/
def Obligations.LaunchesEnd : Prop :=
  ∀ (s : State) (d e n : Nat), d < 4 →
    (∀ lid, (s.entry lid).st = .draining → (s.entry lid).held = false → (s.entry lid).quiescent = false →
      ((s.entry lid).wave = none → (s.entry lid).waveDue ≤ s.time →
        exec (.quiescenceWave lid n) s = .next ((s.updLaunch lid fun y =>
          { y with wave := some (0, 0, s.time), waveSeen := [], waves := y.waves + 1 }).wavePass lid n)) ∧
      ((s.entry lid).wave ≠ none → exec (.quiescenceWave lid n) s = .next (s.wavePass lid n))) ∧
    (∀ lid a b w, (s.entry lid).wave = some (a, b, w) → ∀ p : Nat × Nat, p = pairOf (if 8192 ≤ n then
        (s.port (n - 8192)).counts else (s.core n).counts) lid →
      ((s.entry lid).waveSeen.contains n = true → (s.wavePass lid n).entry lid = s.entry lid) ∧
      ((s.entry lid).waveSeen.contains n = false →
        ((s.wavePass lid n).entry lid).wave = some ((a + p.1) % 2 ^ 32, (b + p.2) % 2 ^ 32, w) ∧
        ((s.wavePass lid n).entry lid).waveSeen = (s.entry lid).waveSeen ++ [n])) ∧
    (∀ a b w, (s.entryAt d e).wave = some (a, b, w) → ∃ (t : State) (x y : Nat),
      exec (.quiescenceWaveReturn d e) s = .next t ∧
      (t.entryAt d e).wave = none ∧ (t.entryAt d e).lastWave = some (x, y) ∧ (t.entryAt d e).waveDue = s.time + 1000 ∧
      ((t.entryAt d e).quiescent = true ↔
        (s.entryAt d e).st = .draining ∧ x = y ∧ (s.entryAt d e).lastWave = some (x, y) ∧ s.allEnded (s.lidAt d e) = true) ∧
      ((∀ c ∈ s.cores, (s.entryAt d e).waveSeen.contains c.1 = true) →
        (∀ p ∈ s.ports, (s.entryAt d e).waveSeen.contains (8192 + p.1) = true) → x = a ∧ y = b)) ∧
    (∀ lid, s.allEnded lid = true ↔ (s.entry lid).ended = [(0, (s.entry lid).lrec.slices)] ∧ s.launchEmpty lid = true ∧
      s.holdsSums lid = false) ∧
    ((s.entryAt d e).st = .draining → (s.entryAt d e).held = false → (s.entryAt d e).quiescent = true →
      s.allEnded (s.lidAt d e) = true → exec (.launchEnd d e) s = .next (s.updEntry d e fun y => { y with status := 1 })) ∧
    ((s.entryAt d e).st = .draining → (s.entryAt d e).status ≠ 0 → s.writesWait (s.lidAt d e) (s.doneScope (s.lidAt d e)) = false →
      s.doneWaits (s.entryAt d e).root (s.entryAt d e).lrec = false → exec (.launchCompletion d e) s =
      .next (s.complete (s.lidAt d e) (if (s.entryAt d e).faults = 0 then 1 else 2))) ∧
    ((s.entryAt d e).st = .ending → (s.entryAt d e).killWave = true →
      ((s.allSlotsOf (s.lidAt d e)).filter fun k => (s.slot k.1 k.2).committing || (s.slot k.1 k.2).uncompared) = [] →
      exec (.killWaveReturn d e) s = .next (s.killLaunch (s.lidAt d e))) ∧
    ((s.entryAt d e).st = .ending → (s.entryAt d e).killWave = false →
      s.writesWait (s.lidAt d e) (s.doneScope (s.lidAt d e)) = false →
      s.doneWaits (s.entryAt d e).root (s.entryAt d e).lrec = false →
      (s.cores.any fun c => c.2.cmds.any (·.lid == s.lidAt d e)) = false →
      exec (.launchCompletion d e) s = .next (s.complete (s.lidAt d e) ((s.entryAt d e).forced.getD 4)))

/-! ## Cuts, twins and replays -/

/-- The steps of a cut (R220, R222): a square's router halts the launch at its order or its first marker; once its traffic has
drained it takes what lies in its buffers and sends its markers; a marker of the MSG network arrives behind the launch's
traffic on its link; with markers sent and one in from every input on every network the router writes its part and reports;
the last report ends the cut. What lies on a layer that is powering on waits (R162; log 25). A pair is compared at a common
boundary (R227); a replay that cannot meet its mould runs freely on (R232): 64 events held with none the next of its unit, or
none after its last entry, or 10 ms with nothing runnable.
A comparison of a pair (R225-R227, Table 10.15). What the pair holds back, stores, commands and messages (R198), leaves in
program order, each as there is room; what has no room waits, and the comparison goes on once there is. With equal
fingerprints and no fault both contexts then become the checkpoint; a fault that both have met is raised. On a mismatch, up
to the second, both slots reload the checkpoint and nothing held back is left; the third freezes the pair with 0xC0. -/
def Obligations.CutTwinAndReplayEvents : Prop :=
  (∀ (s s1 : State) (n sq a net lid lack c k j d e unit : Nat) (t u : TwinState), k < 4 → d < 4 →
    (s.packet? n = some (.cutOrder sq lid) → s.cutRuns lid = true →
      (((routerCores sq).all ((s.reached sq lid).drainedAt lid) && !(s.reached sq lid).cutWaits sq lid) = true →
        exec (.cutOrder n) s =
          .next (((((s.reached sq lid).dropPacket n).sweepAt sq lid).sendMarkers sq lid).cutWrite sq lid)) ∧
      (((routerCores sq).all ((s.reached sq lid).drainedAt lid) && !(s.reached sq lid).cutWaits sq lid) = false →
        exec (.cutOrder n) s = .next (s.reached sq lid))) ∧
    (s.net[n]? = some (.cutMarker a sq net lid) → s.cutRuns lid = true →
      ((net = 2 ∧ s.linkTraffic n a sq lid = true ∨ s.cutWaits sq lid = true) → exec (.cutMarker n) s = .next s) ∧
      ((net ≠ 2 ∨ s.linkTraffic n a sq lid = false) → s.cutWaits sq lid = false →
        exec (.cutMarker n) s = .next ((((s.dropPacket n).updLaunch lid
          fun x => { x with cutIn := x.cutIn ++ [(a, sq, net)] }).reached sq lid).cutWrite sq lid))) ∧
    ((s.entry lid).cutSent.contains sq = true →
      (∀ x ∈ routerInputs sq, ∀ y ∈ markerNets, (s.entry lid).cutIn.contains (x, sq, y) = true) →
      s.writeItems (s.cutItems sq lid) lid = (s1, lack) → s.cutWrite sq lid = (s1.updLaunch lid fun x =>
        { x with cutSent := x.cutSent.filter (· != sq) }).send (.cutReport sq lid lack)) ∧
    (∀ x ∈ routerInputs sq, ∀ y ∈ markerNets, (s.entry lid).cutIn.contains (x, sq, y) = false → s.cutWrite sq lid = s) ∧
    (s.packet? n = some (.cutReport sq lid lack) → s.cutRuns lid = true →
      s1 = (s.dropPacket n).updLaunch lid (fun x =>
        { x with cutWait := x.cutWait.filter (· != sq), cutLack := x.cutLack + lack }) →
      ((s1.entry lid).cutWait ≠ [] → exec (.routerReport n) s = .next s1) ∧
      ((s1.entry lid).cutWait = [] → (s1.entry lid).cutLack = 0 →
        exec (.routerReport n) s = .next ((s1.cutDone lid).answerCut lid 0)) ∧
      ((s1.entry lid).cutWait = [] → (s1.entry lid).cutLack ≠ 0 →
        exec (.routerReport n) s = .next ((s1.cutAbandoned lid).answerCut lid (s1.entry lid).cutLack))) ∧
    ((s.slot c k).shadow = false → (s.slot c k).twin = some t → s.twinSlot c k = some j →
      (s.slot (twinCore c) j).twin = some u →
      ((t.passing = true ∨ s.comparable c k j t u = true) → exec (.twinComparison c k) s = .next (s.compareTwin c k t u)) ∧
      (t.passing = false → s.comparable c k j t u = false → exec (.twinComparison c k) s = .next s)) ∧
    (s.lidLive (s.lidAt d e) = true → (s.entryAt d e).enforcing = true →
      ∀ stuck unmet : Prop, (stuck ↔ 64 ≤ (s.heldEvents (s.lidAt d e) unit).length ∧
          (∀ m, s.expects (s.lidAt d e) unit = some m → ∀ x ∈ s.heldEvents (s.lidAt d e) unit, m.isOf x = false) ∧
          (s.expects (s.lidAt d e) unit = none → (s.entryAt d e).trunc = false)) →
        (unmet ↔ s.expects (s.lidAt d e) unit ≠ none ∧ s.anyRunnable (s.lidAt d e) = false ∧
          Tab.rd 0 (s.entryAt d e).unmetSince unit + 10000000 ≤ s.time) →
        (stuck ∨ unmet → exec (.replayDivergence d e unit) s = .next
          (((s.markMould (s.lidAt d e) 1).dieRecord d 0xD5 (s.lidAt d e)).updLaunch (s.lidAt d e) fun y =>
            { y with freeRun := true })) ∧
        (¬(stuck ∨ unmet) → exec (.replayDivergence d e unit) s = .next s))) ∧
  ((∀ (s s1 : State) (c k j : Nat) (t u : TwinState) (rest : List Gated), (s.slot c k).twin = some t →
    s.twinSlot c k = some j → (s.slot (twinCore c) j).twin = some u → s.releaseGated c t.items = (s1, rest) →
    (t.passing = true ∨ t.chkLost = false ∧ u.chkLost = false ∧ t.fp = u.fp ∧ faultsAgree t.faultRec u.faultRec = true) →
    (rest ≠ [] → s.compareTwin c k t u = s1.updSlot c k fun x => { x with twin := x.twin.map fun y => y.hold rest }) ∧
    (rest = [] → t.faultRec = none → u.faultRec = none → s.compareTwin c k t u =
      (((s1.both c k Slot.checkpoint).answerTwin t.asks 0).applyStop c k)) ∧
    (∀ f, rest = [] → t.faultRec = some f → faultsAgree t.faultRec u.faultRec = true → s.compareTwin c k t u =
      (((s1.both c k Slot.checkpoint).answerTwin t.asks 0).pairFault c k 0 f))) ∧
  (∀ (s s1 : State) (c : Nat) (gs rest : List Gated), s.releaseGated c gs = (s1, rest) →
    (∃ out, gs = out ++ rest) ∧ (∀ g l, rest = g :: l → s1.ungate c g = none) ∧
    ((∀ g ∈ gs, ∃ e, g = .store e ∧ e.isPost = false) → s1.mem = s.mem ∧
      (s1.core c).sb.length + rest.length = (s.core c).sb.length + gs.length)) ∧
  (∀ t : TwinState, t.items.length = t.gated.length + t.gatedCmds.length + t.gatedMsgs.length ∧
    t.items.Pairwise (fun g h => g.stamp ≤ h.stamp) ∧ (∀ e, e ∈ t.gated ↔ Gated.store e ∈ t.items) ∧
    (∀ x, x ∈ t.gatedCmds ↔ Gated.cmd x ∈ t.items) ∧ ∀ o, o ∈ t.gatedMsgs ↔ Gated.msg o ∈ t.items) ∧
  (∀ (x : Slot) (t : TwinState) (m : Nat), x.twin = some t →
    (∃ v, x.checkpoint = { x with twin := some v } ∧ v.chk = x.ctx ∧ v.chkPmask = x.pmask ∧ v.mism = 0 ∧ v.blocks = 0 ∧
      v.gated = [] ∧ v.gatedCmds = [] ∧ v.gatedMsgs = [] ∧ v.passing = false) ∧
    (∃ v, (x.reload m).twin = some v ∧ (x.reload m).ctx = t.chk ∧ (x.reload m).pmask = t.chkPmask ∧ v.mism = m ∧
      v.blocks = 0 ∧ v.gated = [] ∧ v.gatedCmds = [] ∧ v.gatedMsgs = [] ∧ v.faultRec = none)) ∧
  (∀ (s : State) (c k j : Nat) (t u : TwinState), (s.slot c k).twin = some t → s.twinSlot c k = some j →
    (s.slot (twinCore c) j).twin = some u → t.passing = false → t.chkLost = false → u.chkLost = false → t.asks = [] →
    (s.slot c k).stop = 0 → (s.slot c k).htStop = false → t.fp ≠ u.fp →
    (t.mism < 2 → (s.compareTwin c k t u).mem = s.mem ∧
      (∃ v, ((s.compareTwin c k t u).slot c k).twin = some v ∧ ((s.compareTwin c k t u).slot c k).ctx = t.chk ∧
        v.mism = t.mism + 1 ∧ v.gated = []) ∧
      ∃ v, ((s.compareTwin c k t u).slot (twinCore c) j).twin = some v ∧
        ((s.compareTwin c k t u).slot (twinCore c) j).ctx = u.chk ∧ v.mism = t.mism + 1 ∧ v.gated = []) ∧
    (2 ≤ t.mism → ((s.compareTwin c k t u).slot c k).st = .frozen ∧
      recCause ((s.compareTwin c k t u).slot c k).frec = 0xC0)))

/-! ## Engines -/

/-- Engine commands (R160, R175, R191, R365, R385): the head of a slot's queue starts on a free engine once the earlier stores
of its thread are performed, taking the semaphore count it waits for, unless its descriptor or its ranges must wait; a started
one performs its work and ends, or where it read a row under remap reads that again first; a well-formed XSWAP without a
partner ends after 1 ms with code 0xD; a multicast group is read once, when its window closes; a page move ends with its
wave. The end of a command writes its status word, full, and takes it from its queue.
What commands read and write (R160, R161, R173, R194, R372, R378-R381, R384, R385, R389-R391, R393, R395, R397, R421). A
control word is read whole, a poisoned one ends the command with POISON; one is written whole. A datum of a tile command goes
from its source to its destination and counts in CNT; under TA it stops before a throttled row with code 1; a part of a
poisoned word is not written and sets POIS. CAST.TABLE sets its table; the caster writes a whole word as one. An MMA's tile
holds the elements of R378, which with W lie at D and nowhere else. An XSWAP exchanges the words of both regions. A KV or PFX
command that ends with DESC or POISON has changed nothing (log 49); a full chain takes no page; REF and free bits change
alone in their words; PFX.UNREF takes one holder from a node. -/
def Obligations.EngineEvents : Prop :=
  (∀ (s s1 : State) (c k eng n : Nat) (x x1 : Cmd), k < 4 →
    ((s.core c).head k eng = some x → (s.core c).running eng < engWidth eng →
      (s.cores.any fun y => y.2.sb.any fun e => e.tid == x.tid && decide (e.stamp < x.stamp)) = false →
      (s.unack.any fun u => u.tid == x.tid && !u.posted && decide (u.stamp < x.stamp)) = false →
      (eng = 0 → s.levelOf c ≠ 2) → (x.flags.testBit 0 = true → x.took = false → x.wthr ≤ s.sem c x.wsem) →
      ∀ s0, s0 = (if x.flags.testBit 0 && !x.took then s.setSem c x.wsem (s.sem c x.wsem - x.wthr) else s) →
      (s0.beginCmd c x = none → exec (.engineCommandStart c k eng) s = .next s) ∧
      (s0.beginCmd c x = some (s1, x1) →
        (∀ t, (s1.updCore c fun y => y.updCmd x1.ticket fun _ => x1).markRanges c x1 = some t →
          exec (.engineCommandStart c k eng) s =
            .next (if x1.eng = 1 ∧ x1.cmd = 0 ∧ x1.flags.testBit 5 ∧ x1.early.isNone then t.joinGroup c x1 else t)) ∧
        ((s1.updCore c fun y => y.updCmd x1.ticket fun _ => x1).markRanges c x1 = none →
          exec (.engineCommandStart c k eng) s = .next s)) ∧
      ((x.eng ≠ 1 ∨ x.cmd = 3) → (x.eng ≠ 3 ∨ x.cmd = 0) →
        s0.beginCmd c x = some (s0, { x with started := true, startedAt := s.time, took := true }))) ∧
    (cmdRanges s c x = [] → ((s.core c).board.any fun r => r.ticket == x.ticket && !r.guard) = false →
      s.markRanges c x = some s) ∧
    ((s.core c).cmds[n]? = some x → x.started = true → s.inGroup c x = false → (x.eng ≠ 3 ∨ x.cmd ≠ 0 ∧ x.matched = false) →
      (x.early = none → x.eng ≠ 3 → exec (.engineCommandComplete c n) s = .next (s.performCmd c x)) ∧
      (∀ e, x.early = some e → (x.again = [] → exec (.engineCommandComplete c n) s = .next (s.endCmd c x e false)) ∧
        (x.again ≠ [] → exec (.engineCommandComplete c n) s = .next (s.againAndEnd c x e)))) ∧
    ((s.core c).cmds[n]? = some x → x.started = true → s.inGroup c x = false → x.eng = 3 → x.cmd ≠ 0 →
      (x.early = none → x.matched = false → exec (.engineCommandComplete c n) s = .next (s.completeMove c x)) ∧
      (∀ e, x.matched = true → x.early = some e → exec (.engineCommandComplete c n) s =
        .next (if x.wave then s.endCmd c x e false else s))) ∧
    ((s.core c).cmds[n]? = some x → x.eng = 3 → x.cmd = 0 → x.started = true →
      (x.matched = false → x.startedAt + 1000000 ≤ s.time → xswapBad (isSvc c) x.f.toNat = false →
        s.xswapPeer c x = none → exec (.xswapNoPair c n) s = .next (s.endCmd c x { code := 0xD, cause := 0xAA } false)) ∧
      ((x.matched = true ∨ s.time < x.startedAt + 1000000 ∨ xswapBad (isSvc c) x.f.toNat = true ∨
        s.xswapPeer c x ≠ none) → exec (.xswapNoPair c n) s = .next s) ∧
      (s.inGroup c x = false → exec (.engineCommandComplete c n) s = .next (s.completeXswap c x))) ∧
    ((s.core c).cmds[n]? = some x → x.eng = 3 → x.cmd ≠ 0 → x.matched = true → exec (.invalidationWaveReturn c n) s =
      .next (s.updCore c fun y => y.updCmd x.ticket fun d => { d with wave := true })) ∧
    (∀ sq g, (s.square sq).mcast[n]? = some g →
      (g.1.length < 4 → s.time < g.2 + 32 → exec (.multicastWindowClose sq n) s = .next s) ∧
      ((4 ≤ g.1.length ∨ g.2 + 32 ≤ s.time) → (s.readGroup g.1 = some s1 → exec (.multicastWindowClose sq n) s =
        .next (s1.updSquare sq fun q => { q with mcast := q.mcast.eraseIdx n })) ∧
        (s.readGroup g.1 = none → exec (.multicastWindowClose sq n) s = .next s))) ∧
    (∀ e, Safe s → x.flags.testBit 1 = false → (s.endCmd c x e false).rdWord (statusLoc c x.ticket) = statusWord e false ∧
      (s.endCmd c x e false).mem.isFull (statusLoc c x.ticket) = true ∧
      s.sameOutside (s.endCmd c x e false) (statusLoc c x.ticket) 8 ∧
      ((s.endCmd c x e false).core c).cmds = (s.core c).cmds.filter fun z => z.ticket != x.ticket)) ∧
  ((∀ (j : Job) (t : Word) (loc : Nat) (w w1 : Work), runs (engPlace j t 8 8 .engRead) w (.ok loc) w1 →
    (w1.s.mem.isPois loc = false → runs (ctl j t) w (.ok (w1.s.rdWord loc))
      { w1 with s := w1.s.touchRow loc, touched := true }) ∧
    (w1.s.mem.isPois loc = true → runs (ctl j t) w (.error (.fin 0x11 0 0))
      { w1 with s := w1.s.touchRow loc, touched := true })) ∧
  (∀ (j : Job) (t v : Word) (loc : Nat) (w w1 : Work), runs (engPlace j t 8 8 .engWrite) w (.ok loc) w1 →
    Safe w1.s → ∃ w2, runs (putCtl j t v) w (.ok ()) w2 ∧ w2.s.rdWord loc = v ∧ w2.s.mem.isPois loc = false ∧
      w1.s.sameOutside w2.s loc 8 ∧ w2.out.cnt = w1.out.cnt + if w1.counting then 8 else 0) ∧
  (∀ (w : Work) (loc n v : Nat) (pois : Bool), n ≤ 8 →
    (n < 8 → w.s.mem.isPois loc = true → runs (writeAt loc n v pois) w (.ok 0)
      { w with out := { w.out with pois := true } }) ∧
    ((n = 8 ∨ w.s.mem.isPois loc = false) → Safe w.s → ∃ w', runs (writeAt loc n v pois) w (.ok n) w' ∧
      w'.s.rdMem loc n = v % 256 ^ n ∧ w'.s.mem.isPois loc = pois ∧ w.s.sameOutside w'.s loc n ∧
      w'.out.pois = (w.out.pois || pois))) ∧
  (∀ (j : Job) (d e src dst k v : Nat) (ta p : Bool) (w w1 w2 w3 : Work),
    (j.c.shared = none → runs (engPlace j (tdSrc d e) (tdSize d) (tdSize d) .engRead) w (.ok src) w1 →
      (ta = true → w1.s.throttledAt src = true → runs (tileSource j d ta e) w (.error (.fin 1 0 0)) w1) ∧
      ((ta = false ∨ w1.s.throttledAt src = false) → w1.s.remapping src = false → w1.before = none →
        runs (tileSource j d ta e) w (.ok (w1.s.rdMem src (tdSize d), w1.s.mem.isPois src))
          { w1 with s := w1.s.touchRow src, touched := true })) ∧
    (runs (tileSource j d ta e) w (.ok (v, p)) w1 →
      runs (engPlace j (tdDst d e) (tdSize d) (tdSize d) .engWrite) w1 (.ok dst) w2 →
      runs (writeAt dst (tdSize d) v p) w2 (.ok k) w3 →
      runs (tileElem j d ta none e) w (.ok ()) { w3 with out := { w3.out with cnt := w3.out.cnt + k }, done := e + 1 })) ∧
  (∀ (s : State) (c : Nat) (x : Cmd), x.eng = 2 → x.cmd = 2 → x.again = [] →
    (bits x.f.toNat 159 68 ≠ 0 → s.performCmd c x = s.endCmd c x { code := 5, cause := 0xA0 } false) ∧
    (bits x.f.toNat 159 68 = 0 → codeLensOk (word (bits x.f.toNat 63 0)) = false →
      s.performCmd c x = s.endCmd c x { code := 7, cause := 0x94 } false) ∧
    (bits x.f.toNat 159 68 = 0 → codeLensOk (word (bits x.f.toNat 63 0)) = true →
      s.performCmd c x = ((s.updCore c fun y => { y with
        tables := Tab.set 0 y.tables (bits x.f.toNat 67 64) (word (bits x.f.toNat 63 0)) }).endCmd c x {} false))) ∧
  (∀ (w : Work) (loc v : Nat), Safe w.s → ∃ w', runs (castWord loc (2 ^ 64 - 1) v) w (.ok ()) w' ∧
    w'.s.rdWord loc = word v ∧ w'.s.mem.isPois loc = false ∧ w.s.sameOutside w'.s loc 8) ∧
  (∀ (j : Job) (w : Work) (o : MmaOp) (m : Memory) (sq : Nat), o = mmaOp j.c → m = w.s.mem → sq = squareOf j.core →
    (∀ code cause, mmaBad o j.c.f.toNat (w.s.core j.core).array j.c.lid = some (code, cause) →
      runs (runMma j) w (.error (.fin code cause 0)) w) ∧
    (mmaBad o j.c.f.toNat (w.s.core j.core).array j.c.lid = none → o.keep = false → (o.acc ≠ 2 ∨ o.trap = false) →
      Safe w.s → ∃ (w' : Work) (t : KeptTile), runs (runMma j) w (.ok ()) w' ∧
      (w'.s.core j.core).array = some t ∧ t.lid = j.c.lid ∧ t.kind = o.acc ∧
      (∀ e, e < 1024 → Tab.rd 0 t.elems e = word (mmaElem (sqByte m sq) o (e / 32) (e % 32)
        (if o.z then 0 else m.read (sqLoc sq (o.coff + accBytes o.acc * e)) (accBytes o.acc))).v) ∧
      (o.w = false → w'.s.mem = m) ∧
      (o.w = true → w.s.sameOutside w'.s (sqLoc sq o.doff) (1024 * accBytes o.acc) ∧
        ∀ i, i < 128 * accBytes o.acc → w'.s.rdWord (sqLoc sq (o.doff + 8 * i)) =
          if o.acc = 1 then Tab.rd 0 t.elems i
          else word ((Tab.rd 0 t.elems (2 * i)).toNat + (Tab.rd 0 t.elems (2 * i + 1)).toNat * 2 ^ 32)))) ∧
  (∀ (s : State) (a b n i : Nat), Safe s → a % 8 = 0 → b % 8 = 0 → n % 8 = 0 → (a + n ≤ b ∨ b + n ≤ a) → i < n / 8 →
    (s.exchange a b n).rdWord (a + 8 * i) = s.rdWord (b + 8 * i) ∧
    (s.exchange a b n).rdWord (b + 8 * i) = s.rdWord (a + 8 * i) ∧
    (s.exchange a b n).mem.isPois (a + 8 * i) = s.mem.isPois (b + 8 * i) ∧
    ∀ l, (l < a ∨ a + n ≤ l) → (l < b ∨ b + n ≤ l) → (s.exchange a b n).byte l = s.byte l) ∧
  (∀ (m : Eng Unit) (w w' : Work) (x : Stop), runs m w (.error x) w' →
    ((∃ c a, x = .fin 5 c a ∨ x = .fin 0x11 c a) → runs (wholeOrNone m) w (.error x) w)) ∧
  (∀ (j : Job) (h : Chain) (x : Pool) (p ref : Nat) (free : Bool) (w w1 w2 w3 : Work) (v : Word) (u : Unit),
    (h.npg = h.cap → runs (allocPage j h x) w (.error (.fin 9 0xA7 0)) w) ∧
    (runs (ctl j (freeTok x p)) w (.ok v) w1 →
      runs (putCtl j (freeTok x p) (wput v (p % x.ppv % 64) (p % x.ppv % 64) free.toNat)) w1 (.ok u) w2 →
      runs (putFree j x p free) w (.ok u) w2) ∧
    (∀ loc, runs (ctl j (x.at p 0)) w (.ok v) w1 → runs (putCtl j (x.at p 0) (wput v 31 0 ref)) w1 (.ok u) w2 →
      runs (engPlace j (x.at p 0) 8 8 .engWrite) w2 (.ok loc) w3 →
      runs (putRef j x p ref) w (.ok u) { w3 with s := (w3.s.dropReadBufs [loc]).wakeLine loc }) ∧
    runs (freeEntries j h x 0) w ((putChain j h 0 0).run.run w).1 ((putChain j h 0 0).run.run w).2) ∧
  (∀ (j : Job) (root t : Word) (fuel : Nat) (n : PfxNode) (w w1 w2 : Work) (u : Unit),
    ((t = root ∨ t = 0) → runs (unrefUp j root (fuel + 1) t) w (.ok u) w) ∧
    (t ≠ root → t ≠ 0 → runs (readNode j root t) w (.ok n) w1 →
      (n.ref = 0 → runs (unrefUp j root (fuel + 1) t) w (.error (.fin 0xA 0xA6 0)) w1) ∧
      (n.ref ≠ 0 → runs (putNode0 j t n.ntok (n.ref - 1)) w1 (.ok u) w2 →
        runs (unrefUp j root (fuel + 1) t) w ((unrefUp j root fuel n.parent).run.run w2).1
          ((unrefUp j root fuel n.parent).run.run w2).2))))

/-! ## Vaults and power -/

/-- Vault events (R158-R162, R215): a refresh closes the bank's row and moves on to the next of 2,048; an open row closes 1 us
after its last access; a layer throttles from 95 degrees to 90; a layer that has powered on, or off with no access in flight, is zero, empty and
unpoisoned, every other location as before; a remap takes a
good spare. (That a layer which has powered off holds zeros, where R162 says only that its contents are lost, is the model's
choice: log 2 and 32.) -/
def Obligations.VaultEvents : Prop :=
  ∀ (s : State) (c b n t : Nat),
    (∃ u, exec (.refresh c b) s = .next u ∧ (u.vault c).openRows = (s.vault c).openRows.del b ∧
      Tab.rd 0 (u.vault c).refreshRow b = (Tab.rd 0 (s.vault c).refreshRow b + 1) % 2048 ∧ u.mem = s.mem) ∧
    (∀ r a, (s.vault c).openRows.find? b = some (r, a) → a + 1000 ≤ s.time → exec (.rowTimeout c b) s =
      .next (s.updVault c fun v => { v with openRows := v.openRows.del b })) ∧
    (n < 8 → ∃ u, exec (.layerThrottleSample c n t) s = .next u ∧
      (95 ≤ t → (u.vault c).throttled.getLsbD n = true) ∧ (t ≤ 90 → (u.vault c).throttled.getLsbD n = false) ∧
      (90 < t → t < 95 → (u.vault c).throttled = (s.vault c).throttled)) ∧
    (n < 8 → (s.vault c).busy.getLsbD n = true → ∀ i, (i = .layerPowerOnComplete c n ∧ (s.vault c).on.getLsbD n = true) ∨
      (i = .layerPowerOffComplete c n ∧ (s.vault c).on.getLsbD n = false ∧ s.layerInFlight c n = false) →
      ∃ u, exec i s = .next u ∧ (u.vault c).busy.getLsbD n = false ∧
        (∀ a, c * 2 ^ 27 + n * 2 ^ 24 ≤ a → a < c * 2 ^ 27 + (n + 1) * 2 ^ 24 →
          u.byte a = 0 ∧ u.mem.isFull a = false ∧ u.mem.isPois a = false) ∧
        (∀ a, (a < c * 2 ^ 27 + n * 2 ^ 24 ∨ c * 2 ^ 27 + (n + 1) * 2 ^ 24 ≤ a) →
          u.byte a = s.byte a ∧ u.mem.isFull a = s.mem.isFull a ∧ u.mem.isPois a = s.mem.isPois a)) ∧
    ((s.vault c).camRes = 1 → (∀ p, goodSpare (s.vault c) (s.vault c).camBank = some p → exec (.remapComplete c) s =
        .next (s.updVault c fun v => { addCam v v.camBank v.camRow p with camRes := 2 })) ∧
      (goodSpare (s.vault c) (s.vault c).camBank = none →
        exec (.remapComplete c) s = .next (s.updVault c fun v => { v with camRes := 3 })))

/-- Power events (R104, R106-R112): an operating point takes effect when its transition ends; a square over its current
budget stretches by one more, up to 15, and one within it by one less; damage adds up in 10 us samples and 10 ms windows, the
last hundred of which decide the level; an idle square leaves in its turn; without PCHB for 10 ms a die is under hardware control until PCSIGN.
(The order in which the hard threshold parks, the wakes of idle squares, and when the 10 ms of R112 run anew: log 28, 34 and 81.) -/
def Obligations.PowerEvents : Prop :=
  ∀ (s : State) (sq ma mw d h die core : Nat) (v : Word),
    ((s.square sq).trans = true → exec (.transitionComplete sq) s = .next (s.updSquare sq fun q =>
      startTransition { q with cur := q.transTo, trans := false })) ∧
    (∃ t, exec (.currentEstimate sq ma) s = .next t ∧
      ((s.square sq).ibud ≠ 0xFFFF → (s.square sq).ibud < ma → (t.square sq).overB = true ∧
        (t.square sq).stretch = min 15 ((s.square sq).stretch + 1)) ∧
      (((s.square sq).ibud = 0xFFFF ∨ ma ≤ (s.square sq).ibud) → (t.square sq).overB = false ∧
        (t.square sq).stretch = (s.square sq).stretch - 1)) ∧
    (∃ t, exec (.powerMeasurement mw) s = .next t ∧ t.power.mw = mw ∧ t.power.e = s.power.e + mw * 10 - 24000000 ∧
      (s.powerLimit t.power.e < mw → t.power.extra = min 15 (s.power.extra + 1)) ∧
      (mw * 100 ≤ s.powerLimit t.power.e * 95 → t.power.extra = s.power.extra - 1)) ∧
    (∃ t, exec (.damageSample d h) s = .next t ∧ (t.district d).tmax = h / 2 ∧
      (t.district d).bucket = (s.district d).bucket + damageFactor h (s.die (d / 16)).tref * 10) ∧
    ((nextLevel (s.district d).level ((((s.district d).bucket :: (s.district d).window).take 100).foldl (· + ·) 0)
        (s.die (d / 16)).hard (s.die (d / 16)).soft ≠ 0 ∨ (s.district d).level = 0) →
      ∃ t, exec (.damageWindow d) s = .next t ∧ (t.district d).bucket = 0 ∧
        (t.district d).d = (((s.district d).bucket :: (s.district d).window).take 100).foldl (· + ·) 0 ∧
        (t.district d).level = nextLevel (s.district d).level (t.district d).d (s.die (d / 16)).hard
          (s.die (d / 16)).soft) ∧
    (∀ c k, (s.district d).level = 2 → ((districtCores d).flatMap fun c => [0, 1, 2, 3].map fun k => (c, k)).find?
        (fun ck => htParks (s.slot ck.1 ck.2) && !tswShadow (s.slot ck.1 ck.2).ctx.tsw) = some (c, k) →
      exec (.hardThresholdPark d) s = .next (s.htPark c k)) ∧
    (∀ t, s.quiet sq = true → (s.square sq).idle = false → (s.square sq).quietSince = some t → t + 10000 ≤ s.time →
      exec (.idleEntry sq) s = .next (s.updSquare sq fun q => { q with idle := true, exitSince := none })) ∧
    ((s.die die).exitUs ≠ s.time / 1000 → exec (.idleExit die) s =
      .next (((s.waitingSquares die).take 16).foldl State.leaveIdle (s.updDie die fun x =>
        { x with exitUs := s.time / 1000, exits := ((s.waitingSquares die).take 16).length }))) ∧
    ((s.die die).lastPchb + 10000000 ≤ s.time → (s.die die).hw = false → exec (.heartbeatTimeout die) s =
      .next ((s.updDie die fun x => { x with hw := true }).retargetDie die)) ∧
    exec (.pchb die v) s = .next (s.updDie die fun x => { x with lastPchb := s.time }) ∧
    (v = 0x5349474E → exec (.pcsign die v) s = .next (s.signIn die)) ∧
    (v ≠ 0x5349474E → exec (.pcsign die v) s = .next s) ∧
    (core < 4096 → exec (.vlpwrWrite core v) s = .next ((s.updVault core fun x => writeVlpwr x v).askExit core)) ∧
    (core < 4096 → exec (.camreqWrite core v) s = .next ((s.updVault core fun x => writeCamreq x v).askExit core))

/-! ## The link and the host side -/

/-- Link events (R29, R34, R35): a port trains on all lanes, on either half with an event, or counts a failed attempt and
tries again 1 s later; acknowledgements, replays and busy indications; a flit is accepted and acknowledged, or with a bad
LCRC, out of turn or without space refused with its answer (what the model settles of ports and replays: log 19); 100 us without an answer, 16 replays of one flit or lost lanes take the port down, and a port
with nothing outstanding then only restarts its sequences; a request past its limit ends.
A replay (R34, R35): the flits of a class from the named SEQ on go out again in their order, and stay held; after a
negative acknowledgement each counts one replay more; a SEQ that no flit holds sends none. -/
def Obligations.LinkEvents : Prop :=
  (∀ (s u : State) (p tag seq : Nat) (cls : FlitClass) (lanes : BitVec 16) (hdr : BitVec 64) (lo hi : BitVec 256)
    (space : Bool) (x : Outstanding) (a : TxSide) (b : RxSide), a = (s.port p).txSide (clsNo cls) →
    b = (s.port p).rxSide (flitClass hdr) →
    ((s.port p).up = false → s.mayTrain p = true →
      (s.time < (s.port p).retryAt → exec (.linkTraining p lanes) s = .next s) ∧
      ((s.port p).retryAt ≤ s.time →
        (lanes = 0xFFFF → exec (.linkTraining p lanes) s = .next (s.updPort p fun t =>
          { t with up := true, lanes := 0xFFFF, retryAt := 0, tx := [], rx := [], outq := [], held := [], wire := [] })) ∧
        (lanes ≠ 0xFFFF → lanes.toNat % 256 = 255 → exec (.linkTraining p lanes) s = .next ((s.updPort p fun t =>
          { t with up := true, lanes := 0x00FF, retryAt := 0, tx := [], rx := [], outq := [], held := []
                   wire := [] }).logEvent 9 p)) ∧
        (lanes.toNat % 256 ≠ 255 → lanes.toNat / 256 = 255 → exec (.linkTraining p lanes) s = .next ((s.updPort p fun t =>
          { t with up := true, lanes := 0xFF00, retryAt := 0, tx := [], rx := [], outq := [], held := []
                   wire := [] }).logEvent 9 p)) ∧
        (lanes.toNat % 256 ≠ 255 → lanes.toNat / 256 ≠ 255 → exec (.linkTraining p lanes) s =
          .next ((s.updPort p fun t =>
            { t with attempts := t.attempts + 1, retryAt := s.time + 1000000000 }).logEvent 8 p)))) ∧
    ((s.port p).up = true →
      exec (.linkControlFlit p cls 0 seq) s = .next (s.acked p (clsNo cls) seq) ∧
      (u = s.updPort p (fun t => t.replay (clsNo cls) seq true) →
        ((∀ f ∈ ((u.port p).txSide (clsNo cls)).buf, f.replays < 16) →
          exec (.linkControlFlit p cls 1 seq) s = .next u) ∧
        (∀ f ∈ ((u.port p).txSide (clsNo cls)).buf, 16 ≤ f.replays →
          exec (.linkControlFlit p cls 1 seq) s = .next (u.portDown p))) ∧
      exec (.linkControlFlit p cls 2 seq) s = .next (s.updPort p fun t =>
        { t with tx := t.tx.put (clsNo cls) { a with busySince := some s.time, replayFrom := seq, lastAck := s.time } }) ∧
      (flitClass hdr ≠ 3 →
        ((lcrcOk hdr (leBytes 32 lo.toNat ++ leBytes 32 hi.toNat) = false ∨ flitSeq hdr ≠ b.expect) →
          exec (.flitDiscard p hdr lo hi space) s = .next (s.updPort p fun t =>
            { t with rx := t.rx.put (flitClass hdr) { b with out := b.out ++ [(1, b.expect)] } })) ∧
        (lcrcOk hdr (leBytes 32 lo.toNat ++ leBytes 32 hi.toNat) = true → flitSeq hdr = b.expect →
          ((space = true ∨ flitClass hdr = 1) → exec (.flitDiscard p hdr lo hi space) s = .next (s.updPort p fun t =>
            { t with
              rx := t.rx.put (flitClass hdr)
                { b with
                  full := none, expect := (b.expect + 1) % 4096, part := b.part + 1
                  out := b.out ++ [(0, b.expect)] } })) ∧
          (flitClass hdr ≠ 1 → exec (.flitDiscard p hdr lo hi false) s = .next (s.updPort p fun t =>
            { t with
              rx := t.rx.put (flitClass hdr) { b with full := some s.time, out := b.out ++ [(2, b.expect)] } })))) ∧
      ((s.port p).held = [] → (s.port p).resv = [] → (s.port p).pending = [] → (s.port p).msgsOut = [] →
        (s.gathers.filter fun g => g.src / 8192 != p) = s.gathers → s.adapter.portLost p = s.adapter →
        s.adapter.waiting = [] → s.lostReleases p = [] → exec (.portDown p) s = .next ((s.updPort p fun t =>
          { t with up := false, lanes := 0, tx := [], rx := [], outq := [], wire := [], retryAt := s.time }).logEvent 10 p))) ∧
    (∀ t, a.busySince = some t → t + 1000 ≤ s.time → exec (.busyReplay p cls) s =
      .next (s.updPort p fun y => y.replay (clsNo cls) a.replayFrom false)) ∧
    (a.buf ≠ [] → a.lastAck + 100000 ≤ s.time → exec (.linkAckTimeout p cls) s = .next (s.portDown p)) ∧
    (∀ t, flitClass hdr = clsNo cls → b.full = some t → t + 10000 ≤ s.time → exec (.busyRepeatTimer p cls) s =
      .next (s.updPort p fun y =>
        { y with rx := y.rx.put (clsNo cls) { b with full := some s.time, out := b.out ++ [(2, b.expect)] } })) ∧
    (s.pendingAt p tag = some x → x.sentAt + Config.requestLimit ≤ s.time → s.mouldAnswers x = false →
      exec (.requestTimeout p tag) s = .next ((s.settle p x).endRequest x))) ∧
  (∀ (t : Port) (k seq : Nat) (counted : Bool) (l r : List HeldFlit) (f : HeldFlit), (∀ g ∈ l, g.seq ≠ seq) →
    ((t.txSide k).buf = l ++ f :: r → f.seq = seq →
      (t.replay k seq counted).wire = t.wire ++ (f :: r).map (·.flit) ∧
      ((t.replay k seq counted).txSide k).buf = l ++ (f :: r).map fun g =>
        if counted then { g with replays := g.replays + 1 } else g) ∧
    ((t.txSide k).buf = l → (t.replay k seq counted).wire = t.wire ∧ ((t.replay k seq counted).txSide k).buf = l) ∧
    ((t.replay k seq counted).txSide k).busySince = none ∧
    (∀ k', k' ≠ k → (t.replay k seq counted).txSide k' = t.txSide k'))

/-- Requests of peers (R41-R43, R129): an RMT is performed at its word and answered; one that names no vault byte, or is not
aligned, is answered with STATUS 1 or 2; a posted write is gathered for its acknowledgement in each case; a reservation is
granted under a handle of the port; one that is given back frees its place; a message enters the launch that PIMP names;
posted writes are acknowledged together after 64 mesh cycles. (An RMT's layout, and a posted write that is not performed:
the model's choice, log 63 and 69.)
(For which launch an RMT executes, and the core of a service core's PACK: log 18 and 70.)
Answers of peers (R42, R43): a result concludes the operation that waits under its tag, with the token of its data or the
fault of its STATUS (the adapter's own, where the operation went to it: R40, R47); a PACK concludes the posted writes it counts, earliest first; the answer of a reservation reaches the
instruction that asked. -/
def Obligations.PeerTransactions : Prop :=
  (∀ (s u u' : State) (p loc ch agent src : Nat) (x : Txn) (op : RemOp) (m m' : Msg) (tok : Tok) (r : PortResv)
    (g : Gather), u = s.accept p x → (s.port p).up = true → s.role p = 1 → malformedTxn x false = false →
    (x.op = 0x20 → linkLoc x.addr = none →
      (op.kind ≠ .rpost → exec (.rmt p x op) s = .next (u.reply p 0x83 x.tag 1 [0])) ∧
      (op.kind = .rpost → exec (.rmt p x op) s = .next (u.gatherPost (8192 + p) (p * 8192 + op.core % 8192) op))) ∧
    (x.op = 0x20 → linkLoc x.addr = some loc →
      (loc % remAlign op.kind ≠ 0 →
        (op.kind ≠ .rpost → exec (.rmt p x op) s = .next (u.reply p 0x83 x.tag 2 [0])) ∧
        (op.kind = .rpost → exec (.rmt p x op) s =
          .next (u.gatherPost (ownerOf loc) (p * 8192 + op.core % 8192) op))) ∧
      (loc % remAlign op.kind = 0 → u.remAt { op with place := .mem loc, lid := 0 } loc = (.done tok, u') →
        (op.kind ≠ .rpost → exec (.rmt p x op) s = .next (u'.reply p 0x83 x.tag 0 (match tok with
          | .vec v _ => leBytes 64 v.toNat
          | t => leBytes 8 t.w.toNat))) ∧
        (op.kind = .rpost → exec (.rmt p x op) s =
          .next (u'.gatherPost (ownerOf loc) (p * 8192 + op.core % 8192) op)))) ∧
    (x.op = 0x21 → m = { kind := bits (leNat (x.data.take 8)) 63 60, p := (leNat (x.data.take 8)).testBit 59
                         t := (leNat (x.data.take 8)).testBit 58, lid := bits (leNat (x.data.take 8)) 55 40
                         dpkg := bits (leNat (x.data.take 8)) 39 32, dcore := bits (leNat (x.data.take 8)) 28 16
                         origin := word (leNat ((x.data.drop 8).take 8)) } →
      u.badMsg m = false → (u.imported p m).isSome = true → (s.port p).resv.length < 4096 →
      u.reserveAt m.dcore m.t = some (ch, u') → exec (.rsv p x) s = .next ((u'.updPort p fun t =>
        { t with resv := t.resv ++ [⟨lowestFree ((s.port p).resv.map (·.handle)),
          if m.t then evenCore m.dcore else m.dcore, ch⟩] }).reply p 0x85 x.tag 0
            (leBytes 8 (lowestFree ((s.port p).resv.map (·.handle)) * 2 ^ 16)))) ∧
    (x.op = 0x22 → (u.port p).resv.find? (·.handle == leNat (x.data.take 8) % 2 ^ 12) = some r →
      exec (.unrsv p x) s = .next ((u.updPort p fun t =>
        { t with resv := t.resv.filter (·.handle != leNat (x.data.take 8) % 2 ^ 12) }).send
          (.resvRel (8192 + p) r.core r.coreHandle))) ∧
    (x.op = 0x40 → m = msgOfBits (leNat x.data) → s.badMsg m = false → s.imported p m = some m' →
      s.peerHeld m'.lid = false → s.hasPlace p m' x.rhnd = true → exec (.msg p x false) s =
        .next ((u.recordTxn m'.lid p x).importMsg p m' x.rhnd)) ∧
    (s.gathers.find? (fun y => y.agent == agent && y.src == src) = some g → g.since + 32 ≤ s.time →
      exec (.packGatherTimeout agent src) s = .next (s.sendPack g))) ∧
  (∀ (s u w : State) (p tag status st core count c k n i : Nat) (v : BitVec 512) (d : Word) (x : Outstanding) (op : RemOp)
    (y : Txn),
    (s.pendingAt p tag = some x → x.op = some op →
      (if s.role p = 0 then s.adapterStatus p tag op else some status) = some st →
      y = { op := 0x83, len := resultBytes op.kind, status := st, tag := tag
            data := leBytes (resultBytes op.kind) v.toNat } →
      u = { s with adapter := { s.adapter with
        answers := s.adapter.answers.filter fun a => !(a.1 == p && a.2.1 == tag) } } → u.peerHeld op.lid = false →
      w = ((u.accept p { y with flits := txnFlits y }).recordTxn op.lid p { y with flits := txnFlits y }).settle p x →
      exec (.rmtrsp p tag status v) s = .next (w.conclude op (match statusCause op.kind st with
        | some b => .bad b
        | none => .done (resultTok op.kind (v.toNat % 2 ^ (8 * resultBytes op.kind)))))) ∧
    (core < 2 ^ 12 → count < 2 ^ 12 → (s.posted p core count).head? = some x → x.op = some op →
      y = { op := 0x84, len := 8, data := leBytes 8 (count * 2 ^ 16 + core), flits := 1 } → u = s.accept p y →
      s.peerHeld op.lid = false → exec (.pack p core count) s =
        .next ((s.posted p core count).foldl (fun t z => match z.op with
          | some o => (t.settle p z).conclude o (.done (.val 0))
          | none => t.settle p z) (u.recordTxn op.lid p y))) ∧
    (s.pendingAt p tag = some x → x.op = none → x.msgFor = some (c, k, n, i) →
      y = { op := 0x85, len := 8, tag := tag, data := leBytes 8 d.toNat, flits := 1 } → u = s.accept p y →
      s.peerHeld (tswLid (s.slot c k).ctx.tsw) = false →
      (u.recordTxn (tswLid (s.slot c k).ctx.tsw) p y).resvAnswer p c k n i d.toNat = some w →
      ((w.settle p x).port p).pending.contains x = false →
      exec (.rsvrsp p tag d) s = .next (w.settle p x)))

/-- The transactions of the host (R36, R38, R44-R50): in its turn at the service core of its quarter, each reads or writes, word
by word in ascending order, the vault bytes or the words of the request port that its address names, and is answered after
its last word, or a write that fails is logged; it waits for a layer that powers on; one whose address names nothing is
answered with STATUS 1; up to 64 wait in the order of their arrival.
The adapter (R37, R38, R47): a write or read of one piece in a window becomes one transaction of its quarter, a 64-bit
AtomicOp one AMO, a 32-bit one, at the management window too, completes with Completer Abort; a response completes the
host's request; an RST that reaches the adapter writes the frame table entry or raises the interrupt that its address names, and is answered.
(The PCIe status of a link STATUS: log 20.) -/
def Obligations.HostTransactions : Prop :=
  (∀ (s s1 : State) (p loc : Nat) (x : Txn) (i : Instr), malformedTxn x true = false →
    (x.op ≠ 1 → x.data.length = x.len) → i ∈ [Instr.rd p x, .wr p x, .wrp p x, .wrf p x, .hostAmo p x] →
    (s.hostTurn p x s1 → ∀ (a : HostPart) (w : Nat × Nat), a = (s1.svc x.qtr).part → w = wordPiece x.addr x.len a.done →
      (x.op = 1 → s1.hostPlace x .load = some (.mem loc) → s1.layerOff loc = false → s1.layerBusy loc = false →
        ∀ r, r = s1.hostRead (loc + w.1) w.2 →
        (a.done + 1 < wordsTouched x.addr x.len → exec i s = .next ((s1.touchRow (loc + w.1)).updSvc x.qtr fun v =>
          { v with part := ⟨a.done + 1, a.buf ++ r.2, max a.st r.1⟩ })) ∧
        (wordsTouched x.addr x.len ≤ a.done + 1 → exec i s = .next
          (((s1.touchRow (loc + w.1)).reply p 0x80 x.tag (max a.st r.1) (a.buf ++ r.2)).hostEnded x.qtr))) ∧
      (x.op = 1 → s1.hostPlace x .load = none → exec i s =
        .next ((s1.reply p 0x80 x.tag 1 (List.replicate x.len 0)).hostEnded x.qtr)) ∧
      (2 ≤ x.op → x.op ≤ 4 → s1.hostPlace x .store = some (.mem loc) → s1.layerOff loc = false → s1.layerBusy loc = false →
        ∀ r, r = s1.hostPut (x.op == 4 && decide (wordsTouched x.addr x.len ≤ a.done + 1)) (loc + w.1)
            ((x.data.drop w.1).take w.2) →
        (a.done + 1 < wordsTouched x.addr x.len → exec i s = .next (r.2.updSvc x.qtr fun v =>
          { v with part := ⟨a.done + 1, [], max a.st r.1⟩ })) ∧
        (wordsTouched x.addr x.len ≤ a.done + 1 → exec i s = .next (State.hostEnded (if x.op = 2
          then r.2.reply p 0x81 x.tag (max a.st r.1) []
          else if max a.st r.1 = 0 then r.2 else r.2.logTxn x (max a.st r.1)) x.qtr))) ∧
      (8 ≤ x.op → x.op ≤ 0x12 → s1.hostPlace x .atomic = some (.mem loc) → s1.layerOff loc = false →
        s1.layerBusy loc = false → exec i s = .next (((s1.hostAtomic x loc).2.2.reply p 0x82 x.tag (s1.hostAtomic x loc).1
          (leBytes 8 (s1.hostAtomic x loc).2.1.toNat)).hostEnded x.qtr)) ∧
      (∀ k, k = (if x.op = 1 then AKind.load else if x.op ≤ 4 then .store else .atomic) →
        s1.hostPlace x k = some (.mem loc) → s1.layerOff loc = false → s1.layerBusy loc = true → exec i s = .next s1)) ∧
    (s.hostTurn p x s1 → (s1.svc x.qtr).part = {} →
      (x.op = 8 → x.addr = 0x100000000FFF8 → exec (.reqcntAdd p x) s =
        .next (((((s1.dropReadBufs [portLoc x.qtr 0xFFF8]).storeFull (portLoc x.qtr 0xFFF8)
          (s1.rdWord (portLoc x.qtr 0xFFF8) + word (leNat (x.data.take 8)))).wakeLine (portLoc x.qtr 0xFFF8)).reply p 0x82
            x.tag 0 (leBytes 8 (s1.rdWord (portLoc x.qtr 0xFFF8)).toNat)).hostEnded x.qtr)) ∧
      (x.op = 3 → x.addr = 0x100000000FFE8 → x.len = 8 → exec (.rspackWrite p x) s =
        .next ((s1.writeRspack x.qtr (leNat x.data)).hostEnded x.qtr))) ∧
    (∀ (t : State) (l : Nat) (bs : List Byte), Safe t → bs.length ≤ 8 → l % 8 + bs.length ≤ 8 → t.mem.isPois l = false →
      (t.hostWrite l bs).1 = 0 ∧ (t.hostWrite l bs).2.rdMem l bs.length = leNat bs ∧
      t.sameOutside (t.hostWrite l bs).2 l bs.length) ∧
    ((s.svc x.qtr).held = false → s.hostArrives p x = true → (s.svc x.qtr).inFlight ≠ [] →
      (s.svc x.qtr).inFlight.head? ≠ some (p, x) → (s.svc x.qtr).inFlight.length < 64 → exec i s =
        .next ((s.hostTakes p x).updSvc x.qtr fun v => { v with inFlight := (s.svc x.qtr).inFlight ++ [(p, x)] }))) ∧
  (∀ (s u : State) (w : HostWindow) (a q b tag op o p : Nat) (bs : List Byte) (x y : Word) (t : Txn) (r : HostReq)
    (e : RemOp),
    (w ≠ .management → s.windowOf w a = some (q, b, false) → bs ≠ [] → a % 256 + bs.length ≤ 256 →
      exec (.pcieMemoryWrite w a bs) s =
        .next (s.adapterSend q { op := 3, len := bs.length, addr := b, data := bs }) ∧
      exec (.pcieMemoryRead w a bs.length) s = .next (s.adapterSend q { op := 1, len := bs.length, addr := b })) ∧
    (∀ d, s.windowOf w a = some (q, b, d) →
      exec (.pcieAtomicop w a .fetchAdd 64 x y) s =
        .next (s.adapterSend q { op := 8, len := 8, addr := b, data := leBytes 8 x.toNat }) ∧
      exec (.pcieAtomicop w a .swap 64 x y) s =
        .next (s.adapterSend q { op := 0xC, len := 8, addr := b, data := leBytes 8 x.toNat }) ∧
      exec (.pcieAtomicop w a .cas 64 x y) s = .next (s.adapterSend q
        { op := 0xD, len := 16, addr := b, data := leBytes 8 x.toNat ++ leBytes 8 y.toNat })) ∧
    (∀ k n, n ≠ 64 → (w = .management ∨ (s.windowOf w a).isSome = true) → exec (.pcieAtomicop w a k n x y) s =
      .next (s.complPcie { tag := s.adapter.nextTag % 4096, status := 2 })) ∧
    (∀ i, ((i = .rdrsp p tag ∧ op = 0x80) ∨ (i = .ack p tag ∧ op = 0x81) ∨ (i = .amorsp p tag ∧ op = 0x82)) →
      (s.port p).outq.find? (fun z => z.op == op && z.tag == tag) = some t → s.role p = 0 →
      s.adapter.outstanding.find? (fun z => z.tag == tag && z.port == p) = some r →
      u = s.updPort p (fun z => { z with outq := z.outq.erase t }) → exec i s = .next (State.adapterPump { u with
        adapter := { s.adapter with
          outstanding := s.adapter.outstanding.erase r
          cpls := s.adapter.cpls ++ [{ tag := tag, status := if t.status = 0 ∨ t.status = 3 then 0
            else if t.status = 1 then 1 else 2, data := t.data }] } })) ∧
    (p < 8 → s.adapterRst p tag = some (e, 0, o) →
      (o % 8 = 0 → o < 2 ^ 27 → exec (.frameTableEntryWrite (8 * tag + p)) s = .next (State.adapterDid { s with
        adapter := { s.adapter with frames := Tab.set 0 s.adapter.frames (o / 8) e.a } } p tag 0)) ∧
      ((o % 8 ≠ 0 ∨ 2 ^ 27 ≤ o) → exec (.frameTableEntryWrite (8 * tag + p)) s = .next (s.adapterDid p tag 1))) ∧
    (p < 8 → s.adapterRst p tag = some (e, 1, o) →
      (o % 8 = 0 → o / 8 < 2048 → exec (.msiXTrigger (8 * tag + p)) s = .next (State.adapterDid { s with
        adapter := { s.adapter with msix := (o / 8) :: s.adapter.msix } } p tag 0)) ∧
      ((o % 8 ≠ 0 ∨ 2048 ≤ o / 8) → exec (.msiXTrigger (8 * tag + p)) s = .next (s.adapterDid p tag 1))))

/-- The supervisor's requests (R51, Table 3.7): request n of a quarter is taken and answered with its result. QSETUP writes a
descriptor and enables its queue, QDISABLE clears EN, FRAMEMAP writes every copy of an entry, ABORT and RESUME act on the
launch of an area, SUSPEND starts a cut and is answered at its end, TURNOVER is answered and starts the sequence. A
request with a reserved bit of word 0 set is answered 1.
(How FRAMEMAP reaches the copies, and answers that Table 3.7 does not spell out: log 21 and 22.) -/
def Obligations.SupervisorRequests : Prop :=
  ∀ (s u u' : State) (q n k lid r : Nat) (ws : List Word), q < 16 → s.nextRequest q = some (n, ws) →
    u = s.updSvc q (fun x => { x with taken := (n + 1) % 2 ^ 64 }) →
    k = (ws.getD 1 0).toNat →
    (wbits (ws.headD 0) 31 16 ≠ 0 → ∀ i code, (i, code) ∈ [(Instr.qsetup q, 1), (.qdisable q, 2), (.framemap q, 3),
      (.abort q, 4), (.suspend q, 5), (.resume q, 6), (.turnover q, 7)] → wbits (ws.headD 0) 14 0 = code →
      exec i s = .next (u.respond q n (ws.headD 0) 1 0)) ∧
    (wbits (ws.headD 0) 31 16 = 0 →
    (wbits (ws.headD 0) 14 0 = 1 → k < 8192 → (u.queueLoc (q / 4) k 0).isSome = true → s.queueWaits q ws = false → exec (.qsetup q) s =
      .next (((([0, 1, 2].foldl (fun t i => t.setQueueWord (q / 4) k i (ws.getD (2 + i) 0))
        (u.queueOff (q / 4) k)).setQueueWord (q / 4) k 3 (wput (ws.getD 5 0) 12 12 1))).respond q n (ws.headD 0) 0 0)) ∧
    (wbits (ws.headD 0) 14 0 = 2 → k < 8192 → (u.queueLoc (q / 4) k 0).isSome = true → s.queueWaits q ws = false → exec (.qdisable q) s =
      .next ((u.queueOff (q / 4) k).respond q n (ws.headD 0) 0 0)) ∧
    (wbits (ws.headD 0) 14 0 = 3 → k < 2 ^ 24 → wbits (ws.getD 2 0) 57 56 = 0 → wbits (ws.getD 2 0) 11 0 = 0 →
      u.reachesAdapter = true →
      u' = (List.range 16).foldl (fun t j => t.updSvc j fun x =>
        { x with frames := Tab.set 0 x.frames k (ws.getD 2 0) }) u → exec (.framemap q) s =
      .next (({ u' with adapter := { u'.adapter with
        frames := Tab.set 0 u'.adapter.frames k (ws.getD 2 0) } }).respond q n (ws.headD 0) 0 0)) ∧
    (u.launchAt q k = some lid →
      (wbits (ws.headD 0) 14 0 = 4 → s.abortWaits q ws = false → u.abortLaunch lid = (r, u') →
        exec (.abort q) s = .next (u'.respond q n (ws.headD 0) r 0)) ∧
      (wbits (ws.headD 0) 14 0 = 5 → (u.entry lid).st = .active → (u.entry lid).suspended = false →
        (u.entry lid).mayCut = true → exec (.suspend q) s =
          .next ((u.updLaunch lid fun x => { x with cutReq := some (q, n, ws.headD 0) }).beginCut lid)) ∧
      (wbits (ws.headD 0) 14 0 = 6 → (u.entry lid).suspended = true →
        exec (.resume q) s = .next ((u.resumeLaunch lid).respond q n (ws.headD 0) 0 0))) ∧
    (wbits (ws.headD 0) 14 0 = 7 → s.mayTurnover = true → exec (.turnover q) s =
      .next ((u.respond q n (ws.headD 0) 0 0).beginTurnover (ws.getD 1 0))))

/-! ## Power-up, turnover, registers -/

/-- The module comes up and goes down (R22, R23, R26, R71): releasing the reset starts the power-up with memory at its reset
contents; from 100 us on one step each 1 us enables squares of the dies in their order, and at 128 us the first turnover starts with
tenant 0; 115 degrees or too little coolant shut it down; it restarts
held; a signed configuration image whose version the counter takes waits for the next turnover.
(Codes of the event log: log 19.)
Registers from outside the core (R114, R157, R212, R400): the debug window writes a context register of a thread that is
frozen, or parked with KIND 6 or 8, and clears its PMASK bit, and no other; a write of a CSR; a pass of a scrub that
clears leaves its vault zero and answers 0. -/
def Obligations.ModuleEvents : Prop :=
  (∀ (s : State) (n d t ml ms : Nat) (img : ConfigImage) (m : Mgmt),
    (s.mgmt.phase = .held → ∃ u, exec .moduleResetRelease s = .next u ∧ u.mgmt.phase = .powering 0 ∧ u.mem = {} ∧
      u.cores = [] ∧ u.mgmt.events = s.mgmt.events) ∧
    (s.mgmt.phase = .powering n → s.time < 100000 + 1000 * n → exec .squareEnableStep s = .next s) ∧
    (s.mgmt.phase = .powering n → 100000 + 1000 * n ≤ s.time → n < 28 → ∃ u, exec .squareEnableStep s = .next u ∧
      u.mgmt.phase = .powering (n + 1) ∧
      (d < 4 → 4 * d ≤ n → n < 4 * d + 16 → ∀ sq ∈ squaresOfStep d (n - 4 * d), (u.square sq).on = true)) ∧
    (s.mgmt.phase = .powering n → 100000 + 1000 * n ≤ s.time → 28 ≤ n →
      exec .squareEnableStep s = .next (s.beginTurnover 0)) ∧
    (s.powered = true →
      (115 ≤ t → exec (.thermalShutdown d t) s = .next (s.shutDown (1 + d) t)) ∧
      (ml < 1500 → 1000 ≤ ms → exec (.flowShutdown ml ms) s = .next (s.shutDown 0 ml))) ∧
    ((s.shutDown n t).mgmt.phase = .shutdown ∧ (s.shutDown n t).cores = [] ∧
      (s.shutDown n t).mgmt.events = s.mgmt.events ++ [(n, t)]) ∧
    (s.mgmt.phase = .shutdown → exec .moduleRestart s = .next { s with mgmt := { s.mgmt with phase := .held } }) ∧
    (s.mgmt.roll img.version = some m → exec (.configStoreUpdate img true) s =
      .next { s with mgmt := { m with configNew := some img } })) ∧
  (∀ (s : State) (c k r n : Nat) (v : Word) (bad : List RowName), k < 4 → r < 16 →
    (c ≤ Config.lastCore → mayWriteCtx (s.slot c k) = true → ∃ t,
      exec (.debugContextWrite c (k * 0x400 + 8 * r) v) s = .next t ∧ (t.slot c k).ctx.reg r = v ∧
      (∀ r', r' ≠ r → (t.slot c k).ctx.reg r' = (s.slot c k).ctx.reg r') ∧
      (t.slot c k).ctx.pc = (s.slot c k).ctx.pc ∧ (t.slot c k).st = (s.slot c k).st ∧
      (t.slot c k).pmask.getLsbD r = false ∧ t.mem = s.mem) ∧
    (c ≤ Config.lastCore → mayWriteCtx (s.slot c k) = false →
      exec (.debugContextWrite c (k * 0x400 + 8 * r) v) s = .next (s.askExit c)) ∧
    (n < 0x1000 → exec (.registerWrite c n v) s = .next (s.csrWrite c n v)) ∧
    (∀ c' k' n' i, (s.vault c).scrub = some (2, c', k', n', i) → exec (.scrubPassComplete c bad) s =
      .next (((s.updVault c fun x => { x with scrub := none }).clearMem (vaultLoc c 0) (vaultLoc c (2 ^ 27))).answerAt c' k'
        n' i (.val 0))))

/-- The steps of a turnover (R61-R72), in their order: the start quiesces the module; each step sets STATE as it begins, and
then has its effect: the scrub and the health test leave every vault byte zero; the hardware clear leaves TCMs and square
memories zero and every core at its reset state; hardware control begins with step 5; firmware and the configuration accepted before the start are taken; the
report makes the module ready, counting a turnover that did not fail. (Two steps of the machine for one of Table 4.1: the
model's choice, log 79.)
(COUNT, the ways a turnover ends, and what of the host is under way at its start: log 30.) -/
def Obligations.TurnoverSteps : Prop :=
  ∀ (s : State) (bad again spare : List RowName) (sc pc : FwImage) (lo hi : BitVec 256) (serial : Word),
    (s.mayTurnover = true → exec (.turnoverCmd 7) s = .next (s.beginTurnover s.mgmt.tenantReg)) ∧
    ((s.beginTurnover serial).mgmt.state = 1 ∧ (s.beginTurnover serial).mgmt.tenant = serial ∧
      (s.beginTurnover serial).mgmt.running = true ∧ (s.beginTurnover serial).net = [] ∧
      (∀ q, q < 16 → ((s.beginTurnover serial).svc q).held = true)) ∧
    (∀ i ph n, (i, ph, n) ∈ [(Instr.turnoverScrub bad, Phase.quiesced, 2), (.turnoverClear, .scrubbed, 3),
        (.turnoverHealth bad again spare, .cleared, 4), (.turnoverAttest lo hi serial, .loaded, 6)] → s.mgmt.phase = ph → s.mgmt.state < n →
      exec i s = .next { s with mgmt := { s.mgmt with state := n } }) ∧
    (s.mgmt.phase = .tested → s.mgmt.state < 5 → ∃ t, exec (.turnoverFirmware sc pc) s = .next t ∧
      t.mgmt = { s.mgmt with state := 5 } ∧ t.mem = s.mem ∧ ∀ d, d < 4 → (t.die d).hw = true) ∧
    (s.mgmt.phase = .quiesced → 2 ≤ s.mgmt.state → ∃ t, exec (.turnoverScrub bad) s = .next t ∧
      t.mgmt.phase = .scrubbed ∧ t.mgmt.state = s.mgmt.state ∧ (∀ a, a < 2 ^ 39 → t.byte a = 0) ∧
      (∀ a, 2 ^ 39 ≤ a → t.byte a = s.byte a)) ∧
    (s.mgmt.phase = .scrubbed → 3 ≤ s.mgmt.state → ∃ t, exec .turnoverClear s = .next t ∧ t.mgmt.phase = .cleared ∧
      t.mgmt.state = s.mgmt.state ∧ t.cores = [] ∧ t.waiters = [] ∧ t.power.extra = 0 ∧
      (∀ a, 2 ^ 39 ≤ a → a < 2 ^ 41 → t.byte a = 0) ∧ (∀ a, a < 2 ^ 39 → t.byte a = s.byte a)) ∧
    (s.mgmt.phase = .cleared → 4 ≤ s.mgmt.state → ∃ t, exec (.turnoverHealth bad again spare) s = .next t ∧
      t.mgmt.phase = .tested ∧ t.mgmt.state = s.mgmt.state ∧ (∀ a, a < 2 ^ 39 → t.byte a = 0) ∧
      (∀ a, 2 ^ 39 ≤ a → t.byte a = s.byte a)) ∧
    (s.mgmt.phase = .tested → 5 ≤ s.mgmt.state → ∃ t, exec (.turnoverFirmware sc pc) s = .next t ∧
      t.mgmt.phase = .loaded ∧ t.mgmt.scfw = sc.digest ∧ t.mgmt.pcfw = pc.digest ∧
      t.mgmt.config = s.mgmt.configDue.getD s.mgmt.config ∧ (t.mgmt.fail = 0 → t.mgmt.state = 5) ∧
      (t.mgmt.fail ≠ 0 → t.mgmt.state = 9) ∧ (sc.sigOk = false → t.mgmt.fail = 1 ∧ t.mgmt.fwok = false) ∧
      (∀ d, d < 4 → (t.die d).hw = true)) ∧
    (s.mgmt.phase = .loaded → 6 ≤ s.mgmt.state → ∃ t, exec (.turnoverAttest lo hi serial) s = .next t ∧
      t.mgmt.phase = .ready ∧ t.mgmt.running = false ∧
      (s.mgmt.fail = 0 → t.mgmt.state = 8 ∧ t.mgmt.count = s.mgmt.count + 1) ∧
      (s.mgmt.fail ≠ 0 → t.mgmt.state = 9 ∧ t.mgmt.count = s.mgmt.count))

/-! ## Addresses and translation -/

/-- The checks of an access (R148), in their order: each fault is raised exactly when its own check fails and every check
before it passes, with the address BASE + offset; an access that passes them all has the effective address BASE + offset. An
access in a hole of the mesh-coordinate space (R155) is one in a hole. -/
def Obligations.AddressChecks : Prop :=
  ∀ (a : Who) (k off n u ea : Nat) (kind : AKind) (g : BitVec 128) (r : Region),
    g = Tab.rd 0 a.segs k → ea = segBase g + off → r = regionOf (isSvc a.core) ea → 0 < n →
    (segBit g 111 = true → a.priv = false → address a k off n u kind = .error { cause := 0x27, addr := ea % 2 ^ 56 }) ∧
    ((segBit g 111 = false ∨ a.priv = true) →
      ((2 ^ 48 ≤ off ∨ segLimit g < off + n - 1) →
        address a k off n u kind = .error { cause := 0x20, addr := ea % 2 ^ 56 }) ∧
      (off < 2 ^ 48 → off + n - 1 ≤ segLimit g →
        (segRights kind g = false → address a k off n u kind = .error { cause := 0x22, addr := ea % 2 ^ 56 }) ∧
        (segRights kind g = true →
          (2 ^ 56 ≤ ea + n - 1 → address a k off n u kind = .error { cause := 0x21, addr := ea % 2 ^ 56 }) ∧
          (ea + n - 1 < 2 ^ 56 →
            (ea % u ≠ 0 → address a k off n u kind = .error { cause := 0x25, addr := ea }) ∧
            (ea % u = 0 →
              (r ≠ regionOf (isSvc a.core) (ea + n - 1) →
                address a k off n u kind = .error { cause := 0x28, addr := ea }) ∧
              (r = regionOf (isSvc a.core) (ea + n - 1) →
                ((∃ h, r = .hole h) → address a k off n u kind = .error { cause := 0x26, addr := ea }) ∧
                ((r = .tcm ∨ r = .virt) → address a k off n u kind = .ok ea) ∧
                (r = .square → address a k off n u kind =
                  if kind = .fetch then .error { cause := 0x29, addr := ea } else .ok ea) ∧
                ((∃ v, r = .view v) → address a k off n u kind =
                  if segBit g 109 = false then .error { cause := 0x23, addr := ea }
                  else if kind = .fetch then .error { cause := 0x29, addr := ea } else .ok ea) ∧
                (r = .mesh → (meshHole ea = true ∨ meshHole (ea + n - 1) = true) →
                  address a k off n u kind = .error { cause := 0x26, addr := ea }) ∧
                (r = .mesh → meshHole ea = false → meshHole (ea + n - 1) = false → address a k off n u kind =
                  if segBit g 110 = false then .error { cause := 0x23, addr := ea }
                  else if kind = .fetch then .error { cause := 0x29, addr := ea } else .ok ea)))))))

/-- Translation (R163-R168). One level of a walk: a table outside the package's vaults or in a layer that is off faults with
0x3F, a poisoned entry with 0x37, an entry that is not valid with 0x30 and the kind, a malformed one with 0x37; a leaf ends the
walk with its page size, a pointer goes on; the walk waits while a table's layer powers on (R162; how it waits: log 32). An access changes nothing but the TLB of its core and the rows that its walk
opens (R158). -/
def Obligations.TranslationWalk : Prop :=
  ∀ (s : State) (a : Who) (va lvl t base e n u lanes : Nat) (kind : AKind) (ls : List Nat) (tok : Word) (w : Bool)
    (o : Option Nat),
    (physLoc t = none → walkFrom s va kind (lvl :: ls) t = .error { cause := 0x3F, addr := va }) ∧
    (physLoc t = some base →
      (s.layerOff base = true → walkFrom s va kind (lvl :: ls) t = .error { cause := 0x3F, addr := va }) ∧
      (s.layerOff base = false → s.layerBusy base = true →
        walkFrom s va kind (lvl :: ls) t = .error (walkWaits va)) ∧
      (s.layerOff base = false → s.layerBusy base = false → s.mem.isPois (base + pageIndex va lvl * 8) = true →
        walkFrom s va kind (lvl :: ls) t = .error { cause := 0x37, addr := va, maddr := 1 }) ∧
      (s.layerOff base = false → s.layerBusy base = false → s.mem.isPois (base + pageIndex va lvl * 8) = false →
        e = s.rdMem (base + pageIndex va lvl * 8) 8 →
        (e.testBit 63 = false → walkFrom s va kind (lvl :: ls) t = .error { cause := 0x30 + kind.code, addr := va }) ∧
        (e.testBit 63 = true → malformed e lvl = true →
          walkFrom s va kind (lvl :: ls) t = .error { cause := 0x37, addr := va }) ∧
        (e.testBit 63 = true → malformed e lvl = false → e.testBit 62 = true →
          walkFrom s va kind (lvl :: ls) t = .ok (e, if lvl = 3 then 2 ^ 21 else 2 ^ 16)) ∧
        (e.testBit 63 = true → malformed e lvl = false → e.testBit 62 = false →
          walkFrom s va kind (lvl :: ls) t = walkFrom s va kind ls (bits e 39 0)))) ∧
    s.sameButTlb (translate s a va kind).2 ∧ s.sameButTlb (ordAccess s a tok n u kind w lanes o).2

/-- What a leaf grants (R167), whether a walk or the TLB gave it: an access whose page rights of Table 8.3 it holds, with U set
for an unprivileged thread, at PKG, CORE and OFFSET plus the address within the page; any other faults with 0x38 and its
kind. -/
def Obligations.LeafRule : Prop :=
  ∀ (s : State) (a : Who) (va e size : Nat) (kind : AKind),
    ((tlbFind (s.core a.core).tlb a.root va = none ∧ walk s a.root va kind = .ok (e, size)) ∨
      (∃ t, tlbFind (s.core a.core).tlb a.root va = some t ∧ t.leaf.toNat = e ∧ t.size = size)) →
    ∀ grants : Prop,
      (grants ↔ ((kind = .load ∨ kind = .atomic ∨ kind = .rload ∨ kind = .ratomic ∨ kind = .engRead) →
          e.testBit 61 = true) ∧
        ((kind = .store ∨ kind = .atomic ∨ kind = .rstore ∨ kind = .ratomic ∨ kind = .engWrite) → e.testBit 60 = true) ∧
        (kind = .fetch → e.testBit 59 = true) ∧ (a.priv = false → e.testBit 58 = true)) →
      (¬grants → (translate s a va kind).1 = .error { cause := 0x38 + kind.code, addr := va }) ∧
      (grants → (translate s a va kind).1 = .ok (if bits e 55 48 = s.pkg
        then .here (vaultLoc (bits e 39 28) (bits e 26 0 + va % size))
        else .far (bits e 55 48) (bits e 39 28) (bits e 26 0 + va % size)))

/-- A malformed page-table entry (R166), V being set: a reserved bit set; a leaf above level 3 or a pointer at level 4; a
pointer with a right, U or PKG set, or an offset not aligned to the table of the next level; a leaf with an offset not aligned
to its page. -/
def Obligations.MalformedEntryRule : Prop :=
  ∀ (e lvl : Nat), lvl < 5 →
    (malformed e lvl = true ↔
      (∃ b, ((56 ≤ b ∧ b ≤ 57) ∨ (40 ≤ b ∧ b ≤ 47) ∨ b = 27) ∧ e.testBit b = true) ∨
      (e.testBit 62 = true ∧ lvl < 3) ∨ (e.testBit 62 = false ∧ lvl = 4) ∨
      (e.testBit 62 = false ∧ ∃ b, ((58 ≤ b ∧ b ≤ 61) ∨ (48 ≤ b ∧ b ≤ 55)) ∧ e.testBit b = true) ∨
      (e.testBit 62 = false ∧ e % 2 ^ 27 % (if lvl < 2 then 4096 else if lvl = 2 then 2048 else 256) ≠ 0) ∨
      (e.testBit 62 = true ∧ lvl = 4 ∧ e % 2 ^ 16 ≠ 0) ∨ (e.testBit 62 = true ∧ lvl = 3 ∧ e % 2 ^ 21 ≠ 0))

/-! ## Issue, routes, and what read buffers may answer -/

/-- Issue (R119, R342): in a core cycle a core issues at most four of its ready instructions, all of them where they are no
more than four; an instruction that has issued takes no place again (R120); the vector unit of a square serves one core and one vector instruction, and serves one wherever one is
ready. Where the granted instruction is beyond the fourth it takes the fourth place: the model's reading, log 3.
The path between two dies (R13): none within a die, one edge to a neighbour, and to the diagonal die first the horizontal
edge and then the vertical one.
What a port's read buffer may answer (R179, R187, R192): a thread gets a buffer's value only where it observes no write
that the buffer has missed; after FENCE.XP none that has missed any; it observes the writes of a word that it has read at its
home; and no buffer of a word outlives a write of it on the ordinary path. (How the model follows who observes what: log
75.) -/
def Obligations.IssueAndReadBuffers : Prop :=
  (∀ (s : State) (q c c' : Nat) (w w' : Nat × Nat) (g : Option (Nat × Nat)), g = s.granted q →
    (s.issues g c).length ≤ 4 ∧ (w ∈ s.issues g c → w ∈ s.readyUnder g c ∧ w ∈ s.readyList c) ∧
    ((s.readyUnder g c).length ≤ 4 → s.issues g c = s.readyUnder g c) ∧
    (w ∈ s.readyList c → s.isVector c w = false → w ∈ s.readyUnder g c) ∧
    (w ∈ s.readyList c → w.2 ∉ (s.slot c w.1).frame.issued) ∧
    (w ∈ s.issues g c → w' ∈ s.issues g c' → s.isVector c w = true → s.isVector c' w' = true → c = c' ∧ w = w') ∧
    (c ∈ routerCores q → w ∈ s.readyList c → s.isVector c w = true →
      ∃ e, g = some e ∧ e.1 ∈ routerCores q ∧ ∃ v ∈ s.issues g e.1, s.isVector e.1 v = true)) ∧
  (∀ a b : Nat, a < 4 → b < 4 →
    (a = b → dieRoute a b = []) ∧
    (a ≠ b → (a % 2 = b % 2 ∨ a / 2 = b / 2) → dieRoute a b = [b]) ∧
    (a % 2 ≠ b % 2 → a / 2 ≠ b / 2 → dieRoute a b = [b % 2 + 2 * (a / 2), b])) ∧
  (∀ (s : State) (c t loc : Nat) (b : ReadBuf) (w : AsyncWrite) (ls : List Nat),
    (s.bufFor c t loc = some b → b ∈ s.readBufs ∧ b.core = c ∧ b.loc = wordLoc loc ∧
      (w ∈ s.async → w.n ∈ b.after → t ∉ w.acq) ∧
      s.portByte c t loc = BitVec.ofNat 8 (b.v.toNat / 2 ^ (8 * (loc % 8)))) ∧
    (s.bufFor c t loc = none → s.portByte c t loc = s.byte loc) ∧
    ((s.fenceXp t).bufFor c t loc = some b → w ∈ s.async → w.n ∉ b.after) ∧
    (w ∈ (s.noteRead none t loc).async → w.loc = wordLoc loc → t ∈ w.acq) ∧
    (b ∈ (s.dropReadBufs ls).readBufs ↔ b ∈ s.readBufs ∧ ∀ l ∈ ls, wordLoc l ≠ b.loc))

/-! ## Reset and the invariant of memory -/

/-- The machine at module reset (R22): held, the timestamp 0, memory in its canonical form, every slot FREE with WAIT and TSW
zero, the registers of Tables 6.2, 6.3, 8.5 and 8.12 at their reset values. That every byte reads 0 is the model's choice
(log 2), that the general registers do too (log 1). -/
def Obligations.ResetState : Prop :=
  State.reset.mgmt.phase = .held ∧ State.reset.time = 0 ∧ Safe State.reset ∧ (∀ a, State.reset.byte a = 0) ∧
  (∀ c k, (State.reset.slot c k).st = .free ∧ (State.reset.slot c k).ctx.tsw = 0 ∧ (State.reset.slot c k).ctx.wait = 0 ∧
    ∀ r, (State.reset.slot c k).ctx.reg r = 0) ∧
  (∀ q, (State.reset.square q).ibud = 0xFFFF ∧ (State.reset.square q).cap = 28 ∧ (State.reset.square q).cur = 8 ∧
    (State.reset.square q).tgt = 8 ∧ (State.reset.square q).stretch = 0) ∧
  (∀ d, (State.reset.die d).hard = 1500000 ∧ (State.reset.die d).soft = 1200000 ∧ (State.reset.die d).tref = 95 ∧
    (State.reset.die d).dqbase = 0) ∧
  (∀ c, (State.reset.vault c).on = 0xFF ∧ (State.reset.vault c).busy = 0 ∧ (State.reset.vault c).lock = 0 ∧
    (State.reset.vault c).wovf = 0)

/-- Every step keeps memory in its canonical form, from every state that has it, whatever it executes: addresses strictly
rise, and no byte, full/empty bit or poison bit is listed with the value that an unlisted one has. The form is the model's
(log 2); what rests on it is that equal memories are equal data. -/
def Obligations.StepKeepsMemoryCanonical : Prop :=
  ∀ s t : State, Safe s → step s = .next t → Safe t
end

