-- ==== Sys2Proof/Laws/Memory.lean ====
section
/-!
SUPPORT. Tables and memory: a read after a write, what a write leaves, and that every memory operation keeps the canonical
form (log 2).
-/

set_option Elab.async false

namespace Sys2Proof.Laws

open Sys2Proof.Machine

variable {α : Type}

/-! ## Tables -/

theorem rd_put_same (d : α) (t : Tab α) (k : Nat) (v : α) : Tab.rd d (t.put k v) k = v := by
  induction t with
  | nil => simp [Tab.put, Tab.rd]
  | cons e t ih =>
    obtain ⟨k', v'⟩ := e
    unfold Tab.put
    split
    · simp [Tab.rd]
    · split
      · simp [Tab.rd]
      · rename_i h; simp [Tab.rd, Ne.symm h, ih]

theorem rd_put_other (d : α) (t : Tab α) {k j : Nat} (v : α) (h : j ≠ k) : Tab.rd d (t.put k v) j = Tab.rd d t j := by
  induction t with
  | nil => simp [Tab.put, Tab.rd, Ne.symm h]
  | cons e t ih =>
    obtain ⟨k', v'⟩ := e
    unfold Tab.put
    split
    · simp [Tab.rd, Ne.symm h]
    · split
      · rename_i e; subst e; simp [Tab.rd, Ne.symm h]
      · simp [Tab.rd, ih]

theorem find_put_same (t : Tab α) (k : Nat) (v : α) : (t.put k v).find? k = some v := by
  induction t with
  | nil => simp [Tab.put, Tab.find?]
  | cons e t ih =>
    obtain ⟨k', v'⟩ := e
    unfold Tab.put
    split
    · simp [Tab.find?]
    · split
      · simp [Tab.find?]
      · rename_i h; simp [Tab.find?, Ne.symm h, ih]

theorem find_put_other (t : Tab α) {k j : Nat} (v : α) (h : j ≠ k) : (t.put k v).find? j = t.find? j := by
  induction t with
  | nil => simp [Tab.put, Tab.find?, Ne.symm h]
  | cons e t ih =>
    obtain ⟨k', v'⟩ := e
    unfold Tab.put
    split
    · simp [Tab.find?, Ne.symm h]
    · split
      · rename_i e; subst e; simp [Tab.find?, Ne.symm h]
      · simp [Tab.find?, ih]

theorem rd_upd_same (d : α) (t : Tab α) (k : Nat) (f : α → α) : Tab.rd d (Tab.upd d t k f) k = f (Tab.rd d t k) :=
  rd_put_same d t k _

theorem rd_upd_other (d : α) (t : Tab α) {k j : Nat} (f : α → α) (h : j ≠ k) :
    Tab.rd d (Tab.upd d t k f) j = Tab.rd d t j := rd_put_other d t _ h

/-- Below the lowest key, a rising table lists nothing. -/
theorem rd_below (d : α) {t : Tab α} {b k : Nat} (h : Tab.risesFrom (some b) t = true) (hk : k ≤ b) : Tab.rd d t k = d := by
  induction t generalizing b with
  | nil => rfl
  | cons e t ih =>
    obtain ⟨k', v'⟩ := e
    simp only [Tab.risesFrom, Bool.and_eq_true, decide_eq_true_eq] at h
    have : k' ≠ k := by omega
    simp only [Tab.rd, this, if_false]
    exact ih h.2 (by omega)

/-- A rising table rises from nothing and from any lower bound. -/
theorem rises_weaken {t : Tab α} {b c : Nat} (h : Tab.risesFrom (some b) t = true) (hc : c ≤ b) :
    Tab.risesFrom (some c) t = true := by
  cases t with
  | nil => rfl
  | cons e t =>
    obtain ⟨k', v'⟩ := e
    simp only [Tab.risesFrom, Bool.and_eq_true, decide_eq_true_eq] at h ⊢
    exact ⟨by omega, h.2⟩

theorem rises_none {t : Tab α} {b : Nat} (h : Tab.risesFrom (some b) t = true) : Tab.risesFrom none t = true := by
  cases t with
  | nil => rfl
  | cons e t =>
    obtain ⟨k', v'⟩ := e
    simp only [Tab.risesFrom, Bool.and_eq_true] at h ⊢
    exact h.2

theorem rises_put {b k : Nat} {t : Tab α} (v : α) (h : Tab.risesFrom (some b) t = true) (hk : b < k) :
    Tab.risesFrom (some b) (t.put k v) = true := by
  induction t generalizing b with
  | nil => simp [Tab.put, Tab.risesFrom, hk]
  | cons e t ih =>
    obtain ⟨k', v'⟩ := e
    simp only [Tab.risesFrom, Bool.and_eq_true, decide_eq_true_eq] at h
    unfold Tab.put
    split
    · simp [Tab.risesFrom, *]
    · split
      · rename_i e; subst e; simp [Tab.risesFrom, h]
      · simp only [Tab.risesFrom, Bool.and_eq_true, decide_eq_true_eq]
        exact ⟨h.1, ih h.2 (by omega)⟩

theorem rises_del {b : Nat} {t : Tab α} (k : Nat) (h : Tab.risesFrom (some b) t = true) :
    Tab.risesFrom (some b) (t.del k) = true := by
  induction t generalizing b with
  | nil => rfl
  | cons e t ih =>
    obtain ⟨k', v'⟩ := e
    simp only [Tab.risesFrom, Bool.and_eq_true, decide_eq_true_eq] at h
    unfold Tab.del
    split
    · exact rises_weaken h.2 (by omega)
    · simp only [Tab.risesFrom, Bool.and_eq_true, decide_eq_true_eq]
      exact ⟨h.1, ih h.2⟩

theorem rises_filter {b : Nat} {t : Tab α} (p : Nat × α → Bool) (h : Tab.risesFrom (some b) t = true) :
    Tab.risesFrom (some b) (t.filter p) = true := by
  induction t generalizing b with
  | nil => rfl
  | cons e t ih =>
    obtain ⟨k', v'⟩ := e
    simp only [Tab.risesFrom, Bool.and_eq_true, decide_eq_true_eq] at h
    simp only [List.filter_cons]
    split
    · simp only [Tab.risesFrom, Bool.and_eq_true, decide_eq_true_eq]
      exact ⟨h.1, ih h.2⟩
    · exact rises_weaken (ih h.2) (by omega)

theorem mem_put {t : Tab α} {k : Nat} {v : α} {e : Nat × α} (h : e ∈ t.put k v) : e = (k, v) ∨ e ∈ t := by
  induction t with
  | nil => simpa [Tab.put] using h
  | cons x t ih =>
    obtain ⟨k', v'⟩ := x
    unfold Tab.put at h
    split at h
    · simpa using h
    · split at h
      · rcases List.mem_cons.1 h with h | h
        · exact .inl h
        · exact .inr (List.mem_cons_of_mem _ h)
      · rcases List.mem_cons.1 h with h | h
        · exact .inr (h ▸ List.mem_cons_self)
        · exact (ih h).imp id (List.mem_cons_of_mem _)

theorem mem_del {t : Tab α} {k : Nat} {e : Nat × α} (h : e ∈ t.del k) : e ∈ t := by
  induction t with
  | nil => exact h
  | cons x t ih =>
    obtain ⟨k', v'⟩ := x
    unfold Tab.del at h
    split at h
    · exact List.mem_cons_of_mem _ h
    · rcases List.mem_cons.1 h with h | h
      · exact h ▸ List.mem_cons_self
      · exact List.mem_cons_of_mem _ (ih h)

/-- Deleting a key of a rising table leaves nothing under it. -/
theorem rd_del_same (d : α) {t : Tab α} (k : Nat) (h : Tab.risesFrom none t = true) : Tab.rd d (t.del k) k = d := by
  induction t with
  | nil => rfl
  | cons e t ih =>
    obtain ⟨k', v'⟩ := e
    simp only [Tab.risesFrom] at h
    unfold Tab.del
    split
    · rename_i e; subst e; exact rd_below d h le_rfl
    · rename_i e; simp only [Tab.rd, e, if_false]; exact ih (rises_none h)

theorem rd_del_other (d : α) (t : Tab α) {k j : Nat} (h : j ≠ k) : Tab.rd d (t.del k) j = Tab.rd d t j := by
  induction t with
  | nil => rfl
  | cons e t ih =>
    obtain ⟨k', v'⟩ := e
    unfold Tab.del
    split
    · rename_i e; subst e; simp [Tab.rd, Ne.symm h]
    · simp [Tab.rd, ih]

variable [DecidableEq α]

/-- The canonical write keeps the canonical form. -/
theorem canon_set {d : α} {t : Tab α} (k : Nat) (v : α) (h : Tab.canon d t = true) : Tab.canon d (Tab.set d t k v) = true := by
  simp only [Tab.canon, Bool.and_eq_true, List.all_eq_true, decide_eq_true_eq] at h ⊢
  unfold Tab.set
  split
  · refine ⟨?_, fun e he => h.2 e (mem_del he)⟩
    cases t with
    | nil => rfl
    | cons e t =>
      obtain ⟨k', v'⟩ := e
      have h1 : Tab.risesFrom (some k') t = true := h.1
      unfold Tab.del
      split
      · exact rises_none h1
      · exact rises_del k h1
  · rename_i hv
    refine ⟨?_, fun e he => (mem_put he).elim (fun q => q ▸ hv) (h.2 e)⟩
    cases t with
    | nil => rfl
    | cons e t =>
      obtain ⟨k', v'⟩ := e
      have h1 : Tab.risesFrom (some k') t = true := h.1
      unfold Tab.put
      split
      · simp [Tab.risesFrom, *]
      · split
        · rename_i q; subst q; exact h1
        · exact rises_put v h1 (by omega)

/-- Leaving entries out keeps the canonical form. -/
theorem canon_filter {d : α} {t : Tab α} (p : Nat × α → Bool) (h : Tab.canon d t = true) :
    Tab.canon d (t.filter p) = true := by
  simp only [Tab.canon, Bool.and_eq_true, List.all_eq_true, decide_eq_true_eq] at h ⊢
  refine ⟨?_, fun e he => h.2 e (List.mem_of_mem_filter he)⟩
  cases t with
  | nil => rfl
  | cons e t =>
    obtain ⟨k', v'⟩ := e
    have h1 : Tab.risesFrom (some k') t = true := h.1
    simp only [List.filter_cons]
    split
    · exact rises_filter p h1
    · exact rises_none (rises_filter p h1)

theorem rd_set_same {d : α} {t : Tab α} (k : Nat) (v : α) (h : Tab.canon d t = true) : Tab.rd d (Tab.set d t k v) k = v := by
  simp only [Tab.canon, Bool.and_eq_true] at h
  unfold Tab.set
  split
  · rename_i e; subst e; exact rd_del_same v k h.1
  · exact rd_put_same d t k v

theorem rd_set_other {d : α} (t : Tab α) {k j : Nat} (v : α) (h : j ≠ k) :
    Tab.rd d (Tab.set d t k v) j = Tab.rd d t j := by
  unfold Tab.set
  split
  · exact rd_del_other d t h
  · exact rd_put_other d t v h

/-! ## Memory -/

theorem wf_iff {m : Memory} : m.wf = true ↔
    Tab.canon 0 m.bytes = true ∧ Tab.canon false m.full = true ∧ Tab.canon false m.pois = true := by
  simp [Memory.wf, and_assoc]

theorem wf_setByte {m : Memory} (loc : Nat) (b : Byte) (h : m.wf = true) : (m.setByte loc b).wf = true :=
  wf_iff.2 ⟨canon_set loc b (wf_iff.1 h).1, (wf_iff.1 h).2⟩

theorem wf_setFull {m : Memory} (loc : Nat) (b : Bool) (h : m.wf = true) : (m.setFull loc b).wf = true :=
  wf_iff.2 ⟨(wf_iff.1 h).1, canon_set _ b (wf_iff.1 h).2.1, (wf_iff.1 h).2.2⟩

theorem wf_setPois {m : Memory} (loc : Nat) (b : Bool) (h : m.wf = true) : (m.setPois loc b).wf = true :=
  wf_iff.2 ⟨(wf_iff.1 h).1, (wf_iff.1 h).2.1, canon_set _ b (wf_iff.1 h).2.2⟩

theorem wf_clear {m : Memory} (lo hi : Nat) (h : m.wf = true) : (m.clear lo hi).wf = true :=
  wf_iff.2 ⟨canon_filter _ (wf_iff.1 h).1, canon_filter _ (wf_iff.1 h).2.1, canon_filter _ (wf_iff.1 h).2.2⟩

theorem wf_write {m : Memory} (loc n v : Nat) (h : m.wf = true) : (m.write loc n v).wf = true := by
  induction n generalizing m loc v with
  | zero => exact h
  | succ n ih => exact ih _ _ (wf_setByte _ _ h)

theorem wf_putCells {m : Memory} (cs : Cells) (h : m.wf = true) : (m.putCells cs).wf = true := by
  induction cs generalizing m with
  | nil => exact h
  | cons c cs ih => exact ih (wf_setByte _ _ h)

theorem byte_setByte_same {m : Memory} (loc : Nat) (b : Byte) (h : m.wf = true) : (m.setByte loc b).byte loc = b :=
  rd_set_same loc b (wf_iff.1 h).1

theorem byte_setByte_other (m : Memory) {loc a : Nat} (b : Byte) (h : a ≠ loc) : (m.setByte loc b).byte a = m.byte a :=
  rd_set_other m.bytes b h

/-- A write leaves every byte outside its range. -/
theorem byte_write_outside (m : Memory) (loc n v : Nat) {a : Nat} (h : a < loc ∨ loc + n ≤ a) :
    (m.write loc n v).byte a = m.byte a := by
  induction n generalizing m loc v with
  | zero => rfl
  | succ n ih =>
    show ((m.setByte loc _).write (loc + 1) n _).byte a = _
    rw [ih _ _ _ (by omega), byte_setByte_other _ _ (by omega)]

/-- A write puts each byte of its value at its place, little-endian (R4). -/
theorem byte_write_inside {m : Memory} (loc n v i : Nat) (h : m.wf = true) (hi : i < n) :
    (m.write loc n v).byte (loc + i) = BitVec.ofNat 8 (v / 256 ^ i) := by
  induction n generalizing m loc v i with
  | zero => omega
  | succ n ih =>
    show ((m.setByte loc _).write (loc + 1) n _).byte (loc + i) = _
    cases i with
    | zero => rw [byte_write_outside _ _ _ _ (by omega)]; simpa using byte_setByte_same loc (BitVec.ofNat 8 v) h
    | succ i =>
      have := ih (loc + 1) (v / 256) i (wf_setByte loc (BitVec.ofNat 8 v) h) (by omega)
      rw [show loc + (i + 1) = loc + 1 + i by omega, this, Nat.div_div_eq_div_mul, pow_succ, Nat.mul_comm]

/-- What was written is read, modulo the range's size. -/
theorem read_write_same {m : Memory} (loc n v : Nat) (h : m.wf = true) : (m.write loc n v).read loc n = v % 256 ^ n := by
  induction n generalizing m loc v with
  | zero => simp [Memory.read, Nat.mod_one]
  | succ n ih =>
    show (((m.setByte loc _).write (loc + 1) n _).byte loc).toNat +
      256 * ((m.setByte loc _).write (loc + 1) n _).read (loc + 1) n = _
    rw [ih _ _ (wf_setByte _ _ h), byte_write_outside _ _ _ _ (by omega), byte_setByte_same _ _ h, pow_succ]
    simp only [BitVec.toNat_ofNat]
    rw [Nat.mul_comm (256 ^ n) 256, Nat.mod_mul]

/-- Reads agree where the bytes do. -/
theorem read_congr {m m' : Memory} {loc n : Nat} (h : ∀ a, loc ≤ a → a < loc + n → m'.byte a = m.byte a) :
    m'.read loc n = m.read loc n := by
  induction n generalizing loc with
  | zero => rfl
  | succ n ih =>
    show (m'.byte loc).toNat + 256 * m'.read (loc + 1) n = (m.byte loc).toNat + 256 * m.read (loc + 1) n
    rw [h loc le_rfl (by omega), ih fun a h1 h2 => h a (by omega) (by omega)]

/-- A write leaves a read elsewhere. -/
theorem read_write_outside (m : Memory) {loc n l k : Nat} (v : Nat) (h : l + k ≤ loc ∨ loc + n ≤ l) :
    (m.write loc n v).read l k = m.read l k :=
  read_congr fun a h1 h2 => byte_write_outside m loc n v (by omega)

theorem write_full (m : Memory) (loc n v : Nat) : (m.write loc n v).full = m.full := by
  induction n generalizing m loc v with
  | zero => rfl
  | succ n ih => exact ih _ _ _

theorem write_pois (m : Memory) (loc n v : Nat) : (m.write loc n v).pois = m.pois := by
  induction n generalizing m loc v with
  | zero => rfl
  | succ n ih => exact ih _ _ _

/-! ## The state's operations on memory keep it safe -/

theorem safe_reset : Safe State.reset := by rfl

theorem safe_wrMem {s : State} (loc n v : Nat) (h : Safe s) : Safe (s.wrMem loc n v) := wf_write loc n v h

theorem safe_wrWord {s : State} (loc : Nat) (v : Word) (h : Safe s) : Safe (s.wrWord loc v) :=
  wf_setPois loc false (wf_write loc 8 v.toNat h)

theorem safe_setFull {s : State} (loc : Nat) (b : Bool) (h : Safe s) : Safe (s.setFull loc b) := wf_setFull loc b h

theorem safe_setPois {s : State} (loc : Nat) (b : Bool) (h : Safe s) : Safe (s.setPois loc b) := wf_setPois loc b h

theorem safe_clearMem {s : State} (lo hi : Nat) (h : Safe s) : Safe (s.clearMem lo hi) := wf_clear lo hi h

/-- Whatever leaves memory leaves it safe. -/
theorem safe_of_mem {s t : State} (e : t.mem = s.mem) (h : Safe s) : Safe t := by unfold Safe; rw [e]; exact h

/-- Writing bytes word by word keeps memory safe. -/
theorem safe_writeCells {s : State} (cs : Cells) (h : Safe s) : Safe (s.writeCells cs).2 := by
  unfold State.writeCells
  generalize byWord (cs.map (·.1)) = ws
  have key : ∀ (ws : List (List Nat)) (r : List Nat × State), Safe r.2 → Safe (ws.foldl (fun (r : List Nat × State) ls =>
      let s := r.2
      let l := wordLoc (ls.headD 0)
      let whole := (List.range 8).all fun i => cs.any fun c => c.1 == l + i && c.2.2
      if s.mem.isPois l && !whole then (r.1 ++ [l], s)
      else
        let m := ls.foldl (fun (m : Memory) x => m.setByte x (((cs.find? (·.1 == x)).map (·.2.1)).getD 0)) s.mem
        (r.1, { s with mem := if whole then m.setPois l false else m })) r).2 := by
    intro ws
    induction ws with
    | nil => exact fun r hr => hr
    | cons w ws ih =>
      intro r hr
      refine ih _ ?_
      dsimp only
      split
      · exact hr
      · have hm : ∀ (ls : List Nat) (m : Memory), m.wf = true →
            (ls.foldl (fun (m : Memory) x => m.setByte x (((cs.find? (·.1 == x)).map (·.2.1)).getD 0)) m).wf = true := by
          intro ls
          induction ls with
          | nil => exact fun m h => h
          | cons x ls ih => exact fun m h => ih _ (wf_setByte _ _ h)
        show Memory.wf _ = true
        split
        · exact wf_setPois _ _ (hm _ _ hr)
        · exact hm _ _ hr
  exact key ws _ h

/-- Reading a word back after writing it. -/
theorem rdWord_wrWord {s : State} (loc : Nat) (v : Word) (h : Safe s) : (s.wrWord loc v).rdWord loc = v := by
  have : ((s.mem.write loc 8 v.toNat).setPois loc false).read loc 8 = v.toNat % 256 ^ 8 :=
    (read_congr fun _ _ _ => rfl).trans (read_write_same loc 8 v.toNat h)
  show word (((s.mem.write loc 8 v.toNat).setPois loc false).read loc 8) = v
  rw [this]
  apply BitVec.eq_of_toNat_eq
  have := v.isLt
  simp only [word, BitVec.toNat_ofNat]
  omega

end Sys2Proof.Laws
end

