-- ==== Sys2Proof/Laws/State.lean ====
section
/-!
SUPPORT. The fields of the state after each update, one lemma per field; what the accessors read after an update.
-/

set_option Elab.async false

namespace Sys2Proof.Laws

open Sys2Proof.Machine

variable (s : State)

/-! ## updCore writes cores only -/

@[simp] theorem updCore_agenda (c : Nat) (f : Core → Core) : (s.updCore c f).agenda = s.agenda := rfl
@[simp] theorem updCore_cursor (c : Nat) (f : Core → Core) : (s.updCore c f).cursor = s.cursor := rfl
@[simp] theorem updCore_fresh (c : Nat) (f : Core → Core) : (s.updCore c f).fresh = s.fresh := rfl
@[simp] theorem updCore_serial (c : Nat) (f : Core → Core) : (s.updCore c f).serial = s.serial := rfl
@[simp] theorem updCore_time (c : Nat) (f : Core → Core) : (s.updCore c f).time = s.time := rfl
@[simp] theorem updCore_mem (c : Nat) (f : Core → Core) : (s.updCore c f).mem = s.mem := rfl
@[simp] theorem updCore_vaults (c : Nat) (f : Core → Core) : (s.updCore c f).vaults = s.vaults := rfl
@[simp] theorem updCore_squares (c : Nat) (f : Core → Core) : (s.updCore c f).squares = s.squares := rfl
@[simp] theorem updCore_districts (c : Nat) (f : Core → Core) : (s.updCore c f).districts = s.districts := rfl
@[simp] theorem updCore_dies (c : Nat) (f : Core → Core) : (s.updCore c f).dies = s.dies := rfl
@[simp] theorem updCore_ports (c : Nat) (f : Core → Core) : (s.updCore c f).ports = s.ports := rfl
@[simp] theorem updCore_svcs (c : Nat) (f : Core → Core) : (s.updCore c f).svcs = s.svcs := rfl
@[simp] theorem updCore_adapter (c : Nat) (f : Core → Core) : (s.updCore c f).adapter = s.adapter := rfl
@[simp] theorem updCore_mgmt (c : Nat) (f : Core → Core) : (s.updCore c f).mgmt = s.mgmt := rfl
@[simp] theorem updCore_power (c : Nat) (f : Core → Core) : (s.updCore c f).power = s.power := rfl
@[simp] theorem updCore_net (c : Nat) (f : Core → Core) : (s.updCore c f).net = s.net := rfl
@[simp] theorem updCore_waiters (c : Nat) (f : Core → Core) : (s.updCore c f).waiters = s.waiters := rfl
@[simp] theorem updCore_ro (c : Nat) (f : Core → Core) : (s.updCore c f).ro = s.ro := rfl
@[simp] theorem updCore_gathers (c : Nat) (f : Core → Core) : (s.updCore c f).gathers = s.gathers := rfl
@[simp] theorem updCore_readBufs (c : Nat) (f : Core → Core) : (s.updCore c f).readBufs = s.readBufs := rfl
@[simp] theorem updCore_async (c : Nat) (f : Core → Core) : (s.updCore c f).async = s.async := rfl
@[simp] theorem updCore_unack (c : Nat) (f : Core → Core) : (s.updCore c f).unack = s.unack := rfl
@[simp] theorem updCore_outTids (c : Nat) (f : Core → Core) : (s.updCore c f).outTids = s.outTids := rfl

/-! ## updSlot writes cores only -/

@[simp] theorem updSlot_agenda (c k : Nat) (f : Slot → Slot) : (s.updSlot c k f).agenda = s.agenda := rfl
@[simp] theorem updSlot_cursor (c k : Nat) (f : Slot → Slot) : (s.updSlot c k f).cursor = s.cursor := rfl
@[simp] theorem updSlot_fresh (c k : Nat) (f : Slot → Slot) : (s.updSlot c k f).fresh = s.fresh := rfl
@[simp] theorem updSlot_serial (c k : Nat) (f : Slot → Slot) : (s.updSlot c k f).serial = s.serial := rfl
@[simp] theorem updSlot_time (c k : Nat) (f : Slot → Slot) : (s.updSlot c k f).time = s.time := rfl
@[simp] theorem updSlot_mem (c k : Nat) (f : Slot → Slot) : (s.updSlot c k f).mem = s.mem := rfl
@[simp] theorem updSlot_vaults (c k : Nat) (f : Slot → Slot) : (s.updSlot c k f).vaults = s.vaults := rfl
@[simp] theorem updSlot_squares (c k : Nat) (f : Slot → Slot) : (s.updSlot c k f).squares = s.squares := rfl
@[simp] theorem updSlot_districts (c k : Nat) (f : Slot → Slot) : (s.updSlot c k f).districts = s.districts := rfl
@[simp] theorem updSlot_dies (c k : Nat) (f : Slot → Slot) : (s.updSlot c k f).dies = s.dies := rfl
@[simp] theorem updSlot_ports (c k : Nat) (f : Slot → Slot) : (s.updSlot c k f).ports = s.ports := rfl
@[simp] theorem updSlot_svcs (c k : Nat) (f : Slot → Slot) : (s.updSlot c k f).svcs = s.svcs := rfl
@[simp] theorem updSlot_adapter (c k : Nat) (f : Slot → Slot) : (s.updSlot c k f).adapter = s.adapter := rfl
@[simp] theorem updSlot_mgmt (c k : Nat) (f : Slot → Slot) : (s.updSlot c k f).mgmt = s.mgmt := rfl
@[simp] theorem updSlot_power (c k : Nat) (f : Slot → Slot) : (s.updSlot c k f).power = s.power := rfl
@[simp] theorem updSlot_net (c k : Nat) (f : Slot → Slot) : (s.updSlot c k f).net = s.net := rfl
@[simp] theorem updSlot_waiters (c k : Nat) (f : Slot → Slot) : (s.updSlot c k f).waiters = s.waiters := rfl
@[simp] theorem updSlot_ro (c k : Nat) (f : Slot → Slot) : (s.updSlot c k f).ro = s.ro := rfl
@[simp] theorem updSlot_gathers (c k : Nat) (f : Slot → Slot) : (s.updSlot c k f).gathers = s.gathers := rfl
@[simp] theorem updSlot_readBufs (c k : Nat) (f : Slot → Slot) : (s.updSlot c k f).readBufs = s.readBufs := rfl
@[simp] theorem updSlot_async (c k : Nat) (f : Slot → Slot) : (s.updSlot c k f).async = s.async := rfl
@[simp] theorem updSlot_unack (c k : Nat) (f : Slot → Slot) : (s.updSlot c k f).unack = s.unack := rfl
@[simp] theorem updSlot_outTids (c k : Nat) (f : Slot → Slot) : (s.updSlot c k f).outTids = s.outTids := rfl

/-! ## updFrame writes cores only -/

@[simp] theorem updFrame_agenda (c k : Nat) (f : Frame → Frame) : (s.updFrame c k f).agenda = s.agenda := rfl
@[simp] theorem updFrame_cursor (c k : Nat) (f : Frame → Frame) : (s.updFrame c k f).cursor = s.cursor := rfl
@[simp] theorem updFrame_fresh (c k : Nat) (f : Frame → Frame) : (s.updFrame c k f).fresh = s.fresh := rfl
@[simp] theorem updFrame_serial (c k : Nat) (f : Frame → Frame) : (s.updFrame c k f).serial = s.serial := rfl
@[simp] theorem updFrame_time (c k : Nat) (f : Frame → Frame) : (s.updFrame c k f).time = s.time := rfl
@[simp] theorem updFrame_mem (c k : Nat) (f : Frame → Frame) : (s.updFrame c k f).mem = s.mem := rfl
@[simp] theorem updFrame_vaults (c k : Nat) (f : Frame → Frame) : (s.updFrame c k f).vaults = s.vaults := rfl
@[simp] theorem updFrame_squares (c k : Nat) (f : Frame → Frame) : (s.updFrame c k f).squares = s.squares := rfl
@[simp] theorem updFrame_districts (c k : Nat) (f : Frame → Frame) : (s.updFrame c k f).districts = s.districts := rfl
@[simp] theorem updFrame_dies (c k : Nat) (f : Frame → Frame) : (s.updFrame c k f).dies = s.dies := rfl
@[simp] theorem updFrame_ports (c k : Nat) (f : Frame → Frame) : (s.updFrame c k f).ports = s.ports := rfl
@[simp] theorem updFrame_svcs (c k : Nat) (f : Frame → Frame) : (s.updFrame c k f).svcs = s.svcs := rfl
@[simp] theorem updFrame_adapter (c k : Nat) (f : Frame → Frame) : (s.updFrame c k f).adapter = s.adapter := rfl
@[simp] theorem updFrame_mgmt (c k : Nat) (f : Frame → Frame) : (s.updFrame c k f).mgmt = s.mgmt := rfl
@[simp] theorem updFrame_power (c k : Nat) (f : Frame → Frame) : (s.updFrame c k f).power = s.power := rfl
@[simp] theorem updFrame_net (c k : Nat) (f : Frame → Frame) : (s.updFrame c k f).net = s.net := rfl
@[simp] theorem updFrame_waiters (c k : Nat) (f : Frame → Frame) : (s.updFrame c k f).waiters = s.waiters := rfl
@[simp] theorem updFrame_ro (c k : Nat) (f : Frame → Frame) : (s.updFrame c k f).ro = s.ro := rfl
@[simp] theorem updFrame_gathers (c k : Nat) (f : Frame → Frame) : (s.updFrame c k f).gathers = s.gathers := rfl
@[simp] theorem updFrame_readBufs (c k : Nat) (f : Frame → Frame) : (s.updFrame c k f).readBufs = s.readBufs := rfl
@[simp] theorem updFrame_async (c k : Nat) (f : Frame → Frame) : (s.updFrame c k f).async = s.async := rfl
@[simp] theorem updFrame_unack (c k : Nat) (f : Frame → Frame) : (s.updFrame c k f).unack = s.unack := rfl
@[simp] theorem updFrame_outTids (c k : Nat) (f : Frame → Frame) : (s.updFrame c k f).outTids = s.outTids := rfl

/-! ## updCur writes cores only -/

@[simp] theorem updCur_agenda (f : Slot → Slot) : (s.updCur f).agenda = s.agenda := rfl
@[simp] theorem updCur_cursor (f : Slot → Slot) : (s.updCur f).cursor = s.cursor := rfl
@[simp] theorem updCur_fresh (f : Slot → Slot) : (s.updCur f).fresh = s.fresh := rfl
@[simp] theorem updCur_serial (f : Slot → Slot) : (s.updCur f).serial = s.serial := rfl
@[simp] theorem updCur_time (f : Slot → Slot) : (s.updCur f).time = s.time := rfl
@[simp] theorem updCur_mem (f : Slot → Slot) : (s.updCur f).mem = s.mem := rfl
@[simp] theorem updCur_vaults (f : Slot → Slot) : (s.updCur f).vaults = s.vaults := rfl
@[simp] theorem updCur_squares (f : Slot → Slot) : (s.updCur f).squares = s.squares := rfl
@[simp] theorem updCur_districts (f : Slot → Slot) : (s.updCur f).districts = s.districts := rfl
@[simp] theorem updCur_dies (f : Slot → Slot) : (s.updCur f).dies = s.dies := rfl
@[simp] theorem updCur_ports (f : Slot → Slot) : (s.updCur f).ports = s.ports := rfl
@[simp] theorem updCur_svcs (f : Slot → Slot) : (s.updCur f).svcs = s.svcs := rfl
@[simp] theorem updCur_adapter (f : Slot → Slot) : (s.updCur f).adapter = s.adapter := rfl
@[simp] theorem updCur_mgmt (f : Slot → Slot) : (s.updCur f).mgmt = s.mgmt := rfl
@[simp] theorem updCur_power (f : Slot → Slot) : (s.updCur f).power = s.power := rfl
@[simp] theorem updCur_net (f : Slot → Slot) : (s.updCur f).net = s.net := rfl
@[simp] theorem updCur_waiters (f : Slot → Slot) : (s.updCur f).waiters = s.waiters := rfl
@[simp] theorem updCur_ro (f : Slot → Slot) : (s.updCur f).ro = s.ro := rfl
@[simp] theorem updCur_gathers (f : Slot → Slot) : (s.updCur f).gathers = s.gathers := rfl
@[simp] theorem updCur_readBufs (f : Slot → Slot) : (s.updCur f).readBufs = s.readBufs := rfl
@[simp] theorem updCur_async (f : Slot → Slot) : (s.updCur f).async = s.async := rfl
@[simp] theorem updCur_unack (f : Slot → Slot) : (s.updCur f).unack = s.unack := rfl
@[simp] theorem updCur_outTids (f : Slot → Slot) : (s.updCur f).outTids = s.outTids := rfl

/-! ## updF writes cores only -/

@[simp] theorem updF_agenda (f : Frame → Frame) : (s.updF f).agenda = s.agenda := rfl
@[simp] theorem updF_cursor (f : Frame → Frame) : (s.updF f).cursor = s.cursor := rfl
@[simp] theorem updF_fresh (f : Frame → Frame) : (s.updF f).fresh = s.fresh := rfl
@[simp] theorem updF_serial (f : Frame → Frame) : (s.updF f).serial = s.serial := rfl
@[simp] theorem updF_time (f : Frame → Frame) : (s.updF f).time = s.time := rfl
@[simp] theorem updF_mem (f : Frame → Frame) : (s.updF f).mem = s.mem := rfl
@[simp] theorem updF_vaults (f : Frame → Frame) : (s.updF f).vaults = s.vaults := rfl
@[simp] theorem updF_squares (f : Frame → Frame) : (s.updF f).squares = s.squares := rfl
@[simp] theorem updF_districts (f : Frame → Frame) : (s.updF f).districts = s.districts := rfl
@[simp] theorem updF_dies (f : Frame → Frame) : (s.updF f).dies = s.dies := rfl
@[simp] theorem updF_ports (f : Frame → Frame) : (s.updF f).ports = s.ports := rfl
@[simp] theorem updF_svcs (f : Frame → Frame) : (s.updF f).svcs = s.svcs := rfl
@[simp] theorem updF_adapter (f : Frame → Frame) : (s.updF f).adapter = s.adapter := rfl
@[simp] theorem updF_mgmt (f : Frame → Frame) : (s.updF f).mgmt = s.mgmt := rfl
@[simp] theorem updF_power (f : Frame → Frame) : (s.updF f).power = s.power := rfl
@[simp] theorem updF_net (f : Frame → Frame) : (s.updF f).net = s.net := rfl
@[simp] theorem updF_waiters (f : Frame → Frame) : (s.updF f).waiters = s.waiters := rfl
@[simp] theorem updF_ro (f : Frame → Frame) : (s.updF f).ro = s.ro := rfl
@[simp] theorem updF_gathers (f : Frame → Frame) : (s.updF f).gathers = s.gathers := rfl
@[simp] theorem updF_readBufs (f : Frame → Frame) : (s.updF f).readBufs = s.readBufs := rfl
@[simp] theorem updF_async (f : Frame → Frame) : (s.updF f).async = s.async := rfl
@[simp] theorem updF_unack (f : Frame → Frame) : (s.updF f).unack = s.unack := rfl
@[simp] theorem updF_outTids (f : Frame → Frame) : (s.updF f).outTids = s.outTids := rfl

/-! ## updVault writes vaults only -/

@[simp] theorem updVault_agenda (c : Nat) (f : Vault → Vault) : (s.updVault c f).agenda = s.agenda := rfl
@[simp] theorem updVault_cursor (c : Nat) (f : Vault → Vault) : (s.updVault c f).cursor = s.cursor := rfl
@[simp] theorem updVault_fresh (c : Nat) (f : Vault → Vault) : (s.updVault c f).fresh = s.fresh := rfl
@[simp] theorem updVault_serial (c : Nat) (f : Vault → Vault) : (s.updVault c f).serial = s.serial := rfl
@[simp] theorem updVault_time (c : Nat) (f : Vault → Vault) : (s.updVault c f).time = s.time := rfl
@[simp] theorem updVault_mem (c : Nat) (f : Vault → Vault) : (s.updVault c f).mem = s.mem := rfl
@[simp] theorem updVault_cores (c : Nat) (f : Vault → Vault) : (s.updVault c f).cores = s.cores := rfl
@[simp] theorem updVault_squares (c : Nat) (f : Vault → Vault) : (s.updVault c f).squares = s.squares := rfl
@[simp] theorem updVault_districts (c : Nat) (f : Vault → Vault) : (s.updVault c f).districts = s.districts := rfl
@[simp] theorem updVault_dies (c : Nat) (f : Vault → Vault) : (s.updVault c f).dies = s.dies := rfl
@[simp] theorem updVault_ports (c : Nat) (f : Vault → Vault) : (s.updVault c f).ports = s.ports := rfl
@[simp] theorem updVault_svcs (c : Nat) (f : Vault → Vault) : (s.updVault c f).svcs = s.svcs := rfl
@[simp] theorem updVault_adapter (c : Nat) (f : Vault → Vault) : (s.updVault c f).adapter = s.adapter := rfl
@[simp] theorem updVault_mgmt (c : Nat) (f : Vault → Vault) : (s.updVault c f).mgmt = s.mgmt := rfl
@[simp] theorem updVault_power (c : Nat) (f : Vault → Vault) : (s.updVault c f).power = s.power := rfl
@[simp] theorem updVault_net (c : Nat) (f : Vault → Vault) : (s.updVault c f).net = s.net := rfl
@[simp] theorem updVault_waiters (c : Nat) (f : Vault → Vault) : (s.updVault c f).waiters = s.waiters := rfl
@[simp] theorem updVault_ro (c : Nat) (f : Vault → Vault) : (s.updVault c f).ro = s.ro := rfl
@[simp] theorem updVault_gathers (c : Nat) (f : Vault → Vault) : (s.updVault c f).gathers = s.gathers := rfl
@[simp] theorem updVault_readBufs (c : Nat) (f : Vault → Vault) : (s.updVault c f).readBufs = s.readBufs := rfl
@[simp] theorem updVault_async (c : Nat) (f : Vault → Vault) : (s.updVault c f).async = s.async := rfl
@[simp] theorem updVault_unack (c : Nat) (f : Vault → Vault) : (s.updVault c f).unack = s.unack := rfl
@[simp] theorem updVault_outTids (c : Nat) (f : Vault → Vault) : (s.updVault c f).outTids = s.outTids := rfl

/-! ## updSquare writes squares only -/

@[simp] theorem updSquare_agenda (c : Nat) (f : Square → Square) : (s.updSquare c f).agenda = s.agenda := rfl
@[simp] theorem updSquare_cursor (c : Nat) (f : Square → Square) : (s.updSquare c f).cursor = s.cursor := rfl
@[simp] theorem updSquare_fresh (c : Nat) (f : Square → Square) : (s.updSquare c f).fresh = s.fresh := rfl
@[simp] theorem updSquare_serial (c : Nat) (f : Square → Square) : (s.updSquare c f).serial = s.serial := rfl
@[simp] theorem updSquare_time (c : Nat) (f : Square → Square) : (s.updSquare c f).time = s.time := rfl
@[simp] theorem updSquare_mem (c : Nat) (f : Square → Square) : (s.updSquare c f).mem = s.mem := rfl
@[simp] theorem updSquare_cores (c : Nat) (f : Square → Square) : (s.updSquare c f).cores = s.cores := rfl
@[simp] theorem updSquare_vaults (c : Nat) (f : Square → Square) : (s.updSquare c f).vaults = s.vaults := rfl
@[simp] theorem updSquare_districts (c : Nat) (f : Square → Square) : (s.updSquare c f).districts = s.districts := rfl
@[simp] theorem updSquare_dies (c : Nat) (f : Square → Square) : (s.updSquare c f).dies = s.dies := rfl
@[simp] theorem updSquare_ports (c : Nat) (f : Square → Square) : (s.updSquare c f).ports = s.ports := rfl
@[simp] theorem updSquare_svcs (c : Nat) (f : Square → Square) : (s.updSquare c f).svcs = s.svcs := rfl
@[simp] theorem updSquare_adapter (c : Nat) (f : Square → Square) : (s.updSquare c f).adapter = s.adapter := rfl
@[simp] theorem updSquare_mgmt (c : Nat) (f : Square → Square) : (s.updSquare c f).mgmt = s.mgmt := rfl
@[simp] theorem updSquare_power (c : Nat) (f : Square → Square) : (s.updSquare c f).power = s.power := rfl
@[simp] theorem updSquare_net (c : Nat) (f : Square → Square) : (s.updSquare c f).net = s.net := rfl
@[simp] theorem updSquare_waiters (c : Nat) (f : Square → Square) : (s.updSquare c f).waiters = s.waiters := rfl
@[simp] theorem updSquare_ro (c : Nat) (f : Square → Square) : (s.updSquare c f).ro = s.ro := rfl
@[simp] theorem updSquare_gathers (c : Nat) (f : Square → Square) : (s.updSquare c f).gathers = s.gathers := rfl
@[simp] theorem updSquare_readBufs (c : Nat) (f : Square → Square) : (s.updSquare c f).readBufs = s.readBufs := rfl
@[simp] theorem updSquare_async (c : Nat) (f : Square → Square) : (s.updSquare c f).async = s.async := rfl
@[simp] theorem updSquare_unack (c : Nat) (f : Square → Square) : (s.updSquare c f).unack = s.unack := rfl
@[simp] theorem updSquare_outTids (c : Nat) (f : Square → Square) : (s.updSquare c f).outTids = s.outTids := rfl

/-! ## updDistrict writes districts only -/

@[simp] theorem updDistrict_agenda (c : Nat) (f : District → District) : (s.updDistrict c f).agenda = s.agenda := rfl
@[simp] theorem updDistrict_cursor (c : Nat) (f : District → District) : (s.updDistrict c f).cursor = s.cursor := rfl
@[simp] theorem updDistrict_fresh (c : Nat) (f : District → District) : (s.updDistrict c f).fresh = s.fresh := rfl
@[simp] theorem updDistrict_serial (c : Nat) (f : District → District) : (s.updDistrict c f).serial = s.serial := rfl
@[simp] theorem updDistrict_time (c : Nat) (f : District → District) : (s.updDistrict c f).time = s.time := rfl
@[simp] theorem updDistrict_mem (c : Nat) (f : District → District) : (s.updDistrict c f).mem = s.mem := rfl
@[simp] theorem updDistrict_cores (c : Nat) (f : District → District) : (s.updDistrict c f).cores = s.cores := rfl
@[simp] theorem updDistrict_vaults (c : Nat) (f : District → District) : (s.updDistrict c f).vaults = s.vaults := rfl
@[simp] theorem updDistrict_squares (c : Nat) (f : District → District) : (s.updDistrict c f).squares = s.squares := rfl
@[simp] theorem updDistrict_dies (c : Nat) (f : District → District) : (s.updDistrict c f).dies = s.dies := rfl
@[simp] theorem updDistrict_ports (c : Nat) (f : District → District) : (s.updDistrict c f).ports = s.ports := rfl
@[simp] theorem updDistrict_svcs (c : Nat) (f : District → District) : (s.updDistrict c f).svcs = s.svcs := rfl
@[simp] theorem updDistrict_adapter (c : Nat) (f : District → District) : (s.updDistrict c f).adapter = s.adapter := rfl
@[simp] theorem updDistrict_mgmt (c : Nat) (f : District → District) : (s.updDistrict c f).mgmt = s.mgmt := rfl
@[simp] theorem updDistrict_power (c : Nat) (f : District → District) : (s.updDistrict c f).power = s.power := rfl
@[simp] theorem updDistrict_net (c : Nat) (f : District → District) : (s.updDistrict c f).net = s.net := rfl
@[simp] theorem updDistrict_waiters (c : Nat) (f : District → District) : (s.updDistrict c f).waiters = s.waiters := rfl
@[simp] theorem updDistrict_ro (c : Nat) (f : District → District) : (s.updDistrict c f).ro = s.ro := rfl
@[simp] theorem updDistrict_gathers (c : Nat) (f : District → District) : (s.updDistrict c f).gathers = s.gathers := rfl
@[simp] theorem updDistrict_readBufs (c : Nat) (f : District → District) : (s.updDistrict c f).readBufs = s.readBufs := rfl
@[simp] theorem updDistrict_async (c : Nat) (f : District → District) : (s.updDistrict c f).async = s.async := rfl
@[simp] theorem updDistrict_unack (c : Nat) (f : District → District) : (s.updDistrict c f).unack = s.unack := rfl
@[simp] theorem updDistrict_outTids (c : Nat) (f : District → District) : (s.updDistrict c f).outTids = s.outTids := rfl

/-! ## updDie writes dies only -/

@[simp] theorem updDie_agenda (c : Nat) (f : Die → Die) : (s.updDie c f).agenda = s.agenda := rfl
@[simp] theorem updDie_cursor (c : Nat) (f : Die → Die) : (s.updDie c f).cursor = s.cursor := rfl
@[simp] theorem updDie_fresh (c : Nat) (f : Die → Die) : (s.updDie c f).fresh = s.fresh := rfl
@[simp] theorem updDie_serial (c : Nat) (f : Die → Die) : (s.updDie c f).serial = s.serial := rfl
@[simp] theorem updDie_time (c : Nat) (f : Die → Die) : (s.updDie c f).time = s.time := rfl
@[simp] theorem updDie_mem (c : Nat) (f : Die → Die) : (s.updDie c f).mem = s.mem := rfl
@[simp] theorem updDie_cores (c : Nat) (f : Die → Die) : (s.updDie c f).cores = s.cores := rfl
@[simp] theorem updDie_vaults (c : Nat) (f : Die → Die) : (s.updDie c f).vaults = s.vaults := rfl
@[simp] theorem updDie_squares (c : Nat) (f : Die → Die) : (s.updDie c f).squares = s.squares := rfl
@[simp] theorem updDie_districts (c : Nat) (f : Die → Die) : (s.updDie c f).districts = s.districts := rfl
@[simp] theorem updDie_ports (c : Nat) (f : Die → Die) : (s.updDie c f).ports = s.ports := rfl
@[simp] theorem updDie_svcs (c : Nat) (f : Die → Die) : (s.updDie c f).svcs = s.svcs := rfl
@[simp] theorem updDie_adapter (c : Nat) (f : Die → Die) : (s.updDie c f).adapter = s.adapter := rfl
@[simp] theorem updDie_mgmt (c : Nat) (f : Die → Die) : (s.updDie c f).mgmt = s.mgmt := rfl
@[simp] theorem updDie_power (c : Nat) (f : Die → Die) : (s.updDie c f).power = s.power := rfl
@[simp] theorem updDie_net (c : Nat) (f : Die → Die) : (s.updDie c f).net = s.net := rfl
@[simp] theorem updDie_waiters (c : Nat) (f : Die → Die) : (s.updDie c f).waiters = s.waiters := rfl
@[simp] theorem updDie_ro (c : Nat) (f : Die → Die) : (s.updDie c f).ro = s.ro := rfl
@[simp] theorem updDie_gathers (c : Nat) (f : Die → Die) : (s.updDie c f).gathers = s.gathers := rfl
@[simp] theorem updDie_readBufs (c : Nat) (f : Die → Die) : (s.updDie c f).readBufs = s.readBufs := rfl
@[simp] theorem updDie_async (c : Nat) (f : Die → Die) : (s.updDie c f).async = s.async := rfl
@[simp] theorem updDie_unack (c : Nat) (f : Die → Die) : (s.updDie c f).unack = s.unack := rfl
@[simp] theorem updDie_outTids (c : Nat) (f : Die → Die) : (s.updDie c f).outTids = s.outTids := rfl

/-! ## updPort writes ports only -/

@[simp] theorem updPort_agenda (c : Nat) (f : Port → Port) : (s.updPort c f).agenda = s.agenda := rfl
@[simp] theorem updPort_cursor (c : Nat) (f : Port → Port) : (s.updPort c f).cursor = s.cursor := rfl
@[simp] theorem updPort_fresh (c : Nat) (f : Port → Port) : (s.updPort c f).fresh = s.fresh := rfl
@[simp] theorem updPort_serial (c : Nat) (f : Port → Port) : (s.updPort c f).serial = s.serial := rfl
@[simp] theorem updPort_time (c : Nat) (f : Port → Port) : (s.updPort c f).time = s.time := rfl
@[simp] theorem updPort_mem (c : Nat) (f : Port → Port) : (s.updPort c f).mem = s.mem := rfl
@[simp] theorem updPort_cores (c : Nat) (f : Port → Port) : (s.updPort c f).cores = s.cores := rfl
@[simp] theorem updPort_vaults (c : Nat) (f : Port → Port) : (s.updPort c f).vaults = s.vaults := rfl
@[simp] theorem updPort_squares (c : Nat) (f : Port → Port) : (s.updPort c f).squares = s.squares := rfl
@[simp] theorem updPort_districts (c : Nat) (f : Port → Port) : (s.updPort c f).districts = s.districts := rfl
@[simp] theorem updPort_dies (c : Nat) (f : Port → Port) : (s.updPort c f).dies = s.dies := rfl
@[simp] theorem updPort_svcs (c : Nat) (f : Port → Port) : (s.updPort c f).svcs = s.svcs := rfl
@[simp] theorem updPort_adapter (c : Nat) (f : Port → Port) : (s.updPort c f).adapter = s.adapter := rfl
@[simp] theorem updPort_mgmt (c : Nat) (f : Port → Port) : (s.updPort c f).mgmt = s.mgmt := rfl
@[simp] theorem updPort_power (c : Nat) (f : Port → Port) : (s.updPort c f).power = s.power := rfl
@[simp] theorem updPort_net (c : Nat) (f : Port → Port) : (s.updPort c f).net = s.net := rfl
@[simp] theorem updPort_waiters (c : Nat) (f : Port → Port) : (s.updPort c f).waiters = s.waiters := rfl
@[simp] theorem updPort_ro (c : Nat) (f : Port → Port) : (s.updPort c f).ro = s.ro := rfl
@[simp] theorem updPort_gathers (c : Nat) (f : Port → Port) : (s.updPort c f).gathers = s.gathers := rfl
@[simp] theorem updPort_readBufs (c : Nat) (f : Port → Port) : (s.updPort c f).readBufs = s.readBufs := rfl
@[simp] theorem updPort_async (c : Nat) (f : Port → Port) : (s.updPort c f).async = s.async := rfl
@[simp] theorem updPort_unack (c : Nat) (f : Port → Port) : (s.updPort c f).unack = s.unack := rfl
@[simp] theorem updPort_outTids (c : Nat) (f : Port → Port) : (s.updPort c f).outTids = s.outTids := rfl

/-! ## updSvc writes svcs only -/

@[simp] theorem updSvc_agenda (c : Nat) (f : Svc → Svc) : (s.updSvc c f).agenda = s.agenda := rfl
@[simp] theorem updSvc_cursor (c : Nat) (f : Svc → Svc) : (s.updSvc c f).cursor = s.cursor := rfl
@[simp] theorem updSvc_fresh (c : Nat) (f : Svc → Svc) : (s.updSvc c f).fresh = s.fresh := rfl
@[simp] theorem updSvc_serial (c : Nat) (f : Svc → Svc) : (s.updSvc c f).serial = s.serial := rfl
@[simp] theorem updSvc_time (c : Nat) (f : Svc → Svc) : (s.updSvc c f).time = s.time := rfl
@[simp] theorem updSvc_mem (c : Nat) (f : Svc → Svc) : (s.updSvc c f).mem = s.mem := rfl
@[simp] theorem updSvc_cores (c : Nat) (f : Svc → Svc) : (s.updSvc c f).cores = s.cores := rfl
@[simp] theorem updSvc_vaults (c : Nat) (f : Svc → Svc) : (s.updSvc c f).vaults = s.vaults := rfl
@[simp] theorem updSvc_squares (c : Nat) (f : Svc → Svc) : (s.updSvc c f).squares = s.squares := rfl
@[simp] theorem updSvc_districts (c : Nat) (f : Svc → Svc) : (s.updSvc c f).districts = s.districts := rfl
@[simp] theorem updSvc_dies (c : Nat) (f : Svc → Svc) : (s.updSvc c f).dies = s.dies := rfl
@[simp] theorem updSvc_ports (c : Nat) (f : Svc → Svc) : (s.updSvc c f).ports = s.ports := rfl
@[simp] theorem updSvc_adapter (c : Nat) (f : Svc → Svc) : (s.updSvc c f).adapter = s.adapter := rfl
@[simp] theorem updSvc_mgmt (c : Nat) (f : Svc → Svc) : (s.updSvc c f).mgmt = s.mgmt := rfl
@[simp] theorem updSvc_power (c : Nat) (f : Svc → Svc) : (s.updSvc c f).power = s.power := rfl
@[simp] theorem updSvc_net (c : Nat) (f : Svc → Svc) : (s.updSvc c f).net = s.net := rfl
@[simp] theorem updSvc_waiters (c : Nat) (f : Svc → Svc) : (s.updSvc c f).waiters = s.waiters := rfl
@[simp] theorem updSvc_ro (c : Nat) (f : Svc → Svc) : (s.updSvc c f).ro = s.ro := rfl
@[simp] theorem updSvc_gathers (c : Nat) (f : Svc → Svc) : (s.updSvc c f).gathers = s.gathers := rfl
@[simp] theorem updSvc_readBufs (c : Nat) (f : Svc → Svc) : (s.updSvc c f).readBufs = s.readBufs := rfl
@[simp] theorem updSvc_async (c : Nat) (f : Svc → Svc) : (s.updSvc c f).async = s.async := rfl
@[simp] theorem updSvc_unack (c : Nat) (f : Svc → Svc) : (s.updSvc c f).unack = s.unack := rfl
@[simp] theorem updSvc_outTids (c : Nat) (f : Svc → Svc) : (s.updSvc c f).outTids = s.outTids := rfl

/-! ## send writes net only -/

@[simp] theorem send_agenda (p : Packet) : (s.send p).agenda = s.agenda := rfl
@[simp] theorem send_cursor (p : Packet) : (s.send p).cursor = s.cursor := rfl
@[simp] theorem send_fresh (p : Packet) : (s.send p).fresh = s.fresh := rfl
@[simp] theorem send_serial (p : Packet) : (s.send p).serial = s.serial := rfl
@[simp] theorem send_time (p : Packet) : (s.send p).time = s.time := rfl
@[simp] theorem send_mem (p : Packet) : (s.send p).mem = s.mem := rfl
@[simp] theorem send_cores (p : Packet) : (s.send p).cores = s.cores := rfl
@[simp] theorem send_vaults (p : Packet) : (s.send p).vaults = s.vaults := rfl
@[simp] theorem send_squares (p : Packet) : (s.send p).squares = s.squares := rfl
@[simp] theorem send_districts (p : Packet) : (s.send p).districts = s.districts := rfl
@[simp] theorem send_dies (p : Packet) : (s.send p).dies = s.dies := rfl
@[simp] theorem send_ports (p : Packet) : (s.send p).ports = s.ports := rfl
@[simp] theorem send_svcs (p : Packet) : (s.send p).svcs = s.svcs := rfl
@[simp] theorem send_adapter (p : Packet) : (s.send p).adapter = s.adapter := rfl
@[simp] theorem send_mgmt (p : Packet) : (s.send p).mgmt = s.mgmt := rfl
@[simp] theorem send_power (p : Packet) : (s.send p).power = s.power := rfl
@[simp] theorem send_waiters (p : Packet) : (s.send p).waiters = s.waiters := rfl
@[simp] theorem send_ro (p : Packet) : (s.send p).ro = s.ro := rfl
@[simp] theorem send_gathers (p : Packet) : (s.send p).gathers = s.gathers := rfl
@[simp] theorem send_readBufs (p : Packet) : (s.send p).readBufs = s.readBufs := rfl
@[simp] theorem send_async (p : Packet) : (s.send p).async = s.async := rfl
@[simp] theorem send_unack (p : Packet) : (s.send p).unack = s.unack := rfl
@[simp] theorem send_outTids (p : Packet) : (s.send p).outTids = s.outTids := rfl

/-! ## dropPacket writes net only -/

@[simp] theorem dropPacket_agenda (n : Nat) : (s.dropPacket n).agenda = s.agenda := rfl
@[simp] theorem dropPacket_cursor (n : Nat) : (s.dropPacket n).cursor = s.cursor := rfl
@[simp] theorem dropPacket_fresh (n : Nat) : (s.dropPacket n).fresh = s.fresh := rfl
@[simp] theorem dropPacket_serial (n : Nat) : (s.dropPacket n).serial = s.serial := rfl
@[simp] theorem dropPacket_time (n : Nat) : (s.dropPacket n).time = s.time := rfl
@[simp] theorem dropPacket_mem (n : Nat) : (s.dropPacket n).mem = s.mem := rfl
@[simp] theorem dropPacket_cores (n : Nat) : (s.dropPacket n).cores = s.cores := rfl
@[simp] theorem dropPacket_vaults (n : Nat) : (s.dropPacket n).vaults = s.vaults := rfl
@[simp] theorem dropPacket_squares (n : Nat) : (s.dropPacket n).squares = s.squares := rfl
@[simp] theorem dropPacket_districts (n : Nat) : (s.dropPacket n).districts = s.districts := rfl
@[simp] theorem dropPacket_dies (n : Nat) : (s.dropPacket n).dies = s.dies := rfl
@[simp] theorem dropPacket_ports (n : Nat) : (s.dropPacket n).ports = s.ports := rfl
@[simp] theorem dropPacket_svcs (n : Nat) : (s.dropPacket n).svcs = s.svcs := rfl
@[simp] theorem dropPacket_adapter (n : Nat) : (s.dropPacket n).adapter = s.adapter := rfl
@[simp] theorem dropPacket_mgmt (n : Nat) : (s.dropPacket n).mgmt = s.mgmt := rfl
@[simp] theorem dropPacket_power (n : Nat) : (s.dropPacket n).power = s.power := rfl
@[simp] theorem dropPacket_waiters (n : Nat) : (s.dropPacket n).waiters = s.waiters := rfl
@[simp] theorem dropPacket_ro (n : Nat) : (s.dropPacket n).ro = s.ro := rfl
@[simp] theorem dropPacket_gathers (n : Nat) : (s.dropPacket n).gathers = s.gathers := rfl
@[simp] theorem dropPacket_readBufs (n : Nat) : (s.dropPacket n).readBufs = s.readBufs := rfl
@[simp] theorem dropPacket_async (n : Nat) : (s.dropPacket n).async = s.async := rfl
@[simp] theorem dropPacket_unack (n : Nat) : (s.dropPacket n).unack = s.unack := rfl
@[simp] theorem dropPacket_outTids (n : Nat) : (s.dropPacket n).outTids = s.outTids := rfl

/-! ## wrMem writes mem only -/

@[simp] theorem wrMem_agenda (l n v : Nat) : (s.wrMem l n v).agenda = s.agenda := rfl
@[simp] theorem wrMem_cursor (l n v : Nat) : (s.wrMem l n v).cursor = s.cursor := rfl
@[simp] theorem wrMem_fresh (l n v : Nat) : (s.wrMem l n v).fresh = s.fresh := rfl
@[simp] theorem wrMem_serial (l n v : Nat) : (s.wrMem l n v).serial = s.serial := rfl
@[simp] theorem wrMem_time (l n v : Nat) : (s.wrMem l n v).time = s.time := rfl
@[simp] theorem wrMem_cores (l n v : Nat) : (s.wrMem l n v).cores = s.cores := rfl
@[simp] theorem wrMem_vaults (l n v : Nat) : (s.wrMem l n v).vaults = s.vaults := rfl
@[simp] theorem wrMem_squares (l n v : Nat) : (s.wrMem l n v).squares = s.squares := rfl
@[simp] theorem wrMem_districts (l n v : Nat) : (s.wrMem l n v).districts = s.districts := rfl
@[simp] theorem wrMem_dies (l n v : Nat) : (s.wrMem l n v).dies = s.dies := rfl
@[simp] theorem wrMem_ports (l n v : Nat) : (s.wrMem l n v).ports = s.ports := rfl
@[simp] theorem wrMem_svcs (l n v : Nat) : (s.wrMem l n v).svcs = s.svcs := rfl
@[simp] theorem wrMem_adapter (l n v : Nat) : (s.wrMem l n v).adapter = s.adapter := rfl
@[simp] theorem wrMem_mgmt (l n v : Nat) : (s.wrMem l n v).mgmt = s.mgmt := rfl
@[simp] theorem wrMem_power (l n v : Nat) : (s.wrMem l n v).power = s.power := rfl
@[simp] theorem wrMem_net (l n v : Nat) : (s.wrMem l n v).net = s.net := rfl
@[simp] theorem wrMem_waiters (l n v : Nat) : (s.wrMem l n v).waiters = s.waiters := rfl
@[simp] theorem wrMem_ro (l n v : Nat) : (s.wrMem l n v).ro = s.ro := rfl
@[simp] theorem wrMem_gathers (l n v : Nat) : (s.wrMem l n v).gathers = s.gathers := rfl
@[simp] theorem wrMem_readBufs (l n v : Nat) : (s.wrMem l n v).readBufs = s.readBufs := rfl
@[simp] theorem wrMem_async (l n v : Nat) : (s.wrMem l n v).async = s.async := rfl
@[simp] theorem wrMem_unack (l n v : Nat) : (s.wrMem l n v).unack = s.unack := rfl
@[simp] theorem wrMem_outTids (l n v : Nat) : (s.wrMem l n v).outTids = s.outTids := rfl

/-! ## wrWord writes mem only -/

@[simp] theorem wrWord_agenda (l : Nat) (v : Word) : (s.wrWord l v).agenda = s.agenda := rfl
@[simp] theorem wrWord_cursor (l : Nat) (v : Word) : (s.wrWord l v).cursor = s.cursor := rfl
@[simp] theorem wrWord_fresh (l : Nat) (v : Word) : (s.wrWord l v).fresh = s.fresh := rfl
@[simp] theorem wrWord_serial (l : Nat) (v : Word) : (s.wrWord l v).serial = s.serial := rfl
@[simp] theorem wrWord_time (l : Nat) (v : Word) : (s.wrWord l v).time = s.time := rfl
@[simp] theorem wrWord_cores (l : Nat) (v : Word) : (s.wrWord l v).cores = s.cores := rfl
@[simp] theorem wrWord_vaults (l : Nat) (v : Word) : (s.wrWord l v).vaults = s.vaults := rfl
@[simp] theorem wrWord_squares (l : Nat) (v : Word) : (s.wrWord l v).squares = s.squares := rfl
@[simp] theorem wrWord_districts (l : Nat) (v : Word) : (s.wrWord l v).districts = s.districts := rfl
@[simp] theorem wrWord_dies (l : Nat) (v : Word) : (s.wrWord l v).dies = s.dies := rfl
@[simp] theorem wrWord_ports (l : Nat) (v : Word) : (s.wrWord l v).ports = s.ports := rfl
@[simp] theorem wrWord_svcs (l : Nat) (v : Word) : (s.wrWord l v).svcs = s.svcs := rfl
@[simp] theorem wrWord_adapter (l : Nat) (v : Word) : (s.wrWord l v).adapter = s.adapter := rfl
@[simp] theorem wrWord_mgmt (l : Nat) (v : Word) : (s.wrWord l v).mgmt = s.mgmt := rfl
@[simp] theorem wrWord_power (l : Nat) (v : Word) : (s.wrWord l v).power = s.power := rfl
@[simp] theorem wrWord_net (l : Nat) (v : Word) : (s.wrWord l v).net = s.net := rfl
@[simp] theorem wrWord_waiters (l : Nat) (v : Word) : (s.wrWord l v).waiters = s.waiters := rfl
@[simp] theorem wrWord_ro (l : Nat) (v : Word) : (s.wrWord l v).ro = s.ro := rfl
@[simp] theorem wrWord_gathers (l : Nat) (v : Word) : (s.wrWord l v).gathers = s.gathers := rfl
@[simp] theorem wrWord_readBufs (l : Nat) (v : Word) : (s.wrWord l v).readBufs = s.readBufs := rfl
@[simp] theorem wrWord_async (l : Nat) (v : Word) : (s.wrWord l v).async = s.async := rfl
@[simp] theorem wrWord_unack (l : Nat) (v : Word) : (s.wrWord l v).unack = s.unack := rfl
@[simp] theorem wrWord_outTids (l : Nat) (v : Word) : (s.wrWord l v).outTids = s.outTids := rfl

/-! ## setFull writes mem only -/

@[simp] theorem setFull_agenda (l : Nat) (b : Bool) : (s.setFull l b).agenda = s.agenda := rfl
@[simp] theorem setFull_cursor (l : Nat) (b : Bool) : (s.setFull l b).cursor = s.cursor := rfl
@[simp] theorem setFull_fresh (l : Nat) (b : Bool) : (s.setFull l b).fresh = s.fresh := rfl
@[simp] theorem setFull_serial (l : Nat) (b : Bool) : (s.setFull l b).serial = s.serial := rfl
@[simp] theorem setFull_time (l : Nat) (b : Bool) : (s.setFull l b).time = s.time := rfl
@[simp] theorem setFull_cores (l : Nat) (b : Bool) : (s.setFull l b).cores = s.cores := rfl
@[simp] theorem setFull_vaults (l : Nat) (b : Bool) : (s.setFull l b).vaults = s.vaults := rfl
@[simp] theorem setFull_squares (l : Nat) (b : Bool) : (s.setFull l b).squares = s.squares := rfl
@[simp] theorem setFull_districts (l : Nat) (b : Bool) : (s.setFull l b).districts = s.districts := rfl
@[simp] theorem setFull_dies (l : Nat) (b : Bool) : (s.setFull l b).dies = s.dies := rfl
@[simp] theorem setFull_ports (l : Nat) (b : Bool) : (s.setFull l b).ports = s.ports := rfl
@[simp] theorem setFull_svcs (l : Nat) (b : Bool) : (s.setFull l b).svcs = s.svcs := rfl
@[simp] theorem setFull_adapter (l : Nat) (b : Bool) : (s.setFull l b).adapter = s.adapter := rfl
@[simp] theorem setFull_mgmt (l : Nat) (b : Bool) : (s.setFull l b).mgmt = s.mgmt := rfl
@[simp] theorem setFull_power (l : Nat) (b : Bool) : (s.setFull l b).power = s.power := rfl
@[simp] theorem setFull_net (l : Nat) (b : Bool) : (s.setFull l b).net = s.net := rfl
@[simp] theorem setFull_waiters (l : Nat) (b : Bool) : (s.setFull l b).waiters = s.waiters := rfl
@[simp] theorem setFull_ro (l : Nat) (b : Bool) : (s.setFull l b).ro = s.ro := rfl
@[simp] theorem setFull_gathers (l : Nat) (b : Bool) : (s.setFull l b).gathers = s.gathers := rfl
@[simp] theorem setFull_readBufs (l : Nat) (b : Bool) : (s.setFull l b).readBufs = s.readBufs := rfl
@[simp] theorem setFull_async (l : Nat) (b : Bool) : (s.setFull l b).async = s.async := rfl
@[simp] theorem setFull_unack (l : Nat) (b : Bool) : (s.setFull l b).unack = s.unack := rfl
@[simp] theorem setFull_outTids (l : Nat) (b : Bool) : (s.setFull l b).outTids = s.outTids := rfl

/-! ## setPois writes mem only -/

@[simp] theorem setPois_agenda (l : Nat) (b : Bool) : (s.setPois l b).agenda = s.agenda := rfl
@[simp] theorem setPois_cursor (l : Nat) (b : Bool) : (s.setPois l b).cursor = s.cursor := rfl
@[simp] theorem setPois_fresh (l : Nat) (b : Bool) : (s.setPois l b).fresh = s.fresh := rfl
@[simp] theorem setPois_serial (l : Nat) (b : Bool) : (s.setPois l b).serial = s.serial := rfl
@[simp] theorem setPois_time (l : Nat) (b : Bool) : (s.setPois l b).time = s.time := rfl
@[simp] theorem setPois_cores (l : Nat) (b : Bool) : (s.setPois l b).cores = s.cores := rfl
@[simp] theorem setPois_vaults (l : Nat) (b : Bool) : (s.setPois l b).vaults = s.vaults := rfl
@[simp] theorem setPois_squares (l : Nat) (b : Bool) : (s.setPois l b).squares = s.squares := rfl
@[simp] theorem setPois_districts (l : Nat) (b : Bool) : (s.setPois l b).districts = s.districts := rfl
@[simp] theorem setPois_dies (l : Nat) (b : Bool) : (s.setPois l b).dies = s.dies := rfl
@[simp] theorem setPois_ports (l : Nat) (b : Bool) : (s.setPois l b).ports = s.ports := rfl
@[simp] theorem setPois_svcs (l : Nat) (b : Bool) : (s.setPois l b).svcs = s.svcs := rfl
@[simp] theorem setPois_adapter (l : Nat) (b : Bool) : (s.setPois l b).adapter = s.adapter := rfl
@[simp] theorem setPois_mgmt (l : Nat) (b : Bool) : (s.setPois l b).mgmt = s.mgmt := rfl
@[simp] theorem setPois_power (l : Nat) (b : Bool) : (s.setPois l b).power = s.power := rfl
@[simp] theorem setPois_net (l : Nat) (b : Bool) : (s.setPois l b).net = s.net := rfl
@[simp] theorem setPois_waiters (l : Nat) (b : Bool) : (s.setPois l b).waiters = s.waiters := rfl
@[simp] theorem setPois_ro (l : Nat) (b : Bool) : (s.setPois l b).ro = s.ro := rfl
@[simp] theorem setPois_gathers (l : Nat) (b : Bool) : (s.setPois l b).gathers = s.gathers := rfl
@[simp] theorem setPois_readBufs (l : Nat) (b : Bool) : (s.setPois l b).readBufs = s.readBufs := rfl
@[simp] theorem setPois_async (l : Nat) (b : Bool) : (s.setPois l b).async = s.async := rfl
@[simp] theorem setPois_unack (l : Nat) (b : Bool) : (s.setPois l b).unack = s.unack := rfl
@[simp] theorem setPois_outTids (l : Nat) (b : Bool) : (s.setPois l b).outTids = s.outTids := rfl

/-! ## clearMem writes mem only -/

@[simp] theorem clearMem_agenda (l h : Nat) : (s.clearMem l h).agenda = s.agenda := rfl
@[simp] theorem clearMem_cursor (l h : Nat) : (s.clearMem l h).cursor = s.cursor := rfl
@[simp] theorem clearMem_fresh (l h : Nat) : (s.clearMem l h).fresh = s.fresh := rfl
@[simp] theorem clearMem_serial (l h : Nat) : (s.clearMem l h).serial = s.serial := rfl
@[simp] theorem clearMem_time (l h : Nat) : (s.clearMem l h).time = s.time := rfl
@[simp] theorem clearMem_cores (l h : Nat) : (s.clearMem l h).cores = s.cores := rfl
@[simp] theorem clearMem_vaults (l h : Nat) : (s.clearMem l h).vaults = s.vaults := rfl
@[simp] theorem clearMem_squares (l h : Nat) : (s.clearMem l h).squares = s.squares := rfl
@[simp] theorem clearMem_districts (l h : Nat) : (s.clearMem l h).districts = s.districts := rfl
@[simp] theorem clearMem_dies (l h : Nat) : (s.clearMem l h).dies = s.dies := rfl
@[simp] theorem clearMem_ports (l h : Nat) : (s.clearMem l h).ports = s.ports := rfl
@[simp] theorem clearMem_svcs (l h : Nat) : (s.clearMem l h).svcs = s.svcs := rfl
@[simp] theorem clearMem_adapter (l h : Nat) : (s.clearMem l h).adapter = s.adapter := rfl
@[simp] theorem clearMem_mgmt (l h : Nat) : (s.clearMem l h).mgmt = s.mgmt := rfl
@[simp] theorem clearMem_power (l h : Nat) : (s.clearMem l h).power = s.power := rfl
@[simp] theorem clearMem_net (l h : Nat) : (s.clearMem l h).net = s.net := rfl
@[simp] theorem clearMem_waiters (l h : Nat) : (s.clearMem l h).waiters = s.waiters := rfl
@[simp] theorem clearMem_ro (l h : Nat) : (s.clearMem l h).ro = s.ro := rfl
@[simp] theorem clearMem_gathers (l h : Nat) : (s.clearMem l h).gathers = s.gathers := rfl
@[simp] theorem clearMem_unack (l h : Nat) : (s.clearMem l h).unack = s.unack := rfl
@[simp] theorem clearMem_outTids (l h : Nat) : (s.clearMem l h).outTids = s.outTids := rfl

/-! ## dropReadBufs writes readBufs and async only -/

@[simp] theorem dropReadBufs_agenda (ls : List Nat) : (s.dropReadBufs ls).agenda = s.agenda := rfl
@[simp] theorem dropReadBufs_cursor (ls : List Nat) : (s.dropReadBufs ls).cursor = s.cursor := rfl
@[simp] theorem dropReadBufs_fresh (ls : List Nat) : (s.dropReadBufs ls).fresh = s.fresh := rfl
@[simp] theorem dropReadBufs_serial (ls : List Nat) : (s.dropReadBufs ls).serial = s.serial := rfl
@[simp] theorem dropReadBufs_time (ls : List Nat) : (s.dropReadBufs ls).time = s.time := rfl
@[simp] theorem dropReadBufs_mem (ls : List Nat) : (s.dropReadBufs ls).mem = s.mem := rfl
@[simp] theorem dropReadBufs_cores (ls : List Nat) : (s.dropReadBufs ls).cores = s.cores := rfl
@[simp] theorem dropReadBufs_vaults (ls : List Nat) : (s.dropReadBufs ls).vaults = s.vaults := rfl
@[simp] theorem dropReadBufs_squares (ls : List Nat) : (s.dropReadBufs ls).squares = s.squares := rfl
@[simp] theorem dropReadBufs_districts (ls : List Nat) : (s.dropReadBufs ls).districts = s.districts := rfl
@[simp] theorem dropReadBufs_dies (ls : List Nat) : (s.dropReadBufs ls).dies = s.dies := rfl
@[simp] theorem dropReadBufs_ports (ls : List Nat) : (s.dropReadBufs ls).ports = s.ports := rfl
@[simp] theorem dropReadBufs_svcs (ls : List Nat) : (s.dropReadBufs ls).svcs = s.svcs := rfl
@[simp] theorem dropReadBufs_adapter (ls : List Nat) : (s.dropReadBufs ls).adapter = s.adapter := rfl
@[simp] theorem dropReadBufs_mgmt (ls : List Nat) : (s.dropReadBufs ls).mgmt = s.mgmt := rfl
@[simp] theorem dropReadBufs_power (ls : List Nat) : (s.dropReadBufs ls).power = s.power := rfl
@[simp] theorem dropReadBufs_net (ls : List Nat) : (s.dropReadBufs ls).net = s.net := rfl
@[simp] theorem dropReadBufs_waiters (ls : List Nat) : (s.dropReadBufs ls).waiters = s.waiters := rfl
@[simp] theorem dropReadBufs_ro (ls : List Nat) : (s.dropReadBufs ls).ro = s.ro := rfl
@[simp] theorem dropReadBufs_gathers (ls : List Nat) : (s.dropReadBufs ls).gathers = s.gathers := rfl
@[simp] theorem dropReadBufs_unack (ls : List Nat) : (s.dropReadBufs ls).unack = s.unack := rfl
@[simp] theorem dropReadBufs_outTids (ls : List Nat) : (s.dropReadBufs ls).outTids = s.outTids := rfl

/-! ## keepBufs writes readBufs and async only -/

@[simp] theorem keepBufs_agenda (f : ReadBuf → Bool) : (s.keepBufs f).agenda = s.agenda := rfl
@[simp] theorem keepBufs_cursor (f : ReadBuf → Bool) : (s.keepBufs f).cursor = s.cursor := rfl
@[simp] theorem keepBufs_fresh (f : ReadBuf → Bool) : (s.keepBufs f).fresh = s.fresh := rfl
@[simp] theorem keepBufs_serial (f : ReadBuf → Bool) : (s.keepBufs f).serial = s.serial := rfl
@[simp] theorem keepBufs_time (f : ReadBuf → Bool) : (s.keepBufs f).time = s.time := rfl
@[simp] theorem keepBufs_mem (f : ReadBuf → Bool) : (s.keepBufs f).mem = s.mem := rfl
@[simp] theorem keepBufs_cores (f : ReadBuf → Bool) : (s.keepBufs f).cores = s.cores := rfl
@[simp] theorem keepBufs_vaults (f : ReadBuf → Bool) : (s.keepBufs f).vaults = s.vaults := rfl
@[simp] theorem keepBufs_squares (f : ReadBuf → Bool) : (s.keepBufs f).squares = s.squares := rfl
@[simp] theorem keepBufs_districts (f : ReadBuf → Bool) : (s.keepBufs f).districts = s.districts := rfl
@[simp] theorem keepBufs_dies (f : ReadBuf → Bool) : (s.keepBufs f).dies = s.dies := rfl
@[simp] theorem keepBufs_ports (f : ReadBuf → Bool) : (s.keepBufs f).ports = s.ports := rfl
@[simp] theorem keepBufs_svcs (f : ReadBuf → Bool) : (s.keepBufs f).svcs = s.svcs := rfl
@[simp] theorem keepBufs_adapter (f : ReadBuf → Bool) : (s.keepBufs f).adapter = s.adapter := rfl
@[simp] theorem keepBufs_mgmt (f : ReadBuf → Bool) : (s.keepBufs f).mgmt = s.mgmt := rfl
@[simp] theorem keepBufs_power (f : ReadBuf → Bool) : (s.keepBufs f).power = s.power := rfl
@[simp] theorem keepBufs_net (f : ReadBuf → Bool) : (s.keepBufs f).net = s.net := rfl
@[simp] theorem keepBufs_waiters (f : ReadBuf → Bool) : (s.keepBufs f).waiters = s.waiters := rfl
@[simp] theorem keepBufs_ro (f : ReadBuf → Bool) : (s.keepBufs f).ro = s.ro := rfl
@[simp] theorem keepBufs_gathers (f : ReadBuf → Bool) : (s.keepBufs f).gathers = s.gathers := rfl
@[simp] theorem keepBufs_unack (f : ReadBuf → Bool) : (s.keepBufs f).unack = s.unack := rfl
@[simp] theorem keepBufs_outTids (f : ReadBuf → Bool) : (s.keepBufs f).outTids = s.outTids := rfl

/-! ## takeBuf writes readBufs only -/

@[simp] theorem takeBuf_agenda (c l v : Nat) : (s.takeBuf c l v).agenda = s.agenda := rfl
@[simp] theorem takeBuf_cursor (c l v : Nat) : (s.takeBuf c l v).cursor = s.cursor := rfl
@[simp] theorem takeBuf_fresh (c l v : Nat) : (s.takeBuf c l v).fresh = s.fresh := rfl
@[simp] theorem takeBuf_serial (c l v : Nat) : (s.takeBuf c l v).serial = s.serial := rfl
@[simp] theorem takeBuf_time (c l v : Nat) : (s.takeBuf c l v).time = s.time := rfl
@[simp] theorem takeBuf_mem (c l v : Nat) : (s.takeBuf c l v).mem = s.mem := rfl
@[simp] theorem takeBuf_cores (c l v : Nat) : (s.takeBuf c l v).cores = s.cores := rfl
@[simp] theorem takeBuf_vaults (c l v : Nat) : (s.takeBuf c l v).vaults = s.vaults := rfl
@[simp] theorem takeBuf_squares (c l v : Nat) : (s.takeBuf c l v).squares = s.squares := rfl
@[simp] theorem takeBuf_districts (c l v : Nat) : (s.takeBuf c l v).districts = s.districts := rfl
@[simp] theorem takeBuf_dies (c l v : Nat) : (s.takeBuf c l v).dies = s.dies := rfl
@[simp] theorem takeBuf_ports (c l v : Nat) : (s.takeBuf c l v).ports = s.ports := rfl
@[simp] theorem takeBuf_svcs (c l v : Nat) : (s.takeBuf c l v).svcs = s.svcs := rfl
@[simp] theorem takeBuf_adapter (c l v : Nat) : (s.takeBuf c l v).adapter = s.adapter := rfl
@[simp] theorem takeBuf_mgmt (c l v : Nat) : (s.takeBuf c l v).mgmt = s.mgmt := rfl
@[simp] theorem takeBuf_power (c l v : Nat) : (s.takeBuf c l v).power = s.power := rfl
@[simp] theorem takeBuf_net (c l v : Nat) : (s.takeBuf c l v).net = s.net := rfl
@[simp] theorem takeBuf_waiters (c l v : Nat) : (s.takeBuf c l v).waiters = s.waiters := rfl
@[simp] theorem takeBuf_ro (c l v : Nat) : (s.takeBuf c l v).ro = s.ro := rfl
@[simp] theorem takeBuf_gathers (c l v : Nat) : (s.takeBuf c l v).gathers = s.gathers := rfl
@[simp] theorem takeBuf_async (c l v : Nat) : (s.takeBuf c l v).async = s.async := rfl
@[simp] theorem takeBuf_unack (c l v : Nat) : (s.takeBuf c l v).unack = s.unack := rfl
@[simp] theorem takeBuf_outTids (c l v : Nat) : (s.takeBuf c l v).outTids = s.outTids := rfl

/-! ## mapAsync writes async only -/

@[simp] theorem mapAsync_agenda (f : AsyncWrite → AsyncWrite) : (s.mapAsync f).agenda = s.agenda := rfl
@[simp] theorem mapAsync_cursor (f : AsyncWrite → AsyncWrite) : (s.mapAsync f).cursor = s.cursor := rfl
@[simp] theorem mapAsync_fresh (f : AsyncWrite → AsyncWrite) : (s.mapAsync f).fresh = s.fresh := rfl
@[simp] theorem mapAsync_serial (f : AsyncWrite → AsyncWrite) : (s.mapAsync f).serial = s.serial := rfl
@[simp] theorem mapAsync_time (f : AsyncWrite → AsyncWrite) : (s.mapAsync f).time = s.time := rfl
@[simp] theorem mapAsync_mem (f : AsyncWrite → AsyncWrite) : (s.mapAsync f).mem = s.mem := rfl
@[simp] theorem mapAsync_cores (f : AsyncWrite → AsyncWrite) : (s.mapAsync f).cores = s.cores := rfl
@[simp] theorem mapAsync_vaults (f : AsyncWrite → AsyncWrite) : (s.mapAsync f).vaults = s.vaults := rfl
@[simp] theorem mapAsync_squares (f : AsyncWrite → AsyncWrite) : (s.mapAsync f).squares = s.squares := rfl
@[simp] theorem mapAsync_districts (f : AsyncWrite → AsyncWrite) : (s.mapAsync f).districts = s.districts := rfl
@[simp] theorem mapAsync_dies (f : AsyncWrite → AsyncWrite) : (s.mapAsync f).dies = s.dies := rfl
@[simp] theorem mapAsync_ports (f : AsyncWrite → AsyncWrite) : (s.mapAsync f).ports = s.ports := rfl
@[simp] theorem mapAsync_svcs (f : AsyncWrite → AsyncWrite) : (s.mapAsync f).svcs = s.svcs := rfl
@[simp] theorem mapAsync_adapter (f : AsyncWrite → AsyncWrite) : (s.mapAsync f).adapter = s.adapter := rfl
@[simp] theorem mapAsync_mgmt (f : AsyncWrite → AsyncWrite) : (s.mapAsync f).mgmt = s.mgmt := rfl
@[simp] theorem mapAsync_power (f : AsyncWrite → AsyncWrite) : (s.mapAsync f).power = s.power := rfl
@[simp] theorem mapAsync_net (f : AsyncWrite → AsyncWrite) : (s.mapAsync f).net = s.net := rfl
@[simp] theorem mapAsync_waiters (f : AsyncWrite → AsyncWrite) : (s.mapAsync f).waiters = s.waiters := rfl
@[simp] theorem mapAsync_ro (f : AsyncWrite → AsyncWrite) : (s.mapAsync f).ro = s.ro := rfl
@[simp] theorem mapAsync_gathers (f : AsyncWrite → AsyncWrite) : (s.mapAsync f).gathers = s.gathers := rfl
@[simp] theorem mapAsync_readBufs (f : AsyncWrite → AsyncWrite) : (s.mapAsync f).readBufs = s.readBufs := rfl
@[simp] theorem mapAsync_unack (f : AsyncWrite → AsyncWrite) : (s.mapAsync f).unack = s.unack := rfl
@[simp] theorem mapAsync_outTids (f : AsyncWrite → AsyncWrite) : (s.mapAsync f).outTids = s.outTids := rfl

/-! ## Accessors after updates -/

@[simp] theorem core_updCore_same (c : Nat) (f : Core → Core) : (s.updCore c f).core c = f (s.core c) := rd_upd_same _ _ _ _

theorem core_updCore_other {c d : Nat} (f : Core → Core) (h : d ≠ c) : (s.updCore c f).core d = s.core d := rd_upd_other _ _ _ h

@[simp] theorem vault_updVault_same (c : Nat) (f : Vault → Vault) : (s.updVault c f).vault c = f (s.vault c) := rd_upd_same _ _ _ _

theorem vault_updVault_other {c d : Nat} (f : Vault → Vault) (h : d ≠ c) : (s.updVault c f).vault d = s.vault d := rd_upd_other _ _ _ h

@[simp] theorem square_updSquare_same (c : Nat) (f : Square → Square) : (s.updSquare c f).square c = f (s.square c) := rd_upd_same _ _ _ _

theorem square_updSquare_other {c d : Nat} (f : Square → Square) (h : d ≠ c) : (s.updSquare c f).square d = s.square d := rd_upd_other _ _ _ h

@[simp] theorem district_updDistrict_same (c : Nat) (f : District → District) : (s.updDistrict c f).district c = f (s.district c) := rd_upd_same _ _ _ _

theorem district_updDistrict_other {c d : Nat} (f : District → District) (h : d ≠ c) : (s.updDistrict c f).district d = s.district d := rd_upd_other _ _ _ h

@[simp] theorem die_updDie_same (c : Nat) (f : Die → Die) : (s.updDie c f).die c = f (s.die c) := rd_upd_same _ _ _ _

theorem die_updDie_other {c d : Nat} (f : Die → Die) (h : d ≠ c) : (s.updDie c f).die d = s.die d := rd_upd_other _ _ _ h

@[simp] theorem port_updPort_same (c : Nat) (f : Port → Port) : (s.updPort c f).port c = f (s.port c) := rd_upd_same _ _ _ _

theorem port_updPort_other {c d : Nat} (f : Port → Port) (h : d ≠ c) : (s.updPort c f).port d = s.port d := rd_upd_other _ _ _ h

@[simp] theorem svc_updSvc_same (c : Nat) (f : Svc → Svc) : (s.updSvc c f).svc c = f (s.svc c) := rd_upd_same _ _ _ _

theorem svc_updSvc_other {c d : Nat} (f : Svc → Svc) (h : d ≠ c) : (s.updSvc c f).svc d = s.svc d := rd_upd_other _ _ _ h

@[simp] theorem slot_updSlot_same (c k : Nat) (f : Slot → Slot) : (s.updSlot c k f).slot c k = f (s.slot c k) := by
  show Tab.rd {} ((s.updCore c _).core c).slots k = _
  rw [core_updCore_same]
  exact rd_upd_same _ _ _ _

theorem slot_updSlot_slot {c k j : Nat} (f : Slot → Slot) (h : j ≠ k) : (s.updSlot c k f).slot c j = s.slot c j := by
  show Tab.rd {} ((s.updCore c _).core c).slots j = _
  rw [core_updCore_same]
  exact rd_upd_other _ _ _ h

theorem slot_updSlot_core {c d k j : Nat} (f : Slot → Slot) (h : d ≠ c) : (s.updSlot c k f).slot d j = s.slot d j := by
  show Tab.rd {} ((s.updCore c _).core d).slots j = _
  rw [core_updCore_other _ _ h]
  rfl

@[simp] theorem slot_updFrame_same (c k : Nat) (f : Frame → Frame) :
    (s.updFrame c k f).slot c k = { s.slot c k with frame := f (s.slot c k).frame } := slot_updSlot_same s c k _

@[simp] theorem cur_updCur (f : Slot → Slot) : (s.updCur f).cur = f s.cur := slot_updSlot_same s s.cc s.ck f

@[simp] theorem cur_updF (f : Frame → Frame) : (s.updF f).cur = { s.cur with frame := f s.cur.frame } :=
  slot_updFrame_same s s.cc s.ck f

/-- An update of a slot leaves everything else of its core. -/
theorem core_updSlot (c k : Nat) (f : Slot → Slot) :
    (s.updSlot c k f).core c = { s.core c with slots := Tab.upd {} (s.core c).slots k f } := core_updCore_same s c _

/-! ## Contexts -/

@[simp] theorem reg_setReg_same (x : Ctx) (k : Nat) (v : Word) : (x.setReg k v).reg k = v := rd_put_same _ _ _ _

theorem reg_setReg_other (x : Ctx) {k j : Nat} (v : Word) (h : j ≠ k) : (x.setReg k v).reg j = x.reg j :=
  rd_put_other _ _ _ h

@[simp] theorem segReg_setSeg_same (x : Ctx) (k : Nat) (v : BitVec 128) : (x.setSeg k v).segReg k = v := rd_put_same _ _ _ _

theorem segReg_setSeg_other (x : Ctx) {k j : Nat} (v : BitVec 128) (h : j ≠ k) : (x.setSeg k v).segReg j = x.segReg j :=
  rd_put_other _ _ _ h

@[simp] theorem setReg_pc (x : Ctx) (k : Nat) (v : Word) : (x.setReg k v).pc = x.pc := rfl
@[simp] theorem setReg_tsw (x : Ctx) (k : Nat) (v : Word) : (x.setReg k v).tsw = x.tsw := rfl
@[simp] theorem setReg_wait (x : Ctx) (k : Nat) (v : Word) : (x.setReg k v).wait = x.wait := rfl
@[simp] theorem setReg_seg (x : Ctx) (k : Nat) (v : Word) : (x.setReg k v).seg = x.seg := rfl
@[simp] theorem setSeg_pc (x : Ctx) (k : Nat) (v : BitVec 128) : (x.setSeg k v).pc = x.pc := rfl
@[simp] theorem setSeg_tsw (x : Ctx) (k : Nat) (v : BitVec 128) : (x.setSeg k v).tsw = x.tsw := rfl
@[simp] theorem setSeg_wait (x : Ctx) (k : Nat) (v : BitVec 128) : (x.setSeg k v).wait = x.wait := rfl
@[simp] theorem setSeg_g (x : Ctx) (k : Nat) (v : BitVec 128) : (x.setSeg k v).g = x.g := rfl

/-! ## Frames -/

@[simp] theorem mark_st (x : Frame) (i : Nat) (b : Bool) : (x.mark i b).st = x.st := rfl
@[simp] theorem mark_pc (x : Frame) (i : Nat) (b : Bool) : (x.mark i b).pc = x.pc := rfl
@[simp] theorem mark_header (x : Frame) (i : Nat) (b : Bool) : (x.mark i b).header = x.header := rfl
@[simp] theorem mark_body (x : Frame) (i : Nat) (b : Bool) : (x.mark i b).body = x.body := rfl
@[simp] theorem mark_held (x : Frame) (i : Nat) (b : Bool) : (x.mark i b).held = x.held := rfl
@[simp] theorem mark_ops (x : Frame) (i : Nat) (b : Bool) : (x.mark i b).ops = x.ops := rfl
@[simp] theorem mark_regs (x : Frame) (i : Nat) (b : Bool) : (x.mark i b).regs = x.regs := rfl
@[simp] theorem mark_pend (x : Frame) (i : Nat) (b : Bool) : (x.mark i b).pend = x.pend := rfl
@[simp] theorem mark_loads (x : Frame) (i : Nat) (b : Bool) : (x.mark i b).loads = x.loads := rfl
@[simp] theorem mark_waitAll (x : Frame) (i : Nat) (b : Bool) : (x.mark i b).waitAll = x.waitAll := rfl
@[simp] theorem mark_kept (x : Frame) (i : Nat) (b : Bool) : (x.mark i b).kept = x.kept := rfl
@[simp] theorem mark_checked (x : Frame) (i : Nat) (b : Bool) : (x.mark i b).checked = x.checked := rfl
@[simp] theorem mark_asked (x : Frame) (i : Nat) (b : Bool) : (x.mark i b).asked = x.asked := rfl
@[simp] theorem mark_exits (x : Frame) (i : Nat) (b : Bool) : (x.mark i b).exits = x.exits := rfl
@[simp] theorem mark_exit2 (x : Frame) (i : Nat) (b : Bool) : (x.mark i b).exit2 = x.exit2 := rfl
@[simp] theorem mark_faults (x : Frame) (i : Nat) (b : Bool) : (x.mark i b).faults = x.faults := rfl
@[simp] theorem mark_lock (x : Frame) (i : Nat) (b : Bool) : (x.mark i b).lock = x.lock := rfl
@[simp] theorem mark_flags (x : Frame) (i : Nat) (b : Bool) : (x.mark i b).flags = x.flags := rfl
@[simp] theorem mark_segNew (x : Frame) (i : Nat) (b : Bool) : (x.mark i b).segNew = x.segNew := rfl
@[simp] theorem mark_tswNew (x : Frame) (i : Nat) (b : Bool) : (x.mark i b).tswNew = x.tswNew := rfl
@[simp] theorem mark_gph (x : Frame) (i : Nat) (b : Bool) : (x.mark i b).gph = x.gph := rfl
@[simp] theorem mark_age (x : Frame) (i : Nat) (b : Bool) : (x.mark i b).age = x.age := rfl
@[simp] theorem orFlags_st (x : Frame) (n : Nat) : (x.orFlags n).st = x.st := rfl
@[simp] theorem orFlags_pc (x : Frame) (n : Nat) : (x.orFlags n).pc = x.pc := rfl
@[simp] theorem orFlags_header (x : Frame) (n : Nat) : (x.orFlags n).header = x.header := rfl
@[simp] theorem orFlags_body (x : Frame) (n : Nat) : (x.orFlags n).body = x.body := rfl
@[simp] theorem orFlags_held (x : Frame) (n : Nat) : (x.orFlags n).held = x.held := rfl
@[simp] theorem orFlags_ops (x : Frame) (n : Nat) : (x.orFlags n).ops = x.ops := rfl
@[simp] theorem orFlags_regs (x : Frame) (n : Nat) : (x.orFlags n).regs = x.regs := rfl
@[simp] theorem orFlags_fired (x : Frame) (n : Nat) : (x.orFlags n).fired = x.fired := rfl
@[simp] theorem orFlags_pend (x : Frame) (n : Nat) : (x.orFlags n).pend = x.pend := rfl
@[simp] theorem orFlags_loads (x : Frame) (n : Nat) : (x.orFlags n).loads = x.loads := rfl
@[simp] theorem orFlags_waitAll (x : Frame) (n : Nat) : (x.orFlags n).waitAll = x.waitAll := rfl
@[simp] theorem orFlags_kept (x : Frame) (n : Nat) : (x.orFlags n).kept = x.kept := rfl
@[simp] theorem orFlags_checked (x : Frame) (n : Nat) : (x.orFlags n).checked = x.checked := rfl
@[simp] theorem orFlags_asked (x : Frame) (n : Nat) : (x.orFlags n).asked = x.asked := rfl
@[simp] theorem orFlags_exits (x : Frame) (n : Nat) : (x.orFlags n).exits = x.exits := rfl
@[simp] theorem orFlags_exit2 (x : Frame) (n : Nat) : (x.orFlags n).exit2 = x.exit2 := rfl
@[simp] theorem orFlags_faults (x : Frame) (n : Nat) : (x.orFlags n).faults = x.faults := rfl
@[simp] theorem orFlags_lock (x : Frame) (n : Nat) : (x.orFlags n).lock = x.lock := rfl
@[simp] theorem orFlags_segNew (x : Frame) (n : Nat) : (x.orFlags n).segNew = x.segNew := rfl
@[simp] theorem orFlags_tswNew (x : Frame) (n : Nat) : (x.orFlags n).tswNew = x.tswNew := rfl
@[simp] theorem orFlags_gph (x : Frame) (n : Nat) : (x.orFlags n).gph = x.gph := rfl
@[simp] theorem orFlags_age (x : Frame) (n : Nat) : (x.orFlags n).age = x.age := rfl
@[simp] theorem addFault_st (x : Frame) (d : FaultD) : (x.addFault d).st = x.st := rfl
@[simp] theorem addFault_pc (x : Frame) (d : FaultD) : (x.addFault d).pc = x.pc := rfl
@[simp] theorem addFault_header (x : Frame) (d : FaultD) : (x.addFault d).header = x.header := rfl
@[simp] theorem addFault_body (x : Frame) (d : FaultD) : (x.addFault d).body = x.body := rfl
@[simp] theorem addFault_held (x : Frame) (d : FaultD) : (x.addFault d).held = x.held := rfl
@[simp] theorem addFault_ops (x : Frame) (d : FaultD) : (x.addFault d).ops = x.ops := rfl
@[simp] theorem addFault_regs (x : Frame) (d : FaultD) : (x.addFault d).regs = x.regs := rfl
@[simp] theorem addFault_fired (x : Frame) (d : FaultD) : (x.addFault d).fired = x.fired := rfl
@[simp] theorem addFault_pend (x : Frame) (d : FaultD) : (x.addFault d).pend = x.pend := rfl
@[simp] theorem addFault_loads (x : Frame) (d : FaultD) : (x.addFault d).loads = x.loads := rfl
@[simp] theorem addFault_waitAll (x : Frame) (d : FaultD) : (x.addFault d).waitAll = x.waitAll := rfl
@[simp] theorem addFault_kept (x : Frame) (d : FaultD) : (x.addFault d).kept = x.kept := rfl
@[simp] theorem addFault_checked (x : Frame) (d : FaultD) : (x.addFault d).checked = x.checked := rfl
@[simp] theorem addFault_asked (x : Frame) (d : FaultD) : (x.addFault d).asked = x.asked := rfl
@[simp] theorem addFault_exits (x : Frame) (d : FaultD) : (x.addFault d).exits = x.exits := rfl
@[simp] theorem addFault_exit2 (x : Frame) (d : FaultD) : (x.addFault d).exit2 = x.exit2 := rfl
@[simp] theorem addFault_lock (x : Frame) (d : FaultD) : (x.addFault d).lock = x.lock := rfl
@[simp] theorem addFault_flags (x : Frame) (d : FaultD) : (x.addFault d).flags = x.flags := rfl
@[simp] theorem addFault_segNew (x : Frame) (d : FaultD) : (x.addFault d).segNew = x.segNew := rfl
@[simp] theorem addFault_tswNew (x : Frame) (d : FaultD) : (x.addFault d).tswNew = x.tswNew := rfl
@[simp] theorem addFault_gph (x : Frame) (d : FaultD) : (x.addFault d).gph = x.gph := rfl
@[simp] theorem addFault_age (x : Frame) (d : FaultD) : (x.addFault d).age = x.age := rfl

end Sys2Proof.Laws
end

