-- ==== Sys2Proof/Laws/Ops.lean ====
section
/-!
SUPPORT. One lemma for each shared operation: everything it can do, case by case, so that the operation itself need not be
unfolded again.
-/

set_option Elab.async false

namespace Sys2Proof.Laws

open Sys2Proof.Machine

/-! ## Firing -/

theorem inputsOf_eq {h : Shape} {f : Frame} {i : Nat} {l r p : Tok}
    (hl : (if h.has 0 then f.input i 0 else some (.val 0)) = some l)
    (hr : (if h.has 1 then f.input i 1 else some (.val 0)) = some r)
    (hp : (if h.has 2 then f.input i 2 else some (.val 0)) = some p) : inputsOf h f i = some (l, r, p) := by
  simp only [inputsOf, hl, hr, hp]

/-- A word that has fired waits. -/
theorem gather_fired {h : Shape} {f : Frame} {i : Nat} (e : f.fired.find? i ≠ none) : gather h f i = .wait := by
  simp [gather, e]

/-- What firing does to the frame. -/
theorem frame_fireWith (s : State) (i : Instr) (x : Tok) (n : Nat) : (s.fireWith i x n).cur =
    { s.cur with frame := ((s.cur.frame.mark s.ci true).deliver s.ci i.shape.targets x).orFlags n } := cur_updF s _

/-- Firing leaves memory as it is. -/
@[simp] theorem mem_fireWith (s : State) (i : Instr) (x : Tok) (n : Nat) : (s.fireWith i x n).mem = s.mem := rfl

@[simp] theorem mem_skipWord (s : State) : s.skipWord.mem = s.mem := rfl

/-- Everything a class C instruction can do (R265-R267). -/
theorem compute_cases (i : Instr) (g : Slot → Tok → Tok → Tok → Tok × Nat) (s : State) :
    (gather i.shape s.cur.frame s.ci = .wait → compute i g s = s) ∧
    (gather i.shape s.cur.frame s.ci = .mismatch → compute i g s = s.skipWord) ∧
    (∀ d m, gather i.shape s.cur.frame s.ci = .poison d m → compute i g s = s.fireWith i (.poison d m) 0) ∧
    (gather i.shape s.cur.frame s.ci = .null → compute i g s = s.fireWith i .null 0) ∧
    (∀ l r p, s.has i l r p → compute i g s = s.gives i (g s.cur l r p)) := by
  refine ⟨?_, ?_, ?_, ?_, ?_⟩ <;> intros <;> simp_all [compute, State.has, State.gives]

/-- A class C instruction changes the frame at the cursor only. -/
theorem compute_frame (i : Instr) (g : Slot → Tok → Tok → Tok → Tok × Nat) (s : State) :
    compute i g s = s ∨ ∃ f : Frame → Frame, compute i g s = s.updF f := by
  unfold compute
  split
  · exact .inl rfl
  all_goals exact .inr ⟨_, rfl⟩

/-- A scalar instruction on scalars. -/
theorem scalar_ready {i : Instr} {s : State} {x y z : Word} (g : Slot → Word → Word → Word → Tok × Nat)
    (h : s.ready i x y z) : scalar i g s = s.gives i (g s.cur x y z) := by
  obtain ⟨l, r, p, hv, hn, rfl, rfl, rfl⟩ := h
  unfold scalar
  rw [(compute_cases i _ s).2.2.2.2 l r p hv]
  simp [hn]

/-- A scalar instruction whose result is a word. -/
theorem wordOp_ready {i : Instr} {s : State} {x y z : Word} (g : Word → Word → Word → Word) (h : s.ready i x y z) :
    wordOp i g s = s.fires i (g x y z) := scalar_ready _ h

/-! ## Loads, stores, synchronising reads, performing operations -/

/-- What a load does once its inputs have arrived and nothing holds it (R269). -/
theorem loadOp_may {i : Instr} {l : Nat} {f : State → Who → Tok → Tok → LoadOut × State} {s : State} {x y z : Tok}
    (hv : s.has i x y z) (hx : x.isNull = false) (hm : s.mayLoad l) :
    loadOp i l f s = match f s s.me x y with
      | (.wait, t) => t
      | (.park ea n, t) => t.parkGuard t.cc t.ck ea n
      | (.tok v ls, t) => if v.waits then t else t.loadDone i l false v ls := by
  obtain ⟨h1, h2, h3, h4⟩ := hm
  unfold State.has at hv
  unfold loadOp
  rw [hv]
  simp only [h1, hx, h2, h3, h4, Bool.false_eq_true, if_false, Bool.or_self]
  rfl

/-- A load that shows no other to be too early fires and keeps what it read. -/
theorem loadDone_inOrder {i : Instr} {l : Nat} {v : Tok} {ls : List Nat} {s : State} (h : s.loadInOrder l ls) :
    s.loadDone i l false v ls = s.loads i l v ls := by
  unfold State.loadInOrder at h
  simp [State.loadDone, State.loads, h]

/-- What a load does in the other cases: a predicate that decides, poison, null. -/
theorem loadOp_else (i : Instr) (l : Nat) (f : State → Who → Tok → Tok → LoadOut × State) (s : State) :
    (gather i.shape s.cur.frame s.ci = .wait → loadOp i l f s = s) ∧
    (gather i.shape s.cur.frame s.ci = .mismatch → loadOp i l f s = s.skipWord) ∧
    (∀ d m, gather i.shape s.cur.frame s.ci = .poison d m → loadOp i l f s = s.fireWith i (.poison d m) 0) ∧
    (gather i.shape s.cur.frame s.ci = .null → loadOp i l f s = s.fireWith i .null 0) := by
  refine ⟨?_, ?_, ?_, ?_⟩ <;> intros <;> simp_all [loadOp]

/-- Everything a class K instruction can do (R274). -/
theorem storeOp_cases (i : Instr) (l : Nat) (f : State → Who → Tok → Tok → Tok → Built × State) (s : State) :
    (gather i.shape s.cur.frame s.ci = .wait → storeOp i l f s = s) ∧
    (gather i.shape s.cur.frame s.ci = .mismatch → storeOp i l f s = s.skipWord) ∧
    (∀ d m, gather i.shape s.cur.frame s.ci = .poison d m → storeOp i l f s = s.leaves l .done) ∧
    (gather i.shape s.cur.frame s.ci = .null → storeOp i l f s = s.leaves l .nulled) ∧
    (∀ x y z d t, s.has i x y z → f s s.me x y z = (.error d, t) →
      storeOp i l f s = if d.waits then t else t.leave l (.error d)) ∧
    (∀ x y z p t, s.has i x y z → f s s.me x y z = (.ok p, t) → storeOp i l f s = t.leave l (.ok p)) := by
  refine ⟨?_, ?_, ?_, ?_, ?_, ?_⟩ <;> intros <;> simp_all [storeOp, State.has, State.leaves, State.me]

/-- What a synchronising read does when it may be performed (R271). -/
theorem syncOp_may {i : Instr} {l : Nat} {force : Bool} {f : State → Who → Tok → Tok → Perf × State} {s : State}
    {x y : Tok} (hm : s.maySync i l force x y) : syncOp i l force f s = match f s s.me x y with
      | (.wait, t) => t
      | (.park kind addr loc, t) => t.parkOn kind addr loc
      | (.guard ea n, t) => t.parkGuard t.cc t.ck ea n
      | (.refuse d m, t) => if d.waits then t else t.synced i (t.poisonOf d m l)
      | (.done v _, t) => t.synced i v := by
  obtain ⟨⟨p, hv⟩, hn, hk, hs, ho, hc⟩ := hm
  unfold State.has at hv
  unfold syncOp
  rw [hv]
  simp only [hk, hs, hn, ho, hc, Bool.false_eq_true, if_false]
  rfl

/-- What a performing operation does at its lock (R273). -/
theorem performOp_may {i : Instr} {l : Nat} {force : Bool} {nulled : Tok → Bool}
    {chk : State → Who → Tok → Tok → Except FaultD (Option (Nat × Nat)) × State}
    {f : State → Who → Tok → Tok → Tok → Perf × State} {s : State} {x y z : Tok}
    (hm : s.mayPerform i force (nulled y) x y z) : performOp i l force nulled chk f s = match f s s.me x y z with
      | (.wait, t) => t
      | (.park kind addr loc, t) => t.parkOn kind addr loc
      | (.guard ea n, t) => t.parkGuard t.cc t.ck ea n
      | (.refuse d _, t) => if d.waits then t else t.raiseOut t.cc t.ck { d with index := t.ci, lsid := l, iv := true }
      | (.done v fl, t) => t.performed i l v fl := by
  obtain ⟨hv, hn, hs, hch, hl, hc⟩ := hm
  unfold State.has at hv
  unfold performOp
  rw [hv]
  simp only [hn, hs, hch, hl, hc, Bool.false_eq_true, if_false, Bool.not_true]
  rfl

/-- What an exit does (R265, R266, R276). -/
theorem exitOp_cases (i : Instr) (g : State → Word → Except FaultD ExitFired × State) (s : State) :
    (gather i.shape s.cur.frame s.ci = .wait → exitOp i g s = s) ∧
    ((gather i.shape s.cur.frame s.ci = .mismatch ∨ gather i.shape s.cur.frame s.ci = .null) →
      exitOp i g s = s.skipWord) ∧
    (∀ x y z, s.has i x y z → x.isNull = true → exitOp i g s = s.skipWord) ∧
    (∀ x y z e t, s.has i x y z → x.isNull = false → g s x.w = (.ok e, t) → exitOp i g s = t.fireExit e) := by
  refine ⟨?_, ?_, ?_, ?_⟩
  · intro h; simp [exitOp, h]
  · rintro (h | h) <;> simp [exitOp, h]
  · intro x y z h hx; unfold State.has at h; simp [exitOp, h, hx]
  · intro x y z e t h hx hg; unfold State.has at h; simp [exitOp, h, hx, hg]

/-! ## Threads -/

/-- A fault without a twin and without a migration is taken at the block's PC (R205, R206). -/
theorem raise_alone {s : State} {c k : Nat} {f : FaultD} (ht : (s.slot c k).twin = none) (hf : f.migrate = none) :
    s.raise c k f = s.takeFault c k (s.slot c k).ctx.pc.toNat f := by simp [State.raise, ht, hf]

/-- A wake or RESUME of a thread that is no twin: it runs its block again, WAIT clear (R122, R213). -/
theorem makeRunnable_alone {s : State} {c k : Nat} (ht : s.twinSlot c k = none)
    (hh : waitHt (s.slot c k).ctx.wait = false) : (s.makeRunnable c k).slot c k =
      { s.slot c k with
        st := .run, frame := {}, next := {}, spilling := false, ctx := { (s.slot c k).ctx with wait := 0 } } := by
  unfold State.makeRunnable State.both
  simp only [ht, slot_updSlot_same, hh, Bool.false_eq_true, if_false]


/-! ## The host side and the turnover -/

/-- A host transaction in its turn goes on by one word (R36, R46). -/
theorem hostServes_turn {s s1 : State} {p : Nat} {x : Txn} {f : HostPart → State → HostTurn} {other : State → State}
    (h : s.hostTurn p x s1) : s.hostServes p x f other = s1.hostGoesOn x.qtr f := by
  obtain ⟨hh, ⟨h1, rfl⟩ | ⟨h1, h2, rfl⟩⟩ := h
  · simp [State.hostServes, hh, h1]
  · simp [State.hostServes, hh, h1, h2]

/-- A step of the turnover first sets STATE (R63). -/
theorem turnStep_begin {s : State} {ph : Phase} {n : Nat} (f : State → State) (h : s.mgmt.phase = ph)
    (hn : s.mgmt.state < n) : s.turnStep ph n f = { s with mgmt := { s.mgmt with state := n } } := by
  simp [State.turnStep, h, hn]

/-- A step of the turnover that has begun takes effect. -/
theorem turnStep_effect {s : State} {ph : Phase} {n : Nat} (f : State → State) (h : s.mgmt.phase = ph)
    (hn : n ≤ s.mgmt.state) : s.turnStep ph n f = f s := by
  simp [State.turnStep, h, Nat.not_lt.mpr hn]

/-- A request of a supervisor with the code that is served is taken and answered, at once or later (R51). -/
theorem serve_code {s : State} {code q n : Nat} {ws : List Word}
    {f : State → Nat → List Word → Option (Nat × Nat) × State} (h : s.nextRequest q = some (n, ws))
    {waits : List Word → Bool} (hc : wbits (ws.headD 0) 14 0 = code) (h1 : 1 ≤ code) (h7 : code ≤ 7)
    (hr : wbits (ws.headD 0) 31 16 = 0) (hw : waits ws = false) :
    serve code q f s waits = match f (s.updSvc q fun x => { x with taken := (n + 1) % 2 ^ 64 }) n ws with
      | (some (r, w), t) => t.respond q n (ws.headD 0) r w
      | (none, t) => t := by
  have h0 : ¬(code = 0 ∨ 7 < code) := by omega
  simp only [serve, h, hc, h0, hr, hw, if_false, ne_eq, not_true_eq_false, Bool.false_eq_true] <;> rfl

end Sys2Proof.Laws
end

