-- ==== Sys2Proof/Laws/PerInstr.lean ====
section
/-!
SUPPORT. One lemma per instruction about its words: each word of a well-formed instruction has 32 bits (R256).
-/

set_option Elab.async false

namespace Sys2Proof.Laws.Fits

/-- Every word of a well-formed instruction has 32 bits. -/
def Statement (i : Instr) : Prop := i.wf = true → ∀ w ∈ encode i, w < 2 ^ 32

/-- The bound of a target number. -/
theorem tgtOk_iff {t : Nat} : tgtOk t = true ↔ t < 400 ∨ t = 511 := by simp [tgtOk]

/-- A PR code has 2 bits. -/
theorem pr_lt (p : Pr) : p.code < 3 := by cases p <;> decide

/-- A width code has 2 bits. -/
theorem width_lt (w : Width) : w.code < 4 := by cases w <;> decide

/-- A precision code has 1 bit. -/
theorem prec_lt (q : Prec) : q.code < 2 := by cases q <;> decide

/-- A rounding code has 3 bits. -/
theorem rm_lt (m : Rm) : m.code < 8 := by rcases m with m | _ <;> (try cases m) <;> decide

/-- A lane type code has 3 bits. -/
theorem vt_lt (y : VT) : y.code < 6 := by cases y <;> decide

/-- A result type code of VCVT has 2 bits. -/
theorem cvt_lt (y : VT) : cvtCode y < 4 := by cases y <;> decide

/-- A scope code has 3 bits. -/
theorem scope_lt (c : Scope) : c.code < 5 := by cases c <;> decide

/-- An atomic operation code has 4 bits. -/
theorem amo_lt (x : AmoOp) : x.code < 11 := by cases x <;> decide

/-- The code of an operation of RVAMO has 3 bits. -/
theorem amo_simple {x : AmoOp} (h : x.simple = true) : x.code < 8 := by cases x <;> first | decide | simp [AmoOp.simple] at h

/-- A type code of ROADD has 2 bits. -/
theorem roty_lt (y : RoTy) : y.code < 3 := by cases y <;> decide

/-- A relation code has 2 bits. -/
theorem vcond_lt (c : VCond) : c.code < 4 := by cases c <;> decide

/-- A flag has 1 bit. -/
theorem bool_lt (b : Bool) : b.toNat < 2 := Bool.toNat_lt b

/-- A field of n bits is less than 2 ^ n. -/
theorem fld_lt (w lo n : Nat) : fld w lo n < 2 ^ n := Nat.mod_lt _ (Nat.two_pow_pos n)

/-- The eight words of a well-formed long command have 32 bits each. -/
theorem encLong_fits {eng cmd : Nat} {c : Long} (he : eng < 8) (hc : cmd < 64) (h : longWf eng cmd c = true) :
    ∀ w ∈ encLong eng cmd c, w < 2 ^ 32 := by
  intro w hw
  simp only [longWf, Bool.and_eq_true, decide_eq_true_eq, tgtOk_iff] at h
  have := pr_lt c.p
  simp only [encLong, List.mem_cons, List.not_mem_nil, or_false] at hw
  rcases hw with rfl | rfl | rfl | rfl | rfl | rfl | rfl | rfl
  · omega
  · omega
  · omega
  all_goals exact fld_lt _ _ _

theorem readReg (k s t : Nat) : Statement (.readReg k s t) := by
  intro h v hv
  have h : (decide (k < 16) && tgtOk s && tgtOk t) = true := h
  have hv : v ∈ [0x00000000 + k * 0x40000 + s * 0x200 + t] := hv
  simp only [Bool.and_eq_true, decide_eq_true_eq, tgtOk_iff, List.mem_cons, List.not_mem_nil, or_false] at h hv
  omega

theorem mov (p : Pr) (s t : Nat) : Statement (.mov p s t) := by
  intro h v hv
  have h : (tgtOk s && tgtOk t) = true := h
  have hv : v ∈ [0x02000000 + p.code * 0x800000 + s * 0x200 + t] := hv
  simp only [Bool.and_eq_true, tgtOk_iff, List.mem_cons, List.not_mem_nil, or_false] at h hv
  have := pr_lt p
  omega

theorem mov4 (p : Pr) (s t t3 t2 : Nat) : Statement (.mov4 p s t t3 t2) := by
  intro h v hv
  have h : (tgtOk s && tgtOk t && tgtOk t3 && tgtOk t2) = true := h
  have hv : v ∈ [0x04000000 + p.code * 0x800000 + s * 0x200 + t, t3 * 0x200 + t2] := hv
  simp only [Bool.and_eq_true, tgtOk_iff, List.mem_cons, List.not_mem_nil, or_false] at h hv
  have := pr_lt p
  omega

theorem movi (p : Pr) (i t : Nat) : Statement (.movi p i t) := by
  intro h v hv
  have h : (decide (i < 16384) && tgtOk t) = true := h
  have hv : v ∈ [0x06000000 + p.code * 0x800000 + i * 0x200 + t] := hv
  simp only [Bool.and_eq_true, decide_eq_true_eq, tgtOk_iff, List.mem_cons, List.not_mem_nil, or_false] at h hv
  have := pr_lt p
  omega

theorem const (t i : Nat) : Statement (.const t i) := by
  intro h v hv
  have h : (tgtOk t && decide (i < 65536)) = true := h
  have hv : v ∈ [0x08000000 + t * 0x10000 + i] := hv
  simp only [Bool.and_eq_true, decide_eq_true_eq, tgtOk_iff, List.mem_cons, List.not_mem_nil, or_false] at h hv
  omega

theorem consth (t i : Nat) : Statement (.consth t i) := by
  intro h v hv
  have h : (tgtOk t && decide (i < 65536)) = true := h
  have hv : v ∈ [0x0A000000 + t * 0x10000 + i] := hv
  simp only [Bool.and_eq_true, decide_eq_true_eq, tgtOk_iff, List.mem_cons, List.not_mem_nil, or_false] at h hv
  omega

theorem null (p : Pr) (s t : Nat) : Statement (.null p s t) := by
  intro h v hv
  have h : (tgtOk s && tgtOk t) = true := h
  have hv : v ∈ [0x0C000000 + p.code * 0x800000 + s * 0x200 + t] := hv
  simp only [Bool.and_eq_true, tgtOk_iff, List.mem_cons, List.not_mem_nil, or_false] at h hv
  have := pr_lt p
  omega

theorem add (p : Pr) (w : Width) (s t : Nat) : Statement (.add p w s t) := by
  intro h v hv
  have h : (tgtOk s && tgtOk t) = true := h
  have hv : v ∈ [0x20000000 + p.code * 0x800000 + w.code * 0x40000 + s * 0x200 + t] := hv
  simp only [Bool.and_eq_true, tgtOk_iff, List.mem_cons, List.not_mem_nil, or_false] at h hv
  have := pr_lt p
  have := width_lt w
  omega

theorem sub (p : Pr) (w : Width) (s t : Nat) : Statement (.sub p w s t) := by
  intro h v hv
  have h : (tgtOk s && tgtOk t) = true := h
  have hv : v ∈ [0x22000000 + p.code * 0x800000 + w.code * 0x40000 + s * 0x200 + t] := hv
  simp only [Bool.and_eq_true, tgtOk_iff, List.mem_cons, List.not_mem_nil, or_false] at h hv
  have := pr_lt p
  have := width_lt w
  omega

theorem mul (p : Pr) (w : Width) (s t : Nat) : Statement (.mul p w s t) := by
  intro h v hv
  have h : (tgtOk s && tgtOk t) = true := h
  have hv : v ∈ [0x24000000 + p.code * 0x800000 + w.code * 0x40000 + s * 0x200 + t] := hv
  simp only [Bool.and_eq_true, tgtOk_iff, List.mem_cons, List.not_mem_nil, or_false] at h hv
  have := pr_lt p
  have := width_lt w
  omega

theorem mulh (p : Pr) (w : Width) (s t : Nat) : Statement (.mulh p w s t) := by
  intro h v hv
  have h : (tgtOk s && tgtOk t) = true := h
  have hv : v ∈ [0x26000000 + p.code * 0x800000 + w.code * 0x40000 + s * 0x200 + t] := hv
  simp only [Bool.and_eq_true, tgtOk_iff, List.mem_cons, List.not_mem_nil, or_false] at h hv
  have := pr_lt p
  have := width_lt w
  omega

theorem mulhn (p : Pr) (w : Width) (s t : Nat) : Statement (.mulhn p w s t) := by
  intro h v hv
  have h : (tgtOk s && tgtOk t) = true := h
  have hv : v ∈ [0x28000000 + p.code * 0x800000 + w.code * 0x40000 + s * 0x200 + t] := hv
  simp only [Bool.and_eq_true, tgtOk_iff, List.mem_cons, List.not_mem_nil, or_false] at h hv
  have := pr_lt p
  have := width_lt w
  omega

theorem div (p : Pr) (w : Width) (s t : Nat) : Statement (.div p w s t) := by
  intro h v hv
  have h : (tgtOk s && tgtOk t) = true := h
  have hv : v ∈ [0x2A000000 + p.code * 0x800000 + w.code * 0x40000 + s * 0x200 + t] := hv
  simp only [Bool.and_eq_true, tgtOk_iff, List.mem_cons, List.not_mem_nil, or_false] at h hv
  have := pr_lt p
  have := width_lt w
  omega

theorem divn (p : Pr) (w : Width) (s t : Nat) : Statement (.divn p w s t) := by
  intro h v hv
  have h : (tgtOk s && tgtOk t) = true := h
  have hv : v ∈ [0x2C000000 + p.code * 0x800000 + w.code * 0x40000 + s * 0x200 + t] := hv
  simp only [Bool.and_eq_true, tgtOk_iff, List.mem_cons, List.not_mem_nil, or_false] at h hv
  have := pr_lt p
  have := width_lt w
  omega

theorem rem (p : Pr) (w : Width) (s t : Nat) : Statement (.rem p w s t) := by
  intro h v hv
  have h : (tgtOk s && tgtOk t) = true := h
  have hv : v ∈ [0x2E000000 + p.code * 0x800000 + w.code * 0x40000 + s * 0x200 + t] := hv
  simp only [Bool.and_eq_true, tgtOk_iff, List.mem_cons, List.not_mem_nil, or_false] at h hv
  have := pr_lt p
  have := width_lt w
  omega

theorem remn (p : Pr) (w : Width) (s t : Nat) : Statement (.remn p w s t) := by
  intro h v hv
  have h : (tgtOk s && tgtOk t) = true := h
  have hv : v ∈ [0x30000000 + p.code * 0x800000 + w.code * 0x40000 + s * 0x200 + t] := hv
  simp only [Bool.and_eq_true, tgtOk_iff, List.mem_cons, List.not_mem_nil, or_false] at h hv
  have := pr_lt p
  have := width_lt w
  omega

theorem and (p : Pr) (w : Width) (s t : Nat) : Statement (.and p w s t) := by
  intro h v hv
  have h : (tgtOk s && tgtOk t) = true := h
  have hv : v ∈ [0x32000000 + p.code * 0x800000 + w.code * 0x40000 + s * 0x200 + t] := hv
  simp only [Bool.and_eq_true, tgtOk_iff, List.mem_cons, List.not_mem_nil, or_false] at h hv
  have := pr_lt p
  have := width_lt w
  omega

theorem or (p : Pr) (w : Width) (s t : Nat) : Statement (.or p w s t) := by
  intro h v hv
  have h : (tgtOk s && tgtOk t) = true := h
  have hv : v ∈ [0x34000000 + p.code * 0x800000 + w.code * 0x40000 + s * 0x200 + t] := hv
  simp only [Bool.and_eq_true, tgtOk_iff, List.mem_cons, List.not_mem_nil, or_false] at h hv
  have := pr_lt p
  have := width_lt w
  omega

theorem xor (p : Pr) (w : Width) (s t : Nat) : Statement (.xor p w s t) := by
  intro h v hv
  have h : (tgtOk s && tgtOk t) = true := h
  have hv : v ∈ [0x36000000 + p.code * 0x800000 + w.code * 0x40000 + s * 0x200 + t] := hv
  simp only [Bool.and_eq_true, tgtOk_iff, List.mem_cons, List.not_mem_nil, or_false] at h hv
  have := pr_lt p
  have := width_lt w
  omega

theorem andn (p : Pr) (w : Width) (s t : Nat) : Statement (.andn p w s t) := by
  intro h v hv
  have h : (tgtOk s && tgtOk t) = true := h
  have hv : v ∈ [0x38000000 + p.code * 0x800000 + w.code * 0x40000 + s * 0x200 + t] := hv
  simp only [Bool.and_eq_true, tgtOk_iff, List.mem_cons, List.not_mem_nil, or_false] at h hv
  have := pr_lt p
  have := width_lt w
  omega

theorem shl (p : Pr) (w : Width) (s t : Nat) : Statement (.shl p w s t) := by
  intro h v hv
  have h : (tgtOk s && tgtOk t) = true := h
  have hv : v ∈ [0x3A000000 + p.code * 0x800000 + w.code * 0x40000 + s * 0x200 + t] := hv
  simp only [Bool.and_eq_true, tgtOk_iff, List.mem_cons, List.not_mem_nil, or_false] at h hv
  have := pr_lt p
  have := width_lt w
  omega

theorem shr (p : Pr) (w : Width) (s t : Nat) : Statement (.shr p w s t) := by
  intro h v hv
  have h : (tgtOk s && tgtOk t) = true := h
  have hv : v ∈ [0x3C000000 + p.code * 0x800000 + w.code * 0x40000 + s * 0x200 + t] := hv
  simp only [Bool.and_eq_true, tgtOk_iff, List.mem_cons, List.not_mem_nil, or_false] at h hv
  have := pr_lt p
  have := width_lt w
  omega

theorem sra (p : Pr) (w : Width) (s t : Nat) : Statement (.sra p w s t) := by
  intro h v hv
  have h : (tgtOk s && tgtOk t) = true := h
  have hv : v ∈ [0x3E000000 + p.code * 0x800000 + w.code * 0x40000 + s * 0x200 + t] := hv
  simp only [Bool.and_eq_true, tgtOk_iff, List.mem_cons, List.not_mem_nil, or_false] at h hv
  have := pr_lt p
  have := width_lt w
  omega

theorem rol (p : Pr) (w : Width) (s t : Nat) : Statement (.rol p w s t) := by
  intro h v hv
  have h : (tgtOk s && tgtOk t) = true := h
  have hv : v ∈ [0x40000000 + p.code * 0x800000 + w.code * 0x40000 + s * 0x200 + t] := hv
  simp only [Bool.and_eq_true, tgtOk_iff, List.mem_cons, List.not_mem_nil, or_false] at h hv
  have := pr_lt p
  have := width_lt w
  omega

theorem ror (p : Pr) (w : Width) (s t : Nat) : Statement (.ror p w s t) := by
  intro h v hv
  have h : (tgtOk s && tgtOk t) = true := h
  have hv : v ∈ [0x40100000 + p.code * 0x800000 + w.code * 0x40000 + s * 0x200 + t] := hv
  simp only [Bool.and_eq_true, tgtOk_iff, List.mem_cons, List.not_mem_nil, or_false] at h hv
  have := pr_lt p
  have := width_lt w
  omega

theorem min (p : Pr) (w : Width) (s t : Nat) : Statement (.min p w s t) := by
  intro h v hv
  have h : (tgtOk s && tgtOk t) = true := h
  have hv : v ∈ [0x42000000 + p.code * 0x800000 + w.code * 0x40000 + s * 0x200 + t] := hv
  simp only [Bool.and_eq_true, tgtOk_iff, List.mem_cons, List.not_mem_nil, or_false] at h hv
  have := pr_lt p
  have := width_lt w
  omega

theorem max (p : Pr) (w : Width) (s t : Nat) : Statement (.max p w s t) := by
  intro h v hv
  have h : (tgtOk s && tgtOk t) = true := h
  have hv : v ∈ [0x42100000 + p.code * 0x800000 + w.code * 0x40000 + s * 0x200 + t] := hv
  simp only [Bool.and_eq_true, tgtOk_iff, List.mem_cons, List.not_mem_nil, or_false] at h hv
  have := pr_lt p
  have := width_lt w
  omega

theorem minn (p : Pr) (w : Width) (s t : Nat) : Statement (.minn p w s t) := by
  intro h v hv
  have h : (tgtOk s && tgtOk t) = true := h
  have hv : v ∈ [0x42200000 + p.code * 0x800000 + w.code * 0x40000 + s * 0x200 + t] := hv
  simp only [Bool.and_eq_true, tgtOk_iff, List.mem_cons, List.not_mem_nil, or_false] at h hv
  have := pr_lt p
  have := width_lt w
  omega

theorem maxn (p : Pr) (w : Width) (s t : Nat) : Statement (.maxn p w s t) := by
  intro h v hv
  have h : (tgtOk s && tgtOk t) = true := h
  have hv : v ∈ [0x42300000 + p.code * 0x800000 + w.code * 0x40000 + s * 0x200 + t] := hv
  simp only [Bool.and_eq_true, tgtOk_iff, List.mem_cons, List.not_mem_nil, or_false] at h hv
  have := pr_lt p
  have := width_lt w
  omega

theorem sel (s t : Nat) : Statement (.sel s t) := by
  intro h v hv
  have h : (tgtOk s && tgtOk t) = true := h
  have hv : v ∈ [0x44000000 + s * 0x200 + t] := hv
  simp only [Bool.and_eq_true, tgtOk_iff, List.mem_cons, List.not_mem_nil, or_false] at h hv
  omega

theorem clz (p : Pr) (w : Width) (s t : Nat) : Statement (.clz p w s t) := by
  intro h v hv
  have h : (tgtOk s && tgtOk t) = true := h
  have hv : v ∈ [0x46000000 + p.code * 0x800000 + w.code * 0x40000 + s * 0x200 + t] := hv
  simp only [Bool.and_eq_true, tgtOk_iff, List.mem_cons, List.not_mem_nil, or_false] at h hv
  have := pr_lt p
  have := width_lt w
  omega

theorem ctz (p : Pr) (w : Width) (s t : Nat) : Statement (.ctz p w s t) := by
  intro h v hv
  have h : (tgtOk s && tgtOk t) = true := h
  have hv : v ∈ [0x46100000 + p.code * 0x800000 + w.code * 0x40000 + s * 0x200 + t] := hv
  simp only [Bool.and_eq_true, tgtOk_iff, List.mem_cons, List.not_mem_nil, or_false] at h hv
  have := pr_lt p
  have := width_lt w
  omega

theorem popc (p : Pr) (w : Width) (s t : Nat) : Statement (.popc p w s t) := by
  intro h v hv
  have h : (tgtOk s && tgtOk t) = true := h
  have hv : v ∈ [0x46200000 + p.code * 0x800000 + w.code * 0x40000 + s * 0x200 + t] := hv
  simp only [Bool.and_eq_true, tgtOk_iff, List.mem_cons, List.not_mem_nil, or_false] at h hv
  have := pr_lt p
  have := width_lt w
  omega

theorem brev (p : Pr) (w : Width) (s t : Nat) : Statement (.brev p w s t) := by
  intro h v hv
  have h : (tgtOk s && tgtOk t) = true := h
  have hv : v ∈ [0x46300000 + p.code * 0x800000 + w.code * 0x40000 + s * 0x200 + t] := hv
  simp only [Bool.and_eq_true, tgtOk_iff, List.mem_cons, List.not_mem_nil, or_false] at h hv
  have := pr_lt p
  have := width_lt w
  omega

theorem bswap (p : Pr) (w : Width) (s t : Nat) : Statement (.bswap p w s t) := by
  intro h v hv
  have h : (tgtOk s && tgtOk t && w != .w8) = true := h
  have hv : v ∈ [0x46400000 + p.code * 0x800000 + w.code * 0x40000 + s * 0x200 + t] := hv
  simp only [Bool.and_eq_true, tgtOk_iff, List.mem_cons, List.not_mem_nil, or_false] at h hv
  have := pr_lt p
  have := width_lt w
  omega

theorem abs (p : Pr) (w : Width) (s t : Nat) : Statement (.abs p w s t) := by
  intro h v hv
  have h : (tgtOk s && tgtOk t) = true := h
  have hv : v ∈ [0x46500000 + p.code * 0x800000 + w.code * 0x40000 + s * 0x200 + t] := hv
  simp only [Bool.and_eq_true, tgtOk_iff, List.mem_cons, List.not_mem_nil, or_false] at h hv
  have := pr_lt p
  have := width_lt w
  omega

theorem sext (p : Pr) (w : Width) (s t : Nat) : Statement (.sext p w s t) := by
  intro h v hv
  have h : (tgtOk s && tgtOk t) = true := h
  have hv : v ∈ [0x46600000 + p.code * 0x800000 + w.code * 0x40000 + s * 0x200 + t] := hv
  simp only [Bool.and_eq_true, tgtOk_iff, List.mem_cons, List.not_mem_nil, or_false] at h hv
  have := pr_lt p
  have := width_lt w
  omega

theorem zext (p : Pr) (w : Width) (s t : Nat) : Statement (.zext p w s t) := by
  intro h v hv
  have h : (tgtOk s && tgtOk t) = true := h
  have hv : v ∈ [0x46700000 + p.code * 0x800000 + w.code * 0x40000 + s * 0x200 + t] := hv
  simp only [Bool.and_eq_true, tgtOk_iff, List.mem_cons, List.not_mem_nil, or_false] at h hv
  have := pr_lt p
  have := width_lt w
  omega

theorem bfx (p : Pr) (x : Bool) (l n t : Nat) : Statement (.bfx p x l n t) := by
  intro h v hv
  have h : (decide (l < 64) && decide (n < 64) && tgtOk t && decide (l + n < 64)) = true := h
  have hv : v ∈ [0x48000000 + p.code * 0x800000 + x.toNat * 0x200000 + l * 0x8000 + n * 0x200 + t] := hv
  simp only [Bool.and_eq_true, decide_eq_true_eq, tgtOk_iff, List.mem_cons, List.not_mem_nil, or_false] at h hv
  have := pr_lt p
  have := bool_lt x
  omega

theorem bfi (p : Pr) (l n t : Nat) : Statement (.bfi p l n t) := by
  intro h v hv
  have h : (decide (l < 64) && decide (n < 64) && tgtOk t && decide (l + n < 64)) = true := h
  have hv : v ∈ [0x4A000000 + p.code * 0x800000 + l * 0x8000 + n * 0x200 + t] := hv
  simp only [Bool.and_eq_true, decide_eq_true_eq, tgtOk_iff, List.mem_cons, List.not_mem_nil, or_false] at h hv
  have := pr_lt p
  omega

theorem kvslot (p : Pr) (s t : Nat) : Statement (.kvslot p s t) := by
  intro h v hv
  have h : (tgtOk s && tgtOk t) = true := h
  have hv : v ∈ [0x4C000000 + p.code * 0x800000 + s * 0x200 + t] := hv
  simp only [Bool.and_eq_true, tgtOk_iff, List.mem_cons, List.not_mem_nil, or_false] at h hv
  have := pr_lt p
  omega

theorem addi (p : Pr) (i t : Nat) : Statement (.addi p i t) := by
  intro h v hv
  have h : (decide (i < 16384) && tgtOk t) = true := h
  have hv : v ∈ [0x4E000000 + p.code * 0x800000 + i * 0x200 + t] := hv
  simp only [Bool.and_eq_true, decide_eq_true_eq, tgtOk_iff, List.mem_cons, List.not_mem_nil, or_false] at h hv
  have := pr_lt p
  omega

theorem muli (p : Pr) (i t : Nat) : Statement (.muli p i t) := by
  intro h v hv
  have h : (decide (i < 16384) && tgtOk t) = true := h
  have hv : v ∈ [0x50000000 + p.code * 0x800000 + i * 0x200 + t] := hv
  simp only [Bool.and_eq_true, decide_eq_true_eq, tgtOk_iff, List.mem_cons, List.not_mem_nil, or_false] at h hv
  have := pr_lt p
  omega

theorem andi (p : Pr) (i t : Nat) : Statement (.andi p i t) := by
  intro h v hv
  have h : (decide (i < 16384) && tgtOk t) = true := h
  have hv : v ∈ [0x52000000 + p.code * 0x800000 + i * 0x200 + t] := hv
  simp only [Bool.and_eq_true, decide_eq_true_eq, tgtOk_iff, List.mem_cons, List.not_mem_nil, or_false] at h hv
  have := pr_lt p
  omega

theorem ori (p : Pr) (i t : Nat) : Statement (.ori p i t) := by
  intro h v hv
  have h : (decide (i < 16384) && tgtOk t) = true := h
  have hv : v ∈ [0x54000000 + p.code * 0x800000 + i * 0x200 + t] := hv
  simp only [Bool.and_eq_true, decide_eq_true_eq, tgtOk_iff, List.mem_cons, List.not_mem_nil, or_false] at h hv
  have := pr_lt p
  omega

theorem xori (p : Pr) (i t : Nat) : Statement (.xori p i t) := by
  intro h v hv
  have h : (decide (i < 16384) && tgtOk t) = true := h
  have hv : v ∈ [0x56000000 + p.code * 0x800000 + i * 0x200 + t] := hv
  simp only [Bool.and_eq_true, decide_eq_true_eq, tgtOk_iff, List.mem_cons, List.not_mem_nil, or_false] at h hv
  have := pr_lt p
  omega

theorem shli (p : Pr) (n t : Nat) : Statement (.shli p n t) := by
  intro h v hv
  have h : (decide (n < 64) && tgtOk t) = true := h
  have hv : v ∈ [0x58000000 + p.code * 0x800000 + n * 0x200 + t] := hv
  simp only [Bool.and_eq_true, decide_eq_true_eq, tgtOk_iff, List.mem_cons, List.not_mem_nil, or_false] at h hv
  have := pr_lt p
  omega

theorem shri (p : Pr) (n t : Nat) : Statement (.shri p n t) := by
  intro h v hv
  have h : (decide (n < 64) && tgtOk t) = true := h
  have hv : v ∈ [0x5A000000 + p.code * 0x800000 + n * 0x200 + t] := hv
  simp only [Bool.and_eq_true, decide_eq_true_eq, tgtOk_iff, List.mem_cons, List.not_mem_nil, or_false] at h hv
  have := pr_lt p
  omega

theorem srai (p : Pr) (n t : Nat) : Statement (.srai p n t) := by
  intro h v hv
  have h : (decide (n < 64) && tgtOk t) = true := h
  have hv : v ∈ [0x5C000000 + p.code * 0x800000 + n * 0x200 + t] := hv
  simp only [Bool.and_eq_true, decide_eq_true_eq, tgtOk_iff, List.mem_cons, List.not_mem_nil, or_false] at h hv
  have := pr_lt p
  omega

theorem teq (p : Pr) (w : Width) (s t : Nat) : Statement (.teq p w s t) := by
  intro h v hv
  have h : (tgtOk s && tgtOk t) = true := h
  have hv : v ∈ [0x60000000 + p.code * 0x800000 + w.code * 0x40000 + s * 0x200 + t] := hv
  simp only [Bool.and_eq_true, tgtOk_iff, List.mem_cons, List.not_mem_nil, or_false] at h hv
  have := pr_lt p
  have := width_lt w
  omega

theorem tne (p : Pr) (w : Width) (s t : Nat) : Statement (.tne p w s t) := by
  intro h v hv
  have h : (tgtOk s && tgtOk t) = true := h
  have hv : v ∈ [0x62000000 + p.code * 0x800000 + w.code * 0x40000 + s * 0x200 + t] := hv
  simp only [Bool.and_eq_true, tgtOk_iff, List.mem_cons, List.not_mem_nil, or_false] at h hv
  have := pr_lt p
  have := width_lt w
  omega

theorem tlt (p : Pr) (w : Width) (s t : Nat) : Statement (.tlt p w s t) := by
  intro h v hv
  have h : (tgtOk s && tgtOk t) = true := h
  have hv : v ∈ [0x64000000 + p.code * 0x800000 + w.code * 0x40000 + s * 0x200 + t] := hv
  simp only [Bool.and_eq_true, tgtOk_iff, List.mem_cons, List.not_mem_nil, or_false] at h hv
  have := pr_lt p
  have := width_lt w
  omega

theorem tle (p : Pr) (w : Width) (s t : Nat) : Statement (.tle p w s t) := by
  intro h v hv
  have h : (tgtOk s && tgtOk t) = true := h
  have hv : v ∈ [0x66000000 + p.code * 0x800000 + w.code * 0x40000 + s * 0x200 + t] := hv
  simp only [Bool.and_eq_true, tgtOk_iff, List.mem_cons, List.not_mem_nil, or_false] at h hv
  have := pr_lt p
  have := width_lt w
  omega

theorem tltn (p : Pr) (w : Width) (s t : Nat) : Statement (.tltn p w s t) := by
  intro h v hv
  have h : (tgtOk s && tgtOk t) = true := h
  have hv : v ∈ [0x68000000 + p.code * 0x800000 + w.code * 0x40000 + s * 0x200 + t] := hv
  simp only [Bool.and_eq_true, tgtOk_iff, List.mem_cons, List.not_mem_nil, or_false] at h hv
  have := pr_lt p
  have := width_lt w
  omega

theorem tlen (p : Pr) (w : Width) (s t : Nat) : Statement (.tlen p w s t) := by
  intro h v hv
  have h : (tgtOk s && tgtOk t) = true := h
  have hv : v ∈ [0x6A000000 + p.code * 0x800000 + w.code * 0x40000 + s * 0x200 + t] := hv
  simp only [Bool.and_eq_true, tgtOk_iff, List.mem_cons, List.not_mem_nil, or_false] at h hv
  have := pr_lt p
  have := width_lt w
  omega

theorem teqi (p : Pr) (i t : Nat) : Statement (.teqi p i t) := by
  intro h v hv
  have h : (decide (i < 16384) && tgtOk t) = true := h
  have hv : v ∈ [0x6C000000 + p.code * 0x800000 + i * 0x200 + t] := hv
  simp only [Bool.and_eq_true, decide_eq_true_eq, tgtOk_iff, List.mem_cons, List.not_mem_nil, or_false] at h hv
  have := pr_lt p
  omega

theorem tnei (p : Pr) (i t : Nat) : Statement (.tnei p i t) := by
  intro h v hv
  have h : (decide (i < 16384) && tgtOk t) = true := h
  have hv : v ∈ [0x6E000000 + p.code * 0x800000 + i * 0x200 + t] := hv
  simp only [Bool.and_eq_true, decide_eq_true_eq, tgtOk_iff, List.mem_cons, List.not_mem_nil, or_false] at h hv
  have := pr_lt p
  omega

theorem tlti (p : Pr) (i t : Nat) : Statement (.tlti p i t) := by
  intro h v hv
  have h : (decide (i < 16384) && tgtOk t) = true := h
  have hv : v ∈ [0x70000000 + p.code * 0x800000 + i * 0x200 + t] := hv
  simp only [Bool.and_eq_true, decide_eq_true_eq, tgtOk_iff, List.mem_cons, List.not_mem_nil, or_false] at h hv
  have := pr_lt p
  omega

theorem tlei (p : Pr) (i t : Nat) : Statement (.tlei p i t) := by
  intro h v hv
  have h : (decide (i < 16384) && tgtOk t) = true := h
  have hv : v ∈ [0x72000000 + p.code * 0x800000 + i * 0x200 + t] := hv
  simp only [Bool.and_eq_true, decide_eq_true_eq, tgtOk_iff, List.mem_cons, List.not_mem_nil, or_false] at h hv
  have := pr_lt p
  omega

theorem tltni (p : Pr) (i t : Nat) : Statement (.tltni p i t) := by
  intro h v hv
  have h : (decide (i < 16384) && tgtOk t) = true := h
  have hv : v ∈ [0x74000000 + p.code * 0x800000 + i * 0x200 + t] := hv
  simp only [Bool.and_eq_true, decide_eq_true_eq, tgtOk_iff, List.mem_cons, List.not_mem_nil, or_false] at h hv
  have := pr_lt p
  omega

theorem tleni (p : Pr) (i t : Nat) : Statement (.tleni p i t) := by
  intro h v hv
  have h : (decide (i < 16384) && tgtOk t) = true := h
  have hv : v ∈ [0x76000000 + p.code * 0x800000 + i * 0x200 + t] := hv
  simp only [Bool.and_eq_true, decide_eq_true_eq, tgtOk_iff, List.mem_cons, List.not_mem_nil, or_false] at h hv
  have := pr_lt p
  omega

theorem tbit (p : Pr) (n t : Nat) : Statement (.tbit p n t) := by
  intro h v hv
  have h : (decide (n < 64) && tgtOk t) = true := h
  have hv : v ∈ [0x78000000 + p.code * 0x800000 + n * 0x200 + t] := hv
  simp only [Bool.and_eq_true, decide_eq_true_eq, tgtOk_iff, List.mem_cons, List.not_mem_nil, or_false] at h hv
  have := pr_lt p
  omega

theorem fadd (p : Pr) (m : Rm) (q : Prec) (s t : Nat) : Statement (.fadd p m q s t) := by
  intro h v hv
  have h : (tgtOk s && tgtOk t) = true := h
  have hv : v ∈ [0x80000000 + p.code * 0x800000 + m.code * 0x100000 + q.code * 0x40000 + s * 0x200 + t] := hv
  simp only [Bool.and_eq_true, tgtOk_iff, List.mem_cons, List.not_mem_nil, or_false] at h hv
  have := pr_lt p
  have := rm_lt m
  have := prec_lt q
  omega

theorem fsub (p : Pr) (m : Rm) (q : Prec) (s t : Nat) : Statement (.fsub p m q s t) := by
  intro h v hv
  have h : (tgtOk s && tgtOk t) = true := h
  have hv : v ∈ [0x82000000 + p.code * 0x800000 + m.code * 0x100000 + q.code * 0x40000 + s * 0x200 + t] := hv
  simp only [Bool.and_eq_true, tgtOk_iff, List.mem_cons, List.not_mem_nil, or_false] at h hv
  have := pr_lt p
  have := rm_lt m
  have := prec_lt q
  omega

theorem fmul (p : Pr) (m : Rm) (q : Prec) (s t : Nat) : Statement (.fmul p m q s t) := by
  intro h v hv
  have h : (tgtOk s && tgtOk t) = true := h
  have hv : v ∈ [0x84000000 + p.code * 0x800000 + m.code * 0x100000 + q.code * 0x40000 + s * 0x200 + t] := hv
  simp only [Bool.and_eq_true, tgtOk_iff, List.mem_cons, List.not_mem_nil, or_false] at h hv
  have := pr_lt p
  have := rm_lt m
  have := prec_lt q
  omega

theorem fdiv (p : Pr) (m : Rm) (q : Prec) (s t : Nat) : Statement (.fdiv p m q s t) := by
  intro h v hv
  have h : (tgtOk s && tgtOk t) = true := h
  have hv : v ∈ [0x86000000 + p.code * 0x800000 + m.code * 0x100000 + q.code * 0x40000 + s * 0x200 + t] := hv
  simp only [Bool.and_eq_true, tgtOk_iff, List.mem_cons, List.not_mem_nil, or_false] at h hv
  have := pr_lt p
  have := rm_lt m
  have := prec_lt q
  omega

theorem fma (m : Rm) (q : Prec) (s t : Nat) : Statement (.fma m q s t) := by
  intro h v hv
  have h : (tgtOk s && tgtOk t) = true := h
  have hv : v ∈ [0x88000000 + m.code * 0x100000 + q.code * 0x40000 + s * 0x200 + t] := hv
  simp only [Bool.and_eq_true, tgtOk_iff, List.mem_cons, List.not_mem_nil, or_false] at h hv
  have := rm_lt m
  have := prec_lt q
  omega

theorem fms (m : Rm) (q : Prec) (s t : Nat) : Statement (.fms m q s t) := by
  intro h v hv
  have h : (tgtOk s && tgtOk t) = true := h
  have hv : v ∈ [0x8A000000 + m.code * 0x100000 + q.code * 0x40000 + s * 0x200 + t] := hv
  simp only [Bool.and_eq_true, tgtOk_iff, List.mem_cons, List.not_mem_nil, or_false] at h hv
  have := rm_lt m
  have := prec_lt q
  omega

theorem fsqrt (p : Pr) (m : Rm) (q : Prec) (s t : Nat) : Statement (.fsqrt p m q s t) := by
  intro h v hv
  have h : (tgtOk s && tgtOk t) = true := h
  have hv : v ∈ [0x8C000000 + p.code * 0x800000 + m.code * 0x100000 + q.code * 0x40000 + s * 0x200 + t] := hv
  simp only [Bool.and_eq_true, tgtOk_iff, List.mem_cons, List.not_mem_nil, or_false] at h hv
  have := pr_lt p
  have := rm_lt m
  have := prec_lt q
  omega

theorem fmin (p : Pr) (q : Prec) (s t : Nat) : Statement (.fmin p q s t) := by
  intro h v hv
  have h : (tgtOk s && tgtOk t) = true := h
  have hv : v ∈ [0x8E000000 + p.code * 0x800000 + q.code * 0x40000 + s * 0x200 + t] := hv
  simp only [Bool.and_eq_true, tgtOk_iff, List.mem_cons, List.not_mem_nil, or_false] at h hv
  have := pr_lt p
  have := prec_lt q
  omega

theorem fmax (p : Pr) (q : Prec) (s t : Nat) : Statement (.fmax p q s t) := by
  intro h v hv
  have h : (tgtOk s && tgtOk t) = true := h
  have hv : v ∈ [0x8E100000 + p.code * 0x800000 + q.code * 0x40000 + s * 0x200 + t] := hv
  simp only [Bool.and_eq_true, tgtOk_iff, List.mem_cons, List.not_mem_nil, or_false] at h hv
  have := pr_lt p
  have := prec_lt q
  omega

theorem fabs (p : Pr) (q : Prec) (s t : Nat) : Statement (.fabs p q s t) := by
  intro h v hv
  have h : (tgtOk s && tgtOk t) = true := h
  have hv : v ∈ [0x90000000 + p.code * 0x800000 + q.code * 0x40000 + s * 0x200 + t] := hv
  simp only [Bool.and_eq_true, tgtOk_iff, List.mem_cons, List.not_mem_nil, or_false] at h hv
  have := pr_lt p
  have := prec_lt q
  omega

theorem fneg (p : Pr) (q : Prec) (s t : Nat) : Statement (.fneg p q s t) := by
  intro h v hv
  have h : (tgtOk s && tgtOk t) = true := h
  have hv : v ∈ [0x90100000 + p.code * 0x800000 + q.code * 0x40000 + s * 0x200 + t] := hv
  simp only [Bool.and_eq_true, tgtOk_iff, List.mem_cons, List.not_mem_nil, or_false] at h hv
  have := pr_lt p
  have := prec_lt q
  omega

theorem fsgn (p : Pr) (q : Prec) (s t : Nat) : Statement (.fsgn p q s t) := by
  intro h v hv
  have h : (tgtOk s && tgtOk t) = true := h
  have hv : v ∈ [0x90200000 + p.code * 0x800000 + q.code * 0x40000 + s * 0x200 + t] := hv
  simp only [Bool.and_eq_true, tgtOk_iff, List.mem_cons, List.not_mem_nil, or_false] at h hv
  have := pr_lt p
  have := prec_lt q
  omega

theorem feq (p : Pr) (q : Prec) (s t : Nat) : Statement (.feq p q s t) := by
  intro h v hv
  have h : (tgtOk s && tgtOk t) = true := h
  have hv : v ∈ [0x92000000 + p.code * 0x800000 + q.code * 0x40000 + s * 0x200 + t] := hv
  simp only [Bool.and_eq_true, tgtOk_iff, List.mem_cons, List.not_mem_nil, or_false] at h hv
  have := pr_lt p
  have := prec_lt q
  omega

theorem flt (p : Pr) (q : Prec) (s t : Nat) : Statement (.flt p q s t) := by
  intro h v hv
  have h : (tgtOk s && tgtOk t) = true := h
  have hv : v ∈ [0x92100000 + p.code * 0x800000 + q.code * 0x40000 + s * 0x200 + t] := hv
  simp only [Bool.and_eq_true, tgtOk_iff, List.mem_cons, List.not_mem_nil, or_false] at h hv
  have := pr_lt p
  have := prec_lt q
  omega

theorem fle (p : Pr) (q : Prec) (s t : Nat) : Statement (.fle p q s t) := by
  intro h v hv
  have h : (tgtOk s && tgtOk t) = true := h
  have hv : v ∈ [0x92200000 + p.code * 0x800000 + q.code * 0x40000 + s * 0x200 + t] := hv
  simp only [Bool.and_eq_true, tgtOk_iff, List.mem_cons, List.not_mem_nil, or_false] at h hv
  have := pr_lt p
  have := prec_lt q
  omega

theorem funord (p : Pr) (q : Prec) (s t : Nat) : Statement (.funord p q s t) := by
  intro h v hv
  have h : (tgtOk s && tgtOk t) = true := h
  have hv : v ∈ [0x92300000 + p.code * 0x800000 + q.code * 0x40000 + s * 0x200 + t] := hv
  simp only [Bool.and_eq_true, tgtOk_iff, List.mem_cons, List.not_mem_nil, or_false] at h hv
  have := pr_lt p
  have := prec_lt q
  omega

theorem fclass (p : Pr) (q : Prec) (s t : Nat) : Statement (.fclass p q s t) := by
  intro h v hv
  have h : (tgtOk s && tgtOk t) = true := h
  have hv : v ∈ [0x94000000 + p.code * 0x800000 + q.code * 0x40000 + s * 0x200 + t] := hv
  simp only [Bool.and_eq_true, tgtOk_iff, List.mem_cons, List.not_mem_nil, or_false] at h hv
  have := pr_lt p
  have := prec_lt q
  omega

theorem fcvt (p : Pr) (m : Rm) (q : Prec) (s t : Nat) : Statement (.fcvt p m q s t) := by
  intro h v hv
  have h : (tgtOk s && tgtOk t) = true := h
  have hv : v ∈ [0x96000000 + p.code * 0x800000 + m.code * 0x100000 + q.code * 0x40000 + s * 0x200 + t] := hv
  simp only [Bool.and_eq_true, tgtOk_iff, List.mem_cons, List.not_mem_nil, or_false] at h hv
  have := pr_lt p
  have := rm_lt m
  have := prec_lt q
  omega

theorem fcvti (p : Pr) (m : Rm) (q : Prec) (s t : Nat) : Statement (.fcvti p m q s t) := by
  intro h v hv
  have h : (tgtOk s && tgtOk t) = true := h
  have hv : v ∈ [0x98000000 + p.code * 0x800000 + m.code * 0x100000 + q.code * 0x40000 + s * 0x200 + t] := hv
  simp only [Bool.and_eq_true, tgtOk_iff, List.mem_cons, List.not_mem_nil, or_false] at h hv
  have := pr_lt p
  have := rm_lt m
  have := prec_lt q
  omega

theorem icvtf (p : Pr) (m : Rm) (q : Prec) (s t : Nat) : Statement (.icvtf p m q s t) := by
  intro h v hv
  have h : (tgtOk s && tgtOk t) = true := h
  have hv : v ∈ [0x9A000000 + p.code * 0x800000 + m.code * 0x100000 + q.code * 0x40000 + s * 0x200 + t] := hv
  simp only [Bool.and_eq_true, tgtOk_iff, List.mem_cons, List.not_mem_nil, or_false] at h hv
  have := pr_lt p
  have := rm_lt m
  have := prec_lt q
  omega

theorem frnd (p : Pr) (m : Rm) (q : Prec) (s t : Nat) : Statement (.frnd p m q s t) := by
  intro h v hv
  have h : (tgtOk s && tgtOk t) = true := h
  have hv : v ∈ [0x9C000000 + p.code * 0x800000 + m.code * 0x100000 + q.code * 0x40000 + s * 0x200 + t] := hv
  simp only [Bool.and_eq_true, tgtOk_iff, List.mem_cons, List.not_mem_nil, or_false] at h hv
  have := pr_lt p
  have := rm_lt m
  have := prec_lt q
  omega

theorem ld (w : Width) (p : Pr) (l i t : Nat) : Statement (.ld w p l i t) := by
  intro h v hv
  have h : (decide (l < 32) && decide (i < 512) && tgtOk t) = true := h
  have hv : v ∈ [0xA0000000 + w.code * 0x2000000 + p.code * 0x800000 + l * 0x40000 + i * 0x200 + t] := hv
  simp only [Bool.and_eq_true, decide_eq_true_eq, tgtOk_iff, List.mem_cons, List.not_mem_nil, or_false] at h hv
  have := width_lt w
  have := pr_lt p
  omega

theorem ldS (w : Width) (p : Pr) (l i t : Nat) : Statement (.ldS w p l i t) := by
  intro h v hv
  have h : (decide (l < 32) && decide (i < 512) && tgtOk t && w != .w64) = true := h
  have hv : v ∈ [0xA8000000 + w.code * 0x2000000 + p.code * 0x800000 + l * 0x40000 + i * 0x200 + t] := hv
  simp only [Bool.and_eq_true, decide_eq_true_eq, tgtOk_iff, List.mem_cons, List.not_mem_nil, or_false] at h hv
  have := width_lt w
  have := pr_lt p
  omega

theorem ldDAcq (p : Pr) (l i t : Nat) : Statement (.ldDAcq p l i t) := by
  intro h v hv
  have h : (decide (l < 32) && decide (i < 512) && tgtOk t) = true := h
  have hv : v ∈ [0xAE000000 + p.code * 0x800000 + l * 0x40000 + i * 0x200 + t] := hv
  simp only [Bool.and_eq_true, decide_eq_true_eq, tgtOk_iff, List.mem_cons, List.not_mem_nil, or_false] at h hv
  have := pr_lt p
  omega

theorem st (p : Pr) (l i : Nat) (rel : Bool) (w : Width) : Statement (.st p l i rel w) := by
  intro h v hv
  have h : (decide (l < 32) && decide (i < 512)) = true := h
  have hv : v ∈ [0xB0000000 + p.code * 0x800000 + l * 0x40000 + i * 0x200 + rel.toNat * 0x4 + w.code] := hv
  simp only [Bool.and_eq_true, decide_eq_true_eq, List.mem_cons, List.not_mem_nil, or_false] at h hv
  have := pr_lt p
  have := bool_lt rel
  have := width_lt w
  omega

theorem ldfe (p : Pr) (l t : Nat) : Statement (.ldfe p l t) := by
  intro h v hv
  have h : (decide (l < 32) && tgtOk t) = true := h
  have hv : v ∈ [0xB2000000 + p.code * 0x800000 + l * 0x40000 + t] := hv
  simp only [Bool.and_eq_true, decide_eq_true_eq, tgtOk_iff, List.mem_cons, List.not_mem_nil, or_false] at h hv
  have := pr_lt p
  omega

theorem ldff (p : Pr) (l t : Nat) : Statement (.ldff p l t) := by
  intro h v hv
  have h : (decide (l < 32) && tgtOk t) = true := h
  have hv : v ∈ [0xB2002000 + p.code * 0x800000 + l * 0x40000 + t] := hv
  simp only [Bool.and_eq_true, decide_eq_true_eq, tgtOk_iff, List.mem_cons, List.not_mem_nil, or_false] at h hv
  have := pr_lt p
  omega

theorem feprobe (p : Pr) (l t : Nat) : Statement (.feprobe p l t) := by
  intro h v hv
  have h : (decide (l < 32) && tgtOk t) = true := h
  have hv : v ∈ [0xB2004000 + p.code * 0x800000 + l * 0x40000 + t] := hv
  simp only [Bool.and_eq_true, decide_eq_true_eq, tgtOk_iff, List.mem_cons, List.not_mem_nil, or_false] at h hv
  have := pr_lt p
  omega

theorem stef (p : Pr) (l : Nat) : Statement (.stef p l) := by
  intro h v hv
  have h : (decide (l < 32)) = true := h
  have hv : v ∈ [0xB20061FF + p.code * 0x800000 + l * 0x40000] := hv
  simp only [decide_eq_true_eq, List.mem_cons, List.not_mem_nil, or_false] at h hv
  have := pr_lt p
  omega

theorem stf (p : Pr) (l : Nat) : Statement (.stf p l) := by
  intro h v hv
  have h : (decide (l < 32)) = true := h
  have hv : v ∈ [0xB20081FF + p.code * 0x800000 + l * 0x40000] := hv
  simp only [decide_eq_true_eq, List.mem_cons, List.not_mem_nil, or_false] at h hv
  have := pr_lt p
  omega

theorem feempty (p : Pr) (l : Nat) : Statement (.feempty p l) := by
  intro h v hv
  have h : (decide (l < 32)) = true := h
  have hv : v ∈ [0xB200A1FF + p.code * 0x800000 + l * 0x40000] := hv
  simp only [decide_eq_true_eq, List.mem_cons, List.not_mem_nil, or_false] at h hv
  have := pr_lt p
  omega

theorem amo (p : Pr) (l : Nat) (x : AmoOp) (acq rel : Bool) (t : Nat) : Statement (.amo p l x acq rel t) := by
  intro h v hv
  have h : (decide (l < 32) && tgtOk t && (x != .cas || p == .always)) = true := h
  have hv : v ∈ [0xB4000000 + p.code * 0x800000 + l * 0x40000 + x.code * 0x2000 + (acq.toNat + 2 * rel.toNat) * 0x200 + t] := hv
  simp only [Bool.and_eq_true, decide_eq_true_eq, tgtOk_iff, List.mem_cons, List.not_mem_nil, or_false] at h hv
  have := pr_lt p
  have := amo_lt x
  have := bool_lt acq
  have := bool_lt rel
  omega

theorem binit (p : Pr) (l : Nat) : Statement (.binit p l) := by
  intro h v hv
  have h : (decide (l < 32)) = true := h
  have hv : v ∈ [0xB60001FF + p.code * 0x800000 + l * 0x40000] := hv
  simp only [decide_eq_true_eq, List.mem_cons, List.not_mem_nil, or_false] at h hv
  have := pr_lt p
  omega

theorem arrive (p : Pr) (l : Nat) (c : Scope) (t : Nat) : Statement (.arrive p l c t) := by
  intro h v hv
  have h : (decide (l < 32) && tgtOk t) = true := h
  have hv : v ∈ [0xB6002000 + p.code * 0x800000 + l * 0x40000 + c.code * 0x200 + t] := hv
  simp only [Bool.and_eq_true, decide_eq_true_eq, tgtOk_iff, List.mem_cons, List.not_mem_nil, or_false] at h hv
  have := pr_lt p
  have := scope_lt c
  omega

theorem bwait (p : Pr) (l t : Nat) : Statement (.bwait p l t) := by
  intro h v hv
  have h : (decide (l < 32) && tgtOk t) = true := h
  have hv : v ∈ [0xB6004000 + p.code * 0x800000 + l * 0x40000 + t] := hv
  simp only [Bool.and_eq_true, decide_eq_true_eq, tgtOk_iff, List.mem_cons, List.not_mem_nil, or_false] at h hv
  have := pr_lt p
  omega

theorem btest (p : Pr) (l t : Nat) : Statement (.btest p l t) := by
  intro h v hv
  have h : (decide (l < 32) && tgtOk t) = true := h
  have hv : v ∈ [0xB6006000 + p.code * 0x800000 + l * 0x40000 + t] := hv
  simp only [Bool.and_eq_true, decide_eq_true_eq, tgtOk_iff, List.mem_cons, List.not_mem_nil, or_false] at h hv
  have := pr_lt p
  omega

theorem join (p : Pr) (l t : Nat) : Statement (.join p l t) := by
  intro h v hv
  have h : (decide (l < 32) && tgtOk t) = true := h
  have hv : v ∈ [0xB6008000 + p.code * 0x800000 + l * 0x40000 + t] := hv
  simp only [Bool.and_eq_true, decide_eq_true_eq, tgtOk_iff, List.mem_cons, List.not_mem_nil, or_false] at h hv
  have := pr_lt p
  omega

theorem leave (p : Pr) (l t : Nat) : Statement (.leave p l t) := by
  intro h v hv
  have h : (decide (l < 32) && tgtOk t) = true := h
  have hv : v ∈ [0xB600A000 + p.code * 0x800000 + l * 0x40000 + t] := hv
  simp only [Bool.and_eq_true, decide_eq_true_eq, tgtOk_iff, List.mem_cons, List.not_mem_nil, or_false] at h hv
  have := pr_lt p
  omega

theorem waita (p : Pr) (l t : Nat) : Statement (.waita p l t) := by
  intro h v hv
  have h : (decide (l < 32) && tgtOk t) = true := h
  have hv : v ∈ [0xB600C000 + p.code * 0x800000 + l * 0x40000 + t] := hv
  simp only [Bool.and_eq_true, decide_eq_true_eq, tgtOk_iff, List.mem_cons, List.not_mem_nil, or_false] at h hv
  have := pr_lt p
  omega

theorem notify (p : Pr) (l : Nat) (c : Scope) : Statement (.notify p l c) := by
  intro h v hv
  have h : (decide (l < 32)) = true := h
  have hv : v ∈ [0xB600E1FF + p.code * 0x800000 + l * 0x40000 + c.code * 0x200] := hv
  simp only [decide_eq_true_eq, List.mem_cons, List.not_mem_nil, or_false] at h hv
  have := pr_lt p
  have := scope_lt c
  omega

theorem fence (p : Pr) (l : Nat) (c : Scope) : Statement (.fence p l c) := by
  intro h v hv
  have h : (decide (l < 32)) = true := h
  have hv : v ∈ [0xB80001FF + p.code * 0x800000 + l * 0x40000 + c.code * 0x200] := hv
  simp only [decide_eq_true_eq, List.mem_cons, List.not_mem_nil, or_false] at h hv
  have := pr_lt p
  have := scope_lt c
  omega

theorem fenceXp (p : Pr) (l : Nat) (c : Scope) : Statement (.fenceXp p l c) := by
  intro h v hv
  have h : (decide (l < 32)) = true := h
  have hv : v ∈ [0xB80021FF + p.code * 0x800000 + l * 0x40000 + c.code * 0x200] := hv
  simp only [decide_eq_true_eq, List.mem_cons, List.not_mem_nil, or_false] at h hv
  have := pr_lt p
  have := scope_lt c
  omega

theorem fenceLoop (p : Pr) (l : Nat) : Statement (.fenceLoop p l) := by
  intro h v hv
  have h : (decide (l < 32)) = true := h
  have hv : v ∈ [0xB80041FF + p.code * 0x800000 + l * 0x40000] := hv
  simp only [decide_eq_true_eq, List.mem_cons, List.not_mem_nil, or_false] at h hv
  have := pr_lt p
  omega

theorem rowopen (p : Pr) (l : Nat) : Statement (.rowopen p l) := by
  intro h v hv
  have h : (decide (l < 32)) = true := h
  have hv : v ∈ [0xBA0001FF + p.code * 0x800000 + l * 0x40000] := hv
  simp only [decide_eq_true_eq, List.mem_cons, List.not_mem_nil, or_false] at h hv
  have := pr_lt p
  omega

theorem rowclose (p : Pr) (l : Nat) : Statement (.rowclose p l) := by
  intro h v hv
  have h : (decide (l < 32)) = true := h
  have hv : v ∈ [0xBA0021FF + p.code * 0x800000 + l * 0x40000] := hv
  simp only [decide_eq_true_eq, List.mem_cons, List.not_mem_nil, or_false] at h hv
  have := pr_lt p
  omega

theorem semwait (p : Pr) (l t : Nat) : Statement (.semwait p l t) := by
  intro h v hv
  have h : (decide (l < 32) && tgtOk t) = true := h
  have hv : v ∈ [0xBC000000 + p.code * 0x800000 + l * 0x40000 + t] := hv
  simp only [Bool.and_eq_true, decide_eq_true_eq, tgtOk_iff, List.mem_cons, List.not_mem_nil, or_false] at h hv
  have := pr_lt p
  omega

theorem semsig (p : Pr) (l t : Nat) : Statement (.semsig p l t) := by
  intro h v hv
  have h : (decide (l < 32) && tgtOk t) = true := h
  have hv : v ∈ [0xBC002000 + p.code * 0x800000 + l * 0x40000 + t] := hv
  simp only [Bool.and_eq_true, decide_eq_true_eq, tgtOk_iff, List.mem_cons, List.not_mem_nil, or_false] at h hv
  have := pr_lt p
  omega

theorem semset (p : Pr) (l : Nat) : Statement (.semset p l) := by
  intro h v hv
  have h : (decide (l < 32)) = true := h
  have hv : v ∈ [0xBC0041FF + p.code * 0x800000 + l * 0x40000] := hv
  simp only [decide_eq_true_eq, List.mem_cons, List.not_mem_nil, or_false] at h hv
  have := pr_lt p
  omega

theorem rld (p : Pr) (l t : Nat) : Statement (.rld p l t) := by
  intro h v hv
  have h : (decide (l < 32) && tgtOk t) = true := h
  have hv : v ∈ [0xC0000000 + p.code * 0x800000 + l * 0x40000 + t] := hv
  simp only [Bool.and_eq_true, decide_eq_true_eq, tgtOk_iff, List.mem_cons, List.not_mem_nil, or_false] at h hv
  have := pr_lt p
  omega

theorem rst (p : Pr) (l : Nat) : Statement (.rst p l) := by
  intro h v hv
  have h : (decide (l < 32)) = true := h
  have hv : v ∈ [0xC20001FF + p.code * 0x800000 + l * 0x40000] := hv
  simp only [decide_eq_true_eq, List.mem_cons, List.not_mem_nil, or_false] at h hv
  have := pr_lt p
  omega

theorem rstf (p : Pr) (l : Nat) (c : Scope) : Statement (.rstf p l c) := by
  intro h v hv
  have h : (decide (l < 32)) = true := h
  have hv : v ∈ [0xC20021FF + p.code * 0x800000 + l * 0x40000 + c.code * 0x200] := hv
  simp only [decide_eq_true_eq, List.mem_cons, List.not_mem_nil, or_false] at h hv
  have := pr_lt p
  have := scope_lt c
  omega

theorem rpost (p : Pr) (l : Nat) : Statement (.rpost p l) := by
  intro h v hv
  have h : (decide (l < 32)) = true := h
  have hv : v ∈ [0xC20041FF + p.code * 0x800000 + l * 0x40000] := hv
  simp only [decide_eq_true_eq, List.mem_cons, List.not_mem_nil, or_false] at h hv
  have := pr_lt p
  omega

theorem ramo (p : Pr) (l : Nat) (x : AmoOp) (t : Nat) : Statement (.ramo p l x t) := by
  intro h v hv
  have h : (decide (l < 32) && tgtOk t && x != .cas) = true := h
  have hv : v ∈ [0xC4000000 + p.code * 0x800000 + l * 0x40000 + x.code * 0x2000 + t] := hv
  simp only [Bool.and_eq_true, decide_eq_true_eq, tgtOk_iff, List.mem_cons, List.not_mem_nil, or_false] at h hv
  have := pr_lt p
  have := amo_lt x
  omega

theorem rcas (l t : Nat) : Statement (.rcas l t) := by
  intro h v hv
  have h : (decide (l < 32) && tgtOk t) = true := h
  have hv : v ∈ [0xC6000000 + l * 0x40000 + t] := hv
  simp only [Bool.and_eq_true, decide_eq_true_eq, tgtOk_iff, List.mem_cons, List.not_mem_nil, or_false] at h hv
  omega

theorem roadd (p : Pr) (l : Nat) (y : RoTy) : Statement (.roadd p l y) := by
  intro h v hv
  have h : (decide (l < 32)) = true := h
  have hv : v ∈ [0xC80001FF + p.code * 0x800000 + l * 0x40000 + y.code * 0x2000] := hv
  simp only [decide_eq_true_eq, List.mem_cons, List.not_mem_nil, or_false] at h hv
  have := pr_lt p
  have := roty_lt y
  omega

theorem rvamo (p : Pr) (l : Nat) (o : AmoOp) (w : Width) (t : Nat) : Statement (.rvamo p l o w t) := by
  intro h v hv
  have h : (decide (l < 32) && tgtOk t && o.simple) = true := h
  have hv : v ∈ [0xCA000000 + p.code * 0x800000 + l * 0x40000 + o.code * 0x8000 + w.code * 0x2000 + t] := hv
  simp only [Bool.and_eq_true, decide_eq_true_eq, tgtOk_iff, List.mem_cons, List.not_mem_nil, or_false] at h hv
  have := pr_lt p
  have := amo_simple h.2
  have := width_lt w
  omega

theorem spawn (p : Pr) (l t : Nat) : Statement (.spawn p l t) := by
  intro h v hv
  have h : (decide (l < 32) && tgtOk t) = true := h
  have hv : v ∈ [0xCC000000 + p.code * 0x800000 + l * 0x40000 + t] := hv
  simp only [Bool.and_eq_true, decide_eq_true_eq, tgtOk_iff, List.mem_cons, List.not_mem_nil, or_false] at h hv
  have := pr_lt p
  omega

theorem callat (l t : Nat) : Statement (.callat l t) := by
  intro h v hv
  have h : (decide (l < 32) && tgtOk t) = true := h
  have hv : v ∈ [0xCC002000 + l * 0x40000 + t] := hv
  simp only [Bool.and_eq_true, decide_eq_true_eq, tgtOk_iff, List.mem_cons, List.not_mem_nil, or_false] at h hv
  omega

theorem send (p : Pr) (l : Nat) : Statement (.send p l) := by
  intro h v hv
  have h : (decide (l < 32)) = true := h
  have hv : v ∈ [0xCC0041FF + p.code * 0x800000 + l * 0x40000] := hv
  simp only [decide_eq_true_eq, List.mem_cons, List.not_mem_nil, or_false] at h hv
  have := pr_lt p
  omega

theorem tid (p : Pr) (s t : Nat) : Statement (.tid p s t) := by
  intro h v hv
  have h : (tgtOk s && tgtOk t) = true := h
  have hv : v ∈ [0xCE000000 + p.code * 0x800000 + s * 0x200 + t] := hv
  simp only [Bool.and_eq_true, tgtOk_iff, List.mem_cons, List.not_mem_nil, or_false] at h hv
  have := pr_lt p
  omega

theorem whereQ (p : Pr) (s t : Nat) : Statement (.whereQ p s t) := by
  intro h v hv
  have h : (tgtOk s && tgtOk t) = true := h
  have hv : v ∈ [0xCE040000 + p.code * 0x800000 + s * 0x200 + t] := hv
  simp only [Bool.and_eq_true, tgtOk_iff, List.mem_cons, List.not_mem_nil, or_false] at h hv
  have := pr_lt p
  omega

theorem time (p : Pr) (s t : Nat) : Statement (.time p s t) := by
  intro h v hv
  have h : (tgtOk s && tgtOk t) = true := h
  have hv : v ∈ [0xCE080000 + p.code * 0x800000 + s * 0x200 + t] := hv
  simp only [Bool.and_eq_true, tgtOk_iff, List.mem_cons, List.not_mem_nil, or_false] at h hv
  have := pr_lt p
  omega

theorem br (p : Pr) (e f : Nat) : Statement (.br p e f) := by
  intro h v hv
  have h : (decide (e < 8) && decide (f < 1048576)) = true := h
  have hv : v ∈ [0xD0000000 + p.code * 0x800000 + e * 0x100000 + f] := hv
  simp only [Bool.and_eq_true, decide_eq_true_eq, List.mem_cons, List.not_mem_nil, or_false] at h hv
  have := pr_lt p
  omega

theorem bri (p : Pr) (e : Nat) : Statement (.bri p e) := by
  intro h v hv
  have h : (decide (e < 8)) = true := h
  have hv : v ∈ [0xD2000000 + p.code * 0x800000 + e * 0x100000] := hv
  simp only [decide_eq_true_eq, List.mem_cons, List.not_mem_nil, or_false] at h hv
  have := pr_lt p
  omega

theorem call (p : Pr) (e f : Nat) : Statement (.call p e f) := by
  intro h v hv
  have h : (decide (e < 8) && decide (f < 1048576)) = true := h
  have hv : v ∈ [0xD4000000 + p.code * 0x800000 + e * 0x100000 + f] := hv
  simp only [Bool.and_eq_true, decide_eq_true_eq, List.mem_cons, List.not_mem_nil, or_false] at h hv
  have := pr_lt p
  omega

theorem ret (p : Pr) (e : Nat) : Statement (.ret p e) := by
  intro h v hv
  have h : (decide (e < 8)) = true := h
  have hv : v ∈ [0xD6000000 + p.code * 0x800000 + e * 0x100000] := hv
  simp only [decide_eq_true_eq, List.mem_cons, List.not_mem_nil, or_false] at h hv
  have := pr_lt p
  omega

theorem loop (p : Pr) (e k f : Nat) : Statement (.loop p e k f) := by
  intro h v hv
  have h : (decide (e < 8) && decide (k < 16) && decide (f < 65536)) = true := h
  have hv : v ∈ [0xD8000000 + p.code * 0x800000 + e * 0x100000 + k * 0x10000 + f] := hv
  simp only [Bool.and_eq_true, decide_eq_true_eq, List.mem_cons, List.not_mem_nil, or_false] at h hv
  have := pr_lt p
  omega

theorem migrate (p : Pr) (e f : Nat) : Statement (.migrate p e f) := by
  intro h v hv
  have h : (decide (e < 8) && decide (f < 1048576)) = true := h
  have hv : v ∈ [0xDA000000 + p.code * 0x800000 + e * 0x100000 + f] := hv
  simp only [Bool.and_eq_true, decide_eq_true_eq, List.mem_cons, List.not_mem_nil, or_false] at h hv
  have := pr_lt p
  omega

theorem trap (p : Pr) (e c f : Nat) : Statement (.trap p e c f) := by
  intro h v hv
  have h : (decide (e < 8) && decide (c < 16) && decide (f < 65536)) = true := h
  have hv : v ∈ [0xDC000000 + p.code * 0x800000 + e * 0x100000 + c * 0x10000 + f] := hv
  simp only [Bool.and_eq_true, decide_eq_true_eq, List.mem_cons, List.not_mem_nil, or_false] at h hv
  have := pr_lt p
  omega

theorem doneX (p : Pr) (e : Nat) : Statement (.doneX p e) := by
  intro h v hv
  have h : (decide (e < 8)) = true := h
  have hv : v ∈ [0xDE000000 + p.code * 0x800000 + e * 0x100000] := hv
  simp only [decide_eq_true_eq, List.mem_cons, List.not_mem_nil, or_false] at h hv
  have := pr_lt p
  omega

theorem yieldX (p : Pr) (e f : Nat) : Statement (.yieldX p e f) := by
  intro h v hv
  have h : (decide (e < 8) && decide (f < 65536)) = true := h
  have hv : v ∈ [0xDE010000 + p.code * 0x800000 + e * 0x100000 + f] := hv
  simp only [Bool.and_eq_true, decide_eq_true_eq, List.mem_cons, List.not_mem_nil, or_false] at h hv
  have := pr_lt p
  omega

theorem breakX (p : Pr) (e f : Nat) : Statement (.breakX p e f) := by
  intro h v hv
  have h : (decide (e < 8) && decide (f < 65536)) = true := h
  have hv : v ∈ [0xDE020000 + p.code * 0x800000 + e * 0x100000 + f] := hv
  simp only [Bool.and_eq_true, decide_eq_true_eq, List.mem_cons, List.not_mem_nil, or_false] at h hv
  have := pr_lt p
  omega

theorem vadd (p : Pr) (y : VT) (s t : Nat) : Statement (.vadd p y s t) := by
  intro h v hv
  have h : (tgtOk s && tgtOk t) = true := h
  have hv : v ∈ [0xE0000000 + p.code * 0x800000 + y.code * 0x40000 + s * 0x200 + t] := hv
  simp only [Bool.and_eq_true, tgtOk_iff, List.mem_cons, List.not_mem_nil, or_false] at h hv
  have := pr_lt p
  have := vt_lt y
  omega

theorem vsub (p : Pr) (y : VT) (s t : Nat) : Statement (.vsub p y s t) := by
  intro h v hv
  have h : (tgtOk s && tgtOk t) = true := h
  have hv : v ∈ [0xE0200000 + p.code * 0x800000 + y.code * 0x40000 + s * 0x200 + t] := hv
  simp only [Bool.and_eq_true, tgtOk_iff, List.mem_cons, List.not_mem_nil, or_false] at h hv
  have := pr_lt p
  have := vt_lt y
  omega

theorem vmul (p : Pr) (y : VT) (s t : Nat) : Statement (.vmul p y s t) := by
  intro h v hv
  have h : (tgtOk s && tgtOk t) = true := h
  have hv : v ∈ [0xE0400000 + p.code * 0x800000 + y.code * 0x40000 + s * 0x200 + t] := hv
  simp only [Bool.and_eq_true, tgtOk_iff, List.mem_cons, List.not_mem_nil, or_false] at h hv
  have := pr_lt p
  have := vt_lt y
  omega

theorem vfma (y : VT) (s t : Nat) : Statement (.vfma y s t) := by
  intro h v hv
  have h : (tgtOk s && tgtOk t && y.isFloat) = true := h
  have hv : v ∈ [0xE0600000 + y.code * 0x40000 + s * 0x200 + t] := hv
  simp only [Bool.and_eq_true, tgtOk_iff, List.mem_cons, List.not_mem_nil, or_false] at h hv
  have := vt_lt y
  omega

theorem vmin (p : Pr) (y : VT) (s t : Nat) : Statement (.vmin p y s t) := by
  intro h v hv
  have h : (tgtOk s && tgtOk t) = true := h
  have hv : v ∈ [0xE2000000 + p.code * 0x800000 + y.code * 0x40000 + s * 0x200 + t] := hv
  simp only [Bool.and_eq_true, tgtOk_iff, List.mem_cons, List.not_mem_nil, or_false] at h hv
  have := pr_lt p
  have := vt_lt y
  omega

theorem vmax (p : Pr) (y : VT) (s t : Nat) : Statement (.vmax p y s t) := by
  intro h v hv
  have h : (tgtOk s && tgtOk t) = true := h
  have hv : v ∈ [0xE2200000 + p.code * 0x800000 + y.code * 0x40000 + s * 0x200 + t] := hv
  simp only [Bool.and_eq_true, tgtOk_iff, List.mem_cons, List.not_mem_nil, or_false] at h hv
  have := pr_lt p
  have := vt_lt y
  omega

theorem vabs (p : Pr) (y : VT) (s t : Nat) : Statement (.vabs p y s t) := by
  intro h v hv
  have h : (tgtOk s && tgtOk t) = true := h
  have hv : v ∈ [0xE2400000 + p.code * 0x800000 + y.code * 0x40000 + s * 0x200 + t] := hv
  simp only [Bool.and_eq_true, tgtOk_iff, List.mem_cons, List.not_mem_nil, or_false] at h hv
  have := pr_lt p
  have := vt_lt y
  omega

theorem vneg (p : Pr) (y : VT) (s t : Nat) : Statement (.vneg p y s t) := by
  intro h v hv
  have h : (tgtOk s && tgtOk t) = true := h
  have hv : v ∈ [0xE2600000 + p.code * 0x800000 + y.code * 0x40000 + s * 0x200 + t] := hv
  simp only [Bool.and_eq_true, tgtOk_iff, List.mem_cons, List.not_mem_nil, or_false] at h hv
  have := pr_lt p
  have := vt_lt y
  omega

theorem vand (p : Pr) (y : VT) (s t : Nat) : Statement (.vand p y s t) := by
  intro h v hv
  have h : (tgtOk s && tgtOk t && !y.isFloat) = true := h
  have hv : v ∈ [0xE4000000 + p.code * 0x800000 + y.code * 0x40000 + s * 0x200 + t] := hv
  simp only [Bool.and_eq_true, tgtOk_iff, List.mem_cons, List.not_mem_nil, or_false] at h hv
  have := pr_lt p
  have := vt_lt y
  omega

theorem vor (p : Pr) (y : VT) (s t : Nat) : Statement (.vor p y s t) := by
  intro h v hv
  have h : (tgtOk s && tgtOk t && !y.isFloat) = true := h
  have hv : v ∈ [0xE4200000 + p.code * 0x800000 + y.code * 0x40000 + s * 0x200 + t] := hv
  simp only [Bool.and_eq_true, tgtOk_iff, List.mem_cons, List.not_mem_nil, or_false] at h hv
  have := pr_lt p
  have := vt_lt y
  omega

theorem vxor (p : Pr) (y : VT) (s t : Nat) : Statement (.vxor p y s t) := by
  intro h v hv
  have h : (tgtOk s && tgtOk t && !y.isFloat) = true := h
  have hv : v ∈ [0xE4400000 + p.code * 0x800000 + y.code * 0x40000 + s * 0x200 + t] := hv
  simp only [Bool.and_eq_true, tgtOk_iff, List.mem_cons, List.not_mem_nil, or_false] at h hv
  have := pr_lt p
  have := vt_lt y
  omega

theorem vandn (p : Pr) (y : VT) (s t : Nat) : Statement (.vandn p y s t) := by
  intro h v hv
  have h : (tgtOk s && tgtOk t && !y.isFloat) = true := h
  have hv : v ∈ [0xE4600000 + p.code * 0x800000 + y.code * 0x40000 + s * 0x200 + t] := hv
  simp only [Bool.and_eq_true, tgtOk_iff, List.mem_cons, List.not_mem_nil, or_false] at h hv
  have := pr_lt p
  have := vt_lt y
  omega

theorem vshl (p : Pr) (y : VT) (s t : Nat) : Statement (.vshl p y s t) := by
  intro h v hv
  have h : (tgtOk s && tgtOk t && !y.isFloat) = true := h
  have hv : v ∈ [0xE6000000 + p.code * 0x800000 + y.code * 0x40000 + s * 0x200 + t] := hv
  simp only [Bool.and_eq_true, tgtOk_iff, List.mem_cons, List.not_mem_nil, or_false] at h hv
  have := pr_lt p
  have := vt_lt y
  omega

theorem vshr (p : Pr) (y : VT) (s t : Nat) : Statement (.vshr p y s t) := by
  intro h v hv
  have h : (tgtOk s && tgtOk t && !y.isFloat) = true := h
  have hv : v ∈ [0xE6200000 + p.code * 0x800000 + y.code * 0x40000 + s * 0x200 + t] := hv
  simp only [Bool.and_eq_true, tgtOk_iff, List.mem_cons, List.not_mem_nil, or_false] at h hv
  have := pr_lt p
  have := vt_lt y
  omega

theorem vsra (p : Pr) (y : VT) (s t : Nat) : Statement (.vsra p y s t) := by
  intro h v hv
  have h : (tgtOk s && tgtOk t && !y.isFloat) = true := h
  have hv : v ∈ [0xE6400000 + p.code * 0x800000 + y.code * 0x40000 + s * 0x200 + t] := hv
  simp only [Bool.and_eq_true, tgtOk_iff, List.mem_cons, List.not_mem_nil, or_false] at h hv
  have := pr_lt p
  have := vt_lt y
  omega

theorem vcmp (p : Pr) (c : VCond) (y : VT) (s t : Nat) : Statement (.vcmp p c y s t) := by
  intro h v hv
  have h : (tgtOk s && tgtOk t && (c != .ltn || !y.isFloat)) = true := h
  have hv : v ∈ [0xE8000000 + p.code * 0x800000 + c.code * 0x200000 + y.code * 0x40000 + s * 0x200 + t] := hv
  simp only [Bool.and_eq_true, tgtOk_iff, List.mem_cons, List.not_mem_nil, or_false] at h hv
  have := pr_lt p
  have := vcond_lt c
  have := vt_lt y
  omega

theorem vsel (y : VT) (s t : Nat) : Statement (.vsel y s t) := by
  intro h v hv
  have h : (tgtOk s && tgtOk t) = true := h
  have hv : v ∈ [0xEA000000 + y.code * 0x40000 + s * 0x200 + t] := hv
  simp only [Bool.and_eq_true, tgtOk_iff, List.mem_cons, List.not_mem_nil, or_false] at h hv
  have := vt_lt y
  omega

theorem vbcast (p : Pr) (y : VT) (s t : Nat) : Statement (.vbcast p y s t) := by
  intro h v hv
  have h : (tgtOk s && tgtOk t) = true := h
  have hv : v ∈ [0xEA200000 + p.code * 0x800000 + y.code * 0x40000 + s * 0x200 + t] := hv
  simp only [Bool.and_eq_true, tgtOk_iff, List.mem_cons, List.not_mem_nil, or_false] at h hv
  have := pr_lt p
  have := vt_lt y
  omega

theorem vext (p : Pr) (y : VT) (s t : Nat) : Statement (.vext p y s t) := by
  intro h v hv
  have h : (tgtOk s && tgtOk t) = true := h
  have hv : v ∈ [0xEA400000 + p.code * 0x800000 + y.code * 0x40000 + s * 0x200 + t] := hv
  simp only [Bool.and_eq_true, tgtOk_iff, List.mem_cons, List.not_mem_nil, or_false] at h hv
  have := pr_lt p
  have := vt_lt y
  omega

theorem vins (y : VT) (s t : Nat) : Statement (.vins y s t) := by
  intro h v hv
  have h : (tgtOk s && tgtOk t) = true := h
  have hv : v ∈ [0xEA600000 + y.code * 0x40000 + s * 0x200 + t] := hv
  simp only [Bool.and_eq_true, tgtOk_iff, List.mem_cons, List.not_mem_nil, or_false] at h hv
  have := vt_lt y
  omega

theorem vshuf (p : Pr) (y : VT) (s t : Nat) : Statement (.vshuf p y s t) := by
  intro h v hv
  have h : (tgtOk s && tgtOk t) = true := h
  have hv : v ∈ [0xEC000000 + p.code * 0x800000 + y.code * 0x40000 + s * 0x200 + t] := hv
  simp only [Bool.and_eq_true, tgtOk_iff, List.mem_cons, List.not_mem_nil, or_false] at h hv
  have := pr_lt p
  have := vt_lt y
  omega

theorem vperm (p : Pr) (y : VT) (s t : Nat) : Statement (.vperm p y s t) := by
  intro h v hv
  have h : (tgtOk s && tgtOk t) = true := h
  have hv : v ∈ [0xEC200000 + p.code * 0x800000 + y.code * 0x40000 + s * 0x200 + t] := hv
  simp only [Bool.and_eq_true, tgtOk_iff, List.mem_cons, List.not_mem_nil, or_false] at h hv
  have := pr_lt p
  have := vt_lt y
  omega

theorem vrot (p : Pr) (y : VT) (s t : Nat) : Statement (.vrot p y s t) := by
  intro h v hv
  have h : (tgtOk s && tgtOk t) = true := h
  have hv : v ∈ [0xEC400000 + p.code * 0x800000 + y.code * 0x40000 + s * 0x200 + t] := hv
  simp only [Bool.and_eq_true, tgtOk_iff, List.mem_cons, List.not_mem_nil, or_false] at h hv
  have := pr_lt p
  have := vt_lt y
  omega

theorem vredadd (p : Pr) (y : VT) (s t : Nat) : Statement (.vredadd p y s t) := by
  intro h v hv
  have h : (tgtOk s && tgtOk t) = true := h
  have hv : v ∈ [0xEE000000 + p.code * 0x800000 + y.code * 0x40000 + s * 0x200 + t] := hv
  simp only [Bool.and_eq_true, tgtOk_iff, List.mem_cons, List.not_mem_nil, or_false] at h hv
  have := pr_lt p
  have := vt_lt y
  omega

theorem vredmax (p : Pr) (y : VT) (s t : Nat) : Statement (.vredmax p y s t) := by
  intro h v hv
  have h : (tgtOk s && tgtOk t) = true := h
  have hv : v ∈ [0xEE200000 + p.code * 0x800000 + y.code * 0x40000 + s * 0x200 + t] := hv
  simp only [Bool.and_eq_true, tgtOk_iff, List.mem_cons, List.not_mem_nil, or_false] at h hv
  have := pr_lt p
  have := vt_lt y
  omega

theorem vredmin (p : Pr) (y : VT) (s t : Nat) : Statement (.vredmin p y s t) := by
  intro h v hv
  have h : (tgtOk s && tgtOk t) = true := h
  have hv : v ∈ [0xEE400000 + p.code * 0x800000 + y.code * 0x40000 + s * 0x200 + t] := hv
  simp only [Bool.and_eq_true, tgtOk_iff, List.mem_cons, List.not_mem_nil, or_false] at h hv
  have := pr_lt p
  have := vt_lt y
  omega

theorem vscan (p : Pr) (y : VT) (s t : Nat) : Statement (.vscan p y s t) := by
  intro h v hv
  have h : (tgtOk s && tgtOk t) = true := h
  have hv : v ∈ [0xEE600000 + p.code * 0x800000 + y.code * 0x40000 + s * 0x200 + t] := hv
  simp only [Bool.and_eq_true, tgtOk_iff, List.mem_cons, List.not_mem_nil, or_false] at h hv
  have := pr_lt p
  have := vt_lt y
  omega

theorem vpopc (p : Pr) (y : VT) (s t : Nat) : Statement (.vpopc p y s t) := by
  intro h v hv
  have h : (tgtOk s && tgtOk t && !y.isFloat) = true := h
  have hv : v ∈ [0xF0000000 + p.code * 0x800000 + y.code * 0x40000 + s * 0x200 + t] := hv
  simp only [Bool.and_eq_true, tgtOk_iff, List.mem_cons, List.not_mem_nil, or_false] at h hv
  have := pr_lt p
  have := vt_lt y
  omega

theorem vpfxc (p : Pr) (y : VT) (s t : Nat) : Statement (.vpfxc p y s t) := by
  intro h v hv
  have h : (tgtOk s && tgtOk t && !y.isFloat) = true := h
  have hv : v ∈ [0xF0200000 + p.code * 0x800000 + y.code * 0x40000 + s * 0x200 + t] := hv
  simp only [Bool.and_eq_true, tgtOk_iff, List.mem_cons, List.not_mem_nil, or_false] at h hv
  have := pr_lt p
  have := vt_lt y
  omega

theorem vcvt (p : Pr) (c : VT) (y : VT) (s t : Nat) : Statement (.vcvt p c y s t) := by
  intro h v hv
  have h : (tgtOk s && tgtOk t && cvtOk c && c != y) = true := h
  have hv : v ∈ [0xF2000000 + p.code * 0x800000 + cvtCode c * 0x200000 + y.code * 0x40000 + s * 0x200 + t] := hv
  simp only [Bool.and_eq_true, tgtOk_iff, List.mem_cons, List.not_mem_nil, or_false] at h hv
  have := pr_lt p
  have := cvt_lt c
  have := vt_lt y
  omega

theorem vexp2 (p : Pr) (y : VT) (s t : Nat) : Statement (.vexp2 p y s t) := by
  intro h v hv
  have h : (tgtOk s && tgtOk t && y.isFloat) = true := h
  have hv : v ∈ [0xF4000000 + p.code * 0x800000 + y.code * 0x40000 + s * 0x200 + t] := hv
  simp only [Bool.and_eq_true, tgtOk_iff, List.mem_cons, List.not_mem_nil, or_false] at h hv
  have := pr_lt p
  have := vt_lt y
  omega

theorem vlog2 (p : Pr) (y : VT) (s t : Nat) : Statement (.vlog2 p y s t) := by
  intro h v hv
  have h : (tgtOk s && tgtOk t && y.isFloat) = true := h
  have hv : v ∈ [0xF4200000 + p.code * 0x800000 + y.code * 0x40000 + s * 0x200 + t] := hv
  simp only [Bool.and_eq_true, tgtOk_iff, List.mem_cons, List.not_mem_nil, or_false] at h hv
  have := pr_lt p
  have := vt_lt y
  omega

theorem vrcp (p : Pr) (y : VT) (s t : Nat) : Statement (.vrcp p y s t) := by
  intro h v hv
  have h : (tgtOk s && tgtOk t && y.isFloat) = true := h
  have hv : v ∈ [0xF4400000 + p.code * 0x800000 + y.code * 0x40000 + s * 0x200 + t] := hv
  simp only [Bool.and_eq_true, tgtOk_iff, List.mem_cons, List.not_mem_nil, or_false] at h hv
  have := pr_lt p
  have := vt_lt y
  omega

theorem vrsqrt (p : Pr) (y : VT) (s t : Nat) : Statement (.vrsqrt p y s t) := by
  intro h v hv
  have h : (tgtOk s && tgtOk t && y.isFloat) = true := h
  have hv : v ∈ [0xF4600000 + p.code * 0x800000 + y.code * 0x40000 + s * 0x200 + t] := hv
  simp only [Bool.and_eq_true, tgtOk_iff, List.mem_cons, List.not_mem_nil, or_false] at h hv
  have := pr_lt p
  have := vt_lt y
  omega

theorem vld (p : Pr) (l : Nat) (w : Width) (t : Nat) : Statement (.vld p l w t) := by
  intro h v hv
  have h : (decide (l < 32) && tgtOk t) = true := h
  have hv : v ∈ [0xF6000000 + p.code * 0x800000 + l * 0x40000 + w.code * 0x2000 + t] := hv
  simp only [Bool.and_eq_true, decide_eq_true_eq, tgtOk_iff, List.mem_cons, List.not_mem_nil, or_false] at h hv
  have := pr_lt p
  have := width_lt w
  omega

theorem vst (p : Pr) (l : Nat) (w : Width) : Statement (.vst p l w) := by
  intro h v hv
  have h : (decide (l < 32)) = true := h
  have hv : v ∈ [0xF60081FF + p.code * 0x800000 + l * 0x40000 + w.code * 0x2000] := hv
  simp only [decide_eq_true_eq, List.mem_cons, List.not_mem_nil, or_false] at h hv
  have := pr_lt p
  have := width_lt w
  omega

theorem vldg (p : Pr) (l : Nat) (w : Width) (t : Nat) : Statement (.vldg p l w t) := by
  intro h v hv
  have h : (decide (l < 32) && tgtOk t) = true := h
  have hv : v ∈ [0xF6010000 + p.code * 0x800000 + l * 0x40000 + w.code * 0x2000 + t] := hv
  simp only [Bool.and_eq_true, decide_eq_true_eq, tgtOk_iff, List.mem_cons, List.not_mem_nil, or_false] at h hv
  have := pr_lt p
  have := width_lt w
  omega

theorem vsts (l : Nat) (w : Width) : Statement (.vsts l w) := by
  intro h v hv
  have h : (decide (l < 32)) = true := h
  have hv : v ∈ [0xF60181FF + l * 0x40000 + w.code * 0x2000] := hv
  simp only [decide_eq_true_eq, List.mem_cons, List.not_mem_nil, or_false] at h hv
  have := width_lt w
  omega

theorem vtld (p : Pr) (l : Nat) (w : Width) (t : Nat) : Statement (.vtld p l w t) := by
  intro h v hv
  have h : (decide (l < 32) && tgtOk t && w != .w64) = true := h
  have hv : v ∈ [0xF6020000 + p.code * 0x800000 + l * 0x40000 + w.code * 0x2000 + t] := hv
  simp only [Bool.and_eq_true, decide_eq_true_eq, tgtOk_iff, List.mem_cons, List.not_mem_nil, or_false] at h hv
  have := pr_lt p
  have := width_lt w
  omega

theorem vamo (p : Pr) (l : Nat) (w : Width) (a : AmoOp) (t : Nat) : Statement (.vamo p l w a t) := by
  intro h v hv
  have h : (decide (l < 32) && tgtOk t && a.lanewise) = true := h
  have hv : v ∈ [0xF6028000 + p.code * 0x800000 + l * 0x40000 + w.code * 0x2000 + a.code * 0x200 + t] := hv
  simp only [Bool.and_eq_true, decide_eq_true_eq, tgtOk_iff, List.mem_cons, List.not_mem_nil, or_false] at h hv
  have := pr_lt p
  have := width_lt w
  have := amo_lt a
  omega

theorem csrrd (p : Pr) (l t : Nat) : Statement (.csrrd p l t) := by
  intro h v hv
  have h : (decide (l < 32) && tgtOk t) = true := h
  have hv : v ∈ [0xF8000000 + p.code * 0x800000 + l * 0x40000 + t] := hv
  simp only [Bool.and_eq_true, decide_eq_true_eq, tgtOk_iff, List.mem_cons, List.not_mem_nil, or_false] at h hv
  have := pr_lt p
  omega

theorem csrwr (p : Pr) (l t : Nat) : Statement (.csrwr p l t) := by
  intro h v hv
  have h : (decide (l < 32) && tgtOk t) = true := h
  have hv : v ∈ [0xF8002000 + p.code * 0x800000 + l * 0x40000 + t] := hv
  simp only [Bool.and_eq_true, decide_eq_true_eq, tgtOk_iff, List.mem_cons, List.not_mem_nil, or_false] at h hv
  have := pr_lt p
  omega

theorem segld (p : Pr) (l t : Nat) : Statement (.segld p l t) := by
  intro h v hv
  have h : (decide (l < 32) && tgtOk t) = true := h
  have hv : v ∈ [0xF8004000 + p.code * 0x800000 + l * 0x40000 + t] := hv
  simp only [Bool.and_eq_true, decide_eq_true_eq, tgtOk_iff, List.mem_cons, List.not_mem_nil, or_false] at h hv
  have := pr_lt p
  omega

theorem segst (p : Pr) (l t : Nat) : Statement (.segst p l t) := by
  intro h v hv
  have h : (decide (l < 32) && tgtOk t) = true := h
  have hv : v ∈ [0xF8006000 + p.code * 0x800000 + l * 0x40000 + t] := hv
  simp only [Bool.and_eq_true, decide_eq_true_eq, tgtOk_iff, List.mem_cons, List.not_mem_nil, or_false] at h hv
  have := pr_lt p
  omega

theorem wake (p : Pr) (l t : Nat) : Statement (.wake p l t) := by
  intro h v hv
  have h : (decide (l < 32) && tgtOk t) = true := h
  have hv : v ∈ [0xF8008000 + p.code * 0x800000 + l * 0x40000 + t] := hv
  simp only [Bool.and_eq_true, decide_eq_true_eq, tgtOk_iff, List.mem_cons, List.not_mem_nil, or_false] at h hv
  have := pr_lt p
  omega

theorem ctxswap (p : Pr) (l t : Nat) : Statement (.ctxswap p l t) := by
  intro h v hv
  have h : (decide (l < 32) && tgtOk t) = true := h
  have hv : v ∈ [0xF800A000 + p.code * 0x800000 + l * 0x40000 + t] := hv
  simp only [Bool.and_eq_true, decide_eq_true_eq, tgtOk_iff, List.mem_cons, List.not_mem_nil, or_false] at h hv
  have := pr_lt p
  omega

theorem slotpark (p : Pr) (l t : Nat) : Statement (.slotpark p l t) := by
  intro h v hv
  have h : (decide (l < 32) && tgtOk t) = true := h
  have hv : v ∈ [0xF800C000 + p.code * 0x800000 + l * 0x40000 + t] := hv
  simp only [Bool.and_eq_true, decide_eq_true_eq, tgtOk_iff, List.mem_cons, List.not_mem_nil, or_false] at h hv
  have := pr_lt p
  omega

theorem slotfree (p : Pr) (l t : Nat) : Statement (.slotfree p l t) := by
  intro h v hv
  have h : (decide (l < 32) && tgtOk t) = true := h
  have hv : v ∈ [0xF800E000 + p.code * 0x800000 + l * 0x40000 + t] := hv
  simp only [Bool.and_eq_true, decide_eq_true_eq, tgtOk_iff, List.mem_cons, List.not_mem_nil, or_false] at h hv
  have := pr_lt p
  omega

theorem tlbinv (p : Pr) (l : Nat) : Statement (.tlbinv p l) := by
  intro h v hv
  have h : (decide (l < 32)) = true := h
  have hv : v ∈ [0xF80101FF + p.code * 0x800000 + l * 0x40000] := hv
  simp only [decide_eq_true_eq, List.mem_cons, List.not_mem_nil, or_false] at h hv
  have := pr_lt p
  omega

theorem marker (p : Pr) (l t : Nat) : Statement (.marker p l t) := by
  intro h v hv
  have h : (decide (l < 32) && tgtOk t) = true := h
  have hv : v ∈ [0xF8012000 + p.code * 0x800000 + l * 0x40000 + t] := hv
  simp only [Bool.and_eq_true, decide_eq_true_eq, tgtOk_iff, List.mem_cons, List.not_mem_nil, or_false] at h hv
  have := pr_lt p
  omega

theorem qwave (p : Pr) (l t : Nat) : Statement (.qwave p l t) := by
  intro h v hv
  have h : (decide (l < 32) && tgtOk t) = true := h
  have hv : v ∈ [0xF8014000 + p.code * 0x800000 + l * 0x40000 + t] := hv
  simp only [Bool.and_eq_true, decide_eq_true_eq, tgtOk_iff, List.mem_cons, List.not_mem_nil, or_false] at h hv
  have := pr_lt p
  omega

theorem twin (p : Pr) (l t : Nat) : Statement (.twin p l t) := by
  intro h v hv
  have h : (decide (l < 32) && tgtOk t) = true := h
  have hv : v ∈ [0xF8016000 + p.code * 0x800000 + l * 0x40000 + t] := hv
  simp only [Bool.and_eq_true, decide_eq_true_eq, tgtOk_iff, List.mem_cons, List.not_mem_nil, or_false] at h hv
  have := pr_lt p
  omega

theorem scrub (p : Pr) (l t : Nat) : Statement (.scrub p l t) := by
  intro h v hv
  have h : (decide (l < 32) && tgtOk t) = true := h
  have hv : v ∈ [0xF8018000 + p.code * 0x800000 + l * 0x40000 + t] := hv
  simp only [Bool.and_eq_true, decide_eq_true_eq, tgtOk_iff, List.mem_cons, List.not_mem_nil, or_false] at h hv
  have := pr_lt p
  omega

theorem mma (c : Long) : Statement (.mma c) := fun h => encLong_fits (by decide) (by decide) h

theorem tileLd (c : Long) : Statement (.tileLd c) := fun h => encLong_fits (by decide) (by decide) h

theorem tileSt (c : Long) : Statement (.tileSt c) := fun h => encLong_fits (by decide) (by decide) h

theorem tileCp (c : Long) : Statement (.tileCp c) := fun h => encLong_fits (by decide) (by decide) h

theorem tileDeal (c : Long) : Statement (.tileDeal c) := fun h => encLong_fits (by decide) (by decide) h

theorem tileResume (c : Long) : Statement (.tileResume c) := fun h => encLong_fits (by decide) (by decide) h

theorem castDec (c : Long) : Statement (.castDec c) := fun h => encLong_fits (by decide) (by decide) h

theorem castPlane (c : Long) : Statement (.castPlane c) := fun h => encLong_fits (by decide) (by decide) h

theorem castTable (c : Long) : Statement (.castTable c) := fun h => encLong_fits (by decide) (by decide) h

theorem xswap (c : Long) : Statement (.xswap c) := fun h => encLong_fits (by decide) (by decide) h

theorem pgPromote (c : Long) : Statement (.pgPromote c) := fun h => encLong_fits (by decide) (by decide) h

theorem pgRequant (c : Long) : Statement (.pgRequant c) := fun h => encLong_fits (by decide) (by decide) h

theorem kvAlloc (c : Long) : Statement (.kvAlloc c) := fun h => encLong_fits (by decide) (by decide) h

theorem kvFree (c : Long) : Statement (.kvFree c) := fun h => encLong_fits (by decide) (by decide) h

theorem kvAppend (c : Long) : Statement (.kvAppend c) := fun h => encLong_fits (by decide) (by decide) h

theorem kvEvict (c : Long) : Statement (.kvEvict c) := fun h => encLong_fits (by decide) (by decide) h

theorem pfxMatch (c : Long) : Statement (.pfxMatch c) := fun h => encLong_fits (by decide) (by decide) h

theorem pfxInsert (c : Long) : Statement (.pfxInsert c) := fun h => encLong_fits (by decide) (by decide) h

theorem pfxUnref (c : Long) : Statement (.pfxUnref c) := fun h => encLong_fits (by decide) (by decide) h

theorem moduleResetRelease : Statement (.moduleResetRelease) := fun _ _ h => absurd h (List.not_mem_nil)

theorem squareEnableStep : Statement (.squareEnableStep) := fun _ _ h => absurd h (List.not_mem_nil)

theorem thermalShutdown (die tempC : Nat) : Statement (.thermalShutdown die tempC) := fun _ _ h => absurd h (List.not_mem_nil)

theorem flowShutdown (mlPerMin durationMs : Nat) : Statement (.flowShutdown mlPerMin durationMs) := fun _ _ h => absurd h (List.not_mem_nil)

theorem moduleRestart : Statement (.moduleRestart) := fun _ _ h => absurd h (List.not_mem_nil)

theorem configStoreUpdate (img : ConfigImage) (sigOk : Bool) : Statement (.configStoreUpdate img sigOk) := fun _ _ h => absurd h (List.not_mem_nil)

theorem linkTraining (port : Nat) (lanes : BitVec 16) : Statement (.linkTraining port lanes) := fun _ _ h => absurd h (List.not_mem_nil)

theorem linkControlFlit (port : Nat) (cls : FlitClass) (kind seq : Nat) : Statement (.linkControlFlit port cls kind seq) := fun _ _ h => absurd h (List.not_mem_nil)

theorem busyRepeatTimer (port : Nat) (cls : FlitClass) : Statement (.busyRepeatTimer port cls) := fun _ _ h => absurd h (List.not_mem_nil)

theorem linkAckTimeout (port : Nat) (cls : FlitClass) : Statement (.linkAckTimeout port cls) := fun _ _ h => absurd h (List.not_mem_nil)

theorem portDown (port : Nat) : Statement (.portDown port) := fun _ _ h => absurd h (List.not_mem_nil)

theorem rd (port : Nat) (x : Txn) : Statement (.rd port x) := fun _ _ h => absurd h (List.not_mem_nil)

theorem wr (port : Nat) (x : Txn) : Statement (.wr port x) := fun _ _ h => absurd h (List.not_mem_nil)

theorem wrp (port : Nat) (x : Txn) : Statement (.wrp port x) := fun _ _ h => absurd h (List.not_mem_nil)

theorem wrf (port : Nat) (x : Txn) : Statement (.wrf port x) := fun _ _ h => absurd h (List.not_mem_nil)

theorem hostAmo (port : Nat) (x : Txn) : Statement (.hostAmo port x) := fun _ _ h => absurd h (List.not_mem_nil)

theorem reqcntAdd (port : Nat) (x : Txn) : Statement (.reqcntAdd port x) := fun _ _ h => absurd h (List.not_mem_nil)

theorem rspackWrite (port : Nat) (x : Txn) : Statement (.rspackWrite port x) := fun _ _ h => absurd h (List.not_mem_nil)

theorem rmt (port : Nat) (x : Txn) (op : RemOp) : Statement (.rmt port x op) := fun _ _ h => absurd h (List.not_mem_nil)

theorem rsv (port : Nat) (x : Txn) : Statement (.rsv port x) := fun _ _ h => absurd h (List.not_mem_nil)

theorem unrsv (port : Nat) (x : Txn) : Statement (.unrsv port x) := fun _ _ h => absurd h (List.not_mem_nil)

theorem msg (port : Nat) (x : Txn) (replayed : Bool) : Statement (.msg port x replayed) := fun _ _ h => absurd h (List.not_mem_nil)

theorem rdrsp (port tag : Nat) : Statement (.rdrsp port tag) := fun _ _ h => absurd h (List.not_mem_nil)

theorem ack (port tag : Nat) : Statement (.ack port tag) := fun _ _ h => absurd h (List.not_mem_nil)

theorem amorsp (port tag : Nat) : Statement (.amorsp port tag) := fun _ _ h => absurd h (List.not_mem_nil)

theorem rmtrsp (port tag status : Nat) (v : BitVec 512) : Statement (.rmtrsp port tag status v) := fun _ _ h => absurd h (List.not_mem_nil)

theorem pack (port : Nat) (core count : Nat) : Statement (.pack port core count) := fun _ _ h => absurd h (List.not_mem_nil)

theorem rsvrsp (port tag : Nat) (d : Word) : Statement (.rsvrsp port tag d) := fun _ _ h => absurd h (List.not_mem_nil)

theorem packGatherTimeout (agent src : Nat) : Statement (.packGatherTimeout agent src) := fun _ _ h => absurd h (List.not_mem_nil)

theorem pcieMemoryWrite (w : HostWindow) (addr : Nat) (data : List Byte) : Statement (.pcieMemoryWrite w addr data) := fun _ _ h => absurd h (List.not_mem_nil)

theorem pcieMemoryRead (w : HostWindow) (addr len : Nat) : Statement (.pcieMemoryRead w addr len) := fun _ _ h => absurd h (List.not_mem_nil)

theorem pcieAtomicop (w : HostWindow) (addr : Nat) (kind : PcieAtomic) (bits : Nat) (a b : Word) : Statement (.pcieAtomicop w addr kind bits a b) := fun _ _ h => absurd h (List.not_mem_nil)

theorem frameTableEntryWrite (n : Nat) : Statement (.frameTableEntryWrite n) := fun _ _ h => absurd h (List.not_mem_nil)

theorem msiXTrigger (n : Nat) : Statement (.msiXTrigger n) := fun _ _ h => absurd h (List.not_mem_nil)

theorem qsetup (q : Nat) : Statement (.qsetup q) := fun _ _ h => absurd h (List.not_mem_nil)

theorem qdisable (q : Nat) : Statement (.qdisable q) := fun _ _ h => absurd h (List.not_mem_nil)

theorem framemap (q : Nat) : Statement (.framemap q) := fun _ _ h => absurd h (List.not_mem_nil)

theorem abort (q : Nat) : Statement (.abort q) := fun _ _ h => absurd h (List.not_mem_nil)

theorem suspend (q : Nat) : Statement (.suspend q) := fun _ _ h => absurd h (List.not_mem_nil)

theorem resume (q : Nat) : Statement (.resume q) := fun _ _ h => absurd h (List.not_mem_nil)

theorem turnover (q : Nat) : Statement (.turnover q) := fun _ _ h => absurd h (List.not_mem_nil)

theorem turnoverCmd (value : Word) : Statement (.turnoverCmd value) := fun _ _ h => absurd h (List.not_mem_nil)

theorem turnoverScrub (bad : List RowName) : Statement (.turnoverScrub bad) := fun _ _ h => absurd h (List.not_mem_nil)

theorem turnoverClear : Statement (.turnoverClear) := fun _ _ h => absurd h (List.not_mem_nil)

theorem turnoverHealth (bad badAgain : List RowName) (badSpare : List RowName) : Statement (.turnoverHealth bad badAgain badSpare) := fun _ _ h => absurd h (List.not_mem_nil)

theorem turnoverFirmware (sc pc : FwImage) : Statement (.turnoverFirmware sc pc) := fun _ _ h => absurd h (List.not_mem_nil)

theorem turnoverAttest (lo hi : BitVec 256) (serial : Word) : Statement (.turnoverAttest lo hi serial) := fun _ _ h => absurd h (List.not_mem_nil)

theorem dispenserReadRecord (die q ahead : Nat) : Statement (.dispenserReadRecord die q ahead) := fun _ _ h => absurd h (List.not_mem_nil)

theorem recordTake (die e : Nat) : Statement (.recordTake die e) := fun _ _ h => absurd h (List.not_mem_nil)

theorem guestOffer (die e guest : Nat) : Statement (.guestOffer die e guest) := fun _ _ h => absurd h (List.not_mem_nil)

theorem guestBatchClaim (die g : Nat) : Statement (.guestBatchClaim die g) := fun _ _ h => absurd h (List.not_mem_nil)

theorem grant (die : Nat) : Statement (.grant die) := fun _ _ h => absurd h (List.not_mem_nil)

theorem startMessage (n : Nat) : Statement (.startMessage n) := fun _ _ h => absurd h (List.not_mem_nil)

theorem cdisChange (die : Nat) : Statement (.cdisChange die) := fun _ _ h => absurd h (List.not_mem_nil)

theorem sliceEndReport (n : Nat) : Statement (.sliceEndReport n) := fun _ _ h => absurd h (List.not_mem_nil)

theorem quiescenceWave (lid unit : Nat) : Statement (.quiescenceWave lid unit) := fun _ _ h => absurd h (List.not_mem_nil)

theorem quiescenceWaveReturn (die e : Nat) : Statement (.quiescenceWaveReturn die e) := fun _ _ h => absurd h (List.not_mem_nil)

theorem launchEnd (die e : Nat) : Statement (.launchEnd die e) := fun _ _ h => absurd h (List.not_mem_nil)

theorem launchCompletion (die e : Nat) : Statement (.launchCompletion die e) := fun _ _ h => absurd h (List.not_mem_nil)

theorem killWaveReturn (die e : Nat) : Statement (.killWaveReturn die e) := fun _ _ h => absurd h (List.not_mem_nil)

theorem spillRequest (core lid : Nat) : Statement (.spillRequest core lid) := fun _ _ h => absurd h (List.not_mem_nil)

theorem reserveEntryAllocation (core slot : Nat) : Statement (.reserveEntryAllocation core slot) := fun _ _ h => absurd h (List.not_mem_nil)

theorem messageArrival (n : Nat) : Statement (.messageArrival n) := fun _ _ h => absurd h (List.not_mem_nil)

theorem migrationArrival (n : Nat) : Statement (.migrationArrival n) := fun _ _ h => absurd h (List.not_mem_nil)

theorem reservationRequest (n : Nat) : Statement (.reservationRequest n) := fun _ _ h => absurd h (List.not_mem_nil)

theorem reservationRelease (n : Nat) : Statement (.reservationRelease n) := fun _ _ h => absurd h (List.not_mem_nil)

theorem slotOutComplete (core slot : Nat) : Statement (.slotOutComplete core slot) := fun _ _ h => absurd h (List.not_mem_nil)

theorem threadWake (n : Nat) : Statement (.threadWake n) := fun _ _ h => absurd h (List.not_mem_nil)

theorem waiterRetryTimer (core n : Nat) : Statement (.waiterRetryTimer core n) := fun _ _ h => absurd h (List.not_mem_nil)

theorem blockFetch (core slot : Nat) : Statement (.blockFetch core slot) := fun _ _ h => absurd h (List.not_mem_nil)

theorem blockLock (core slot : Nat) : Statement (.blockLock core slot) := fun _ _ h => absurd h (List.not_mem_nil)

theorem blockCommit (core slot : Nat) : Statement (.blockCommit core slot) := fun _ _ h => absurd h (List.not_mem_nil)

theorem faultRaiseTimeout (core slot : Nat) : Statement (.faultRaiseTimeout core slot) := fun _ _ h => absurd h (List.not_mem_nil)

theorem noProgressTimeout (core slot : Nat) : Statement (.noProgressTimeout core slot) := fun _ _ h => absurd h (List.not_mem_nil)

theorem storeBufferDrain (core : Nat) : Statement (.storeBufferDrain core) := fun _ _ h => absurd h (List.not_mem_nil)

theorem remoteOperation (n : Nat) : Statement (.remoteOperation n) := fun _ _ h => absurd h (List.not_mem_nil)

theorem roaddApply (loc : Nat) : Statement (.roaddApply loc) := fun _ _ h => absurd h (List.not_mem_nil)

theorem faultRecord (q : Nat) : Statement (.faultRecord q) := fun _ _ h => absurd h (List.not_mem_nil)

theorem cutOrder (n : Nat) : Statement (.cutOrder n) := fun _ _ h => absurd h (List.not_mem_nil)

theorem cutMarker (n : Nat) : Statement (.cutMarker n) := fun _ _ h => absurd h (List.not_mem_nil)

theorem routerReport (n : Nat) : Statement (.routerReport n) := fun _ _ h => absurd h (List.not_mem_nil)

theorem twinComparison (core slot : Nat) : Statement (.twinComparison core slot) := fun _ _ h => absurd h (List.not_mem_nil)

theorem replayDivergence (die e unit : Nat) : Statement (.replayDivergence die e unit) := fun _ _ h => absurd h (List.not_mem_nil)

theorem multicastWindowClose (sq n : Nat) : Statement (.multicastWindowClose sq n) := fun _ _ h => absurd h (List.not_mem_nil)

theorem engineCommandStart (core slot eng : Nat) : Statement (.engineCommandStart core slot eng) := fun _ _ h => absurd h (List.not_mem_nil)

theorem engineCommandComplete (core n : Nat) : Statement (.engineCommandComplete core n) := fun _ _ h => absurd h (List.not_mem_nil)

theorem xswapNoPair (core n : Nat) : Statement (.xswapNoPair core n) := fun _ _ h => absurd h (List.not_mem_nil)

theorem invalidationWaveReturn (core n : Nat) : Statement (.invalidationWaveReturn core n) := fun _ _ h => absurd h (List.not_mem_nil)

theorem remapComplete (core : Nat) : Statement (.remapComplete core) := fun _ _ h => absurd h (List.not_mem_nil)

theorem layerPowerOnComplete (core layer : Nat) : Statement (.layerPowerOnComplete core layer) := fun _ _ h => absurd h (List.not_mem_nil)

theorem refresh (core bank : Nat) : Statement (.refresh core bank) := fun _ _ h => absurd h (List.not_mem_nil)

theorem rowTimeout (core bank : Nat) : Statement (.rowTimeout core bank) := fun _ _ h => absurd h (List.not_mem_nil)

theorem layerThrottleSample (core layer : Nat) (tempC : Nat) : Statement (.layerThrottleSample core layer tempC) := fun _ _ h => absurd h (List.not_mem_nil)

theorem transitionComplete (sq : Nat) : Statement (.transitionComplete sq) := fun _ _ h => absurd h (List.not_mem_nil)

theorem currentEstimate (sq ma : Nat) : Statement (.currentEstimate sq ma) := fun _ _ h => absurd h (List.not_mem_nil)

theorem powerMeasurement (mw : Nat) : Statement (.powerMeasurement mw) := fun _ _ h => absurd h (List.not_mem_nil)

theorem damageSample (district halfDegrees : Nat) : Statement (.damageSample district halfDegrees) := fun _ _ h => absurd h (List.not_mem_nil)

theorem damageWindow (district : Nat) : Statement (.damageWindow district) := fun _ _ h => absurd h (List.not_mem_nil)

theorem hardThresholdPark (district : Nat) : Statement (.hardThresholdPark district) := fun _ _ h => absurd h (List.not_mem_nil)

theorem idleEntry (sq : Nat) : Statement (.idleEntry sq) := fun _ _ h => absurd h (List.not_mem_nil)

theorem idleExit (die : Nat) : Statement (.idleExit die) := fun _ _ h => absurd h (List.not_mem_nil)

theorem heartbeatTimeout (die : Nat) : Statement (.heartbeatTimeout die) := fun _ _ h => absurd h (List.not_mem_nil)

theorem pchb (die : Nat) (v : Word) : Statement (.pchb die v) := fun _ _ h => absurd h (List.not_mem_nil)

theorem pcsign (die : Nat) (v : Word) : Statement (.pcsign die v) := fun _ _ h => absurd h (List.not_mem_nil)

theorem vlpwrWrite (core : Nat) (v : Word) : Statement (.vlpwrWrite core v) := fun _ _ h => absurd h (List.not_mem_nil)

theorem camreqWrite (core : Nat) (v : Word) : Statement (.camreqWrite core v) := fun _ _ h => absurd h (List.not_mem_nil)

theorem debugContextWrite (core off : Nat) (v : Word) : Statement (.debugContextWrite core off v) := fun _ _ h => absurd h (List.not_mem_nil)

theorem scmdResume (core slot : Nat) : Statement (.scmdResume core slot) := fun _ _ h => absurd h (List.not_mem_nil)

theorem retire (core slot : Nat) : Statement (.retire core slot) := fun _ _ h => absurd h (List.not_mem_nil)

theorem kill (core slot : Nat) : Statement (.kill core slot) := fun _ _ h => absurd h (List.not_mem_nil)

theorem freeze (core slot : Nat) : Statement (.freeze core slot) := fun _ _ h => absurd h (List.not_mem_nil)

theorem step (core slot : Nat) : Statement (.step core slot) := fun _ _ h => absurd h (List.not_mem_nil)

theorem registerWrite (core num : Nat) (v : Word) : Statement (.registerWrite core num v) := fun _ _ h => absurd h (List.not_mem_nil)

theorem flitDiscard (port : Nat) (hdr : BitVec 64) (lo hi : BitVec 256) (space : Bool) : Statement (.flitDiscard port hdr lo hi space) := fun _ _ h => absurd h (List.not_mem_nil)

theorem busyReplay (port : Nat) (cls : FlitClass) : Statement (.busyReplay port cls) := fun _ _ h => absurd h (List.not_mem_nil)

theorem requestTimeout (port tag : Nat) : Statement (.requestTimeout port tag) := fun _ _ h => absurd h (List.not_mem_nil)

theorem entryReuseDelay (die e : Nat) : Statement (.entryReuseDelay die e) := fun _ _ h => absurd h (List.not_mem_nil)

theorem slotLoadComplete (core slot : Nat) : Statement (.slotLoadComplete core slot) := fun _ _ h => absurd h (List.not_mem_nil)

theorem layerPowerOffComplete (core layer : Nat) : Statement (.layerPowerOffComplete core layer) := fun _ _ h => absurd h (List.not_mem_nil)

theorem scrubPassComplete (core : Nat) (bad : List RowName) : Statement (.scrubPassComplete core bad) := fun _ _ h => absurd h (List.not_mem_nil)

end Sys2Proof.Laws.Fits
end

