-- ==== Sys2Proof/Machine/Vyas.lean ====
section
/-!
DEFINITION. What vyas makes of source: targets (R281), blocks (R282), long commands (R283), data and records (R284) and
refusals (R285). A source line stands here as its parts, without the text that spells them. (Log 62.)
-/

namespace Sys2Proof.Machine

/-! ## Source lines (R279, R280) -/

/-- A written target. -/
inductive SrcTarget
  | l (i : Nat)
  | r (i : Nat)
  | p (i : Nat)
  | g (k : Nat)
  deriving DecidableEq, Repr

/-- The target field of a written target (R257). -/
def SrcTarget.field : SrcTarget → Nat
  | .l i => 3 * i
  | .r i => 3 * i + 1
  | .p i => 3 * i + 2
  | .g k => 384 + k

/-- A target that its field can hold: a word of the block, a register (R285). -/
def SrcTarget.inRange : SrcTarget → Bool
  | .l i | .r i | .p i => decide (i < 128)
  | .g k => decide (k < 16)

/-- What a source line names, by the format of its word (Table 12.3). -/
inductive SrcForm
  | g (op xop : Nat)
  | mov4
  | read (k : Nat)
  | i (op : Nat) (v : Int)
  | c (op : Nat) (v : Int)
  | load (op : Nat) (off : Int)
  | store (qual : Nat) (off : Int)
  | a (op xop aux : Nat)
  | x (op sub : Nat) (dest : Option String)
  | long (cmd eng : Nat) (fields : List (String × Nat))
  deriving DecidableEq, Repr

/-- A source line: its index label, predicate, form, LSID and targets. -/
structure SrcLine where
  label : Option Nat := none
  pr : Nat := 0
  form : SrcForm
  lsid : Option Nat := none
  targets : List SrcTarget := []
  deriving DecidableEq, Repr

/-- Why vyas refuses a source (R285). -/
inductive SrcErr
  | check (d : FaultD)
  | label
  | field
  | multiple
  | targets
  | range
  | words
  | lsids
  | name
  deriving DecidableEq, Repr

/-- The words of a form. -/
def SrcForm.words : SrcForm → Nat
  | .mov4 => 2
  | .long _ _ _ => 8
  | _ => 1

/-- The targets that a form may have (R281). -/
def SrcForm.limit : SrcForm → Nat
  | .g _ _ | .read _ => 2
  | .mov4 => 4
  | .i _ _ | .c _ _ | .load _ _ | .a _ _ _ | .long _ _ _ => 1
  | .store _ _ | .x _ _ _ => 0

/-- Where a form carries an LSID: the lowest bit of the field. -/
def SrcForm.lsidBit : SrcForm → Option Nat
  | .load _ _ | .store _ _ | .a _ _ _ => some 18
  | .long _ _ _ => some 9
  | _ => none

/-- A C-format or R-format word, which is always unpredicated. -/
def SrcForm.unpredicated : SrcForm → Bool
  | .c _ _ | .read _ => true
  | _ => false

/-- The access size of a load or a store (R263). -/
def SrcForm.size : SrcForm → Nat
  | .load op _ => if op = 0x57 then 8 else 2 ^ (op % 4)
  | .store q _ => 2 ^ (q % 4)
  | _ => 1

/-- An I format whose IMM14 is no signed number: TLTNI, TLENI and the fields that Table 12.4 divides (R263). -/
def plainImm (op : Nat) : Bool := [0x24, 0x25, 0x2C, 0x2D, 0x2E, 0x3A, 0x3B, 0x3C].contains op

/-- A number in a field of n bits; none where it does not fit. -/
def fitInt (n : Nat) (v : Int) : Except SrcErr Nat :=
  if -(2 ^ (n - 1) : Int) ≤ v ∧ v < 2 ^ (n - 1) then .ok (trunc n v) else .error .field

/-- An unsigned number in a field of n bits. -/
def fitNat (n v : Nat) : Except SrcErr Nat := if v < 2 ^ n then .ok v else .error .field

/-- The word of a form with its opcode and fields, all that vyas assigns being zero. here: the block's offset; at_: the
offset of a named block. -/
def SrcForm.word (f : SrcForm) (here : Nat) (at_ : String → Option Nat) : Except SrcErr Nat :=
  let op := fun (n : Nat) => (fitNat 7 n).map (· * 2 ^ 25)
  match f with
  | .g n xop => do pure ((← op n) + (← fitNat 5 xop) * 2 ^ 18)
  | .mov4 => .ok (2 * 2 ^ 25)
  | .read k => do pure ((← fitNat 4 k) * 2 ^ 18)
  | .i n v => do
    let w ← if plainImm n then (if 0 ≤ v then fitNat 14 v.toNat else .error .field) else fitInt 14 v
    pure ((← op n) + w * 2 ^ 9)
  | .c n v => do
    let w ← if n = 5 then (if 0 ≤ v then fitNat 16 v.toNat else .error .field) else fitInt 16 v
    pure ((← op n) + w)
  | .load n off => do
    if off % f.size ≠ 0 then .error .multiple
    else pure ((← op n) + (← fitInt 9 (off / f.size)) * 2 ^ 9)
  | .store q off => do
    if off % f.size ≠ 0 then .error .multiple
    else pure ((← op 0x58) + (← fitInt 9 (off / f.size)) * 2 ^ 9 + (← fitNat 9 q))
  | .a n xop aux => do pure ((← op n) + (← fitNat 5 xop) * 2 ^ 13 + (← fitNat 4 aux) * 2 ^ 9)
  | .x n sub dest => do
    let d ← match dest with
      | none => .ok (0 : Int)
      | some b => match at_ b with
        | none => .error .name
        | some o => .ok (((o : Int) - here) / 16)
    let long := [0x68, 0x69, 0x6A, 0x6B, 0x6D].contains n
    if long then
      if -(2 ^ 19 : Int) ≤ d ∧ d < 2 ^ 19 then pure ((← op n) + trunc 20 d) else .error .range
    else if -(2 ^ 15 : Int) ≤ d ∧ d < 2 ^ 15 then pure ((← op n) + (← fitNat 4 sub) * 2 ^ 16 + trunc 16 d)
    else .error .range
  | .long cmd eng _ => do pure ((← op 0x7F) + (← fitNat 6 cmd) * 2 ^ 17 + (← fitNat 3 eng) * 2 ^ 14)

/-! ## Long commands (R283, R359) -/

/-- The fields of the words 1 and 2 of a long command, as bits of its words 1 to 7 (Table 12.3). -/
def longFields : List (String × Nat × Nat) :=
  [("wsem", 31, 24), ("wthr", 23, 8), ("ssem", 7, 0), ("sinc", 63, 48), ("flags", 47, 32)]

/-- The fields of a command as bits of F (R373, R376, Tables 16.7, 16.8, 16.10, 16.11, R384, R389, R395 to R398). Where the
spec gives a field no name, it has the name of what it holds. (DESIGN CHOICE, safe: log 62) -/
def cmdFields : Nat → Nat → List (String × Nat × Nat)
  | 0, 0 => [("xaoff", 147, 128), ("klen", 119, 104), ("fb", 103, 100), ("astr", 99, 84), ("doff", 83, 64), ("fa", 63, 60),
      ("coff", 59, 40), ("boff", 39, 20), ("aoff", 19, 0)]
  | 1, 3 => [("n", 159, 128), ("dpat", 127, 64), ("src", 63, 0)]
  | 1, _ => [("desc", 63, 0)]
  | 2, 2 => [("tid", 67, 64), ("lengths", 63, 0)]
  | 2, _ => [("ngrph", 159, 152), ("ngrpl", 151, 148), ("doff", 147, 128), ("bar", 127, 64), ("src", 63, 0)]
  | 3, 0 => [("len", 87, 64), ("tag", 47, 32), ("axis", 26, 25), ("reg", 24, 24), ("off", 23, 0)]
  | 3, 1 => [("page", 63, 0), ("old", 127, 64), ("frame", 138, 128)]
  | 3, 2 => [("entry", 63, 0), ("old", 127, 64)]
  | 4, 2 => [("chain", 63, 0), ("src", 127, 64), ("id", 159, 128)]
  | 4, 3 => [("chain", 63, 0), ("mask", 127, 64), ("page", 143, 128), ("word", 146, 144)]
  | 4, 4 => [("tree", 63, 0), ("query", 127, 64)]
  | 4, 5 => [("tree", 63, 0), ("chain", 127, 64)]
  | 4, 6 => [("node", 63, 0), ("tree", 127, 64)]
  | 4, _ => [("chain", 63, 0)]
  | _, _ => []

/-- The words 1 to 7 of a long command whose first word has index i, in a block with these targets: its named fields, and
TL, TR and TP from the targets that name it (R359). -/
def longWords (cmd eng i : Nat) (fields : List (String × Nat)) (named : List SrcTarget) : Except SrcErr (List Nat) := do
  let fs : List (String × Nat × Nat) := longFields ++ (cmdFields eng cmd).map fun f => (f.1, f.2.1 + 64, f.2.2 + 64)
  let place := fun (n : String) => (fs.find? (·.1 == n)).map (·.2)
  let v ← fields.foldlM (fun (v : Nat) f => match place f.1 with
    | none => .error .name
    | some (hi, lo) => do pure (putBits v hi lo (← fitNat (hi - lo + 1) f.2))) 0
  if (fields.map (·.1)).dedup.length ≠ fields.length then .error .field
  else
    let t := [SrcTarget.l i, .r i, .p i].map named.contains
    if (t.zipIdx 43).any fun b => v.testBit b.2 && !b.1 then .error .field
    else
      let v := (t.zipIdx 43).foldl (fun v b => putBits v b.2 b.2 b.1.toNat) v
      pure ((List.range 7).map fun i => bits v (32 * i + 31) (32 * i))

/-- Target n of a line; a missing one is 0x1FF (R281). -/
def SrcLine.target (x : SrcLine) (n : Nat) : Nat := ((x.targets[n]?).map SrcTarget.field).getD 511

/-- The first word of a line with its PR and targets, and the words after it; rest: those of a long command. -/
def SrcLine.coded (x : SrcLine) (w : Nat) (rest : List Nat) : Nat × List Nat :=
  let w := match x.form with
    | .c _ _ | .read _ => w
    | _ => w + x.pr % 4 * 2 ^ 23
  match x.form with
  | .g _ _ | .read _ => (w + x.target 1 * 2 ^ 9 + x.target 0, [])
  | .mov4 => (w + x.target 1 * 2 ^ 9 + x.target 0, [x.target 3 * 2 ^ 9 + x.target 2])
  | .c _ _ => (w + x.target 0 * 2 ^ 16, [])
  | .i _ _ | .load _ _ | .a _ _ _ => (w + x.target 0, [])
  | .long _ _ _ => (w + x.target 0, rest)
  | .store _ _ | .x _ _ _ => (w, [])

/-! ## Blocks (R282) -/

/-- The index of each line's first word (R282 step 1). -/
def srcIndices : Nat → List SrcLine → List Nat
  | _, [] => []
  | i, x :: xs => i :: srcIndices (i + x.form.words) xs

/-- The class of a first word. -/
def wordClass (w : Nat) (ws : List Nat) : Option OpClass := (consumer false w ws).map fun i => i.shape.cls

/-- A line that performs and names no LSID: it takes 0 (R282 step 2). -/
def takesZero (e : SrcLine × Nat × List Nat) : Bool := e.1.lsid.isNone && wordClass e.2.1 e.2.2 == some .perform

/-- The lowest LSID that is not among those taken. -/
def freeLsid (taken : List Nat) : Option Nat := (List.range 32).find? fun n => !taken.contains n

/-- The LSIDs of the lines (R282 step 2): 0 for a performing instruction, else the lowest that is not taken; taken: those that
the lines name, the 0 of a performing instruction among them. -/
def srcLsids (taken : List Nat) : List (SrcLine × Nat × List Nat) → Except SrcErr (List (Option Nat))
  | [] => .ok []
  | (x, w, ws) :: t =>
    match x.form.lsidBit, x.lsid with
    | none, none => (srcLsids taken t).map (none :: ·)
    | none, some _ => .error .field
    | some _, some n => (srcLsids taken t).map (some n :: ·)
    | some _, none =>
      if takesZero (x, w, ws) then (srcLsids taken t).map (some 0 :: ·)
      else match freeLsid taken with
        | none => .error .lsids
        | some n => (srcLsids (taken ++ [n]) t).map (some n :: ·)

/-- The EXIT fields in source order (R282 step 3). -/
def srcExits : Nat → List SrcLine → List Nat
  | _, [] => []
  | n, x :: xs => match x.form with
    | .x _ _ _ => n :: srcExits (n + 1) xs
    | _ => 0 :: srcExits n xs

/-- A number with the bits of a list set. -/
def withBits (l : List Nat) : Nat := l.dedup.foldl (fun a n => a + 2 ^ n) 0

/-- The header of a block with the listed words (R282 steps 4 and 5). -/
def srcHeader (body : List Nat) : Nat :=
  let is := (startsFrom body 0 0).filterMap fun e => (consumer false e.2.1 e.2.2).map fun i => (e.2.1, i)
  let exits := (is.filter fun e => (exitNo e.2).isSome).length
  let lsids := is.filterMap fun e => if inStmask e.2.shape.cls then e.2.shape.lsid else none
  let regs := (is.flatMap fun e => e.2.shape.targets).filterMap fun t =>
    if 384 ≤ t ∧ t < 400 then some (t - 384) else none
  0xB * 2 ^ 124 + (body.length - 1) % 128 * 2 ^ 117 + withBits lsids * 2 ^ 85 + withBits regs * 2 ^ 69 +
    (exits - 1) % 8 * 2 ^ 66 + (is.any fun e => isLoop e.2).toNat * 2 ^ 65 +
    (is.any fun e => fld e.1 25 7 == 0x7C).toNat * 2 ^ 64

/-- One block of lines at an offset: its header and words, or why it is refused (R282, R285). (DESIGN CHOICE, safe: log 62) -/
def srcBlock (here : Nat) (at_ : String → Option Nat) (xs : List SrcLine) :
    Except SrcErr (BitVec 128 × List Nat) := do
  if (xs.zip (srcIndices 0 xs)).any fun e => e.1.label != none && e.1.label != some e.2 then .error .label
  else if xs.any fun x => decide (x.form.limit < x.targets.length) then .error .targets
  else if xs.any fun x => x.targets.any fun t => !t.inRange then .error .field
  else if 128 < (xs.map fun x => x.form.words).sum then .error .words
  else if xs.any fun x => decide (32 ≤ x.lsid.getD 0) || decide (3 ≤ x.pr) || (x.pr != 0 && x.form.unpredicated) then
    .error .field
  else if (srcExits 0 xs).any fun n => decide (8 ≤ n) then .error .field
  else do
    let coded ← (xs.zip (srcIndices 0 xs)).mapM fun e => do
      let rest ← match e.1.form with
        | .long cmd eng fields => longWords cmd eng e.2 fields (xs.flatMap (·.targets))
        | _ => pure []
      pure (e.1, e.1.coded (← e.1.form.word here at_) rest)
    let lsids ← srcLsids (xs.filterMap (·.lsid) ++ if coded.any takesZero then [0] else []) coded
    let body := (coded.zip (lsids.zip (srcExits 0 xs))).flatMap fun e =>
      let x := e.1.1
      let n := (x.form.lsidBit.map fun b => e.2.1.getD 0 * 2 ^ b).getD 0
      let k := match x.form with
        | .x _ _ _ => e.2.2 * 2 ^ 20
        | _ => 0
      (e.1.2.1 + n + k) :: e.1.2.2
    let h := BitVec.ofNat 128 (srcHeader body)
    match bodyFault false true h body with
    | some d => .error (.check d)
    | none => pure (h, body)

/-- The bytes of a block, up to the next 16-byte boundary (.block, .endb). -/
def blockBytes (h : BitVec 128) (body : List Nat) : List Byte :=
  leBytes 16 h.toNat ++ body.flatMap (leBytes 4) ++ List.replicate ((16 - body.length * 4 % 16) % 16) 0

/-- The bytes that a block of lines takes. -/
def srcLen (xs : List SrcLine) : Nat := 16 + ceilDiv ((xs.map fun x => x.form.words).sum * 4) 16 * 16

/-! ## Data (Table 12.10) -/

/-- .byte, .half, .word and .dword: an integer of n bytes. -/
def srcInt (n : Nat) (v : Int) : Except SrcErr (List Byte) :=
  if -(2 ^ (8 * n - 1) : Int) ≤ v ∧ v < 2 ^ (8 * n) then .ok (leBytes n (trunc (8 * n) v)) else .error .field

/-- .f32, .bf16: a value rounded RNE. -/
def srcFloat (f : Fmt) (v : FVal) : List Byte := leBytes ((f.low + 1) / 8) (f.narrow .rne false v).1

/-- .fp8: a finite value that gives a NaN or an infinity is an error. -/
def srcFp8 (f : Fmt) (v : FVal) : Except SrcErr (List Byte) :=
  let n := (f.narrow .rne false v).1
  match v, f.decode n with
  | .fin _ _ _, .fin _ _ _ => .ok (leBytes 1 n)
  | .fin _ _ _, _ => .error .field
  | _, _ => .ok (leBytes 1 n)

/-- An expression of .equ: a number, a name that an earlier line defines, or an operation. -/
inductive SrcExpr
  | num (v : Int)
  | name (n : String)
  | add (a b : SrcExpr)
  | sub (a b : SrcExpr)
  | mul (a b : SrcExpr)
  | shl (a b : SrcExpr)
  | shr (a b : SrcExpr)
  | and (a b : SrcExpr)
  | or (a b : SrcExpr)
  deriving DecidableEq, Repr

/-- The names that a source has defined, with their values. -/
abbrev SrcNames := List (String × Word)

/-- The value of an expression, modulo 2^64; none where it holds a name that is not defined. -/
def SrcExpr.eval (ns : SrcNames) : SrcExpr → Option Word
  | .num v => some (wordOfInt v)
  | .name n => (ns.find? (·.1 == n)).map (·.2)
  | .add a b => do pure ((← a.eval ns) + (← b.eval ns))
  | .sub a b => do pure ((← a.eval ns) - (← b.eval ns))
  | .mul a b => do pure ((← a.eval ns) * (← b.eval ns))
  | .shl a b => do pure ((← a.eval ns) <<< (← b.eval ns).toNat)
  | .shr a b => do pure ((← a.eval ns) >>> (← b.eval ns).toNat)
  | .and a b => do pure ((← a.eval ns) &&& (← b.eval ns))
  | .or a b => do pure ((← a.eval ns) ||| (← b.eval ns))

/-- The number that a value stands for in a field of n bytes: unsigned where it fits so, else signed. -/
def srcValue (n : Nat) (w : Word) : Int := if w.toNat < 2 ^ (8 * n) then w.toNat else w.toInt

/-- .align n: zero bytes to a multiple of 2^n. -/
def srcAlign (n : Nat) (bs : List Byte) : List Byte :=
  bs ++ List.replicate ((2 ^ n - bs.length % 2 ^ n) % 2 ^ n) 0

/-- .seg: a segment image (Table 8.2), its rights the bits [111:104]. -/
def srcSeg (base limit rights : Nat) : Except SrcErr (List Byte) := do
  pure (leBytes 16 ((← fitNat 8 rights) * 2 ^ 104 + (← fitNat 48 limit) * 2 ^ 56 + (← fitNat 56 base)))

/-- .launch with .slices: a launch record (Table 3.9); unwritten fields are zero. entry: the block's .text offset. -/
def srcLaunch (r : LaunchRec) (deps : List Int) (entry : Nat) : Except SrcErr (List Byte) := do
  let dep := fun (n : Nat) => (fitInt 32 (deps.getD n 0)).map (· * 2 ^ (320 + 32 * n))
  let flags := withBits (((List.range 7).zip [r.det, r.twin, r.mould, r.replay, r.abortOnFault, r.indep, r.irq]).filterMap
    fun e => if e.2 then some (496 + e.1) else none)
  if r.larea % 64 ≠ 0 ∨ r.segt % 64 ≠ 0 then .error .multiple
  else if r.slices = 0 then .error .field
  else pure (leBytes 64 (5 * 2 ^ 508 + (← fitNat 3 r.prio) * 2 ^ 504 + flags + (← fitNat 16 r.ctxres) * 2 ^ 480 +
    (← fitInt 32 r.sigd) * 2 ^ 448 + (← dep 0) + (← dep 1) + (← dep 2) + (← dep 3) +
    (← fitNat 50 (r.larea / 64)) * 2 ^ 262 + (← fitNat 50 (r.segt / 64)) * 2 ^ 198 + r.dmask.toNat * 2 ^ 128 +
    r.argp.toNat * 2 ^ 64 + (← fitNat 32 (r.slices - 1)) * 2 ^ 32 + (← fitNat 32 (entry / 16))))

/-! ## Sections (R284) -/

/-- A directive, or a block. -/
inductive SrcItem
  | text
  | data
  | block (name : String) (lines : List SrcLine)
  | align (n : Nat)
  | ints (n : Nat) (vs : List SrcExpr)
  | floats (f : Fmt) (vs : List FVal)
  | fp8 (f : Fmt) (vs : List FVal)
  | equ (name : String) (e : SrcExpr)
  | seg (base limit rights : Nat)
  | global (name : String)
  | launch (name : String) (r : LaunchRec) (deps : List Int) (entry : String)
  | slices (n : Nat)
  deriving DecidableEq, Repr

/-- The alignment that an item takes first, as a power of 2: of a block, a segment image or a launch record. -/
def SrcItem.power : SrcItem → Nat
  | .block _ _ | .seg _ _ _ => 4
  | .launch _ _ _ _ => 6
  | .align n => n
  | _ => 0

/-- The bytes that an item takes after its alignment. -/
def SrcItem.size : SrcItem → Nat
  | .block _ xs => srcLen xs
  | .ints n vs => n * vs.length
  | .floats f vs => (f.low + 1) / 8 * vs.length
  | .fp8 _ vs => vs.length
  | .seg _ _ _ => 16
  | .launch _ _ _ _ => 64
  | _ => 0

/-- What a source has been made into so far: the section selected, the two sections, the names and the exported names. -/
structure SrcOut where
  inData : Bool := false
  text : List Byte := []
  dat : List Byte := []
  names : SrcNames := []
  exports : List String := []
  deriving DecidableEq, Repr

/-- Whether an item goes to the data section: a block never does. -/
def SrcOut.toData (o : SrcOut) : SrcItem → Bool
  | .block _ _ => false
  | _ => o.inData

/-- A section of a source. -/
def SrcOut.sec (o : SrcOut) (d : Bool) : List Byte := if d then o.dat else o.text

/-- A section of a source with other bytes. -/
def SrcOut.put (o : SrcOut) (d : Bool) (bs : List Byte) : SrcOut := if d then { o with dat := bs } else { o with text := bs }

/-- A source defines a name, once. -/
def SrcOut.define (o : SrcOut) (n : String) (w : Word) : Except SrcErr SrcOut :=
  if o.names.any (·.1 == n) then .error .name else .ok { o with names := o.names ++ [(n, w)] }

/-- The slices of a .launch, from the items after it: the last .slices before the next .launch, else the number given. -/
def slicesOf : Nat → List SrcItem → Nat
  | n, [] => n
  | n, .launch _ _ _ _ :: _ => n
  | _, .slices m :: t => slicesOf m t
  | n, _ :: t => slicesOf n t

/-- The offset of each block of .text: an item's place is after the items before it. -/
def srcBlocks : Nat → Bool → List SrcItem → List (String × Nat)
  | _, _, [] => []
  | o, d, i :: t =>
    match i with
    | .text => srcBlocks o false t
    | .data => srcBlocks o true t
    | .block n xs => (n, ceilDiv o 16 * 16) :: srcBlocks (ceilDiv o 16 * 16 + srcLen xs) d t
    | i => srcBlocks (if d then o else ceilDiv o (2 ^ i.power) * 2 ^ i.power + i.size) d t

/-- The bytes of an item that stands at an offset. -/
def SrcItem.bytes (i : SrcItem) (here : Nat) (ns : SrcNames) (at_ : String → Option Nat) (slices : Nat) :
    Except SrcErr (List Byte) :=
  match i with
  | .block _ xs => (srcBlock here at_ xs).map fun b => blockBytes b.1 b.2
  | .ints n vs => do
    let bs ← vs.mapM fun e => match e.eval ns with
      | some w => srcInt n (srcValue n w)
      | none => .error .name
    pure bs.flatten
  | .floats f vs => .ok (vs.flatMap (srcFloat f))
  | .fp8 f vs => (vs.mapM (srcFp8 f)).map List.flatten
  | .seg b l r => srcSeg b l r
  | .launch _ r deps e => match at_ e with
    | some o => srcLaunch { r with slices := slices } deps o
    | none => .error .name
  | .text | .data | .align _ | .equ _ _ | .global _ | .slices _ => .ok []

/-- The items of a source in order, each after its alignment; a block, a constant and a record define their names. -/
def srcItems (at_ : String → Option Nat) : List SrcItem → SrcOut → Except SrcErr SrcOut
  | [], o => .ok o
  | i :: t, o => do
    let d := o.toData i
    let sec := srcAlign i.power (o.sec d)
    let bs ← i.bytes sec.length o.names at_ (slicesOf 1 t)
    let o := o.put d (sec ++ bs)
    let o ← match i with
      | .text => pure { o with inData := false }
      | .data => pure { o with inData := true }
      | .block n _ | .launch n _ _ _ => o.define n (word sec.length)
      | .equ n e => match e.eval o.names with
        | some w => o.define n w
        | none => .error .name
      | .global n => pure { o with exports := o.exports ++ [n] }
      | _ => pure o
    srcItems at_ t o

/-- A source: its two sections and the names that it exports (R284). (DESIGN CHOICE, safe: log 62) -/
def srcText (is : List SrcItem) : Except SrcErr SrcOut := do
  let os := srcBlocks 0 false is
  let o ← srcItems (fun n => (os.find? (·.1 == n)).map (·.2)) is {}
  if o.exports.all fun n => o.names.any (·.1 == n) then pure o else .error .name

end Sys2Proof.Machine
end

