-- ==== Sys2Proof/Tests/Slice0.lean ====
section
/-!
SUPPORT. Tests: ill-formed terms that each check refuses; the words of every encoded instruction; one step of instructions
with results worked out from the spec's rules and examples; and, for each statement with hypotheses, a concrete state and
operands that meet them.
-/

set_option Elab.async false

namespace Sys2Proof.Tests

open Sys2Proof.Machine

/-! ## Well-formedness: one ill-formed term for each check -/

theorem test_wf_register : (Instr.readReg 16 511 385).wf = false := by decide
theorem test_wf_target : (Instr.mov .always 400 385).wf = false ∧ (Instr.mov .always 511 510).wf = false := by decide
theorem test_wf_mov4_target : (Instr.mov4 .always 511 511 400 511).wf = false := by decide
theorem test_wf_imm14 : (Instr.addi .always 16384 385).wf = false := by decide
theorem test_wf_imm16 : (Instr.const 385 65536).wf = false := by decide
theorem test_wf_bswap_b : (Instr.bswap .always .w8 511 385).wf = false := by decide
theorem test_wf_bitfield : (Instr.bfx .always false 32 32 385).wf = false ∧ (Instr.bfi .always 64 0 385).wf = false := by decide
theorem test_wf_shift_count : (Instr.shli .always 64 385).wf = false := by decide
theorem test_wf_lsid : (Instr.ld .w64 .always 32 0 385).wf = false := by decide
theorem test_wf_imm9 : (Instr.st .always 0 512 false .w64).wf = false := by decide
theorem test_wf_ld_signed_d : (Instr.ldS .w64 .always 0 0 385).wf = false := by decide
theorem test_wf_cas_predicated : (Instr.amo .onTrue 0 .cas false false 385).wf = false := by decide
theorem test_wf_ramo_cas : (Instr.ramo .always 0 .cas 385).wf = false := by decide
theorem test_wf_rvamo_swap : (Instr.rvamo .always 0 .swap .w64 385).wf = false := by decide
theorem test_wf_vamo_cas : (Instr.vamo .always 0 .w64 .cas 385).wf = false := by decide
theorem test_wf_exit : (Instr.br .always 8 0).wf = false ∧ (Instr.br .always 0 1048576).wf = false := by decide
theorem test_wf_loop : (Instr.loop .always 0 16 0).wf = false ∧ (Instr.loop .always 0 0 65536).wf = false := by decide
theorem test_wf_trap_code : (Instr.trap .always 0 16 0).wf = false := by decide
theorem test_wf_lane_type : (Instr.vfma .i32 511 385).wf = false ∧ (Instr.vand .always .f32 511 385).wf = false := by decide
theorem test_wf_vcmp_ltn_float : (Instr.vcmp .always .ltn .f64 511 385).wf = false := by decide
theorem test_wf_vcvt : (Instr.vcvt .always .i8 .f32 511 385).wf = false ∧ (Instr.vcvt .always .f32 .f32 511 385).wf = false := by
  decide
theorem test_wf_vtld_d : (Instr.vtld .always 0 .w64 385).wf = false := by decide

/-- A long command with nothing asked of it. -/
def long0 : Long := ⟨.always, 0, 511, 0, 0, 0, 0, 0, 0⟩

theorem test_wf_long_fields : (Instr.tileLd { long0 with wsem := 256, flags := 1 }).wf = false ∧
    (Instr.tileLd { long0 with wthr := 65536, flags := 1 }).wf = false ∧
    (Instr.tileLd { long0 with ssem := 256, flags := 2 }).wf = false ∧
    (Instr.tileLd { long0 with sinc := 65536, flags := 2 }).wf = false ∧
    (Instr.tileLd { long0 with flags := 65536 }).wf = false ∧ (Instr.tileLd { long0 with lsid := 32 }).wf = false := by decide
theorem test_wf_long_flags : (Instr.tileSt { long0 with flags := 0x10 }).wf = false := by decide
theorem test_wf_long_wait : (Instr.tileLd { long0 with wsem := 1 }).wf = false := by decide
theorem test_wf_long_signal : (Instr.tileLd { long0 with sinc := 1 }).wf = false ∧
    (Instr.tileLd { long0 with flags := 4 }).wf = false := by decide
theorem test_wf_long_tokens : (Instr.tileLd { long0 with flags := 0x800, f := 1 }).wf = false ∧
    (Instr.tileLd { long0 with flags := 0x1000, f := BitVec.ofNat 160 (2 ^ 64) }).wf = false ∧
    (Instr.tileLd { long0 with flags := 0x2000, f := BitVec.ofNat 160 (2 ^ 128) }).wf = false ∧
    (Instr.tileLd { long0 with flags := 0x2000, p := .onTrue }).wf = false := by decide
theorem test_wf_mma_zk : (Instr.mma { long0 with flags := 0xC0 }).wf = false := by decide

/-! ## Decoding

Each word is the fixed bits of its row of spec/opcode_table.json with field values placed by hand: p 1 (on true), s 386,
t 13, w 3 (64 bits), m 7 (dynamic), q 1 (double), LSID 9, and so on. -/

theorem test_decode_structural_1 :
    decodeWord 0x002B040D [] = .ok (.readReg 10 386 13) ∧
    decodeWord 0x0283040D [] = .ok (.mov .onTrue 386 13) ∧
    decodeWord 0x0683EA0D [] = .ok (.movi .onTrue 501 13) ∧
    decodeWord 0x080D01F5 [] = .ok (.const 13 501) ∧
    decodeWord 0x0A0D01F5 [] = .ok (.consth 13 501) ∧
    decodeWord 0x0C83040D [] = .ok (.null .onTrue 386 13) := by decide

theorem test_decode_integer_1 :
    decodeWord 0x208F040D [] = .ok (.add .onTrue .w64 386 13) ∧
    decodeWord 0x228F040D [] = .ok (.sub .onTrue .w64 386 13) ∧
    decodeWord 0x248F040D [] = .ok (.mul .onTrue .w64 386 13) ∧
    decodeWord 0x268F040D [] = .ok (.mulh .onTrue .w64 386 13) ∧
    decodeWord 0x288F040D [] = .ok (.mulhn .onTrue .w64 386 13) ∧
    decodeWord 0x2A8F040D [] = .ok (.div .onTrue .w64 386 13) ∧
    decodeWord 0x2C8F040D [] = .ok (.divn .onTrue .w64 386 13) ∧
    decodeWord 0x2E8F040D [] = .ok (.rem .onTrue .w64 386 13) := by decide

theorem test_decode_integer_2 :
    decodeWord 0x308F040D [] = .ok (.remn .onTrue .w64 386 13) ∧
    decodeWord 0x328F040D [] = .ok (.and .onTrue .w64 386 13) ∧
    decodeWord 0x348F040D [] = .ok (.or .onTrue .w64 386 13) ∧
    decodeWord 0x368F040D [] = .ok (.xor .onTrue .w64 386 13) ∧
    decodeWord 0x388F040D [] = .ok (.andn .onTrue .w64 386 13) ∧
    decodeWord 0x3A8F040D [] = .ok (.shl .onTrue .w64 386 13) ∧
    decodeWord 0x3C8F040D [] = .ok (.shr .onTrue .w64 386 13) ∧
    decodeWord 0x3E8F040D [] = .ok (.sra .onTrue .w64 386 13) := by decide

theorem test_decode_integer2_1 :
    decodeWord 0x408F040D [] = .ok (.rol .onTrue .w64 386 13) ∧
    decodeWord 0x409F040D [] = .ok (.ror .onTrue .w64 386 13) ∧
    decodeWord 0x428F040D [] = .ok (.min .onTrue .w64 386 13) ∧
    decodeWord 0x429F040D [] = .ok (.max .onTrue .w64 386 13) ∧
    decodeWord 0x42AF040D [] = .ok (.minn .onTrue .w64 386 13) ∧
    decodeWord 0x42BF040D [] = .ok (.maxn .onTrue .w64 386 13) ∧
    decodeWord 0x4403040D [] = .ok (.sel 386 13) ∧
    decodeWord 0x468F040D [] = .ok (.clz .onTrue .w64 386 13) := by decide

theorem test_decode_integer2_2 :
    decodeWord 0x469F040D [] = .ok (.ctz .onTrue .w64 386 13) ∧
    decodeWord 0x46AF040D [] = .ok (.popc .onTrue .w64 386 13) ∧
    decodeWord 0x46BF040D [] = .ok (.brev .onTrue .w64 386 13) ∧
    decodeWord 0x46CF040D [] = .ok (.bswap .onTrue .w64 386 13) ∧
    decodeWord 0x46DF040D [] = .ok (.abs .onTrue .w64 386 13) ∧
    decodeWord 0x46EF040D [] = .ok (.sext .onTrue .w64 386 13) ∧
    decodeWord 0x46FF040D [] = .ok (.zext .onTrue .w64 386 13) ∧
    decodeWord 0x48A4AA0D [] = .ok (.bfx .onTrue true 9 21 13) := by decide

theorem test_decode_integer2_3 :
    decodeWord 0x4A84AA0D [] = .ok (.bfi .onTrue 9 21 13) ∧
    decodeWord 0x4C83040D [] = .ok (.kvslot .onTrue 386 13) ∧
    decodeWord 0x4E83EA0D [] = .ok (.addi .onTrue 501 13) ∧
    decodeWord 0x5083EA0D [] = .ok (.muli .onTrue 501 13) ∧
    decodeWord 0x5283EA0D [] = .ok (.andi .onTrue 501 13) ∧
    decodeWord 0x5483EA0D [] = .ok (.ori .onTrue 501 13) ∧
    decodeWord 0x5683EA0D [] = .ok (.xori .onTrue 501 13) ∧
    decodeWord 0x58802A0D [] = .ok (.shli .onTrue 21 13) := by decide

theorem test_decode_integer2_4 :
    decodeWord 0x5A802A0D [] = .ok (.shri .onTrue 21 13) ∧
    decodeWord 0x5C802A0D [] = .ok (.srai .onTrue 21 13) := by decide

theorem test_decode_integer3_1 :
    decodeWord 0x608F040D [] = .ok (.teq .onTrue .w64 386 13) ∧
    decodeWord 0x628F040D [] = .ok (.tne .onTrue .w64 386 13) ∧
    decodeWord 0x648F040D [] = .ok (.tlt .onTrue .w64 386 13) ∧
    decodeWord 0x668F040D [] = .ok (.tle .onTrue .w64 386 13) ∧
    decodeWord 0x688F040D [] = .ok (.tltn .onTrue .w64 386 13) ∧
    decodeWord 0x6A8F040D [] = .ok (.tlen .onTrue .w64 386 13) ∧
    decodeWord 0x6C83EA0D [] = .ok (.teqi .onTrue 501 13) ∧
    decodeWord 0x6E83EA0D [] = .ok (.tnei .onTrue 501 13) := by decide

theorem test_decode_integer3_2 :
    decodeWord 0x7083EA0D [] = .ok (.tlti .onTrue 501 13) ∧
    decodeWord 0x7283EA0D [] = .ok (.tlei .onTrue 501 13) ∧
    decodeWord 0x7483EA0D [] = .ok (.tltni .onTrue 501 13) ∧
    decodeWord 0x7683EA0D [] = .ok (.tleni .onTrue 501 13) ∧
    decodeWord 0x78802A0D [] = .ok (.tbit .onTrue 21 13) := by decide

theorem test_decode_float_1 :
    decodeWord 0x80F7040D [] = .ok (.fadd .onTrue .dyn .dp 386 13) ∧
    decodeWord 0x82F7040D [] = .ok (.fsub .onTrue .dyn .dp 386 13) ∧
    decodeWord 0x84F7040D [] = .ok (.fmul .onTrue .dyn .dp 386 13) ∧
    decodeWord 0x86F7040D [] = .ok (.fdiv .onTrue .dyn .dp 386 13) ∧
    decodeWord 0x8877040D [] = .ok (.fma .dyn .dp 386 13) ∧
    decodeWord 0x8A77040D [] = .ok (.fms .dyn .dp 386 13) ∧
    decodeWord 0x8CF7040D [] = .ok (.fsqrt .onTrue .dyn .dp 386 13) ∧
    decodeWord 0x8E87040D [] = .ok (.fmin .onTrue .dp 386 13) := by decide

theorem test_decode_float_2 :
    decodeWord 0x8E97040D [] = .ok (.fmax .onTrue .dp 386 13) ∧
    decodeWord 0x9087040D [] = .ok (.fabs .onTrue .dp 386 13) ∧
    decodeWord 0x9097040D [] = .ok (.fneg .onTrue .dp 386 13) ∧
    decodeWord 0x90A7040D [] = .ok (.fsgn .onTrue .dp 386 13) ∧
    decodeWord 0x9287040D [] = .ok (.feq .onTrue .dp 386 13) ∧
    decodeWord 0x9297040D [] = .ok (.flt .onTrue .dp 386 13) ∧
    decodeWord 0x92A7040D [] = .ok (.fle .onTrue .dp 386 13) ∧
    decodeWord 0x92B7040D [] = .ok (.funord .onTrue .dp 386 13) := by decide

theorem test_decode_float_3 :
    decodeWord 0x9487040D [] = .ok (.fclass .onTrue .dp 386 13) ∧
    decodeWord 0x96F7040D [] = .ok (.fcvt .onTrue .dyn .dp 386 13) ∧
    decodeWord 0x98F7040D [] = .ok (.fcvti .onTrue .dyn .dp 386 13) ∧
    decodeWord 0x9AF7040D [] = .ok (.icvtf .onTrue .dyn .dp 386 13) ∧
    decodeWord 0x9CF7040D [] = .ok (.frnd .onTrue .dyn .dp 386 13) := by decide

theorem test_decode_memory_1 :
    decodeWord 0xA6A7EA0D [] = .ok (.ld .w64 .onTrue 9 501 13) ∧
    decodeWord 0xACA7EA0D [] = .ok (.ldS .w32 .onTrue 9 501 13) ∧
    decodeWord 0xAEA7EA0D [] = .ok (.ldDAcq .onTrue 9 501 13) ∧
    decodeWord 0xB0A7EA07 [] = .ok (.st .onTrue 9 501 true .w64) ∧
    decodeWord 0xB2A4000D [] = .ok (.ldfe .onTrue 9 13) ∧
    decodeWord 0xB2A4200D [] = .ok (.ldff .onTrue 9 13) ∧
    decodeWord 0xB2A4400D [] = .ok (.feprobe .onTrue 9 13) ∧
    decodeWord 0xB2A461FF [] = .ok (.stef .onTrue 9) := by decide

theorem test_decode_memory_2 :
    decodeWord 0xB2A481FF [] = .ok (.stf .onTrue 9) ∧
    decodeWord 0xB2A4A1FF [] = .ok (.feempty .onTrue 9) ∧
    decodeWord 0xB4A4420D [] = .ok (.amo .onTrue 9 .or true false 13) ∧
    decodeWord 0xB6A401FF [] = .ok (.binit .onTrue 9) ∧
    decodeWord 0xB6A4260D [] = .ok (.arrive .onTrue 9 .pkg 13) ∧
    decodeWord 0xB6A4400D [] = .ok (.bwait .onTrue 9 13) ∧
    decodeWord 0xB6A4600D [] = .ok (.btest .onTrue 9 13) ∧
    decodeWord 0xB6A4800D [] = .ok (.join .onTrue 9 13) := by decide

theorem test_decode_memory_3 :
    decodeWord 0xB6A4A00D [] = .ok (.leave .onTrue 9 13) ∧
    decodeWord 0xB6A4C00D [] = .ok (.waita .onTrue 9 13) ∧
    decodeWord 0xB6A4E7FF [] = .ok (.notify .onTrue 9 .pkg) ∧
    decodeWord 0xB8A407FF [] = .ok (.fence .onTrue 9 .pkg) ∧
    decodeWord 0xB8A427FF [] = .ok (.fenceXp .onTrue 9 .pkg) ∧
    decodeWord 0xB8A441FF [] = .ok (.fenceLoop .onTrue 9) ∧
    decodeWord 0xBAA401FF [] = .ok (.rowopen .onTrue 9) ∧
    decodeWord 0xBAA421FF [] = .ok (.rowclose .onTrue 9) := by decide

theorem test_decode_memory_4 :
    decodeWord 0xBCA4000D [] = .ok (.semwait .onTrue 9 13) ∧
    decodeWord 0xBCA4200D [] = .ok (.semsig .onTrue 9 13) ∧
    decodeWord 0xBCA441FF [] = .ok (.semset .onTrue 9) := by decide

theorem test_decode_remote_exit_1 :
    decodeWord 0xC0A4000D [] = .ok (.rld .onTrue 9 13) ∧
    decodeWord 0xC2A401FF [] = .ok (.rst .onTrue 9) ∧
    decodeWord 0xC2A427FF [] = .ok (.rstf .onTrue 9 .pkg) ∧
    decodeWord 0xC2A441FF [] = .ok (.rpost .onTrue 9) ∧
    decodeWord 0xC4A4400D [] = .ok (.ramo .onTrue 9 .or 13) ∧
    decodeWord 0xC624000D [] = .ok (.rcas 9 13) ∧
    decodeWord 0xC8A441FF [] = .ok (.roadd .onTrue 9 .f32) ∧
    decodeWord 0xCAA6600D [] = .ok (.rvamo .onTrue 9 .min .w64 13) := by decide

theorem test_decode_remote_exit_2 :
    decodeWord 0xCCA4000D [] = .ok (.spawn .onTrue 9 13) ∧
    decodeWord 0xCC24200D [] = .ok (.callat 9 13) ∧
    decodeWord 0xCCA441FF [] = .ok (.send .onTrue 9) ∧
    decodeWord 0xCE83040D [] = .ok (.tid .onTrue 386 13) ∧
    decodeWord 0xCE87040D [] = .ok (.whereQ .onTrue 386 13) ∧
    decodeWord 0xCE8B040D [] = .ok (.time .onTrue 386 13) ∧
    decodeWord 0xD0D0ABCD [] = .ok (.br .onTrue 5 43981) ∧
    decodeWord 0xD2D00000 [] = .ok (.bri .onTrue 5) := by decide

theorem test_decode_remote_exit_3 :
    decodeWord 0xD4D0ABCD [] = .ok (.call .onTrue 5 43981) ∧
    decodeWord 0xD6D00000 [] = .ok (.ret .onTrue 5) ∧
    decodeWord 0xD8DAABCD [] = .ok (.loop .onTrue 5 10 43981) ∧
    decodeWord 0xDAD0ABCD [] = .ok (.migrate .onTrue 5 43981) ∧
    decodeWord 0xDCD6ABCD [] = .ok (.trap .onTrue 5 6 43981) ∧
    decodeWord 0xDED00000 [] = .ok (.doneX .onTrue 5) ∧
    decodeWord 0xDED1ABCD [] = .ok (.yieldX .onTrue 5 43981) ∧
    decodeWord 0xDED2ABCD [] = .ok (.breakX .onTrue 5 43981) := by decide

theorem test_decode_vector_system_1 :
    decodeWord 0xE093040D [] = .ok (.vadd .onTrue .f32 386 13) ∧
    decodeWord 0xE0B3040D [] = .ok (.vsub .onTrue .f32 386 13) ∧
    decodeWord 0xE0D3040D [] = .ok (.vmul .onTrue .f32 386 13) ∧
    decodeWord 0xE073040D [] = .ok (.vfma .f32 386 13) ∧
    decodeWord 0xE293040D [] = .ok (.vmin .onTrue .f32 386 13) ∧
    decodeWord 0xE2B3040D [] = .ok (.vmax .onTrue .f32 386 13) ∧
    decodeWord 0xE2D3040D [] = .ok (.vabs .onTrue .f32 386 13) ∧
    decodeWord 0xE2F3040D [] = .ok (.vneg .onTrue .f32 386 13) := by decide

theorem test_decode_vector_system_2 :
    decodeWord 0xE48B040D [] = .ok (.vand .onTrue .i32 386 13) ∧
    decodeWord 0xE4AB040D [] = .ok (.vor .onTrue .i32 386 13) ∧
    decodeWord 0xE4CB040D [] = .ok (.vxor .onTrue .i32 386 13) ∧
    decodeWord 0xE4EB040D [] = .ok (.vandn .onTrue .i32 386 13) ∧
    decodeWord 0xE68B040D [] = .ok (.vshl .onTrue .i32 386 13) ∧
    decodeWord 0xE6AB040D [] = .ok (.vshr .onTrue .i32 386 13) ∧
    decodeWord 0xE6CB040D [] = .ok (.vsra .onTrue .i32 386 13) ∧
    decodeWord 0xE8B3040D [] = .ok (.vcmp .onTrue .lt .f32 386 13) := by decide

theorem test_decode_vector_system_3 :
    decodeWord 0xEA13040D [] = .ok (.vsel .f32 386 13) ∧
    decodeWord 0xEAB3040D [] = .ok (.vbcast .onTrue .f32 386 13) ∧
    decodeWord 0xEAD3040D [] = .ok (.vext .onTrue .f32 386 13) ∧
    decodeWord 0xEA73040D [] = .ok (.vins .f32 386 13) ∧
    decodeWord 0xEC93040D [] = .ok (.vshuf .onTrue .f32 386 13) ∧
    decodeWord 0xECB3040D [] = .ok (.vperm .onTrue .f32 386 13) ∧
    decodeWord 0xECD3040D [] = .ok (.vrot .onTrue .f32 386 13) ∧
    decodeWord 0xEE93040D [] = .ok (.vredadd .onTrue .f32 386 13) := by decide

theorem test_decode_vector_system_4 :
    decodeWord 0xEEB3040D [] = .ok (.vredmax .onTrue .f32 386 13) ∧
    decodeWord 0xEED3040D [] = .ok (.vredmin .onTrue .f32 386 13) ∧
    decodeWord 0xEEF3040D [] = .ok (.vscan .onTrue .f32 386 13) ∧
    decodeWord 0xF08B040D [] = .ok (.vpopc .onTrue .i32 386 13) ∧
    decodeWord 0xF0AB040D [] = .ok (.vpfxc .onTrue .i32 386 13) ∧
    decodeWord 0xF2D3040D [] = .ok (.vcvt .onTrue .i32 .f32 386 13) ∧
    decodeWord 0xF493040D [] = .ok (.vexp2 .onTrue .f32 386 13) ∧
    decodeWord 0xF4B3040D [] = .ok (.vlog2 .onTrue .f32 386 13) := by decide

theorem test_decode_vector_system_5 :
    decodeWord 0xF4D3040D [] = .ok (.vrcp .onTrue .f32 386 13) ∧
    decodeWord 0xF4F3040D [] = .ok (.vrsqrt .onTrue .f32 386 13) ∧
    decodeWord 0xF6A4600D [] = .ok (.vld .onTrue 9 .w64 13) ∧
    decodeWord 0xF6A4E1FF [] = .ok (.vst .onTrue 9 .w64) ∧
    decodeWord 0xF6A5600D [] = .ok (.vldg .onTrue 9 .w64 13) ∧
    decodeWord 0xF625E1FF [] = .ok (.vsts 9 .w64) ∧
    decodeWord 0xF6A6400D [] = .ok (.vtld .onTrue 9 .w32 13) ∧
    decodeWord 0xF6A6F00D [] = .ok (.vamo .onTrue 9 .w64 .swap 13) := by decide

theorem test_decode_vector_system_6 :
    decodeWord 0xF8A4000D [] = .ok (.csrrd .onTrue 9 13) ∧
    decodeWord 0xF8A4200D [] = .ok (.csrwr .onTrue 9 13) ∧
    decodeWord 0xF8A4400D [] = .ok (.segld .onTrue 9 13) ∧
    decodeWord 0xF8A4600D [] = .ok (.segst .onTrue 9 13) ∧
    decodeWord 0xF8A4800D [] = .ok (.wake .onTrue 9 13) ∧
    decodeWord 0xF8A4A00D [] = .ok (.ctxswap .onTrue 9 13) ∧
    decodeWord 0xF8A4C00D [] = .ok (.slotpark .onTrue 9 13) ∧
    decodeWord 0xF8A4E00D [] = .ok (.slotfree .onTrue 9 13) := by decide

theorem test_decode_vector_system_7 :
    decodeWord 0xF8A501FF [] = .ok (.tlbinv .onTrue 9) ∧
    decodeWord 0xF8A5200D [] = .ok (.marker .onTrue 9 13) ∧
    decodeWord 0xF8A5400D [] = .ok (.qwave .onTrue 9 13) ∧
    decodeWord 0xF8A5600D [] = .ok (.twin .onTrue 9 13) ∧
    decodeWord 0xF8A5800D [] = .ok (.scrub .onTrue 9 13) := by decide

theorem test_decode_mov4 :
    decodeWord 0x0483040D [0x00030181] = .ok (.mov4 .onTrue 386 13 384 385) := by decide

/-- A long command of each pair of Table 16.2: OP 0x7F, PR 0, LSID 9, target 13, semaphore wait 3 of 2, signal 5 by 1. -/
def longTest : Long :=
  { p := .always, lsid := 9, t := 13, wsem := 3, wthr := 2, ssem := 5, sinc := 1, flags := 3, f := 0x77 }

theorem test_decode_long_1 :
    decodeWord 0xFE00120D [0x03000205, 0x00010003, 0x77, 0, 0, 0, 0] = .ok (.mma longTest) ∧
    decodeWord 0xFE00520D [0x03000205, 0x00010003, 0x77, 0, 0, 0, 0] = .ok (.tileLd longTest) ∧
    decodeWord 0xFE02520D [0x03000205, 0x00010003, 0x77, 0, 0, 0, 0] = .ok (.tileSt longTest) ∧
    decodeWord 0xFE04520D [0x03000205, 0x00010003, 0x77, 0, 0, 0, 0] = .ok (.tileCp longTest) ∧
    decodeWord 0xFE06520D [0x03000205, 0x00010003, 0x77, 0, 0, 0, 0] = .ok (.tileDeal longTest) ∧
    decodeWord 0xFE08520D [0x03000205, 0x00010003, 0x77, 0, 0, 0, 0] = .ok (.tileResume longTest) ∧
    decodeWord 0xFE00920D [0x03000205, 0x00010003, 0x77, 0, 0, 0, 0] = .ok (.castDec longTest) := by decide

theorem test_decode_long_2 :
    decodeWord 0xFE02920D [0x03000205, 0x00010003, 0x77, 0, 0, 0, 0] = .ok (.castPlane longTest) ∧
    decodeWord 0xFE04920D [0x03000205, 0x00010003, 0x77, 0, 0, 0, 0] = .ok (.castTable longTest) ∧
    decodeWord 0xFE00D20D [0x03000205, 0x00010003, 0x77, 0, 0, 0, 0] = .ok (.xswap longTest) ∧
    decodeWord 0xFE02D20D [0x03000205, 0x00010003, 0x77, 0, 0, 0, 0] = .ok (.pgPromote longTest) ∧
    decodeWord 0xFE04D20D [0x03000205, 0x00010003, 0x77, 0, 0, 0, 0] = .ok (.pgRequant longTest) ∧
    decodeWord 0xFE01120D [0x03000205, 0x00010003, 0x77, 0, 0, 0, 0] = .ok (.kvAlloc longTest) ∧
    decodeWord 0xFE03120D [0x03000205, 0x00010003, 0x77, 0, 0, 0, 0] = .ok (.kvFree longTest) := by decide

theorem test_decode_long_3 :
    decodeWord 0xFE05120D [0x03000205, 0x00010003, 0x77, 0, 0, 0, 0] = .ok (.kvAppend longTest) ∧
    decodeWord 0xFE07120D [0x03000205, 0x00010003, 0x77, 0, 0, 0, 0] = .ok (.kvEvict longTest) ∧
    decodeWord 0xFE09120D [0x03000205, 0x00010003, 0x77, 0, 0, 0, 0] = .ok (.pfxMatch longTest) ∧
    decodeWord 0xFE0B120D [0x03000205, 0x00010003, 0x77, 0, 0, 0, 0] = .ok (.pfxInsert longTest) ∧
    decodeWord 0xFE0D120D [0x03000205, 0x00010003, 0x77, 0, 0, 0, 0] = .ok (.pfxUnref longTest) := by decide

theorem test_decode_refuses_pr3 : (decodeWord 0x21800181 []).toOption = none := by decide
theorem test_decode_refuses_opcode7 : (decodeWord 0x0E000181 []).toOption = none := by decide
theorem test_decode_refuses_bswap_b : (decodeWord 0x46403FFF []).toOption = none := by decide

/-! ## Small states -/

/-- A segment of every right but P and X, base 0, the whole address space. -/
def seg : BitVec 128 :=
  BitVec.ofNat 128 (2 ^ 104 + 2 ^ 105 + 2 ^ 107 + 2 ^ 109 + 2 ^ 110 + (2 ^ 48 - 1) * 2 ^ 56)

/-- A thread in slot 0 of core 0 whose block executes with these inputs of word 0. -/
def thread (ops : Tab Tok) : State :=
  State.reset.updSlot 0 0 fun x => { x with
    st := .run, ctx := { x.ctx with seg := [(0, seg)] }, frame := { st := .exec, ops := ops } }

/-- The same at the lock with its address checked. -/
def locked (ops : Tab Tok) : State := (thread ops).updFrame 0 0 fun f => { f with checked := true, lock := true }

/-- Two scalar inputs. -/
def two (x y : Word) : State := thread [(0, .val x), (1, .val y)]

/-- The token that a step writes to register write k. -/
def out (r : Res) (k : Nat) : Option Tok :=
  match r with
  | .next t => t.cur.frame.regs.find? k
  | _ => none

theorem ready_of {s : State} {i : Instr} {x y z : Word}
    (h : gather i.shape s.cur.frame s.ci = .vals (.val x) (.val y) (.val z)) : s.ready i x y z :=
  ⟨_, _, _, h, rfl, rfl, rfl, rfl⟩

/-! ## Results of scalar instructions, from the rules and examples of 13_ -/

theorem test_add_wraps : out (exec (.add .always .w8 511 385) (two 0xFF 1)) 1 = some (.val 0) := by decide +kernel
theorem test_sub_wraps : out (exec (.sub .always .w16 511 385) (two 0 1)) 1 = some (.val 0xFFFF) := by decide +kernel
theorem test_mulh_signed : out (exec (.mulh .always .w8 511 385) (two 0x80 2)) 1 = some (.val 0xFF) := by decide +kernel
theorem test_mulhn : out (exec (.mulhn .always .w64 511 385) (two 0xFFFFFFFFFFFFFFFF 2)) 1 = some (.val 1) := by decide +kernel
theorem test_div_wraps : out (exec (.div .always .w8 511 385) (two 0x80 0xFF)) 1 = some (.val 0x80) := by decide +kernel
theorem test_rem_sign : out (exec (.rem .always .w8 511 385) (two 0xF9 2)) 1 = some (.val 0xFF) := by decide +kernel
theorem test_div_zero : out (exec (.divn .always .w32 511 385) (two 7 0)) 1 = some (.val 0xFFFFFFFF) := by decide +kernel
theorem test_shl_large : out (exec (.shl .always .w64 511 385) (two 1 0xFFFFFFFFFFFFFFFF)) 1 = some (.val 0) := by decide +kernel
theorem test_sra_large : out (exec (.sra .always .w8 511 385) (two 0x80 200)) 1 = some (.val 0xFF) := by decide +kernel
theorem test_rol : out (exec (.rol .always .w8 511 385) (two 0x81 9)) 1 = some (.val 3) := by decide +kernel
theorem test_min_signed : out (exec (.min .always .w8 511 385) (two 0x7F 0x80)) 1 = some (.val 0x80) := by decide +kernel
theorem test_minn : out (exec (.minn .always .w8 511 385) (two 0x7F 0x80)) 1 = some (.val 0x7F) := by decide +kernel
theorem test_clz_zero : out (exec (.clz .always .w16 511 385) (two 0 0)) 1 = some (.val 16) := by decide +kernel
theorem test_bswap : out (exec (.bswap .always .w32 511 385) (two 0x11223344 0)) 1 = some (.val 0x44332211) := by decide +kernel
theorem test_kvslot : out (exec (.kvslot .always 511 385) (two 0xF0F5 0x280006)) 1 = some (.val 0x2C) ∧
    out (exec (.kvslot .always 511 385) (two 0xF0F5 0x280003)) 1 = some (.val 0x800000000000002A) := by decide +kernel
theorem test_consth : out (exec (.consth 385 0xCDEF) (two 0xFFFF8123456789AB 0)) 1 = some (.val 0x8123456789ABCDEF) := by
  decide +kernel
theorem test_tlt_signed : out (exec (.tlt .always .w8 511 385) (two 0x80 0x7F)) 1 = some (.val 1) := by decide +kernel
theorem test_tltni : out (exec (.tltni .always 0x3FFF 385) (two 0x3FFE 0)) 1 = some (.val 1) := by decide +kernel
theorem test_two_targets : out (exec (.add .always .w64 386 385) (two 2 3)) 2 = some (.val 5) := by decide +kernel
theorem test_null_input : out (exec (.add .always .w64 511 385) (thread [(0, .null), (1, .val 1)])) 1 = some .null := by
  decide +kernel
theorem test_predicate_false : out (exec (.add .onTrue .w64 511 385) (thread [(0, .val 1), (1, .val 1), (2, .val 2)])) 1 = none := by
  decide +kernel

/-! ## Floating point and vectors, from 11_, 13_ and 15_ -/

theorem test_fadd_one_one : out (exec (.fadd .always (.static .rne) .sp 511 385) (two 0x3F800000 0x3F800000)) 1 =
    some (.val 0x40000000) := by decide +kernel
theorem test_fcvt_zero : out (exec (.fcvt .always (.static .rne) .dp 511 385) (two 0x80000000 0)) 1 = some (.val 0x8000000000000000) := by
  decide +kernel
theorem test_fcvti_down : out (exec (.fcvti .always (.static .rdn) .dp 511 385) (two 0xC004000000000000 0)) 1 =
    some (.val 0xFFFFFFFFFFFFFFFD) := by decide +kernel
theorem test_fdiv_zero : out (exec (.fdiv .always (.static .rne) .sp 511 385) (two 0x3F800000 0)) 1 =
    some (.val 0x7F800000) := by decide +kernel
theorem test_fsgn : out (exec (.fneg .always .sp 511 385) (two 0x3F800000 0)) 1 = some (.val 0xBF800000) := by decide +kernel
theorem test_vbcast_vadd : out (exec (.vadd .always .i64 511 385)
    (thread [(0, .vec (BitVec.ofNat 512 (2 ^ 64 - 1)) 0), (1, .vec (BitVec.ofNat 512 (2 ^ 64 + 1)) 0)])) 1 =
      some (.vec (BitVec.ofNat 512 (2 ^ 64)) 0) := by decide +kernel

/-! ## Witnesses: the hypotheses of the statements can be met -/

theorem test_witness_decodeOfEncode : (Instr.add .always .w64 511 385).wf = true ∧
    encode (.add .always .w64 511 385) ≠ [] := by decide

theorem test_witness_encodeOfDecode : wordCount 0x200F040D ≤ ([] : List Nat).length + 1 ∧
    decodeWord 0x200F040D [] = .ok (.add .always .w64 386 13) := by decide

/-- NULL for register write 1, in the block that core 0's slot 0 executes. -/
def one : State := State.reset.withFetchWord 32 0x0C03FF81

theorem test_witness_stepRuns : one.agenda = [] ∧ one.executes = true ∧ (0, .null .always 511 385) ∈ one.cur.frame.instrs ∧
    one.cursor.scan ≤ 0 ∧ gather (Instr.null .always 511 385).shape one.cur.frame 0 ≠ .wait ∧
    (∀ e ∈ one.cur.frame.instrs, one.cursor.scan ≤ e.1 → e.1 < 0 → gather e.2.shape one.cur.frame e.1 = .wait) := by
  decide +kernel

theorem test_step_null : out (step one) 1 = some .null := by decide +kernel

theorem test_witness_stepRuns_event : { State.reset with agenda := [.event (.grant 0)] }.agenda = .event (.grant 0) :: [] := rfl

theorem test_witness_firing : ∃ h : Shape, h = (Instr.add .onTrue .w64 511 385).shape ∧
    ({ fired := [(0, true)] } : Frame).fired.find? 0 ≠ none ∧
    ({ ops := [(2, .val 2)] } : Frame).input 0 2 = some (.val 2) ∧ (2 : Word).getLsbD 0 ≠ (h.pr == .onTrue) ∧
    (h.has 0 = true ∧ ({ ops := [(2, .val 1)] } : Frame).input 0 0 = none) ∧ h.has 2 = true :=
  ⟨_, rfl, by decide +kernel⟩

theorem test_witness_poison : ∃ h : Shape, h = (Instr.add .always .w64 511 385).shape ∧ h.pr = .always ∧ h.d = false ∧
    h.l = true ∧ h.r = true ∧ (Tok.poison { cause := 0x60, index := 3 } false).isPoison = true ∧
    ({ ops := [(0, .val 1), (1, .val 1), (2, .null)] } : Frame).input 0 2 = some .null := ⟨_, rfl, by decide +kernel⟩

theorem test_witness_secondToken : ({ ops := [(383, .val 1)] } : Frame).ops.find? 383 = some (.val 1) ∧
    ({ regs := [(15, .val 1)] } : Frame).regs.find? (399 - 384) = some (.val 1) := by decide

theorem test_witness_computeFrame : (Instr.add .always .w64 511 385).shape.cls = .compute ∧
    (∀ p a b, Instr.add .always .w64 511 385 ≠ .tid p a b ∧ Instr.add .always .w64 511 385 ≠ .whereQ p a b ∧
      Instr.add .always .w64 511 385 ≠ .time p a b) ∧ ∃ t, exec (.add .always .w64 511 385) (two 1 2) = .next t :=
  ⟨rfl, fun _ _ _ => ⟨nofun, nofun, nofun⟩, _, rfl⟩

theorem test_witness_computePasses :
    gather (Instr.add .always .w64 511 385).shape (thread [(0, .val 1)]).cur.frame 0 = .wait ∧
    gather (Instr.add .onTrue .w64 511 385).shape (thread [(2, .val 0)]).cur.frame 0 = .mismatch ∧
    gather (Instr.add .always .w64 511 385).shape (thread [(0, .poison { cause := 0x60 } false), (1, .val 0)]).cur.frame 0 =
      .poison { cause := 0x60 } false ∧
    gather (Instr.add .onTrue .w64 511 385).shape (thread [(0, .val 1), (1, .val 0), (2, .null)]).cur.frame 0 = .null := by
  decide +kernel

theorem test_witness_read (k : Nat) : (thread []).has (.readReg k 511 385) (.val 0) (.val 0) (.val 0) := rfl

/-- A thread with register 15 marked by PMASK and register 14 by an uncorrectable error. -/
def masked : State := (thread []).updSlot 0 0 fun x => { x with pmask := 0x8000, badRegs := 0x4000 }

theorem test_witness_readMasked : masked.cur.pmask.getLsbD 15 = true ∧ masked.cur.badRegs.getLsbD 15 = false ∧
    masked.cur.badRegs.getLsbD 14 = true ∧ masked.cur.pmask.getLsbD 0 = false ∧ masked.cur.badRegs.getLsbD 0 = false := by
  decide +kernel

theorem test_witness_movi : (thread []).ready (.movi .always 16383 385) 0 0 0 := ready_of (by decide +kernel)
theorem test_witness_consth : (two 5 0).ready (.consth 385 65535) 5 0 0 ∧ 65535 < 65536 := ⟨ready_of (by decide +kernel), by decide⟩
theorem test_witness_mov : (thread [(0, .null)]).has (.mov .always 511 385) .null (.val 0) (.val 0) := by
  unfold State.has; decide +kernel
theorem test_witness_immediate : (two 5 0).ready (.srai .always 63 385) 5 0 0 ∧ 63 < 64 := ⟨ready_of (by decide +kernel), by decide⟩
theorem test_witness_integer (w : Width) : (two 255 1).ready (.add .always w 511 385) 255 1 0 :=
  ready_of (by cases w <;> decide +kernel)
theorem test_witness_rotate (w : Width) : (two 255 64).ready (.ror .always w 511 385) 255 64 0 :=
  ready_of (by cases w <;> decide +kernel)
theorem test_witness_division (w : Width) : (two 128 0).ready (.rem .always w 511 385) 128 0 0 :=
  ready_of (by cases w <;> decide +kernel)
theorem test_witness_shift : (two 128 8).ready (.sra .always .w8 511 385) 128 8 0 ∧ wBits .w8 ≤ (8 : Word).toNat :=
  ⟨ready_of (by decide +kernel), by decide⟩
theorem test_witness_bits : (two 128 0).ready (.ctz .always .w8 511 385) 128 0 0 := ready_of (by decide +kernel)
theorem test_witness_bitfield : (two 128 0).ready (.bfx .always true 63 0 385) 128 0 0 ∧ 0 + 63 < 64 :=
  ⟨ready_of (by decide +kernel), by decide⟩
theorem test_witness_select : (thread [(0, .val 1), (1, .val 2), (2, .val 3)]).ready (.sel 511 385) 1 2 3 :=
  ready_of (by decide +kernel)
theorem test_witness_comparison : (two 3 4).ready (.tbit .always 63 385) 3 0 0 ∧ (two 3 4).ready (.tlei .always 16383 385) 3 0 0 :=
  ⟨ready_of (by decide +kernel), ready_of (by decide +kernel)⟩
theorem test_witness_float : (two 3 4).ready (.fadd .always .dyn .dp 511 385) 3 4 0 ∧
    (thread [(0, .val 1), (1, .val 2), (2, .val 3)]).ready (.fma .dyn .sp 511 385) 1 2 3 :=
  ⟨ready_of (by decide +kernel), ready_of (by decide +kernel)⟩
theorem test_witness_floatValue : 0x7F7FFFFF < 2 ^ ((qFmt .sp).low + 1) ∧
    (qFmt .sp).decode 0x7F7FFFFF = .fin false 0xFFFFFF 104 := by decide +kernel
theorem test_witness_vector : (two 3 4).has (.vadd .always .f32 511 385) (.val 3) (.val 4) (.val 0) ∧
    (two 3 4).has (.vext .always .i8 511 385) (.val 3) (.val 4) (.val 0) := by unfold State.has; decide +kernel
theorem test_witness_lanes : (List.replicate 8 (some (2 ^ 64 - 1))).length = 512 / vBits .i64 ∧
    (∀ a ∈ List.replicate 8 (some (2 ^ 64 - 1)), ∀ v, a = some v → v < 2 ^ vBits .i64) := by decide +kernel
theorem test_witness_reduction : VT.i64.isFloat = false ∧ lanes (vBits .i64) (.vec 0 0) = (List.replicate 8 0).map some ∧
    (∀ a ∈ lanes (vBits .i64) (.vec 0 0xFFFFFFFFFFFFFFFF), a = none) := by decide +kernel

/-! ### Memory -/

theorem test_witness_load : ∃ acc s1, (thread [(0, .val 0x100)]).has (.ld .w64 .always 0 0 385) (.val 0x100) (.val 0) (.val 0) ∧
    (thread [(0, .val 0x100)]).mayLoad 0 ∧
    ordAccess (thread [(0, .val 0x100)]) (thread [(0, .val 0x100)]).me (mTok 0x100 0 8) 8 8 .load false 1 none = (.ok acc, s1) ∧
    acc.view = none ∧ acc.locs = locRange (tcmLoc 0 0x100) 8 ∧ s1.portSays 0 acc.locs = .go ∧ s1.readBufs = [] ∧
    s1.async = [] ∧ s1.ownEntries 0 0 = [] ∧ s1.cur.frame.storesBelow 0 = [] ∧
    s1.addressedBelow (thread [(0, .val 0x100)]).me 0 = [] ∧ (∀ a ∈ acc.locs, s1.mem.isPois a = false) ∧
    ((s1.touchRow (tcmLoc 0 0x100)).watch acc.ea 8 0 true false).loadInOrder 0 acc.locs := by
  refine ⟨⟨0x100, locRange (tcmLoc 0 0x100) 8, false, none⟩, thread [(0, .val 0x100)], ?_⟩
  unfold State.has State.mayLoad State.loadInOrder
  decide +kernel

theorem test_witness_loadPoison : (scalarLoad .w64 false 0 0 (thread []) (thread []).me (.val 0x101) (.val 0)).1 =
    .tok (.poison { cause := 0x25, addr := 0x101 } false) [] := by decide +kernel

theorem test_load_little_endian : out (exec (.ld .w16 .always 0 0 385)
    (((thread [(0, .val 0x100)]).wrMem (tcmLoc 0 0x100) 2 0x8001))) 1 = some (.val 0x8001) ∧
    out (exec (.ldS .w16 .always 0 0 385) (((thread [(0, .val 0x100)]).wrMem (tcmLoc 0 0x100) 2 0x8001))) 1 =
      some (.val 0xFFFFFFFFFFFF8001) := by decide +kernel

/-- A store of 8 bytes to TCM offset 0x100. -/
def entry0 : SbEntry := { slot := 0, op := .data [.raw false ((locRange (tcmLoc 0 0x100) 8).zip (leBytes 8 7))], ea := 0x100, width := 8, data := 7 }

theorem test_witness_store : ∃ acc s1, (two 0x100 7).has (.st .always 0 0 false .w64) (.val 0x100) (.val 7) (.val 0) ∧
    ordAccess (two 0x100 7) (two 0x100 7).me (mTok 0x100 0 8) 8 8 .store false 1 none = (.ok acc, s1) ∧ acc.view = none ∧
    acc.locs = locRange (tcmLoc 0 0x100) 8 ∧ s1.storeFree 0 entry0 := by
  refine ⟨⟨0x100, locRange (tcmLoc 0 0x100) 8, false, none⟩, two 0x100 7, ?_⟩
  unfold State.has State.storeFree
  decide +kernel

theorem test_witness_fence : (thread []).has (.fence .always 0 .sys) (.val 0) (.val 0) (.val 0) ∧
    (thread []).storeFree 0 { (thread []).entryOf 0 with op := .fence 0 .sys } := by
  unfold State.has State.storeFree
  decide +kernel

/-- A store buffer whose head is that store. -/
def draining (op : SbOp) : State := (thread []).updCore 0 fun x => { x with sb := [{ entry0 with op := op }] }

theorem test_witness_drain : Safe (draining entry0.op) ∧ ((draining entry0.op).core 0).sb = [entry0] ∧
    (draining entry0.op).mayDrain 0 entry0 = true ∧
    (∀ x ∈ (locRange (tcmLoc 0 0x100) 8).zip (leBytes 8 7), (draining entry0.op).layerOff x.1 = false ∧
      (draining entry0.op).mem.isPois x.1 = false) := by unfold Safe; decide +kernel

theorem test_witness_drainStf : (draining (.stf (tcmLoc 0 0x100) 7)).mayDrain 0 { entry0 with op := .stf (tcmLoc 0 0x100) 7 } = true ∧
    (draining (.stf (tcmLoc 0 0x100) 7)).layerOff (tcmLoc 0 0x100) = false ∧ entry0.lid = 0 := by decide +kernel

theorem test_drain_stf : (match exec (.storeBufferDrain 0) (draining (.stf (tcmLoc 0 0x100) 7)) with
    | .next t => t.rdWord (tcmLoc 0 0x100) == 7 && t.mem.isFull (tcmLoc 0 0x100) && (t.core 0).sb.isEmpty
    | _ => false) = true := by decide +kernel

theorem test_witness_ldfe : (locked [(0, .val 0x100)]).unrecorded ∧
    (locked [(0, .val 0x100)]).mayPerform (.ldfe .always 0 385) true false (.val 0x100) (.val 0) (.val 0) ∧
    (locked [(0, .val 0x100)]).reaches (.val 0x100) 8 .atomic 0x74 0x100 (tcmLoc 0 0x100) (locked [(0, .val 0x100)]) := by
  refine ⟨.inl (by decide +kernel), ?_, ⟨0x100, locRange (tcmLoc 0 0x100) 8, false, none⟩, ?_⟩
  · unfold State.mayPerform State.has; decide +kernel
  · decide +kernel

theorem test_witness_ldff : (thread [(0, .val 0x100)]).maySync (.ldff .always 0 385) 0 true (.val 0x100) (.val 0) ∧
    (thread [(0, .val 0x100)]).drained 0 0 = true :=
  ⟨⟨⟨.val 0, by unfold State.has; decide +kernel⟩, by decide +kernel⟩, by decide +kernel⟩

theorem test_ldfe_empties : (match exec (.ldfe .always 0 385) (((locked [(0, .val 0x100)]).wrWord (tcmLoc 0 0x100) 9).setFull (tcmLoc 0 0x100) true) with
    | .next t => out (.next t) 1 == some (.val 9) && !t.mem.isFull (tcmLoc 0 0x100)
    | _ => false) = true := by decide +kernel

theorem test_ldfe_parks : (match exec (.ldfe .always 0 385) (locked [(0, .val 0x100)]) with
    | .next t => t.cur.st == .park && t.cur.ctx.wait == waitOf 1 0x100
    | _ => false) = true := by decide +kernel

theorem test_witness_amo : (locked [(0, .val 0x100), (1, .val 5)]).mayPerform (.amo .always 0 .add false true 385) true false
    (.val 0x100) (.val 5) (.val 0) ∧ (locked []).released 0 0 .die = true := by
  refine ⟨?_, by decide +kernel⟩
  unfold State.mayPerform State.has; decide +kernel

theorem test_amo_add : (match exec (.amo .always 0 .add false false 385)
      ((locked [(0, .val 0x100), (1, .val 5)]).wrWord (tcmLoc 0 0x100) 9) with
    | .next t => out (.next t) 1 == some (.val 9) && t.rdWord (tcmLoc 0 0x100) == 14
    | _ => false) = true := by decide +kernel

theorem test_witness_vamo : (locked [(0, .val 0x100), (1, .vec 5 0)]).mayPerform (.vamo .always 0 .w64 .add 385) true
    (lineNull .w64 (.vec 5 0)) (.val 0x100) (.vec 5 0) (.val 0) ∧
    ∃ o s2, (locked [(0, .val 0x100), (1, .vec 5 0)]).lineAt .add .w64 (tcmLoc 0 0x100) (.vec 5 0) = some (o, s2) := by
  refine ⟨by unfold State.mayPerform State.has; decide +kernel, ?_⟩
  exact ⟨_, _, rfl⟩

/-! ### Barriers, waits, parking -/

/-- A state whose core has the page 0x2000000 of its own vault in its TLB. -/
def paged (s : State) : State := s.updCore 0 fun x =>
  { x with sroot := 0x1000, tlb := [⟨0x1000, 0x2000000, 2 ^ 21, BitVec.ofNat 64 (2 ^ 63 + 2 ^ 62 + 2 ^ 61 + 2 ^ 60 + 2 ^ 58)⟩] }

/-- A barrier operation of address 0x2000000 at its lock. -/
def atBarrier : State := paged (locked [(0, .val 0x2000000)])

theorem test_witness_barrier : atBarrier.reachesObject (.val 0x2000000) 0x2000000 0 atBarrier ∧
    atBarrier.mayPerform (.arrive .always 0 .die 385) true false (.val 0x2000000) (.val 0) (.val 0) ∧
    atBarrier.mayPerform (.join .always 0 385) false false (.val 0x2000000) (.val 0) (.val 0) ∧
    bits (atBarrier.barrier 0) 31 0 ≠ 2 ^ 32 - 1 ∧ bits (atBarrier.barrier 0) 63 32 ≠ 2 ^ 32 - 1 := by
  unfold State.reachesObject State.mayPerform State.has; decide +kernel

theorem test_witness_leave : bits ((atBarrier.wrMem 0 32 (2 ^ 33)).barrier 0) 63 32 ≠ 0 := by decide +kernel

theorem test_witness_bwait : (paged (thread [(0, .val 0x2000000)])).maySync (.bwait .always 0 385) 0 false (.val 0x2000000) (.val 0) ∧
    bits ((paged (thread [])).barrier 0) 192 192 = (tswGph (paged (thread [])).cur.ctx.tsw).toNat ∧
    bits (((paged (thread [])).wrMem 0 32 (2 ^ 192)).barrier 0) 192 192 ≠ (tswGph (paged (thread [])).cur.ctx.tsw).toNat := by
  refine ⟨⟨⟨.val 0, by unfold State.has; decide +kernel⟩, by decide +kernel⟩, by decide +kernel⟩

theorem test_join_counts : (match exec (.join .always 0 385) atBarrier with
    | .next t => out (.next t) 1 == some (.val 0) && bits (t.barrier 0) 63 32 == 1
    | _ => false) = true := by decide +kernel

theorem test_flipCheck : flipCheck (2 + 2 * 2 ^ 32) = (2 * 2 ^ 32 + 2 ^ 192 + 2 ^ 224, true) ∧
    flipCheck (1 + 2 * 2 ^ 32) = (1 + 2 * 2 ^ 32, false) := by decide +kernel

theorem test_witness_waita : (thread [(0, .val 0x100), (1, .val 7)]).maySync (.waita .always 0 385) 0 false (.val 0x100) (.val 7) ∧
    (thread []).rdWord (tcmLoc 0 0x100) ≠ 7 ∧
    (thread [(0, .val 0x100), (1, .val 7)]).reaches (.val 0x100) 8 .load 0x74 0x100 (tcmLoc 0 0x100)
      (thread [(0, .val 0x100), (1, .val 7)]) := by
  refine ⟨⟨⟨.val 0, by unfold State.has; decide +kernel⟩, by decide +kernel⟩, by decide +kernel,
    ⟨0x100, locRange (tcmLoc 0 0x100) 8, false, none⟩, by decide +kernel⟩

theorem test_witness_semaphore : (two 255 0).maySync (.semwait .always 0 385) 0 false (.val 255) (.val 0) ∧
    wbits 0 31 0 ≤ (two 255 0).sem 0 (wbits 255 7 0) ∧
    (locked [(0, .val 255), (1, .val 1)]).mayPerform (.semsig .always 0 385) true false (.val 255) (.val 1) (.val 0) ∧
    (two 255 1).sem 0 (wbits 255 7 0) < wbits 1 31 0 := by
  refine ⟨⟨⟨.val 0, by unfold State.has; decide +kernel⟩, by decide +kernel⟩, by decide +kernel, ?_, by decide +kernel⟩
  unfold State.mayPerform State.has; decide +kernel

theorem test_witness_acquireLoad : (thread [(0, .val 0x100)]).maySync (.ldDAcq .always 0 0 385) 0 false (.val 0x100) (.val 0) ∧
    (scalarLoad .w64 false 0 0 (thread [(0, .val 0x100)]) (thread [(0, .val 0x100)]).me (.val 0x100) (.val 0)).1 =
      .tok (.val 0) (locRange (tcmLoc 0 0x100) 8) :=
  ⟨⟨⟨.val 0, by unfold State.has; decide +kernel⟩, by decide +kernel⟩, by decide +kernel⟩

/-! ### Parking, remote operations, ordered additions, queries -/

theorem test_witness_parking : (thread [(0, .val 0x100), (1, .val 0)]).maySync (.waita .always 0 385) 0 false (.val 0x100) (.val 0) ∧
    (thread []).rdWord (tcmLoc 0 0x100) = 0 ∧ (two 255 1).sem 0 (wbits 255 7 0) < wbits 1 31 0 ∧
    (locked [(0, .val 0x100), (1, .val 9)]).mayPerform (.stef .always 0) true false (.val 0x100) (.val 9) (.val 0) ∧
    (((locked [(0, .val 0x100), (1, .val 9)]).setFull (tcmLoc 0 0x100) true).mem.isFull (tcmLoc 0 0x100)) = true ∧
    (locked []).released 0 0 .die = true ∧ 1 ≠ 5 := by
  refine ⟨⟨⟨.val 0, by unfold State.has; decide +kernel⟩, by decide +kernel⟩, by decide +kernel, by decide +kernel, ?_,
    by decide +kernel, by decide +kernel, by decide⟩
  unfold State.mayPerform State.has; decide +kernel

theorem test_parked : (((thread []).parkOn 3 0x100 (tcmLoc 0 0x100)).cur.st, ((thread []).parkOn 3 0x100 (tcmLoc 0 0x100)).waiters.length) =
    (.park, 1) := by decide +kernel

theorem test_witness_remoteIssue : (locked [(0, .val 0x100), (1, .val 5)]).cur.frame.asked.find? 0 = none ∧
    (locked [(0, .val 0x100), (1, .val 5)]).mayPerform (.ramo .always 0 .add 385) true false (.val 0x100) (.val 5) (.val 0) ∧
    (locked [(0, .val 0x100), (1, .val 5), (2, .val 6)]).mayPerform (.rcas 0 385) true false (.val 0x100) (.val 5) (.val 6) ∧
    (locked [(0, .val 0x100), (1, .val 5)]).mayPerform (.roadd .always 0 .i64) true false (.val 0x100) (.val 5) (.val 0) ∧
    (locked [(0, .val 0x100), (1, .vec 5 0)]).mayPerform (.rvamo .always 0 .add .w64 385) true
      (lineNull .w64 (.vec 5 0)) (.val 0x100) (.vec 5 0) (.val 0) ∧
    (remAccess (locked []) (locked []).me 0x100 8 8 .ratomic false).1 = .ok (0x100, .mem (tcmLoc 0 0x100)) ∧
    (remAccess (locked []) (locked []).me 0x100 64 64 .ratomic false).1 = .ok (0x100, .mem (tcmLoc 0 0x100)) := by
  unfold State.mayPerform State.has; decide +kernel

/-- An operation of a kind at the word of TCM offset 0x100. -/
def remote (kind : RemKind) : RemOp := { kind := kind, place := .mem (tcmLoc 0 0x100), a := 7, b := 9 }

/-- A state with one packet in flight. -/
def carrying (p : Packet) : State := { State.reset with net := [p] }

theorem test_witness_remoteAgent : ∀ k ∈ [RemKind.rst, .rpost, .rstf, .rld, .ramo .add, .rcas, .roadd .i64],
    (carrying (.remote (remote k))).packet? 0 = some (.remote (remote k)) ∧
    (remote k).place = .mem (tcmLoc 0 0x100) ∧ (remote k).lid = 0 ∧ (remote k).kind = k ∧
    (carrying (.remote (remote k))).layerOff (tcmLoc 0 0x100) = false ∧
    (carrying (.remote (remote k))).layerBusy (tcmLoc 0 0x100) = false ∧
    (carrying (.remote (remote k))).mem.isPois (tcmLoc 0 0x100) = false ∧ Safe (carrying (.remote (remote k))) := by
  unfold Safe; decide +kernel

theorem test_remote_store : (match exec (.remoteOperation 0) (carrying (.remote (remote .rst))) with
    | .next t => t.rdWord (tcmLoc 0 0x100) == 7 && t.net.isEmpty
    | _ => false) = true := by decide +kernel

theorem test_witness_rld : (thread [(0, .val 0x100)]).has (.rld .always 0 385) (.val 0x100) (.val 0) (.val 0) ∧
    (thread [(0, .val 0x100)]).mayLoad 0 ∧
    (remAccess (thread []) (thread []).me 0x100 8 8 .rload true).1 = .ok (0x100, .mem (tcmLoc 0 0x100)) ∧
    (thread []).pendingLoad (thread []).me 0 (locRange (tcmLoc 0 0x100) 8) = none ∧
    (thread []).onItsWay (.mem (tcmLoc 0 0x100)) = false ∧
    ((thread []).updCore 0 fun x => { x with sb := [{ slot := 0, op := .remote (remote .rst) .die }] }).pendingLoad
      (thread []).me 0 (locRange (tcmLoc 0 0x100) 8) = some (.ok 7) := by
  unfold State.has State.mayLoad; decide +kernel

/-- Core 0's slot 0 waits for the answer of an RLD. -/
def waiting1 : State := (thread []).updFrame 0 0 fun f =>
  { f with body := (encode (.rld .always 0 385)).map (BitVec.ofNat 32), asked := [(0, 0)], loads := [(0, { remote := true })] }

theorem test_witness_rldAnswer : waiting1.awaits (remote .rld) = true ∧
    (waiting1.slot 0 0).frame.instrAt 0 = some (.rld .always 0 385) ∧
    (waiting1.slot 0 0).frame.loads.find? 0 = some { remote := true } := by decide +kernel

theorem test_witness_remoteAnswer : (((locked [(0, .val 0x100), (1, .val 5)]).updFrame 0 0 fun f =>
      { f with asked := [(0, 0)] }).updSlot 0 0 fun x => { x with fseq := 0 }).awaits (remote .rcas) = true ∧
    (one.updFrame 0 0 fun f => { f with asked := [(0, 0)] }).awaits (remote .rcas) = true := by decide +kernel

/-- A launch that is active on die 0 as launch 32, with four slices none of which has ended. -/
def launched : State := State.reset.updDie 0 fun d => { d with table := [(1, { st := .active, lrec := { slices := 4 } })] }

theorem test_witness_roadd : Safe launched ∧ launched.mem.isPois (tcmLoc 0 0x100) = false ∧
    (Tab.rd {} launched.ro (roKey (remote (.roadd .i64)) (tcmLoc 0 0x100))).held = [] ∧
    (Tab.rd {} launched.ro (roKey (remote (.roadd .i64)) (tcmLoc 0 0x100))).maxApplied ≤ 0 ∧
    launched.lidLive 32 = true ∧ launched.roLow 32 < 3 ∧ 0 ≤ launched.roLow 32 := by unfold Safe; decide +kernel

theorem test_roadd_held : (launched.roAccept { remote (.roadd .i64) with lid := 32, slice := 3 } (tcmLoc 0 0x100)).1 = .done (.val 0) ∧
    (launched.roAccept { remote (.roadd .i64) with lid := 32, slice := 3 } (tcmLoc 0 0x100)).2.rdWord (tcmLoc 0 0x100) = 0 ∧
    (launched.roAccept { remote (.roadd .i64) with lid := 32, slice := 0 } (tcmLoc 0 0x100)).2.rdWord (tcmLoc 0 0x100) = 7 := by
  decide +kernel

theorem test_witness_roadd_bounds :
    (Tab.rd ({} : RoWord) { launched with ro := [(roKey (remote (.roadd .i64)) (tcmLoc 0 0x100), { maxApplied := 2 })] }.ro
      (roKey (remote (.roadd .i64)) (tcmLoc 0 0x100))).maxApplied = 2 ∧
    (Tab.rd ({} : RoWord) { launched with ro := [(roKey (remote (.roadd .i64)) (tcmLoc 0 0x100),
      { held := List.replicate 64 { remote (.roadd .i64) with lid := 32, slice := 3 } })] }.ro
      (roKey (remote (.roadd .i64)) (tcmLoc 0 0x100))).held.length = 64 := by decide +kernel

theorem test_witness_query : (two 1 2).isShadow = false ∧ (two 1 2).unrecorded ∧
    (two 1 2).has (.time .always 511 385) (.val 0) (.val 0) (.val 0) ∧
    (two 1 2).has (.tid .always 511 385) (.val 0) (.val 0) (.val 0) := by
  refine ⟨by decide +kernel, .inl (by decide +kernel), ?_⟩
  unfold State.has; decide +kernel

/-! ### Exits, messages, commands -/

/-- A thread in whose block an exit has fired. -/
def left (e : ExitFired) : State := (two 0x100 0).updFrame 0 0 fun f => { f with exits := [e] }

theorem test_witness_exit : (two 0x100 0).has (.br .always 0 1) (.val 0) (.val 0) (.val 0) ∧ (two 0x100 0).cur.frame.exits = [] ∧
    (two 0x100 0).has (.ret .always 7) (.val 0x100) (.val 0) (.val 0) ∧
    (two 0x100 0).has (.migrate .always 1 5) (.val 0x100) (.val 0) (.val 0) ∧
    (migrateOwner (two 0x100 0) 0x100).1 = .ok 0 ∧
    (left { kind := .br }).has (.doneX .always 0) (.val 0) (.val 0) (.val 0) ∧
    (Instr.doneX .always 0).shape.cls = .exit ∧ (left { kind := .br }).cur.frame.exits ≠ [] := by
  unfold State.has; decide +kernel

theorem test_loop_ends : exitTo { g := [(3, 1)] } {} { kind := .loop 3, off := 2 } = (32, { g := [(3, 0)] }) ∧
    (exitTo { g := [(3, 2)] } { pc := 64 } { kind := .loop 3, off := 2 }).1 = 64 := by decide +kernel

/-- The tokens of a message to core 1. -/
def toCore1 : State := thread [(0, .val 0x10000), (1, .val 5)]

theorem test_witness_message : toCore1.has (.send .always 0) (.val 0x10000) (.val 5) (.val 0) ∧
    toCore1.has (.spawn .always 0 385) (.val 0x10000) (.val 5) (.val 0) ∧ toCore1.cur.frame.asked.find? 0 = none ∧
    toCore1.isShadow = false ∧ toCore1.msgFault (toCore1.msgOf 3 (.val 0x10000) (.val 5) (.val 0)) = none ∧
    toCore1.msgFault (toCore1.msgOf 1 (.val 0x10000) (.val 5) (.val 0)) = none ∧
    (toCore1.msgOf 1 (.val 0x10000) (.val 5) (.val 0)).dpkg = toCore1.pkg := by unfold State.has; decide +kernel

/-- A reservation request of slot 0 of core 0 for a thread at core 1. -/
def asking1 : State := { thread [] with net := [.resvReq 0 0 0 0 { kind := 1, dcore := 1 }] }

theorem test_witness_reservation : asking1.packet? 0 = some (.resvReq 0 0 0 0 { kind := 1, dcore := 1 }) ∧
    asking1.stuckAt 0 1 = false ∧ (asking1.slot 0 0).fseq = 0 ∧ (asking1.slot 0 0).st = .run ∧
    ((asking1.dropPacket 0).reserveAt 1 false).isSome = true := by decide +kernel

/-- An MMA with all fields zero. -/
def plain : Long := ⟨.always, 0, 385, 0, 0, 0, 0, 0, 0⟩

theorem test_witness_command : (thread [(0, .val 1), (1, .val 2), (2, .val 3)]).isShadow = false ∧
    (thread [(0, .val 1), (1, .val 2), (2, .val 3)]).has (.mma plain) (.val 0) (.val 0) (.val 0) ∧
    (thread [(0, .val 1), (1, .val 2), (2, .val 3)]).has (.pfxUnref plain) (.val 0) (.val 0) (.val 0) := by
  unfold State.has; decide +kernel

/-! ### System instructions -/

theorem test_witness_csr : (two 5 0).maySync (.csrrd .always 0 385) 0 false (.val 5) (.val 0) ∧ (two 5 0).drained 0 0 = true ∧
    (two 5 0).csrRead 0 0 (wbits 0 11 0) ≠ none ∧ (two 5 0).csrRead 0 0 (wbits 0xFFF 11 0) = none ∧
    (locked [(0, .val 5), (1, .val 6)]).mayPerform (.csrwr .always 0 385) true false (.val 5) (.val 6) (.val 0) := by
  refine ⟨⟨⟨.val 0, by unfold State.has; decide +kernel⟩, by decide +kernel⟩, by decide +kernel, by decide +kernel, by decide +kernel, ?_⟩
  unfold State.mayPerform State.has; decide +kernel

/-- A state at its lock whose TCM holds, at 0x100, the image of `seg`. -/
def imaged : State := (((locked [(0, .val 0x100), (1, .val 7)]).wrWord (tcmLoc 0 0x100) (seg.setWidth 64)).wrWord
  (tcmLoc 0 0x108) ((seg >>> 64).setWidth 64))

theorem test_witness_segment : imaged.mayPerform (.segld .always 0 385) true false (.val 0x100) (.val 7) (.val 0) ∧
    imaged.mayPerform (.segst .always 0 385) true false (.val 0x100) (.val 7) (.val 0) ∧
    (ordAccess imaged imaged.me 0x100 16 16 .load false 1 (some 0x24)).1 = .ok ⟨0x100, locRange (tcmLoc 0 0x100) 16, false, none⟩ ∧
    imaged.portSays 0 (locRange (tcmLoc 0 0x100) 16) = .go ∧ imaged.anyPois (tcmLoc 0 0x100) 16 = false ∧
    segOk (BitVec.ofNat 128 (imaged.rdMem (tcmLoc 0 0x100) 16)) = true ∧ imaged.twinSlot 0 0 = none := by
  unfold State.mayPerform State.has; decide +kernel

/-- Core 0's slot 0 at its lock, with an identity token that names slot 1 and with that slot in a state. -/
def naming (x : SlotState) : State := (locked [(0, .val 0x100000), (1, .val 0)]).updSlot 0 1 fun y => { y with st := x }

theorem test_witness_slotNamed : (naming .frozen).slotNamed 0x100000 = some (0, 1) ∧ (naming .frozen).isOwn 0 1 = false ∧
    (naming .frozen).mayPerform (.wake .always 0 385) true false (.val 0x100000) (.val 0) (.val 0) ∧
    ((naming .frozen).cmdResume 0 1).isSome = true ∧ (naming .free).cmdResume 0 1 = none ∧
    (naming .run).mayPerform (.slotpark .always 0 385) true false (.val 0x100000) (.val 0) (.val 0) ∧
    ((naming .run).cmdPark 0 1).isSome = true ∧ (naming .free).cmdPark 0 1 = none ∧
    (naming .frozen).mayPerform (.slotfree .always 0 385) true false (.val 0x100000) (.val 0) (.val 0) ∧
    (0x100000 : Word).getLsbD 63 = false ∧ ((naming .frozen).cmdKill 0 1).isSome = true ∧ (naming .free).cmdKill 0 1 = none ∧
    ((naming .frozen).cmdRetire 0 1).isSome = true ∧ (naming .free).cmdRetire 0 1 = none := by
  unfold State.mayPerform State.has; decide +kernel

theorem test_witness_slotRetire : (locked [(0, .val 0x8000000000100000), (1, .val 0)]).slotNamed 0x8000000000100000 = some (0, 1) ∧
    (locked [(0, .val 0x8000000000100000), (1, .val 0)]).mayPerform (.slotfree .always 0 385) true false (.val 0x8000000000100000)
      (.val 0) (.val 0) := by unfold State.mayPerform State.has; decide +kernel

theorem test_witness_ctxswap : (naming .park).mayPerform (.ctxswap .always 0 385) true false (.val 0x100000) (.val 0) (.val 0) := by
  unfold State.mayPerform State.has; decide +kernel

theorem test_witness_systemWaves : (locked [(0, .val 0)]).mayPerform (.tlbinv .always 0) true false (.val 0) (.val 0) (.val 0) ∧
    wbits 0x3000000000000000 62 60 < 4 ∧ wbits 0 62 60 < 4 ∧
    (locked [(0, .val 0)]).mayPerform (.qwave .always 0 385) true false (.val 0) (.val 0) (.val 0) ∧
    (locked [(0, .val 0)]).mayPerform (.scrub .always 0 385) true false (.val 0) (.val 0) (.val 0) ∧
    (locked [(0, .val 0)]).asking = false ∧ wbits 0 13 12 < 3 ∧ ((locked []).vault (wbits 0 11 0)).scrub = none := by
  unfold State.mayPerform State.has; decide +kernel

/-- The same with launch 32 active. -/
def cutting : State := (locked [(0, .val 32)]).updDie 0 fun d => { d with table := [(1, { st := .active, lrec := { slices := 4 } })] }

theorem test_witness_marker : cutting.mayPerform (.marker .always 0 385) true false (.val 32) (.val 0) (.val 0) ∧ cutting.asking = false ∧
    cutting.lidLive (wbits 32 15 0) = true ∧ (cutting.entry (wbits 32 15 0)).st = .active ∧
    (cutting.entry (wbits 32 15 0)).suspended = false ∧ (cutting.entry (wbits 32 15 0)).mayCut = true := by
  unfold State.mayPerform State.has; decide +kernel

/-- Core 2's slot 0 holds a primary with an uncompared block; core 0's slot 0 names it. -/
def paired : State := (locked [(0, .val 2)]).updSlot 2 0 fun x =>
  { x with st := .run, ctx := { x.ctx with tsw := tswOf false true 0 }, twin := some { blocks := 1 } }

theorem test_witness_twin : paired.mayPerform (.twin .always 0 385) true false (.val 2) (.val 0) (.val 0) ∧
    paired.slotNamed 2 = some (2, 0) ∧ paired.leadSlot 2 0 = (2, 0) ∧ (paired.slot 2 0).twin ≠ none ∧
    (paired.slot 2 0).uncompared = true := by unfold State.mayPerform State.has; decide +kernel

/-! ### Blocks, faults, slots -/

/-- A running thread whose PC is at TCM offset 0x1000, where a block of one DONE lies. -/
def fetching : State :=
  ((((State.reset.updSlot 0 0 fun x => { x with st := .run, ctx := { x.ctx with pc := 0x1000, seg := [(0, seg ||| BitVec.ofNat 128 (2 ^ 106))] } }).wrMem
    (tcmLoc 0 0x1000) 16 (0xB * 2 ^ 124)).wrMem (tcmLoc 0 0x1010) 4 0xDE000000))

theorem test_witness_blockFetch : (fetching.slot 0 0).st = .run ∧ fetching.stays 0 0 = false ∧ (fetching.slot 0 0).atEnd = false ∧
    (fetching.slot 0 0).frame.st = .idle ∧ (fetching.fetchBlock (fetching.who 0 0) 0x1000).1 ≠ .wait ∧
    (fetching.fetchBlock (fetching.who 0 0) 0x1001).1 = .bad { cause := 0x01, iv := false } ∧
    (fetching.core 0).ibrk.getLsbD 63 = false := by decide +kernel

theorem test_header : headerFault (BitVec.ofNat 128 (0xB * 2 ^ 124)) = none ∧
    headerFault (BitVec.ofNat 128 (0xB * 2 ^ 124 + 1)) = some { cause := 0x02, iv := false } := by decide +kernel

/-- A thread whose block holds these words. -/
def blockOf (f : Frame → Frame) : State := (thread []).updFrame 0 0 f

/-- A block of an LDFE whose address has passed its checks, and whose exit has fired. -/
def locking : State := blockOf fun f =>
  { f with body := [0xB2000181], checked := true, ops := [(0, .val 0x100)], exits := [{ kind := .br, off := 1 }] }

theorem test_witness_blockLock : (locking.slot 0 0).st = .run ∧ locking.stays 0 0 = false ∧ (locking.slot 0 0).atEnd = false ∧
    (locking.slot 0 0).frame.performing = some (0, .ldfe .always 0 385) ∧ (locking.slot 0 0).frame.st = .exec ∧
    (locking.slot 0 0).frame.lock = false ∧ (locking.slot 0 0).frame.faults = [] ∧
    (locking.slot 0 0).frame.outsideReady = true ∧ (locking.slot 0 0).uncompared = false ∧ locking.drained 0 0 = true ∧
    (locking.slot 0 0).frame.sinks = [] ∧
    locking.earlyFaults 0 0 (locking.slot 0 0).frame = [] ∧ tswShadow (locking.slot 0 0).ctx.tsw = false := by decide +kernel

/-- The same with an exit LOOP whose register PMASK marks. -/
def lockingEarly : State := (locking.updFrame 0 0 fun f => { f with exits := [{ kind := .loop 3, off := 1 }] }).updSlot 0 0 fun x =>
  { x with pmask := 8 }

theorem test_witness_earlyFault : (lockingEarly.slot 0 0).frame.outsideReady = true ∧
    lockingEarly.earlyFaults 0 0 (lockingEarly.slot 0 0).frame ≠ [] := by decide +kernel

/-- A complete block that writes register 1 and branches to the next 16 bytes. -/
def complete : State := blockOf fun f =>
  { f with header := BitVec.ofNat 128 (0xB * 2 ^ 124 + 2 ^ 70), regs := [(1, .val 5)], exits := [{ kind := .br, off := 1 }] }

theorem test_witness_blockCommit : (complete.slot 0 0).st = .run ∧ (complete.slot 0 0).twin = none ∧
    (complete.slot 0 0).frame.st = .exec ∧ complete.stays 0 0 = false ∧ (complete.slot 0 0).stop = 0 ∧
    (complete.slot 0 0).stepping = false ∧ (complete.slot 0 0).next = {} ∧ (complete.slot 0 0).frame.complete = true ∧
    (complete.slot 0 0).frame.faults = [] ∧ (complete.slot 0 0).frame.exits = [{ kind := .br, off := 1 }] ∧
    (complete.slot 0 0).frame.commands = [] ∧ (complete.slot 0 0).frame.segNew = [] ∧
    (complete.slot 0 0).frame.tswNew = none ∧ (complete.slot 0 0).frame.gph = none ∧
    (complete.slot 0 0).htStop = false ∧ (complete.slot 0 0).shadow = false ∧
    complete.ownFaults 0 0 (complete.slot 0 0).frame = [] ∧
    complete.roomFor 0 0 (complete.slot 0 0).frame [] = true := by decide +kernel

/-- The same with another exit, one command and a store. -/
def completeBy (e : ExitFired) : State := complete.updFrame 0 0 fun f =>
  { f with exits := [e], pend := [(0, .command { eng := 0, cmd := 0, slot := 0, ticket := 5 }), (1, .store entry0)] }

theorem test_witness_commitOther : ∀ e ∈ [ExitFired.mk (.trap 5) 1 0, ⟨.done, 1, 0⟩, ⟨.migrate 5, 1, 0⟩, ⟨.yieldX, 1, 0⟩, ⟨.loop 3, 1, 0⟩],
    ((completeBy e).slot 0 0).frame.complete = true ∧ (completeBy e).ownFaults 0 0 ((completeBy e).slot 0 0).frame = [] ∧
    ((completeBy e).slot 0 0).frame.exits = [e] ∧
    ((completeBy e).slot 0 0).frame.commands = [{ eng := 0, cmd := 0, slot := 0, ticket := 5 }] ∧ Safe (completeBy e) ∧
    (completeBy e).roomFor 0 0 ((completeBy e).slot 0 0).frame (((completeBy e).slot 0 0).frame.commands.map fun y =>
      { y with seg := (((completeBy e).slot 0 0).written ((completeBy e).slot 0 0).frame).ctx.seg }) = true := by
  unfold Safe; decide +kernel

theorem test_commit_registers : (match exec (.blockCommit 0 0) complete with
    | .next t => (t.slot 0 0).ctx.reg 1 == 5 && (t.slot 0 0).ctx.pc == 16
    | _ => false) = true := by decide +kernel

theorem test_witness_faultEntry : ∃ s, s = blockOf (fun f => { f with
      exits := [{ kind := .br, off := 1 }], header := BitVec.ofNat 128 (0xB * 2 ^ 124), faults := [{ cause := 0x30 }] }) ∧
    (s.slot 0 0).st = .run ∧ (s.slot 0 0).frame.st = .exec ∧ (s.slot 0 0).stop = 0 ∧
    lowestFault (s.slot 0 0).frame.faults = some { cause := 0x30 } ∧ s.stays 0 0 = false ∧
    (s.slot 0 0).frame.complete = true ∧ s.ownFaults 0 0 (s.slot 0 0).frame = [] ∧ (s.slot 0 0).frame.anyReady = false ∧ (thread []).cur.frame.anyReady = false ∧
    (thread []).cur.frame.faults = [] ∧ ¬(0x60 ≤ 0x30 ∧ 0x30 ≤ 0x63) ∧ (thread []).cur.twin = none :=
  ⟨_, rfl, by decide +kernel⟩

/-- A record of no launch on its way to quarter 2. -/
def reporting : State := carrying (.fault 2 (mkRecord 1 2 3 4 0 0 0 true 5 6 0 0 7))

theorem test_witness_faultRing : Safe reporting ∧ reporting.net.findIdx? (fun p => match p with
      | .fault q _ => q == 2
      | _ => false) = some 0 ∧ reporting.net[0]? = some (.fault 2 (mkRecord 1 2 3 4 0 0 0 true 5 6 0 0 7)) ∧
    recLid (mkRecord 1 2 3 4 0 0 0 true 5 6 0 0 7) = 0 ∧ recLid (mkRecord 1 2 3 4 32 0 0 true 5 6 0 0 7) = 32 ∧
    launched.lidLive 32 = true ∧ launched.sharers 32 = [32] ∧ (launched.entry 32).lrec.abortOnFault = false ∧
    reporting.rdWord (tcmLoc 4098 0x7FE0) - reporting.rdWord (tcmLoc 4098 0x7FE8) ≠ 1024 ∧
    Safe (reporting.wrWord (tcmLoc 4098 0x7FE0) 1024) ∧
    (reporting.wrWord (tcmLoc 4098 0x7FE0) 1024).rdWord (tcmLoc 4098 0x7FE0) -
      (reporting.wrWord (tcmLoc 4098 0x7FE0) 1024).rdWord (tcmLoc 4098 0x7FE8) = 1024 := by
  unfold Safe; decide +kernel

theorem test_ring_full : ((reporting.wrWord (tcmLoc 4098 0x7FE0) 1024).ringRecord 2 5).rdWord (tcmLoc 4098 0x7FF0) = 1 ∧
    ((reporting.wrWord (tcmLoc 4098 0x7FE0) 1024).ringRecord 2 5).rdWord (tcmLoc 4098 0x7FE0) = 1024 := by decide +kernel

/-- Slot 0 of core 0 in a state, with a WAIT register. -/
def slotIn (st : SlotState) (w : Word) : State := State.reset.updSlot 0 0 fun x => { x with st := st, ctx := { x.ctx with wait := w } }

theorem test_witness_slotCommand : ((slotIn .frozen (waitOf 9 0)).slot 0 0).twin = none ∧
    waitHt ((slotIn .frozen (waitOf 9 0)).slot 0 0).ctx.wait = false ∧
    ((slotIn .frozen (waitOf 9 0)).slot 0 0).committing = false ∧ mayResume ((slotIn .frozen (waitOf 9 0)).slot 0 0) = true ∧
    mayResume ((slotIn .park (waitOf 6 0)).slot 0 0) = true ∧ mayResume ((slotIn .park (waitOf 8 0)).slot 0 0) = true ∧
    mayResume ((slotIn .park (waitOf 3 0)).slot 0 0) = false ∧ mayResume ((slotIn .run 0).slot 0 0) = false ∧
    ((slotIn .run 0).slot 0 0).st = .run ∧ ((slotIn .park (waitOf 3 0)).slot 0 0).st ≠ .free ∧
    tswShadow ((slotIn .frozen (waitOf 9 0)).slot 0 0).ctx.tsw = false ∧
    waitHt ((slotIn .park (waitOf 8 0 ||| word (2 ^ 59))).slot 0 0).ctx.wait = true ∧
    mayResume ((slotIn .park (waitOf 8 0 ||| word (2 ^ 59))).slot 0 0) = true ∧ ((slotIn .out 0).slot 0 0).st = .out := by
  decide +kernel

theorem test_resume_restarts : (match exec (.scmdResume 0 0) (slotIn .frozen (waitOf 9 0)) with
    | .next t => (t.slot 0 0).st == .run && (t.slot 0 0).ctx.wait == 0
    | _ => false) = true := by decide +kernel

theorem test_witness_slotLoad : ((slotIn .load 0).slot 0 0).st = .load ∧ ((slotIn .load 0).slot 0 0).lost = false ∧
    waitKind ((slotIn .load 0).slot 0 0).ctx.wait = 0 ∧ (slotIn .load 0).levelOf 0 ≠ 2 := by decide +kernel

theorem test_witness_slotOut : ∃ s, s = (slotIn .out 0).updSlot 0 0 (fun x => { x with outTo := some 5 }) ∧
    (s.slot 0 0).st = .out ∧ s.drained 0 0 = true ∧ s.unack.any (·.tid == (s.slot 0 0).tid) = false ∧ (s.slot 0 0).outTo = some 5 ∧
    ∃ t, t = (slotIn .out 0).updSlot 0 0 (fun x => { x with outEntry := some 3 }) ∧ (t.slot 0 0).outTo = none ∧
      (t.slot 0 0).outEntry = some 3 ∧ tswShadow (t.slot 0 0).ctx.tsw = false :=
  ⟨_, rfl, by decide +kernel, by decide +kernel, by decide +kernel, by decide +kernel, _, rfl, by decide +kernel⟩

/-- Slot 0 of core 0 waits with KIND 3 at TCM offset 0x100. -/
def waits : State := slotIn .park (waitOf 3 0x100)

/-- Its waiter. -/
def waiter : Waiter := { loc := tcmLoc 0 0x100, kind := 3, core := 0, slot := 0 }

theorem test_witness_wake : ({ waits with net := [.wake waiter] } : State).net[0]? = some (.wake waiter) ∧
    (waits.slot 0 0).st = .park ∧ (waits.slot 0 0).twin = none ∧ waitKind (waits.slot 0 0).ctx.wait = waiter.kind ∧
    waitHt (waits.slot 0 0).ctx.wait = false ∧ waiter.entry = none ∧ waiter.kind ≠ 4 ∧
    ((waits.updCore 0 fun x => { x with retry := [(0, waiter)] }).core 0).retry[0]? = some (0, waiter) ∧
    ((waits.wantSlot 0).slot 0 0).st = .park := by decide +kernel

theorem test_wake_runs : (((waits.deliverWake waiter).slot 0 0).st, ((waits.deliverWake waiter).slot 0 0).ctx.wait) =
    (.run, 0) := by decide +kernel

theorem test_witness_message_arrives : ∃ s, s = carrying (.msg 0 { kind := 3, dcore := 1 } none) ∧
    s.packet? 0 = some (.msg 0 { kind := 3, dcore := 1 } none) ∧ s.isIdle 1 = false ∧ s.behind 0 0 1 = false ∧
    ((s.dropPacket 0).acceptMsg 1 { kind := 3, dcore := 1 } none).isSome = true := ⟨_, rfl, by decide +kernel⟩

theorem test_witness_migration : ∃ s, s = carrying (.migr 0 1 {} 1 false) ∧ s.packet? 0 = some (.migr 0 1 {} 1 false) ∧
    s.net[0]? = some (.migr 0 1 {} 1 false) ∧ s.isIdle 1 = false ∧ s.migrWaits 0 0 1 0 = false ∧
    (s.dropPacket 0).openSlot 1 = some 0 := ⟨_, rfl, by decide +kernel⟩

theorem test_witness_release : ∃ s, s = (carrying (.resvRel 0 1 4)).updCore 1 (fun x => { x with resv := [⟨4, none, false⟩] }) ∧
    s.packet? 0 = some (.resvRel 0 1 4) ∧ (s.core 1).resv.find? (·.handle == 4) = some ⟨4, none, false⟩ :=
  ⟨_, rfl, by decide +kernel⟩

/-! ### Launches -/

/-- A page table at 0x1000 that maps the large page 0x2000000 to vault offset 0x200000. -/
def mapped (s : State) : State :=
  (((s.wrWord 0x1000 (word (2 ^ 63 + 0x2000))).wrWord 0x2000 (word (2 ^ 63 + 0x3000))).wrWord 0x3000
    (word (2 ^ 63 + 0x4000))).wrWord 0x4080 (word (2 ^ 63 + 2 ^ 62 + 2 ^ 61 + 2 ^ 60 + 2 ^ 58 + 0x200000))

/-- Die 0 with its descriptors at vault offset 0x40000 and queue 0 enabled: a ring of 2 at 0x2000000 whose record 0 is
full. -/
def queued : State :=
  ((((mapped (State.reset.updDie 0 fun d => { d with dqbase := 0x40000, queues := [(0, { lastSeen := true, credit := 2 })] })).wrWord
    0x40000 0x2000000).wrWord 0x40008 0x1000).wrWord 0x40018 0x101102).setFull 0x200038 true

theorem test_witness_record : queued.desc 0 0 = some ⟨0x40000, 0x2000000, 0x1000, 0, 2, 1, true, false, 16, true⟩ ∧
    (queued.queue 0 0).lastSeen = true ∧
    ((List.range 512).all fun e => (queued.entryAt 0 e).st == .waiting) = false ∧
    (queued.updDie 0 fun y => { y with f3 := false }).freeEntryOf 0 = some 0 ∧
    (queued.updDie 0 fun y => { y with f3 := false }).queueLoad 0 0 < 32 ∧
    (queued.updDie 0 fun y => { y with f3 := false }).slotFull ⟨0x40000, 0x2000000, 0x1000, 0, 2, 1, true, false, 16, true⟩ 0 = true ∧
    (queued.updDie 0 fun y => { y with f3 := false }).slotWaits ⟨0x40000, 0x2000000, 0x1000, 0, 2, 1, true, false, 16, true⟩ 0 = false ∧
    queued.prepareWaits 0x1000 (recOf (queued.slotRecord ⟨0x40000, 0x2000000, 0x1000, 0, 2, 1, true, false, 16, true⟩ 0)) = false := by
  decide +kernel

/-- Entry 1 of die 0 in a state. -/
def entryIn (e : Entry) : State := State.reset.updDie 0 fun d => { d with table := [(1, e)] }

theorem test_witness_take : (entryIn { st := .waiting, lrec := { indep := true } }).depsOf
      ((entryIn { st := .waiting, lrec := { indep := true } }).entryAt 0 1) = .met ∧
    (entryIn { st := .waiting, lrec := { indep := true, deps := [1] } }).depsOf
      ((entryIn { st := .waiting, lrec := { indep := true, deps := [1] } }).entryAt 0 1) = .wait ∧
    ((entryIn { st := .waiting, lrec := { indep := true } }).entryAt 0 1).held = false ∧
    (entryIn { st := .waiting, lrec := { indep := true } }).depsWait 0 { indep := true } = false ∧
    (entryIn { st := .waiting, lrec := { indep := true } }).doneWaits 0 { indep := true } = false ∧
    (({ entryIn { st := .ended } with time := 1000000 } : State).entryAt 0 1).endedAt + 1000000 ≤ 1000000 := by decide +kernel

/-- A waiting launch that depends on launch 1 of its area, which ended with status 7. -/
def dependent : State :=
  (mapped (entryIn { st := .waiting, root := 0x1000, lrec := { indep := true, deps := [1], larea := 0x2000000 } })).wrWord 0x200040 7

theorem test_witness_takeFailed : (dependent.entryAt 0 1).st = .waiting ∧ dependent.depsOf (dependent.entryAt 0 1) = .failed := by
  decide +kernel

theorem test_witness_guest : ((entryIn { st := .active, lrec := { dmask := 0x10000 } }).entryAt 0 1).st = .active ∧
    maskOf 0x10000 1 ≠ 0 ∧ (entryIn { st := .active, lrec := { dmask := 0x10000 } }).freeEntryOf 1 = some 0 ∧
    ((entryIn { st := .active, lrec := { dmask := 0x10000 } }).entryAt 0 1).guests.contains 1 = false := by decide +kernel

theorem test_witness_batch : ∃ s, s = launched.updDie 1 (fun d => { d with guests := [{ home := 0, homeEntry := 1, shadow := 0 }] }) ∧
    (s.die 1).guests[0]? = some { home := 0, homeEntry := 1, shadow := 0 } ∧ (s.entryAt 0 1).st = .active ∧
    (s.entryAt 0 1).held = false ∧ min 64 ((s.entryAt 0 1).lrec.slices - (s.entryAt 0 1).next) = 4 := ⟨_, rfl, by decide +kernel⟩

theorem test_witness_cdis : ∃ s, s = (State.reset.updDie 0 fun d => { d with dqbase := 0x40000 }).setFull 0x80080 true ∧
    (s.die 0).dqbase ≠ 0 ∧ physLoc ((s.die 0).dqbase.toNat + 0x40000) = some 0x80000 ∧
    s.mem.isFull (0x80000 + 128) = true ∧ s.layerBusy 0x80000 = false ∧ s.rdMem (0x80000 + 136) 120 = 0 := ⟨_, rfl, by decide +kernel⟩

/-- An active launch in queue 0 of a die whose square 0 is on. -/
def granting : State := (queued.updDie 0 fun d => { d with cycleAt := 0, cycleGrants := 0, cands := [0], table := [(1, { st := .active, lrec := { slices := 4, dmask := 1 } })] }).updSquare 0
  fun q => { q with on := true }

theorem test_witness_grant : ((granting.die 0).cycleAt = granting.time ∧ (granting.die 0).cycleGrants < 4) ∧
    ¬((State.reset.die 0).cycleAt = State.reset.time ∧ (State.reset.die 0).cycleGrants < 4) ∧ granting.nextCore 0 = some 0 ∧ State.reset.nextCore 0 = none ∧
    ((granting.updDie 0 fun x => { x with corePtr := 1 }).pickFrom 0 0 [7, 6, 5, 4, 3, 2, 1, 0]).1 = some (0, 0) ∧
    ∃ x, (((granting.updDie 0 fun x => { x with corePtr := 1 }).pickFrom 0 0 [7, 6, 5, 4, 3, 2, 1, 0]).2.offer 0 0 0) = some x ∧
      1 < ((((granting.updDie 0 fun x => { x with corePtr := 1 }).pickFrom 0 0 [7, 6, 5, 4, 3, 2, 1, 0]).2.startSlice 0 0 x).queue 0
        0).credit := by
  refine ⟨by decide +kernel, by decide +kernel, by decide +kernel, by decide +kernel, by decide +kernel, _, rfl, by decide +kernel⟩

/-- Core 5 is a candidate that no queue offers a launch. -/
def passing : State := State.reset.updDie 0 fun d => { d with cycleAt := 0, cycleGrants := 0, cands := [5] }

theorem test_witness_passedOver : ((passing.die 0).cycleAt = passing.time ∧ (passing.die 0).cycleGrants < 4) ∧
    passing.nextCore 0 = some 5 ∧
    ((passing.updDie 0 fun x => { x with corePtr := 6 }).pickFrom 0 5 [7, 6, 5, 4, 3, 2, 1, 0]).1 = none := by decide +kernel

/-- A start of slice 0 of launch 32 on its way to core 0. -/
def starting : State := { launched.updLaunch 32 (fun e => { e with started := true }) with net := [.start 0 32 0 0 false { kind := 0, lid := 32 }] }

theorem test_witness_start : starting.packet? 0 = some (.start 0 32 0 0 false { kind := 0, lid := 32 }) ∧ starting.lidLive 32 = true ∧
    (starting.entry 32).st = .active ∧ (starting.entry 32).held = false ∧ starting.isIdle 0 = false ∧
    starting.stuckAt 0 0 = false ∧ (starting.dropPacket 0).startSlots 0 32 0 false = some (0, 0) ∧
    (starting.entry 32).started = true := by decide +kernel

theorem test_witness_sliceEnd : ({ launched with net := [.sliceEnd 32 0 false] } : State).packet? 0 = some (.sliceEnd 32 0 false) ∧
    (({ launched with net := [.sliceEnd 32 0 false] } : State).dropPacket 0).lidLive 32 = true := by decide +kernel

/-- Core 0 full of parked threads of launch 32, whose launch has reserve entries, and a spill request for it. -/
def spilling : State :=
  { [0, 1, 2, 3].foldl (fun s k => s.updSlot 0 k fun x => { x with st := .park, ctx := { x.ctx with tsw := tswOf false false 32 } })
      (launched.updLaunch 32 fun e => { e with lrec := { e.lrec with ctxres := 8 } }) with net := [.spill 0 32] }

theorem test_witness_spill : spilling.net.findIdx? (· == .spill 0 32) = some 0 ∧ spilling.lidLive 32 = true ∧
    (spilling.entry 32).st = .active ∧ (spilling.dropPacket 0).anyFree 0 = false ∧
    (spilling.longestParked 0 fun y => (spillable y && spilling.reserveRoom y) &&
      decide (spilling.lidClass (tswLid y.ctx.tsw) ≤ spilling.lidClass 32)) = some 0 := by decide +kernel

theorem test_witness_ends : ∃ s, s = entryIn { st := .draining, quiescent := true, ended := [(0, 1)] } ∧ (s.entryAt 0 1).st = .draining ∧
    (s.entryAt 0 1).held = false ∧ (s.entryAt 0 1).ended = [(0, (s.entryAt 0 1).lrec.slices)] ∧
    s.launchEmpty (s.lidAt 0 1) = true ∧ s.holdsSums (s.lidAt 0 1) = false ∧ s.allEnded (s.lidAt 0 1) = true ∧
    s.writesWait (s.lidAt 0 1) (s.doneScope (s.lidAt 0 1)) = false ∧
    s.doneWaits (s.entryAt 0 1).root (s.entryAt 0 1).lrec = false := ⟨_, rfl, by decide +kernel⟩

theorem test_witness_waves : ∃ s, s = entryIn { st := .draining } ∧ (s.entryAt 0 1).quiescent = false ∧ (s.entryAt 0 1).wave = none ∧
    (s.entryAt 0 1).waveDue ≤ s.time ∧
    ((entryIn { st := .draining, wave := some (3, 3, 0) }).entryAt 0 1).wave = some (3, 3, 0) ∧
    ((entryIn { st := .draining, wave := some (3, 3, 0), waveSeen := [5] }).entry 32).waveSeen.contains 5 = true ∧
    ((entryIn { st := .draining, wave := some (3, 3, 0) }).entry 32).waveSeen.contains 5 = false ∧
    (entryIn { st := .draining }).cores = [] ∧ (entryIn { st := .draining }).ports = [] := ⟨_, rfl, by decide +kernel⟩

theorem test_witness_forcedEnd : ∃ s, s = entryIn { st := .ending, killWave := true, status := 4 } ∧
    ((s.allSlotsOf (s.lidAt 0 1)).filter fun k => (s.slot k.1 k.2).committing || (s.slot k.1 k.2).uncompared) = [] ∧ (s.entryAt 0 1).status ≠ 0 ∧
    (s.cores.any fun c => c.2.cmds.any (·.lid == s.lidAt 0 1)) = false := ⟨_, rfl, by decide +kernel⟩

/-! ### Cuts, twins, replays, engines -/

/-- Launch 32 being cut, with square 0 still to report, and a packet in flight. -/
def cutWith (p : Packet) (lack : Nat) : State :=
  { launched.updLaunch 32 (fun e => { e with cutWait := [0], cutLack := lack }) with net := [p] }

theorem test_witness_cutOrder : (cutWith (.cutOrder 0 32) 0).packet? 0 = some (.cutOrder 0 32) ∧
    (cutWith (.cutOrder 0 32) 0).cutRuns 32 = true ∧
    ((routerCores 0).all (((cutWith (.cutOrder 0 32) 0).reached 0 32).drainedAt 32) &&
      !((cutWith (.cutOrder 0 32) 0).reached 0 32).cutWaits 0 32) = true ∧
    (routerCores 0).all ((((cutWith (.cutOrder 0 32) 0).updCore 0 fun x =>
      { x with sb := [{ entry0 with lid := 32 }] }).reached 0 32).drainedAt 32) = false := by decide +kernel

theorem test_witness_cutMarker : (cutWith (.cutMarker 1 0 2 32) 0).cutRuns 32 = true ∧
    (cutWith (.cutMarker 1 0 2 32) 0).net[0]? = some (.cutMarker 1 0 2 32) ∧
    (cutWith (.cutMarker 1 0 2 32) 0).linkTraffic 0 1 0 32 = false ∧
    (cutWith (.cutMarker 1 0 2 32) 0).cutWaits 0 32 = false := by decide +kernel

/-- Launch 32 being cut, with every marker of square 0 in. -/
def cutMarked : State := launched.updLaunch 32 fun e =>
  { e with cutWait := [0], cutSent := [0], cutIn := (routerInputs 0).flatMap fun x => markerNets.map fun y => (x, 0, y) }

theorem test_witness_cutWrite : (cutMarked.entry 32).cutSent.contains 0 = true ∧
    (∀ x ∈ routerInputs 0, ∀ y ∈ markerNets, (cutMarked.entry 32).cutIn.contains (x, 0, y) = true) ∧
    (∃ x ∈ routerInputs 0, ∃ y ∈ markerNets, (launched.entry 32).cutIn.contains (x, 0, y) = false) := by decide +kernel

theorem test_witness_cutReport : ∀ n ∈ [0, 1],
    (((cutWith (.cutReport 0 32 n) 0).dropPacket 0).updLaunch 32 (fun x =>
        { x with cutWait := x.cutWait.filter (· != 0), cutLack := x.cutLack + n })).entry 32 =
      { launched.entry 32 with cutWait := [], cutLack := n } ∧ (cutWith (.cutReport 0 32 n) 0).cutRuns 32 = true := by decide +kernel

/-- A pair in slot 0 of cores 0 and 1 with these comparison states. -/
def pairOf (t u : TwinState) : State :=
  (State.reset.updSlot 0 0 fun x => { x with st := .run, ctx := { x.ctx with tsw := tswOf false true 0 }, twin := some t }).updSlot 1 0 fun x =>
    { x with st := .run, ctx := { x.ctx with tsw := tswOf false true 0 ||| word (2 ^ 61) }, twin := some u }

theorem test_witness_pairComparison : ((pairOf { forced := true } {}).slot 0 0).shadow = false ∧
    (pairOf { forced := true } {}).twinSlot 0 0 = some 0 ∧ ((pairOf { forced := true } {}).slot (twinCore 0) 0).twin = some {} ∧
    (pairOf { forced := true } {}).comparable 0 0 0 { forced := true } {} = true ∧
    (pairOf {} {}).comparable 0 0 0 {} {} = false ∧ ((pairOf { forced := true } {}).slot 0 0).htStop = false ∧
    ({} : TwinState).asks = [] ∧ ({ mism := 2 } : TwinState).mism = 2 ∧
    ((pairOf { forced := true } {}).slot 0 0).stop = 0 ∧ ({} : TwinState).passing = false ∧ ({} : TwinState).chkLost = false ∧ ({ fp := 1, mism := 1 } : TwinState).fp ≠ ({} : TwinState).fp := by decide +kernel

/-- What a pair holds back, more than its store buffer takes. -/
def holding (n : Nat) : TwinState :=
  { forced := true, gated := List.replicate n { entry0 with stamp := 1 }
    gatedCmds := [{ eng := 0, cmd := 0, slot := 0, ticket := 5, stamp := 2 }] }

theorem test_witness_heldBack : (((pairOf (holding 1) {}).releaseGated 0 (holding 1).items).2 = []) ∧
    (((pairOf (holding 40) {}).releaseGated 0 (holding 40).items).2 ≠ []) ∧
    faultsAgree (some { cause := 0x30 }) (some { cause := 0x30 }) = true ∧
    ({ chk := {} } : TwinState).passing = false ∧ ((pairOf (holding 1) {}).slot 0 0).twin = some (holding 1) := by decide +kernel

theorem test_witness_divergence : ∃ s, s = { launched.updLaunch 32 (fun e =>
      { e with st := .active, lrec := { e.lrec with replay := true }, units := [(5, [⟨1, 5, 0, 0⟩])] }) with time := 10000000 } ∧
    s.lidLive (s.lidAt 0 1) = true ∧ (s.entryAt 0 1).enforcing = true ∧ s.expects (s.lidAt 0 1) 5 ≠ none ∧
    s.anyRunnable (s.lidAt 0 1) = false ∧ Tab.rd 0 (s.entryAt 0 1).unmetSince 5 + 10000000 ≤ s.time := ⟨_, rfl, by decide +kernel⟩

/-- The same with 64 messages held at core 5, none of which its mould entry names. -/
def stuckReplay : State :=
  { launched.updLaunch 32 (fun e => { e with st := .active, lrec := { e.lrec with replay := true }, units := [(5, [⟨1, 5, 0, 7⟩])] }) with
    net := List.replicate 64 (.msg 0 { kind := 3, dcore := 5, lid := 32 } none) }

theorem test_witness_stuckReplay : stuckReplay.lidLive (stuckReplay.lidAt 0 1) = true ∧ (stuckReplay.entryAt 0 1).enforcing = true ∧
    unitCore 5 = 5 ∧ 64 ≤ (stuckReplay.heldEvents (stuckReplay.lidAt 0 1) 5).length ∧
    stuckReplay.expects (stuckReplay.lidAt 0 1) 5 = some ⟨1, 5, 0, 7⟩ ∧
    (∀ x ∈ stuckReplay.heldEvents (stuckReplay.lidAt 0 1) 5, (⟨1, 5, 0, 7⟩ : MouldEntry).isOf x = false) := by decide +kernel

/-- Core 0 with one command. -/
def commanded (x : Cmd) : State := { State.reset.updCore 0 (fun y => { y with cmds := [x] }) with time := 1000000 }

theorem test_witness_commandStart : ∃ x, x = { eng := 0, cmd := 0, slot := 0, ticket := 1 : Cmd } ∧
    ((commanded x).core 0).head 0 0 = some x ∧ ((commanded x).core 0).running 0 < engWidth 0 ∧
    ((commanded x).cores.any fun y => y.2.sb.any fun e => e.tid == x.tid && decide (e.stamp < x.stamp)) = false ∧
    ((commanded x).unack.any fun u => u.tid == x.tid && !u.posted && decide (u.stamp < x.stamp)) = false ∧
    (commanded x).levelOf 0 ≠ 2 ∧ x.flags.testBit 0 = false ∧ (x.eng ≠ 1 ∨ x.cmd = 3) ∧ (x.eng ≠ 3 ∨ x.cmd = 0) ∧
    ((commanded x).beginCmd 0 x).isSome = true ∧ cmdRanges (commanded x) 0 x = [] ∧
    ((commanded x).markRanges 0 x).isSome = true ∧ x.flags.testBit 1 = false ∧ Safe (commanded x) :=
  ⟨_, rfl, by unfold Safe; decide +kernel⟩

theorem test_witness_commandEnd : ∀ x ∈ [({ eng := 0, cmd := 0, slot := 0, ticket := 1, started := true } : Cmd),
      { eng := 0, cmd := 0, slot := 0, ticket := 1, started := true, early := some {} },
      { eng := 0, cmd := 0, slot := 0, ticket := 1, started := true, early := some {}, again := [1] },
      { eng := 3, cmd := 0, slot := 0, ticket := 1, started := true },
      { eng := 3, cmd := 1, slot := 0, ticket := 1, started := true },
      { eng := 3, cmd := 1, slot := 0, ticket := 1, started := true, matched := true, early := some {} }],
    ((commanded x).core 0).cmds[0]? = some x ∧ x.started = true ∧ (commanded x).inGroup 0 x = false ∧
      x.startedAt + 1000000 ≤ (commanded x).time := by decide +kernel

/-- A well-formed XSWAP of 64 bytes. -/
def xswap1 : Cmd := { eng := 3, cmd := 0, slot := 0, ticket := 1, started := true, f := BitVec.ofNat 160 (2 ^ 70) }

theorem test_witness_xswap : xswapBad false xswap1.f.toNat = false ∧ (commanded xswap1).xswapPeer 0 xswap1 = none ∧
    ((commanded xswap1).core 0).cmds[0]? = some xswap1 ∧ xswap1.matched = false ∧ xswapBad false 0 = true := by decide +kernel

/-- A command that reads and writes through a segment over the whole space. -/
def job0 : Job := ⟨0, { eng := 0, cmd := 0, slot := 0, ticket := 1, seg := [(0, seg)] }⟩

theorem test_witness_engineWords : ∃ w1, runs (engPlace job0 0x100 8 8 .engRead) { s := thread [] } (.ok (tcmLoc 0 0x100)) w1 ∧
    w1.s.mem.isPois (tcmLoc 0 0x100) = false ∧ Safe w1.s ∧ (w1.s.setPois (tcmLoc 0 0x100) true).mem.isPois (tcmLoc 0 0x100) = true ∧
    runs (engPlace job0 0x100 8 8 .engWrite) { s := thread [] } (.ok (tcmLoc 0 0x100)) w1 :=
  ⟨{ s := thread [] }, rfl, by decide +kernel, by unfold Safe; decide +kernel, by decide +kernel, rfl⟩

/-- An MMA of FP32 with K = 16 whose C is zero and whose result is written. -/
def mma1 : Job := ⟨0, { eng := 0, cmd := 0, slot := 0, ticket := 1, flags := 0x140
                        f := BitVec.ofNat 160 (0x10000 * 2 ^ 20 + 0x30000 * 2 ^ 64 + 128 * 2 ^ 84 + 16 * 2 ^ 104) }⟩

theorem test_witness_mma : mmaBad (mmaOp mma1.c) mma1.c.f.toNat none 0 = none ∧ (mmaOp mma1.c).keep = false ∧ (mmaOp mma1.c).w = true ∧
    (mmaOp mma1.c).acc ≠ 2 ∧ mmaBad (mmaOp job0.c) job0.c.f.toNat none 0 = some (8, 0x98) := by decide +kernel

theorem test_witness_castTable : codeLensOk (word 0) = true ∧ codeLensOk (word 0xFFFFFFFFFFFFFFFF) = false ∧ bits (2 ^ 68) 159 68 ≠ 0 := by
  decide +kernel

/-! ### Vaults, power, the link -/

theorem test_witness_vault : ∃ s, s = { State.reset.updVault 0 (fun v => { v with openRows := [(3, 7, 0)], busy := 0x80, camRes := 1 }) with
      time := 1000 } ∧ (s.vault 0).openRows.find? 3 = some (7, 0) ∧ 0 + 1000 ≤ s.time ∧ (s.vault 0).busy.getLsbD 7 = true ∧
    (s.vault 0).on.getLsbD 7 = true ∧ (s.vault 0).camRes = 1 ∧ goodSpare (s.vault 0) (s.vault 0).camBank = some 0 ∧
    goodSpare { s.vault 0 with badSpares := (List.range 64).map fun n => (0, n) } 0 = none ∧
    ((s.vault 0).on &&& 0x7F#8).getLsbD 7 = false ∧ s.layerInFlight 0 7 = false := ⟨_, rfl, by decide +kernel⟩

theorem test_witness_group : ∃ s, s = State.reset.updSquare 0 (fun q => { q with mcast := [([], 0)] }) ∧
    (s.square 0).mcast[0]? = some ([], 0) ∧ s.time < 0 + 32 ∧ (s.readGroup []).isSome = true ∧
    0 + 32 ≤ ({ s with time := 32 } : State).time := ⟨_, rfl, by decide +kernel⟩

theorem test_layer_clears : (match exec (.layerPowerOnComplete 0 7) ((State.reset.updVault 0 fun v => { v with busy := 0x80 }).wrMem
      (7 * 2 ^ 24) 1 5) with
    | .next t => t.byte (7 * 2 ^ 24) == 0 && (t.vault 0).busy == 0
    | _ => false) = true := by decide +kernel

theorem test_witness_power : ∃ s, s = { (State.reset.updSquare 0 fun q => { q with trans := true, ibud := 5, quietSince := some 0 }) with
      time := 10000000 } ∧ (s.square 0).trans = true ∧ (s.square 0).ibud ≠ 0xFFFF ∧ (s.square 0).ibud < 6 ∧
    (State.reset.square 0).ibud = 0xFFFF ∧ s.quiet 0 = true ∧ (s.square 0).idle = false ∧
    (s.square 0).quietSince = some 0 ∧ 0 + 10000 ≤ s.time ∧ (s.die 0).exitUs ≠ s.time / 1000 ∧
    (s.die 0).lastPchb + 10000000 ≤ s.time ∧ (s.die 0).hw = false := ⟨_, rfl, by decide +kernel⟩

theorem test_witness_damage : (nextLevel (State.reset.district 0).level
      ((((State.reset.district 0).bucket :: (State.reset.district 0).window).take 100).foldl (· + ·) 0)
      (State.reset.die 0).hard (State.reset.die 0).soft ≠ 0 ∨ (State.reset.district 0).level = 0) ∧
    State.reset.powerLimit 0 < 3000001 ∧ 0 * 100 ≤ State.reset.powerLimit 0 * 95 := by decide +kernel

/-- District 0 at level 2, with a thread of core 0's slot 0 running. -/
def hot : State := { slotIn .run 0 with districts := [(0, { level := 2 })] }

theorem test_witness_park : (hot.district 0).level = 2 ∧ ((districtCores 0).flatMap fun c => [0, 1, 2, 3].map fun k => (c, k)).find?
    (fun ck => htParks (hot.slot ck.1 ck.2) && !tswShadow (hot.slot ck.1 ck.2).ctx.tsw) = some (0, 0) := by decide +kernel

/-- Ports 0, of the host, and 1, of a peer, are up; the module is ready. -/
def linked : State :=
  { (State.reset.updPort 0 fun t => { t with up := true }).updPort 1 (fun t => { t with up := true }) with
    mgmt := { State.reset.mgmt with phase := .ready } }

theorem test_witness_training : (linked.port 2).up = false ∧ linked.mayTrain 2 = true ∧ (linked.port 2).retryAt ≤ linked.time ∧
    linked.time < ((linked.updPort 2 fun t => { t with retryAt := 5 }).port 2).retryAt ∧
    (0x00FF : BitVec 16).toNat % 256 = 255 ∧ (0x00FF : BitVec 16) ≠ 0xFFFF ∧
    (0xFF00 : BitVec 16).toNat % 256 ≠ 255 ∧ (0xFF00 : BitVec 16).toNat / 256 = 255 ∧
    (0x7FFE : BitVec 16).toNat % 256 ≠ 255 ∧ (0x7FFE : BitVec 16).toNat / 256 ≠ 255 := by decide +kernel

/-- Port 1 with a sender side and a receiver side of class 0. -/
def linkedAs (a : TxSide) (b : RxSide) : State := linked.updPort 1 fun t => { t with tx := [(0, a)], rx := [(0, b)] }

/-- A flit of SEQ 4 that has been replayed n times. -/
def flit4 (n : Nat) : HeldFlit := { seq := 4, flit := { hdr := 0, pay := [] }, replays := n }

theorem test_witness_link : ∃ s, s = linkedAs { buf := [flit4 15], replayFrom := 4, busySince := some 0 } { expect := 5, full := some 0 } ∧
    (s.port 1).up = true ∧ ((s.port 1).txSide (clsNo .req)).buf ≠ [] ∧ ((s.port 1).txSide (clsNo .req)).busySince = some 0 ∧
    ((s.port 1).rxSide (flitClass 0)).full = some 0 ∧ flitClass 0 = clsNo .req ∧ flitClass 0 ≠ 3 ∧ flitClass 0 ≠ 1 ∧
    flitSeq 0 ≠ ((s.port 1).rxSide (flitClass 0)).expect ∧
    (∃ f ∈ (((s.updPort 1 fun t => t.replay 0 4 true).port 1).txSide 0).buf, 16 ≤ f.replays) ∧
    (∀ f ∈ (((s.updPort 1 fun t => t.replay 0 5 true).port 1).txSide 0).buf, f.replays < 16) := ⟨_, rfl, by decide +kernel⟩

/-- A header of SEQ 0 and class 0 with the LCRC of an empty payload. -/
def goodFlit : BitVec 64 := BitVec.ofNat 64 (lcrc 0 (leBytes 64 0) * 2 ^ 48)

theorem test_witness_flit : lcrcOk goodFlit (leBytes 64 (0 : BitVec 512).toNat) = true ∧ flitClass goodFlit = 0 ∧
    flitSeq goodFlit = ((linked.port 1).rxSide (flitClass goodFlit)).expect := by decide +kernel

theorem test_replay : (((linkedAs { buf := [{ flit4 0 with seq := 3 }, flit4 0, { flit4 0 with seq := 5 }] } {}).port 1).replay 0 4 true).wire.length = 2 := by
  decide +kernel

theorem test_witness_linkTimes : ∃ s : State, s.time = 100000 ∧ 0 + 1000 ≤ s.time ∧ 0 + 100000 ≤ s.time ∧ 0 + 10000 ≤ s.time :=
  ⟨{ linked with time := 100000 }, by decide +kernel⟩

theorem test_witness_portDown : (linked.port 1).held = [] ∧ (linked.port 1).resv = [] ∧ (linked.port 1).pending = [] ∧
    (linked.port 1).msgsOut = [] ∧ (linked.gathers.filter fun g => g.src / 8192 != 1) = linked.gathers ∧
    linked.adapter.portLost 1 = linked.adapter ∧ linked.adapter.waiting = [] ∧ linked.lostReleases 1 = [] := by decide +kernel

theorem test_witness_timeout : ∃ s : State, s.pendingAt 1 3 = some { tag := 3 } ∧ 0 + Config.requestLimit ≤ s.time :=
  ⟨{ linked.updPort 1 (fun t => { t with pending := [{ tag := 3 }] }) with time := Config.requestLimit },
    (by decide +kernel : (linked.updPort 1 (fun t => { t with pending := [{ tag := 3 }] })).pendingAt 1 3 = some { tag := 3 }),
    Nat.le_of_eq (Nat.zero_add _)⟩

theorem test_witness_noMould : linked.mouldAnswers { tag := 3 } = false ∧
    linked.mouldAnswers { tag := 3, op := some (remote .rld) } = false := by decide +kernel

/-! ### Peers and the host -/

theorem test_witness_rmt : (linked.port 1).up = true ∧ linked.role 1 = 1 ∧
    malformedTxn { op := 0x20, len := 16, addr := 0x100, data := List.replicate 16 0, flits := 1 } false = false ∧
    linkLoc 0x100 = some 0x100 ∧ 0x100 % remAlign .rld = 0 ∧
    (linked.remAt { remote .rld with place := .mem 0x100 } 0x100).1 = .done (.val 0) ∧
    (linked.remAt { remote .rpost with place := .mem 0x100 } 0x100).1 = .done (.val 0) := by decide +kernel

/-- A message to core 1 of no launch, of a kind. -/
def msg1 (k : Nat) : Msg := { kind := k, dcore := 1 }

/-- The peer's port takes messages into launch 32. -/
def importing : State := ({ launched with ports := linked.ports, mgmt := linked.mgmt } : State).updPort 1 fun t =>
  { t with pimp := word (2 ^ 63 + 32), resv := [⟨2, 1, 7⟩] }

theorem test_witness_rsv : malformedTxn { op := 0x21, len := 16, data := rsvBytes (msg1 1), flits := 1 } false = false ∧
    importing.badMsg (msg1 1) = false ∧ (importing.imported 1 (msg1 1)).isSome = true ∧ (importing.port 1).resv.length < 4096 ∧
    (importing.reserveAt 1 false).isSome = true ∧
    bits (leNat ((rsvBytes (msg1 1)).take 8)) 63 60 = 1 ∧ bits (leNat ((rsvBytes (msg1 1)).take 8)) 28 16 = 1 := by decide +kernel

theorem test_witness_unrsv : malformedTxn { op := 0x22, len := 8, data := leBytes 8 2, flits := 1 } false = false ∧
    (importing.port 1).resv.find? (·.handle == leNat ((leBytes 8 2).take 8) % 2 ^ 12) = some ⟨2, 1, 7⟩ := by decide +kernel

theorem test_witness_rmtRefused : linkLoc (2 ^ 40) = none ∧ 0x104 % remAlign .rld ≠ 0 ∧ linkLoc 0x104 = some 0x104 := by decide +kernel

/-- A MSG transaction of a message. -/
def msgTxn (m : Msg) (h : Nat) : Txn :=
  let x : Txn := { op := 0x40, len := 64, rhnd := h, data := msgBytes m }
  { x with flits := txnFlits x }

theorem test_witness_linkMsg : malformedTxn (msgTxn (msg1 3) 0) false = false ∧ malformedTxn (msgTxn (msg1 1) 2) false = false ∧
    (msgTxn (msg1 3) 0).flits ≠ 0 ∧ (msgOfBits (leNat (msgTxn (msg1 3) 0).data)).dcore = 1 ∧
    importing.badMsg (msgOfBits (leNat (msgTxn (msg1 3) 0).data)) = false ∧
    (importing.imported 1 (msgOfBits (leNat (msgTxn (msg1 3) 0).data))).map (·.lid) = some 32 ∧ importing.peerHeld 32 = false ∧
    importing.hasPlace 1 { msg1 3 with lid := 32 } 0 = true ∧ importing.hasPlace 1 { msg1 1 with lid := 32 } 2 = true := by decide +kernel

/-- One gathered write. -/
def gather1 : Gather := ⟨3, 8192, [remote .rpost], 0⟩

theorem test_witness_gather : ∃ s, s = { linked with gathers := [gather1], time := 32 } ∧
    s.gathers.find? (fun y => y.agent == 3 && y.src == 8192) = some gather1 ∧ 0 + 32 ≤ s.time := ⟨_, rfl, by decide +kernel⟩

/-- Port 1 waits for the answer of an operation under tag 3. -/
def pendingWith (x : Outstanding) : State := importing.updPort 1 fun t => { t with pending := [x] }

theorem test_witness_answers : (pendingWith { tag := 3, op := some (remote .rld) }).pendingAt 1 3 = some { tag := 3, op := some (remote .rld) } ∧
    (pendingWith { tag := 3, op := some (remote .rld) }).peerHeld 0 = false ∧ 7 < 8 ∧ 4095 < 2 ^ 12 ∧
    (pendingWith { tag := 3, op := some (remote .rpost), posted := true }).posted 1 0 1 =
      [{ tag := 3, op := some (remote .rpost), posted := true }] ∧
    (pendingWith { tag := 3, msgFor := some (0, 0, 0, 0) }).pendingAt 1 3 = some { tag := 3, msgFor := some (0, 0, 0, 0) } ∧
    ((pendingWith { tag := 3, msgFor := some (0, 0, 0, 0) }).resvAnswer 1 0 0 0 0 1).isSome = true := by decide +kernel

/-- The host's port is up and quarter 0's supervisor maps queue-window byte 0 to vault offset 0x200000. -/
def hosted : State :=
  ((mapped linked).updSvc 0 fun x => { x with frames := [(0, word (2 ^ 63 + 0x2000000))] }).updCore 4096 fun x => { x with sroot := 0x1000 }

/-- A transaction with the flits it fills. -/
def filled (x : Txn) : Txn := { x with flits := txnFlits x }

/-- The adapter has sent a transaction through port 0. -/
def sends (s : State) (x : Txn) : State := { s with adapter := { s.adapter with sent := [(0, filled x)] } }

/-- A transaction of each kind at queue-window byte 0. -/
def hostTxns : List Txn := [{ op := 1, len := 8 }, { op := 2, len := 8, data := leBytes 8 5 }, { op := 3, len := 8, data := leBytes 8 5 },
  { op := 4, len := 8, data := leBytes 8 5 }, { op := 8, len := 8, data := leBytes 8 5 }]

/-- A transaction arrives and goes on at once. -/
def arrives (s : State) (x : Txn) : State :=
  ((sends s x).hostTakes 0 (filled x)).updSvc 0 fun v => { v with inFlight := [(0, filled x)] }

theorem test_witness_hostPlace : ∀ x ∈ hostTxns, malformedTxn (filled x) true = false ∧ (x.op ≠ 1 → x.data.length = x.len) ∧
    ((sends hosted x).svc 0).held = false ∧ ((sends hosted x).svc 0).inFlight = [] ∧
    (sends hosted x).hostArrives 0 (filled x) = true ∧ (arrives hosted x).hostPlace x .load = some (.mem 0x200000) ∧
    (arrives hosted x).hostPlace x .store = some (.mem 0x200000) ∧ (arrives hosted x).hostPlace x .atomic = some (.mem 0x200000) ∧
    (arrives hosted x).layerOff 0x200000 = false ∧ (arrives hosted x).layerBusy 0x200000 = false ∧
    ((arrives hosted x).svc 0).part = {} := by decide +kernel

/-- The host's read of 8 bytes. -/
def hostRd : Txn := filled { op := 1, len := 8, tag := 1 }

theorem test_witness_hostQueue : ∃ s, s = (sends linked hostRd).updSvc 0 (fun v => { v with inFlight := [(0, { op := 1, len := 8 })] }) ∧
    (s.svc 0).held = false ∧ s.hostArrives 0 hostRd = true ∧ (s.svc 0).inFlight ≠ [] ∧ (s.svc 0).inFlight.head? ≠ some (0, hostRd) ∧
    (s.svc 0).inFlight.length < 64 ∧
    ((linked.updSvc 0 fun v => { v with inFlight := [(0, hostRd)] }).svc 0).inFlight.head? = some (0, hostRd) := ⟨_, rfl, by decide +kernel⟩

theorem test_witness_hostPort : ∀ x ∈ [({ op := 8, len := 8, addr := 0x100000000FFF8, data := leBytes 8 1 } : Txn),
      { op := 3, len := 8, addr := 0x100000000FFE8, data := leBytes 8 1 }],
    (sends linked x).hostArrives 0 (filled x) = true ∧ malformedTxn (filled x) true = false ∧ x.data.length = 8 ∧
    ((arrives linked x).svc 0).part = {} := by decide +kernel

/-- The same with the page on layer 1, which is powering on. -/
def hostedBusy : State :=
  (hosted.wrWord 0x4080 (word (2 ^ 63 + 2 ^ 62 + 2 ^ 61 + 2 ^ 60 + 2 ^ 58 + 0x1200000))).updVault 0 fun v => { v with busy := 2 }

theorem test_witness_hostWaits : ∀ k ∈ [AKind.load, .store, .atomic],
    (arrives hostedBusy { op := 1, len := 8 }).hostPlace { op := 1, len := 8 } k = some (.mem 0x1200000) ∧
    (arrives hostedBusy { op := 1, len := 8 }).layerOff 0x1200000 = false ∧
    (arrives hostedBusy { op := 1, len := 8 }).layerBusy 0x1200000 = true ∧
    (arrives hosted { op := 1, len := 8, addr := 0x100000 }).hostPlace { op := 1, len := 8, addr := 0x100000 } .load = none := by decide +kernel

/-- A write that leaves its first word done is in its second. -/
def second (x : Txn) : State := hosted.updSvc 0 fun v => { v with inFlight := [(0, filled x)], part := { done := 1 } }

theorem test_witness_hostWords : wordsTouched 4 8 = 2 ∧ wordPiece 4 8 0 = (0, 4) ∧ wordPiece 4 8 1 = (4, 4) ∧ wordsTouched 0 8 = 1 ∧
    (second { op := 3, len := 8, addr := 4, data := leBytes 8 5 }).hostPlace { op := 3, len := 8, addr := 4 } .store = some (.mem 0x200004) ∧
    ((second { op := 3, len := 8, addr := 4, data := leBytes 8 5 }).svc 0).part.done = 1 := by decide +kernel

theorem test_hostWrite : (match exec (.wr 0 (filled { op := 2, len := 8, data := leBytes 8 5 })) (sends hosted { op := 2, len := 8, data := leBytes 8 5 }) with
    | .next t => t.rdWord 0x200000 == 5
    | _ => false) = true := by decide +kernel

theorem test_witness_atomic32 : (HostWindow.management = .management) ∧ (linked.windowOf .management 0).isSome = false ∧ 32 ≠ 64 := by
  decide +kernel

/-- The host side serves its windows. -/
def served8 : State := { linked with mgmt := { linked.mgmt with state := 8 } }

theorem test_witness_window : served8.windowOf .request 0xFFF8 = some (0, 0x100000000FFF8, false) ∧ 0xFFF8 % 256 + 8 ≤ 256 ∧
    (HostWindow.request : HostWindow) ≠ .management := by decide +kernel

theorem test_witness_response : ∃ s, s = { linked.updPort 0 (fun t => { t with outq := [{ op := 0x81, len := 8, tag := 3 }] }) with
      adapter := { linked.adapter with outstanding := [{ tag := 3, qtr := 0, port := 0, op := 2 }] } } ∧ s.role 0 = 0 ∧
    (s.port 0).outq.find? (fun z => z.op == 0x81 && z.tag == 3) = some { op := 0x81, len := 8, tag := 3 } ∧
    s.adapter.outstanding.find? (fun z => z.tag == 3 && z.port == 0) = some { tag := 3, qtr := 0, port := 0, op := 2 } :=
  ⟨_, rfl, by decide +kernel⟩

/-- An RST to the adapter: to core c of package 255, offset o. -/
def rst255 (c o : Nat) : RemOp := { kind := .rst, place := .peer 255 c o, a := 9 }

/-- Its RMT waits at the adapter under tag 3 of port 0. -/
def toAdapter (c o : Nat) : State := linked.updPort 0 fun t =>
  { t with pending := [{ tag := 3, op := some (rst255 c o) }], outq := [{ op := 0x20, len := 16, tag := 3 }] }

theorem test_witness_adapter : (toAdapter 0 0x7FFFFF8).adapterRst 0 3 = some (rst255 0 0x7FFFFF8, 0, 0x7FFFFF8) ∧
    (toAdapter 0 0x8000000).adapterRst 0 3 = some (rst255 0 0x8000000, 0, 0x8000000) ∧
    (toAdapter 1 0x3FF8).adapterRst 0 3 = some (rst255 1 0x3FF8, 1, 0x3FF8) ∧
    (toAdapter 1 0x4000).adapterRst 0 3 = some (rst255 1 0x4000, 1, 0x4000) ∧
    0x7FFFFF8 < 2 ^ 27 ∧ 0x3FF8 / 8 < 2048 ∧ 2048 ≤ 0x4000 / 8 ∧ 0x3FF8 % 8 = 0 := by decide +kernel

theorem test_frame_table : (match exec (.frameTableEntryWrite 24) (toAdapter 0 0x10) with
    | .next t => Tab.rd 0 t.adapter.frames 2 == 9 && t.adapter.answers == [(0, 3, 0)]
    | _ => false) = true := by decide +kernel

theorem test_witness_adapterAnswer : (toAdapter 0 0).adapterStatus 0 3 (rst255 0 0) = none ∧
    ({ toAdapter 0 0 with adapter := { (toAdapter 0 0).adapter with answers := [(0, 3, 0)] } } : State).adapterStatus 0 3 (rst255 0 0) = some 0 ∧
    (toAdapter 0 0).adapterStatus 0 3 (remote .rld) = some 1 ∧ (toAdapter 0 0).role 0 = 0 ∧ importing.role 1 = 1 := by decide +kernel

/-- A request of quarter 0's supervisor: its code and two words. -/
def requested (code a b : Nat) : State :=
  (((({ queued with ports := linked.ports, mgmt := linked.mgmt } : State).wrWord (portLoc 0 0xFFF8) 1).wrWord (portLoc 0 0)
    (word code)).wrWord (portLoc 0 8) (word a)).wrWord (portLoc 0 16) (word b)

theorem test_witness_request : ∀ code ∈ [1, 2, 3, 4, 5, 6, 7],
    (requested code 0 0).nextRequest 0 = some (0, [word code, 0, 0, 0, 0, 0, 0, 0]) ∧ wbits (word code) 14 0 = code ∧
    wbits (word code) 31 16 = 0 ∧ wbits (word (code + 0x10000)) 31 16 ≠ 0 ∧ wbits (word (code + 0x10000)) 14 0 = code ∧
    ((requested code 0 0).queueLoc 0 8191 0).isSome = true ∧ (requested code 0 0).reachesAdapter = true ∧
    (requested code 0 0).mayTurnover = true ∧
    (requested code 0 0).queueWaits 0 [word code, 0, 0, 0, 0, 0, 0, 0] = false := by decide +kernel

theorem test_witness_launchRequest : ∃ s, s = (requested 5 0x4000 0).updDie 0 (fun d =>
      { d with table := [(1, { st := .active, lrec := { larea := 0x4000 } })] }) ∧ s.launchAt 0 0x4000 = some 32 ∧
    (s.entry 32).suspended = false ∧ (s.entry 32).mayCut = true ∧ s.abortWaits 0 [word 5, 0x4000, 0, 0, 0, 0, 0, 0] = false ∧
    ((s.updLaunch 32 fun e => { e with suspended := true }).entry 32).suspended = true := ⟨_, rfl, by decide +kernel⟩

/-! ### The module, turnover, addresses, translation -/

/-- The management controller in a phase. -/
def inPhase (p : Phase) : State := { State.reset with mgmt := { State.reset.mgmt with phase := p } }

theorem test_witness_module : (inPhase .held).mgmt.phase = .held ∧ (inPhase (.powering 27)).mgmt.phase = .powering 27 ∧ 27 < 28 ∧
    (inPhase (.powering 28)).mgmt.phase = .powering 28 ∧ (inPhase .held).time < 100000 + 1000 * 0 ∧
    100000 + 1000 * 28 ≤ ({ inPhase (.powering 28) with time := 128000 } : State).time ∧ (inPhase .ready).powered = true ∧ (inPhase .shutdown).mgmt.phase = .shutdown ∧
    ((inPhase .ready).mgmt.roll 0).isSome = true ∧ 115 ≤ 115 ∧ 1499 < 1500 ∧ 1000 ≤ 1000 := by decide +kernel

theorem test_witness_registers : mayWriteCtx ((slotIn .frozen 0).slot 0 0) = true ∧ mayWriteCtx ((slotIn .park (waitOf 6 0)).slot 0 0) = true ∧
    mayWriteCtx ((slotIn .park (waitOf 8 0)).slot 0 0) = true ∧ mayWriteCtx ((slotIn .park (waitOf 3 0)).slot 0 0) = false ∧
    mayWriteCtx ((slotIn .run 0).slot 0 0) = false ∧ 0 ≤ Config.lastCore ∧
    ((State.reset.updVault 3 fun v => { v with scrub := some (2, 0, 0, 0, 0) }).vault 3).scrub = some (2, 0, 0, 0, 0) := by decide +kernel

theorem test_debugWrite : (match exec (.debugContextWrite 0 8 5) (slotIn .frozen 0) with
    | .next t => (t.slot 0 0).ctx.reg 1 == 5
    | _ => false) = true := by decide +kernel

theorem test_witness_turnover : (inPhase .ready).mayTurnover = true ∧ (inPhase .quiesced).mgmt.phase = .quiesced ∧
    (inPhase .scrubbed).mgmt.phase = .scrubbed ∧ (inPhase .cleared).mgmt.phase = .cleared ∧ (inPhase .tested).mgmt.phase = .tested ∧
    (inPhase .loaded).mgmt.phase = .loaded ∧ (inPhase .loaded).mgmt.fail = 0 ∧ (inPhase .loaded).mgmt.state < 2 ∧ (inPhase .tested).mgmt.state < 5 ∧
    6 ≤ ({ (inPhase .loaded).mgmt with state := 6 } : Mgmt).state ∧
    ({ (inPhase .loaded).mgmt with fail := 1 } : Mgmt).fail ≠ 0 := by decide +kernel

/-- An unprivileged thread of core 0 with one segment. -/
def whoOf (g : BitVec 128) (priv : Bool) : Who := { (thread []).me with segs := [(0, g)], priv := priv }

/-- A segment of every right over the whole space, without some of its bits. -/
def segLess (n : Nat) : BitVec 128 := seg &&& ~~~(BitVec.ofNat 128 n)

theorem test_witness_address :
    (address (whoOf (seg ||| BitVec.ofNat 128 (2 ^ 111)) false) 0 0 8 8 .load).toOption = none ∧
    (address (whoOf (seg ||| BitVec.ofNat 128 (2 ^ 111)) true) 0 0 8 8 .load).toOption = some 0 ∧
    (address (whoOf (segLess 0xFFFFFFFFFFFF00000000000000) false) 0 0 1 1 .load).toOption = some 0 ∧
    (address (whoOf (segLess 0xFFFFFFFFFFFF00000000000000) false) 0 1 1 1 .load).toOption = none ∧
    (address (whoOf (segLess (2 ^ 104)) false) 0 0 8 8 .load).toOption = none ∧
    (address (whoOf seg false) 0 4 8 8 .load).toOption = none ∧ (address (whoOf seg false) 0 0x1FFF8 8 8 .load).toOption = some 0x1FFF8 ∧
    (address (whoOf seg false) 0 0x1FFFC 8 4 .load).toOption = none := by decide +kernel

theorem test_witness_regions : regionOf false 0 = .tcm ∧ (∃ n, regionOf false 0x20000 = .hole n) ∧ regionOf false 0x2000000 = .virt ∧
    segLimit seg = 2 ^ 48 - 1 ∧ segBase seg = 0 ∧ (regionOf false 0x1FFFC ≠ regionOf false (0x1FFFC + 8 - 1)) := by
  refine ⟨by decide +kernel, ?_, by decide +kernel, by decide +kernel, by decide +kernel, by decide +kernel⟩
  exact ⟨_, rfl⟩

theorem test_witness_walk : physLoc 0x1000 = some 0x1000 ∧ physLoc (2 ^ 40) = none ∧ (mapped State.reset).layerOff 0x1000 = false ∧
    (mapped State.reset).mem.isPois (0x1000 + pageIndex 0x2000000 0 * 8) = false ∧
    ((mapped State.reset).rdMem (0x1000 + pageIndex 0x2000000 0 * 8) 8).testBit 63 = true ∧
    malformed ((mapped State.reset).rdMem 0x1000 8) 0 = false ∧ malformed (2 ^ 63 + 2 ^ 62) 0 = true ∧ (0 : Nat).testBit 63 = false ∧
    ((State.reset.updVault 0 fun v => { v with on := 0xFE }).layerOff 0x1000) = true ∧ (mapped State.reset).layerBusy 0x1000 = false ∧
    ((State.reset.updVault 0 fun v => { v with busy := 1 }).layerBusy 0x1000) = true ∧
    ((mapped State.reset).setPois 0x1000 true).mem.isPois 0x1000 = true := by decide +kernel

/-- A load whose table lies on a layer that is powering on. -/
def walking : State :=
  ((mapped (thread [(0, .val 0x2000000)])).updCore 0 fun x => { x with sroot := 0x1000 }).updVault 0 fun v => { v with busy := 1 }

theorem test_witness_loadWaits : walking.has (.ld .w64 .always 0 0 385) (.val 0x2000000) (.val 0) (.val 0) ∧ walking.mayLoad 0 ∧
    (match (scalarLoad .w64 false 0 0 walking walking.me (.val 0x2000000) (.val 0)).1 with
      | .tok v _ => v.waits
      | _ => false) = true := by unfold State.has State.mayLoad; decide +kernel

theorem test_witness_meshHole : ∃ ea, regionOf false ea = .mesh ∧ regionOf false (ea + 7) = .mesh ∧ meshHole ea = true :=
  ⟨0xFF000003000000, by decide +kernel⟩

theorem test_witness_leaf : tlbFind ((mapped State.reset).core 0).tlb 0x1000 0x2000008 = none ∧
    (walk (mapped State.reset) 0x1000 0x2000008 .load).toOption = some (2 ^ 63 + 2 ^ 62 + 2 ^ 61 + 2 ^ 60 + 2 ^ 58 + 0x200000, 2 ^ 21) ∧
    (tlbFind ((paged (thread [])).core 0).tlb (paged (thread [])).me.root 0x2000008).isSome = true := by decide +kernel

theorem test_witness_issue : one.readyList 0 = [(0, 0)] ∧ one.isVector 0 (0, 0) = false ∧ (one.readyUnder none 0).length ≤ 4 ∧
    one.granted 0 = none ∧ one.issues none 0 = [(0, 0)] ∧ 0 ∈ routerCores 0 ∧
    (one.noteIssued 0 [(0, 0)]).readyList 0 = [] := by decide +kernel

/-- Slot 0 of core 0 has a VADD ready. -/
def vectorReady : State := (thread [(0, .vec 0 0), (1, .vec 0 0)]).updFrame 0 0 fun f =>
  { f with body := (encode (.vadd .always .i64 511 385)).map (BitVec.ofNat 32) }

theorem test_witness_vectorIssue : (0, 0) ∈ vectorReady.readyList 0 ∧ vectorReady.isVector 0 (0, 0) = true ∧
    vectorReady.granted 0 = some (0, 0) ∧ vectorReady.issues (some (0, 0)) 0 = [(0, 0)] := by decide +kernel

/-- Core 0's port keeps the word at 8 with the value 7, and has missed write 1, which thread 5 observes. -/
def buffered : State :=
  { thread [] with readBufs := [{ core := 0, loc := 8, v := 7, after := [1] }]
                   async := [{ n := 1, loc := 8, core := 0, ticket := 1, tid := 0, acq := [5] }] }

theorem test_witness_readBuffer : (buffered.bufFor 0 4 8).isSome = true ∧ buffered.bufFor 0 5 8 = none ∧
    buffered.portByte 0 4 8 = 7 ∧ buffered.portByte 0 5 8 = 0 ∧ ((buffered.fenceXp 4).bufFor 0 4 8) = none ∧
    (({ buffered with readBufs := [{ core := 0, loc := 8, v := 7 }] } : State).fenceXp 4).bufFor 0 4 8 =
      some { core := 0, loc := 8, v := 7 } ∧ wordLoc 15 = 8 ∧
    (buffered.dropReadBufs [15]).readBufs = [] ∧ (buffered.dropReadBufs [16]).readBufs.length = 1 := by decide +kernel

theorem test_malformed : malformed (2 ^ 63) 4 = true ∧ malformed (2 ^ 63 + 2 ^ 62) 2 = true ∧ malformed (2 ^ 63 + 2 ^ 62) 3 = false ∧
    malformed (2 ^ 63 + 2 ^ 40) 0 = true ∧ malformed (2 ^ 63 + 2048) 2 = false ∧ malformed (2 ^ 63 + 2048) 1 = true := by decide +kernel

theorem test_witness_invariant : Safe State.reset ∧ (match step State.reset with
    | .next t => t.mgmt.phase == .powering 0
    | _ => false) = true := by unfold Safe; decide +kernel


/-! ### SHAKE256 (FIPS 202: the digest of no bytes) and vyas (R282) -/

theorem test_shake256 : ((shake256 [] 64).take 8).map (·.toNat) = [0x46, 0xB9, 0xDD, 0x2B, 0x0B, 0xA8, 0x8D, 0x13] := by decide +kernel

theorem test_vyas_block : (match srcBlock 0 (fun _ => none) [{ form := .x 0x6F 0 none }] with
    | .ok (h, body) => h == BitVec.ofNat 128 (0xB * 2 ^ 124) && body == [0xDE000000]
    | .error _ => false) = true := by decide +kernel

theorem test_vyas_label : (match srcBlock 0 (fun _ => none) [{ label := some 1, form := .x 0x6F 0 none }] with
    | .error .label => true
    | _ => false) = true := by decide +kernel
end Sys2Proof.Tests
end

/-!
PROOFS. Memory spaces (08): which page-table entries are malformed (R166) and what a leaf grants (R167).
-/

namespace Sys2Proof.Proofs

open Sys2Proof.Machine

/-! ## Fields of an entry -/

/-- Bit i of a field is bit lo + i of the number. -/
theorem testBit_bits (v hi lo i : Nat) :
    (bits v hi lo).testBit i = (decide (i < hi + 1 - lo) && v.testBit (lo + i)) := by
  rw [bits, Nat.testBit_mod_two_pow, Nat.testBit_div_two_pow, Nat.add_comm i lo]

/-- A field is nonzero when one of its bits is set. -/
theorem bits_ne_zero_iff {v hi lo : Nat} : bits v hi lo ≠ 0 ↔ ∃ b, (lo ≤ b ∧ b ≤ hi) ∧ v.testBit b = true := by
  constructor
  · intro h
    obtain ⟨i, hset⟩ := Nat.exists_testBit_of_ne_zero h
    rw [testBit_bits, Bool.and_eq_true, decide_eq_true_iff] at hset
    obtain ⟨hwidth, hbit⟩ := hset
    exact ⟨lo + i, by omega, hbit⟩
  · rintro ⟨b, ⟨hlo, hhi⟩, hb⟩ hzero
    have hbit : (bits v hi lo).testBit (b - lo) = true := by
      rw [testBit_bits, Nat.add_sub_cancel' hlo, hb, Bool.and_true, decide_eq_true_iff]
      omega
    simp [hzero] at hbit

/-- The low bits of a number are its remainder. -/
theorem bits_zero (v hi : Nat) : bits v hi 0 = v % 2 ^ (hi + 1) := by
  rw [bits, Nat.pow_zero, Nat.div_one, Nat.sub_zero]

/-! ## Malformed entries (R166) -/

/-- A reserved bit of a page-table entry is set (Table 8.10). -/
def ReservedSet (e : Nat) : Prop := ∃ b, ((56 ≤ b ∧ b ≤ 57) ∨ (40 ≤ b ∧ b ≤ 47) ∨ b = 27) ∧ e.testBit b = true

/-- A right, U or a bit of PKG is set, which a pointer leaves zero (Table 8.10). -/
def GrantSet (e : Nat) : Prop := ∃ b, ((58 ≤ b ∧ b ≤ 61) ∨ (48 ≤ b ∧ b ≤ 55)) ∧ e.testBit b = true

/-- The size of the table that a pointer at a level names (Table 8.13). -/
def nextTableSize (lvl : Nat) : Nat := if lvl < 2 then 4096 else if lvl = 2 then 2048 else 256

theorem reservedSet_iff (e : Nat) : ReservedSet e ↔ bits e 57 56 ≠ 0 ∨ bits e 47 40 ≠ 0 ∨ e.testBit 27 = true := by
  simp only [ReservedSet, bits_ne_zero_iff, or_and_right, exists_or, exists_eq_left]

theorem grantSet_iff (e : Nat) : GrantSet e ↔ bits e 61 58 ≠ 0 ∨ bits e 55 48 ≠ 0 := by
  simp only [GrantSet, bits_ne_zero_iff, or_and_right, exists_or]

/-- The model's test of a pointer's low bits, by its level, says that OFFSET is not a multiple of the next table's size. -/
theorem pointer_offset_misaligned_iff (e lvl : Nat) :
    (if lvl < 2 then bits e 11 0 != 0 else if lvl == 2 then bits e 10 0 != 0 else bits e 7 0 != 0) = true ↔
      e % 2 ^ 27 % nextTableSize lvl ≠ 0 := by
  by_cases hlow : lvl < 2
  · simp [nextTableSize, hlow, bits_zero]
  · by_cases htwo : lvl = 2
    · simp [nextTableSize, htwo, bits_zero]
    · simp [nextTableSize, hlow, htwo, bits_zero]

/-- A leaf is malformed for a reserved bit, above level 3, or for an offset within its page. -/
theorem malformed_leaf_iff {e : Nat} (lvl : Nat) (hleaf : e.testBit 62 = true) :
    malformed e lvl = true ↔
      ReservedSet e ∨ lvl < 3 ∨ (lvl = 4 ∧ e % 2 ^ 16 ≠ 0) ∨ (lvl = 3 ∧ e % 2 ^ 21 ≠ 0) := by
  simp [malformed, hleaf, reservedSet_iff, bits_zero, or_assoc]

/-- A pointer is malformed for a reserved bit, at level 4, for a right, U or PKG, or for an unaligned offset. -/
theorem malformed_pointer_iff {e : Nat} (lvl : Nat) (hptr : e.testBit 62 = false) :
    malformed e lvl = true ↔
      ReservedSet e ∨ lvl = 4 ∨ GrantSet e ∨ e % 2 ^ 27 % nextTableSize lvl ≠ 0 := by
  rw [← pointer_offset_misaligned_iff]
  simp [malformed, hptr, reservedSet_iff, grantSet_iff, or_assoc]

/-- Settles O57: by whether the entry is a leaf or a pointer. -/
theorem malformedEntryRule : Obligations.MalformedEntryRule := by
  intro e lvl _
  change _ ↔ ReservedSet e ∨ _ ∨ _ ∨ (_ ∧ GrantSet e) ∨ (_ ∧ e % 2 ^ 27 % nextTableSize lvl ≠ 0) ∨ _
  cases hleaf : e.testBit 62 with
  | true => simp [malformed_leaf_iff lvl hleaf]
  | false => simp [malformed_pointer_iff lvl hleaf]

/-! ## What a leaf grants (R167) -/

/-- The access kinds that need R (Table 8.3). -/
theorem rights_read_iff (kind : AKind) :
    kind.rights.1 = true ↔ kind = .load ∨ kind = .atomic ∨ kind = .rload ∨ kind = .ratomic ∨ kind = .engRead := by
  cases kind <;> decide

/-- The access kinds that need W (Table 8.3). -/
theorem rights_write_iff (kind : AKind) :
    kind.rights.2.1 = true ↔ kind = .store ∨ kind = .atomic ∨ kind = .rstore ∨ kind = .ratomic ∨ kind = .engWrite := by
  cases kind <;> decide

/-- The access kind that needs X (Table 8.3). -/
theorem rights_execute_iff (kind : AKind) : kind.rights.2.2.1 = true ↔ kind = .fetch := by
  cases kind <;> decide

/-- The page rights hold when each right that the kind needs is set, and U for an unprivileged thread. -/
theorem pageRights_iff (kind : AKind) (priv : Bool) (e : Nat) :
    pageRights kind priv e = true ↔
      (kind.rights.1 = true → e.testBit 61 = true) ∧ (kind.rights.2.1 = true → e.testBit 60 = true) ∧
      (kind.rights.2.2.1 = true → e.testBit 59 = true) ∧ (priv = false → e.testBit 58 = true) := by
  simp [pageRights, and_assoc, imp_iff_not_or]

/-- What an access through a leaf answers: the byte it gives where the leaf grants the access, else the fault 0x38 + kind. -/
def leafAnswer (s : State) (a : Who) (va e size : Nat) (kind : AKind) : Except FaultD Phys :=
  if pageRights kind a.priv e then .ok (leafPhys s.pkg e va size) else .error { cause := 0x38 + kind.code, addr := va }

/-- A translation that the TLB holds is answered by its leaf. -/
theorem translate_of_tlb {s : State} {a : Who} {va : Nat} {t : TlbEntry} (kind : AKind)
    (hit : tlbFind (s.core a.core).tlb a.root va = some t) :
    (translate s a va kind).1 = leafAnswer s a va t.leaf.toNat t.size kind := by
  simp only [Machine.translate, hit, leafAnswer]

/-- A translation that the TLB lacks is answered by the leaf that its walk reaches. -/
theorem translate_of_walk {s : State} {a : Who} {va e size : Nat} {kind : AKind}
    (miss : tlbFind (s.core a.core).tlb a.root va = none) (reached : walk s a.root va kind = .ok (e, size)) :
    (translate s a va kind).1 = leafAnswer s a va e size kind := by
  simp only [Machine.translate, miss, reached, leafAnswer]

/-- Settles O56: the TLB and the walk answer alike, by the leaf's page rights. -/
theorem leafRule : Obligations.LeafRule := by
  intro s a va e size kind source grants hgrants
  have answer : (translate s a va kind).1 = leafAnswer s a va e size kind := by
    rcases source with ⟨miss, reached⟩ | ⟨t, hit, rfl, rfl⟩
    · exact translate_of_walk miss reached
    · exact translate_of_tlb kind hit
  rw [← rights_read_iff, ← rights_write_iff, ← rights_execute_iff, ← pageRights_iff] at hgrants
  rw [answer, leafAnswer, hgrants]
  exact ⟨fun refused => if_neg refused, fun granted => if_pos granted⟩

end Sys2Proof.Proofs

/-!
PROOFS. Scalar instructions (13): division and remainder with their borderline cases (R293) and shifts by the whole right
token (R295). The model computes results as numbers and integers; here each is read as a bit vector of the width.
-/

namespace Sys2Proof.Proofs

open Sys2Proof.Machine Sys2Proof.Laws

/-! ## Operands and results as bit vectors of a width (R286) -/

theorem lowW_eq_cut (w : Width) (x : Word) : lowW w x = (cut w x).toNat := (BitVec.toNat_setWidth _ _).symm

/-- The signed value of the low bits is that of the bit vector which holds them (R11). -/
theorem sgn_eq_toInt (n v : Nat) : sgn n v = (BitVec.ofNat n v).toInt := by
  rw [BitVec.toInt_eq_toNat_cond, BitVec.toNat_ofNat]
  rfl

theorem sgnW_eq_cut (w : Width) (x : Word) : sgnW w x = (cut w x).toInt := by
  rw [sgnW, sgn_eq_toInt, BitVec.ofNat_toNat]
  rfl

theorem trunc_eq_toNat (n : Nat) (v : Int) : trunc n v = (BitVec.ofInt n v).toNat := (BitVec.toNat_ofInt v).symm

theorem word_toNat {n : Nat} (b : BitVec n) : word b.toNat = zext b := BitVec.ofNat_toNat _ b

@[simp] theorem zext_zero (n : Nat) : zext 0#n = 0 := BitVec.setWidth_zero 64 n

/-- A result of a width is the bit vector of that width, zero-extended. -/
theorem outW_eq_zext (w : Width) (v : Int) : outW w v = zext (BitVec.ofInt (wBits w) v) := by
  rw [outW, trunc_eq_toNat, word_toNat]

theorem outW_natCast (w : Width) (n : Nat) : outW w n = zext (BitVec.ofNat (wBits w) n) := by
  rw [outW_eq_zext, BitVec.ofInt_natCast]

theorem outW_neg_one (w : Width) : outW w (-1) = zext (BitVec.allOnes (wBits w)) := by
  rw [outW_eq_zext, BitVec.ofInt_neg, ← BitVec.neg_one_eq_allOnes]
  rfl

theorem outW_lowW (w : Width) (x : Word) : outW w (lowW w x) = zext (cut w x) := by
  rw [outW_natCast, lowW_eq_cut, BitVec.ofNat_toNat, BitVec.setWidth_eq]

/-! ## Division and remainder (R293) -/

/-- The quotient toward zero of two bit vectors is that of their signed values, wrapped to the width. -/
theorem ofInt_tdiv {n : Nat} (a b : BitVec n) : BitVec.ofInt n (a.toInt.tdiv b.toInt) = a.sdiv b :=
  BitVec.eq_of_toInt_eq (by rw [BitVec.toInt_ofInt, BitVec.toInt_sdiv])

/-- The remainder with the sign of the dividend is that of the signed values. -/
theorem ofInt_tmod {n : Nat} (a b : BitVec n) : BitVec.ofInt n (a.toInt.tmod b.toInt) = a.srem b := by
  rw [← BitVec.toInt_srem, BitVec.ofInt_toInt]

theorem divS_quot (w : Width) (x y : Word) : divS w .quot x y = zext ((cut w x).sdiv (cut w y)) := by
  rw [divS, outW_eq_zext, sgnW_eq_cut, sgnW_eq_cut, ofInt_tdiv]

theorem divS_rem (w : Width) (x y : Word) : divS w .rem x y = zext ((cut w x).srem (cut w y)) := by
  rw [divS, outW_eq_zext, sgnW_eq_cut, sgnW_eq_cut, ofInt_tmod]

theorem divU_quot (w : Width) (x y : Word) : divU w .quot x y = zext (cut w x / cut w y) := by
  rw [divU, outW_natCast, lowW_eq_cut, lowW_eq_cut, BitVec.udiv_def]

theorem divU_rem (w : Width) (x y : Word) : divU w .rem x y = zext (cut w x % cut w y) := by
  rw [divU, outW_natCast, lowW_eq_cut, lowW_eq_cut, BitVec.umod_def]

/-- The cause of a division by zero under DZT. -/
def zeroCause : DivOp → Nat
  | .quot => 0xB0
  | .rem => 0xB1

/-- What a division of x by zero gives when DZT is clear: all ones, or the dividend. -/
def zeroResult (w : Width) (x : Word) : DivOp → Word
  | .quot => zext (BitVec.allOnes (wBits w))
  | .rem => zext (cut w x)

/-- The token of a division: the poison or the fixed result of a zero divisor, else what f computes. -/
theorem divTok_eq (w : Width) (o : DivOp) (dzt : Bool) (i : Nat) (f : Word → Word → Word) (x y : Word) :
    divTok w o dzt i f x y =
      if cut w y = 0 then
        (if dzt then .poison { cause := zeroCause o, index := i } false else .val (zeroResult w x o))
      else .val (f x y) := by
  have hzero : lowW w y = 0 ↔ cut w y = 0 := by rw [lowW_eq_cut, BitVec.toNat_eq]; rfl
  simp only [divTok, hzero]
  cases o with
  | quot => simp only [outW_neg_one, zeroResult]; rfl
  | rem => simp only [outW_lowW, zeroResult]; rfl

/-- A division whose inputs have arrived, by its divisor and DZT. -/
theorem division_ready {i : Instr} {s : State} {x y z : Word} (w : Width) (o : DivOp) (f : Word → Word → Word)
    (h : s.ready i x y z) :
    scalar i (fun c l r _ => (divTok w o c.dzt s.ci f l r, 0)) s =
      if cut w y = 0 then
        (if s.cur.dzt then s.gives i (.poison { cause := zeroCause o, index := s.ci } false, 0)
          else s.fires i (zeroResult w x o))
      else s.fires i (f x y) := by
  rw [scalar_ready _ h, divTok_eq]
  split
  · cases s.cur.dzt <;> rfl
  · rfl

section
variable (p : Pr) (w : Width) (s1 t : Nat) (s : State)

theorem exec_div : exec (.div p w s1 t) s =
    .next (scalar (.div p w s1 t) (fun c l r _ => (divTok w .quot c.dzt s.ci (divS w .quot) l r, 0)) s) := rfl

theorem exec_divn : exec (.divn p w s1 t) s =
    .next (scalar (.divn p w s1 t) (fun c l r _ => (divTok w .quot c.dzt s.ci (divU w .quot) l r, 0)) s) := rfl

theorem exec_rem : exec (.rem p w s1 t) s =
    .next (scalar (.rem p w s1 t) (fun c l r _ => (divTok w .rem c.dzt s.ci (divS w .rem) l r, 0)) s) := rfl

theorem exec_remn : exec (.remn p w s1 t) s =
    .next (scalar (.remn p w s1 t) (fun c l r _ => (divTok w .rem c.dzt s.ci (divU w .rem) l r, 0)) s) := rfl

end

/-- Settles O10: each instruction is one division whose computed result is the bit vectors' quotient or remainder. -/
theorem divisionResults : Obligations.DivisionResults := by
  intro s p w s1 t x y z
  refine ⟨fun h => ?div, fun h => ?divn, fun h => ?rem, fun h => ?remn⟩
  case div => rw [exec_div, division_ready w .quot _ h, divS_quot]; rfl
  case divn => rw [exec_divn, division_ready w .quot _ h, divU_quot]; rfl
  case rem => rw [exec_rem, division_ready w .rem _ h, divS_rem]; rfl
  case remn => rw [exec_remn, division_ready w .rem _ h, divU_rem]; rfl

/-! ## Shifts (R295) -/

theorem shlBits_eq {n : Nat} (a : BitVec n) (k : Nat) : shlBits n a.toNat k = (a <<< k).toNat := by
  by_cases hk : n ≤ k
  · rw [shlBits, if_pos hk, BitVec.shiftLeft_eq_zero hk, BitVec.toNat_zero]
  · rw [shlBits, if_neg hk, BitVec.toNat_shiftLeft, Nat.shiftLeft_eq]

theorem shrBits_eq {n : Nat} (a : BitVec n) (k : Nat) : shrBits n a.toNat k = (a >>> k).toNat := by
  by_cases hk : n ≤ k
  · rw [shrBits, if_pos hk, BitVec.ushiftRight_eq_zero hk, BitVec.toNat_zero]
  · rw [shrBits, if_neg hk, BitVec.toNat_ushiftRight, Nat.shiftRight_eq_div_pow]

/-- From a count one below the width on, an arithmetic shift leaves copies of the sign bit. -/
theorem sshiftRight_of_width_le {n : Nat} (a : BitVec n) {k : Nat} (hk : n ≤ k + 1) :
    a.sshiftRight k = if a.msb then BitVec.allOnes n else 0#n := by
  apply BitVec.eq_of_getElem_eq
  intro j hj
  have hsign : (a.sshiftRight k)[j] = a.msb := by
    rw [BitVec.getElem_sshiftRight]
    split
    next hin =>
      obtain rfl : j = 0 := by omega
      rw [BitVec.msb_eq_getLsbD_last, ← BitVec.getLsbD_eq_getElem]
      congr 1
      omega
    · rfl
  rw [hsign]
  cases a.msb <;> simp

/-- The model's bound on the count, one below the width, does not change an arithmetic shift. -/
theorem sshiftRight_min {n : Nat} (a : BitVec n) (k : Nat) : a.sshiftRight (min k (n - 1)) = a.sshiftRight k := by
  by_cases hk : k ≤ n - 1
  · rw [Nat.min_eq_left hk]
  · rw [sshiftRight_of_width_le a (by omega : n ≤ min k (n - 1) + 1), sshiftRight_of_width_le a (by omega : n ≤ k + 1)]

theorem sraBits_eq {n : Nat} (a : BitVec n) (k : Nat) : sraBits n a.toNat k = (a.sshiftRight k).toNat := by
  rw [sraBits, trunc_eq_toNat, sgn_eq_toInt, BitVec.ofNat_toNat, BitVec.setWidth_eq, ← Int.shiftRight_eq_div_pow,
    ← BitVec.sshiftRight_eq, sshiftRight_min]

section
variable {s : State} {p : Pr} {w : Width} {s1 t : Nat} {x y z : Word}

theorem exec_shl : exec (.shl p w s1 t) s =
    .next (wordOp (.shl p w s1 t) (fun l r _ => word (shlBits (wBits w) (lowW w l) r.toNat)) s) := rfl

theorem exec_shr : exec (.shr p w s1 t) s =
    .next (wordOp (.shr p w s1 t) (fun l r _ => word (shrBits (wBits w) (lowW w l) r.toNat)) s) := rfl

theorem exec_sra : exec (.sra p w s1 t) s =
    .next (wordOp (.sra p w s1 t) (fun l r _ => word (sraBits (wBits w) (lowW w l) r.toNat)) s) := rfl

theorem shl_ready (h : s.ready (.shl p w s1 t) x y z) :
    exec (.shl p w s1 t) s = .next (s.fires (.shl p w s1 t) (zext (cut w x <<< y.toNat))) := by
  rw [exec_shl, wordOp_ready _ h, lowW_eq_cut, shlBits_eq, word_toNat]

theorem shr_ready (h : s.ready (.shr p w s1 t) x y z) :
    exec (.shr p w s1 t) s = .next (s.fires (.shr p w s1 t) (zext (cut w x >>> y.toNat))) := by
  rw [exec_shr, wordOp_ready _ h, lowW_eq_cut, shrBits_eq, word_toNat]

theorem sra_ready (h : s.ready (.sra p w s1 t) x y z) :
    exec (.sra p w s1 t) s = .next (s.fires (.sra p w s1 t) (zext ((cut w x).sshiftRight y.toNat))) := by
  rw [exec_sra, wordOp_ready _ h, lowW_eq_cut, sraBits_eq, word_toNat]

end

/-- Settles O11: each shift fires with the bit vector's shift, and a count of the width or more leaves only its fill. -/
theorem shiftResults : Obligations.ShiftResults := by
  intro s p w s1 t x y z
  refine ⟨fun h => ⟨fun hcount => ?shl, shl_ready h⟩, fun h => ⟨fun hcount => ?shr, shr_ready h⟩,
    fun h => ⟨fun hcount => ?sra, sra_ready h⟩⟩
  case shl => rw [shl_ready h, BitVec.shiftLeft_eq_zero hcount, zext_zero]
  case shr => rw [shr_ready h, BitVec.ushiftRight_eq_zero hcount, zext_zero]
  case sra => rw [sra_ready h, sshiftRight_of_width_le _ (Nat.le_succ_of_le hcount)]

end Sys2Proof.Proofs

/-!
PROOFS. Words (12): the encoder and the decoder are inverse to each other (R256-R264). Each layout of Tables
12.3 and 12.4 has one lemma that its words decode to the instruction, and one that a word of it which decodes is that of
a well-formed instruction.
-/

namespace Sys2Proof.Proofs
open Sys2Proof.Laws.Fits

/-! ## Fields of a word -/

/-- A one-bit field read as a flag and back. -/
theorem beq_one_toNat {n : Nat} (h : n < 2 ^ 1) : (n == 1).toNat = n := by
  interval_cases n <;> rfl

/-- The high three bits of the opcode choose the table of opcodes. -/
theorem fld_opcode_high (w : Nat) : fld w 29 3 = fld w 25 7 / 16 := by unfold fld; omega

theorem fld_opcode_low (w : Nat) : fld w 25 4 = fld w 25 7 % 16 := by unfold fld; omega

theorem fld_xop_high (w : Nat) : fld w 20 3 = fld w 18 5 / 4 := by unfold fld; omega

theorem fld_xop_low (w : Nat) : fld w 18 2 = fld w 18 5 % 4 := by unfold fld; omega

theorem fld_xop_top (w : Nat) : fld w 21 2 = fld w 18 5 / 8 := by unfold fld; omega

theorem fld_aop_high (w : Nat) : fld w 15 3 = fld w 13 5 / 4 := by unfold fld; omega

theorem fld_aop_low (w : Nat) : fld w 13 2 = fld w 13 5 % 4 := by unfold fld; omega

/-! ## A field that holds a code is decoded to what the code stands for -/

section
variable {w : Nat}

theorem decPr_code {p : Pr} (k : Pr → DRes) (h : fld w 23 2 = p.code) : decPr w k = k p := by
  cases p <;> simp [decPr, h, Pr.code]

theorem decQ_code {q : Prec} (k : Prec → DRes) (h : fld w 18 2 = q.code) : decQ w k = k q := by
  cases q <;> simp [decQ, h, Prec.code]

theorem decM_code {m : Rm} (k : Rm → DRes) (h : fld w 20 3 = m.code) : decM w k = k m := by
  rcases m with m | _
  · cases m <;> simp [decM, h, Rm.code, RMode.code]
  · simp [decM, h, Rm.code]

theorem decY_code {y : VT} {ok : VT → Bool} (k : VT → DRes) (h : fld w 18 3 = y.code) (hy : ok y = true) :
    decY w ok k = k y := by
  cases y <;> simp [decY, vtOf, h, VT.code, hy]

theorem decC_code {c : Scope} (k : Scope → DRes) (h : fld w 9 4 = c.code) : decC w k = k c := by
  have h12 : fld w 12 1 = fld w 9 4 / 8 := by unfold fld; omega
  have h9 : fld w 9 3 = fld w 9 4 % 8 := by unfold fld; omega
  cases c <;> simp [decC, mbz, h12, h9, h, Scope.code]

theorem mbz_zero (k : DRes) : mbz 0 k = k := rfl

theorem noT_none (k : DRes) (h : fld w 0 9 = 511) : noT w k = k := if_pos h

theorem decT_ok {t : Nat} (k : Nat → DRes) (ht : tgtOk t = true) : decT t k = k t := if_pos ht

theorem decST_ok (k : Nat → Nat → DRes) (hs : tgtOk (fld w 9 9) = true) (ht : tgtOk (fld w 0 9) = true) :
    decST w k = k (fld w 9 9) (fld w 0 9) := by
  rw [decST, decT_ok _ hs, decT_ok _ ht]

theorem toNat_beq_one (b : Bool) : (b.toNat == 1) = b := by cases b <;> rfl

@[simp] theorem widthOf_code (v : Width) : widthOf v.code = v := by cases v <;> rfl

@[simp] theorem amoOf_code (x : AmoOp) : amoOf x.code = some x := by cases x <;> rfl

end

/-! ## An instruction is what its words decode to -/

/-- The words of i have 32 bits, are as many as its opcode says, and decode to i whatever words follow. -/
def Decodes (i : Instr) : Prop :=
  ∃ w ws, encode i = w :: ws ∧ (∀ v ∈ encode i, v < 2 ^ 32) ∧ wordCount w = ws.length + 1 ∧
    ∀ rest, decodeWord w (ws ++ rest) = .ok i

/-- An instruction of one word, with opcode op. -/
theorem decodes_word {i : Instr} {w op : Nat} (henc : encode i = [w]) (hop : w / 2 ^ 25 = op)
    (hop' : op ≠ 2 ∧ op < 127) (hdec : fld w 25 7 = op → ∀ ws, decodeWord w ws = .ok i) : Decodes i := by
  have h25 : fld w 25 7 = op := by unfold fld; omega
  refine ⟨w, [], henc, ?_, ?_, fun rest => hdec h25 _⟩
  · simp only [henc, List.mem_cons, List.not_mem_nil, or_false, forall_eq]
    omega
  · simp [wordCount, h25, hop'.1, Nat.ne_of_lt hop'.2]

section
variable {op x : Nat} {p : Pr} {v : Width} {q : Prec} {m : Rm} {y : VT} {c : Scope} {l s t n k u : Nat} {b : Bool}

/-- Words of the G format with an integer width. -/
theorem gW_decodes {f : Pr → Width → Nat → Nat → Instr} {w : Nat} (hop : op ≠ 2 ∧ op < 127 ∧ x < 8)
    (hwf : (tgtOk s && tgtOk t) = true) (henc : encode (f p v s t) = [w])
    (hw : w = op * 0x2000000 + x * 0x100000 + p.code * 0x800000 + v.code * 0x40000 + s * 0x200 + t)
    (hdis : ∀ w ws, fld w 25 7 = op → fld w 20 3 = x → decodeWord w ws = gW w f) : Decodes (f p v s t) := by
  obtain ⟨hs, ht⟩ := Bool.and_eq_true_iff.1 hwf
  have := tgtOk_iff.1 hs
  have := tgtOk_iff.1 ht
  have := pr_lt p
  have := width_lt v
  refine decodes_word (op := op) henc (by omega) ⟨hop.1, hop.2.1⟩ fun h25 ws => ?_
  obtain rfl : fld w 9 9 = s := by unfold fld; omega
  obtain rfl : fld w 0 9 = t := by unfold fld; omega
  have h20 : fld w 20 3 = x := by unfold fld; omega
  have h23 : fld w 23 2 = p.code := by unfold fld; omega
  have h18 : fld w 18 2 = v.code := by unfold fld; omega
  rw [hdis w ws h25 h20, gW, decPr_code _ h23, decST_ok _ hs ht, h18, widthOf_code]

/-- Words of the G format with no width. -/
theorem gX_decodes {f : Pr → Nat → Nat → Instr} {w : Nat} (hop : op ≠ 2 ∧ op < 127 ∧ x < 32)
    (hwf : (tgtOk s && tgtOk t) = true) (henc : encode (f p s t) = [w])
    (hw : w = op * 0x2000000 + x * 0x40000 + p.code * 0x800000 + s * 0x200 + t)
    (hdis : ∀ w ws, fld w 25 7 = op → fld w 18 5 = x → decodeWord w ws = gX w f) : Decodes (f p s t) := by
  obtain ⟨hs, ht⟩ := Bool.and_eq_true_iff.1 hwf
  have := tgtOk_iff.1 hs
  have := tgtOk_iff.1 ht
  have := pr_lt p
  refine decodes_word (op := op) henc (by omega) ⟨hop.1, hop.2.1⟩ fun h25 ws => ?_
  obtain rfl : fld w 9 9 = s := by unfold fld; omega
  obtain rfl : fld w 0 9 = t := by unfold fld; omega
  have h18 : fld w 18 5 = x := by unfold fld; omega
  have h23 : fld w 23 2 = p.code := by unfold fld; omega
  rw [hdis w ws h25 h18, gX, decPr_code _ h23, decST_ok _ hs ht]

/-- Words of the G format with a precision and a rounding mode. -/
theorem gQM_decodes {f : Pr → Rm → Prec → Nat → Nat → Instr} {w : Nat} (hop : op ≠ 2 ∧ op < 127)
    (hwf : (tgtOk s && tgtOk t) = true) (henc : encode (f p m q s t) = [w])
    (hw : w = op * 0x2000000 + p.code * 0x800000 + m.code * 0x100000 + q.code * 0x40000 + s * 0x200 + t)
    (hdis : ∀ w ws, fld w 25 7 = op → decodeWord w ws = gQM w f) : Decodes (f p m q s t) := by
  obtain ⟨hs, ht⟩ := Bool.and_eq_true_iff.1 hwf
  have := tgtOk_iff.1 hs
  have := tgtOk_iff.1 ht
  have := pr_lt p
  have := rm_lt m
  have := prec_lt q
  refine decodes_word (op := op) henc (by omega) hop fun h25 ws => ?_
  obtain rfl : fld w 9 9 = s := by unfold fld; omega
  obtain rfl : fld w 0 9 = t := by unfold fld; omega
  have h20 : fld w 20 3 = m.code := by unfold fld; omega
  have h23 : fld w 23 2 = p.code := by unfold fld; omega
  have h18 : fld w 18 2 = q.code := by unfold fld; omega
  rw [hdis w ws h25, gQM, decQ_code _ h18, decPr_code _ h23, decM_code _ h20, decST_ok _ hs ht]

/-- Words of the G format with a precision, a rounding mode and a third operand. -/
theorem gQM3_decodes {f : Rm → Prec → Nat → Nat → Instr} {w : Nat} (hop : op ≠ 2 ∧ op < 127)
    (hwf : (tgtOk s && tgtOk t) = true) (henc : encode (f m q s t) = [w])
    (hw : w = op * 0x2000000 + m.code * 0x100000 + q.code * 0x40000 + s * 0x200 + t)
    (hdis : ∀ w ws, fld w 25 7 = op → decodeWord w ws = gQM3 w f) : Decodes (f m q s t) := by
  obtain ⟨hs, ht⟩ := Bool.and_eq_true_iff.1 hwf
  have := tgtOk_iff.1 hs
  have := tgtOk_iff.1 ht
  have := rm_lt m
  have := prec_lt q
  refine decodes_word (op := op) henc (by omega) hop fun h25 ws => ?_
  obtain rfl : fld w 9 9 = s := by unfold fld; omega
  obtain rfl : fld w 0 9 = t := by unfold fld; omega
  have h20 : fld w 20 3 = m.code := by unfold fld; omega
  have h23 : fld w 23 2 = 0 := by unfold fld; omega
  have h18 : fld w 18 2 = q.code := by unfold fld; omega
  rw [hdis w ws h25, gQM3, decQ_code _ h18, h23, mbz_zero, decM_code _ h20, decST_ok _ hs ht]

/-- Words of the G format with a precision. -/
theorem gQ_decodes {f : Pr → Prec → Nat → Nat → Instr} {w : Nat} (hop : op ≠ 2 ∧ op < 127 ∧ x < 8)
    (hwf : (tgtOk s && tgtOk t) = true) (henc : encode (f p q s t) = [w])
    (hw : w = op * 0x2000000 + x * 0x100000 + p.code * 0x800000 + q.code * 0x40000 + s * 0x200 + t)
    (hdis : ∀ w ws, fld w 25 7 = op → fld w 20 3 = x → decodeWord w ws = gQ w f) : Decodes (f p q s t) := by
  obtain ⟨hs, ht⟩ := Bool.and_eq_true_iff.1 hwf
  have := tgtOk_iff.1 hs
  have := tgtOk_iff.1 ht
  have := pr_lt p
  have := prec_lt q
  refine decodes_word (op := op) henc (by omega) ⟨hop.1, hop.2.1⟩ fun h25 ws => ?_
  obtain rfl : fld w 9 9 = s := by unfold fld; omega
  obtain rfl : fld w 0 9 = t := by unfold fld; omega
  have h20 : fld w 20 3 = x := by unfold fld; omega
  have h23 : fld w 23 2 = p.code := by unfold fld; omega
  have h18 : fld w 18 2 = q.code := by unfold fld; omega
  rw [hdis w ws h25 h20, gQ, decQ_code _ h18, decPr_code _ h23, decST_ok _ hs ht]

/-- Vector words of the G format. -/
theorem gY_decodes {ok : VT → Bool} {f : Pr → VT → Nat → Nat → Instr} {w : Nat} (hop : op ≠ 2 ∧ op < 127 ∧ u < 4)
    (hwf : (tgtOk s && tgtOk t) = true) (hy : ok y = true) (henc : encode (f p y s t) = [w])
    (hw : w = op * 0x2000000 + u * 0x200000 + p.code * 0x800000 + y.code * 0x40000 + s * 0x200 + t)
    (hdis : ∀ w ws, fld w 25 7 = op → fld w 21 2 = u → decodeWord w ws = gY w ok f) : Decodes (f p y s t) := by
  obtain ⟨hs, ht⟩ := Bool.and_eq_true_iff.1 hwf
  have := tgtOk_iff.1 hs
  have := tgtOk_iff.1 ht
  have := pr_lt p
  have := vt_lt y
  refine decodes_word (op := op) henc (by omega) ⟨hop.1, hop.2.1⟩ fun h25 ws => ?_
  obtain rfl : fld w 9 9 = s := by unfold fld; omega
  obtain rfl : fld w 0 9 = t := by unfold fld; omega
  have h21 : fld w 21 2 = u := by unfold fld; omega
  have h23 : fld w 23 2 = p.code := by unfold fld; omega
  have h18 : fld w 18 3 = y.code := by unfold fld; omega
  rw [hdis w ws h25 h21, gY, decY_code _ h18 hy, decPr_code _ h23, decST_ok _ hs ht]

/-- Vector words of the G format with a third operand. -/
theorem gY3_decodes {ok : VT → Bool} {f : VT → Nat → Nat → Instr} {w : Nat} (hop : op ≠ 2 ∧ op < 127 ∧ u < 4)
    (hwf : (tgtOk s && tgtOk t) = true) (hy : ok y = true) (henc : encode (f y s t) = [w])
    (hw : w = op * 0x2000000 + u * 0x200000 + y.code * 0x40000 + s * 0x200 + t)
    (hdis : ∀ w ws, fld w 25 7 = op → fld w 21 2 = u → decodeWord w ws = gY3 w ok f) : Decodes (f y s t) := by
  obtain ⟨hs, ht⟩ := Bool.and_eq_true_iff.1 hwf
  have := tgtOk_iff.1 hs
  have := tgtOk_iff.1 ht
  have := vt_lt y
  refine decodes_word (op := op) henc (by omega) ⟨hop.1, hop.2.1⟩ fun h25 ws => ?_
  obtain rfl : fld w 9 9 = s := by unfold fld; omega
  obtain rfl : fld w 0 9 = t := by unfold fld; omega
  have h21 : fld w 21 2 = u := by unfold fld; omega
  have h23 : fld w 23 2 = 0 := by unfold fld; omega
  have h18 : fld w 18 3 = y.code := by unfold fld; omega
  rw [hdis w ws h25 h21, gY3, decY_code _ h18 hy, h23, mbz_zero, decST_ok _ hs ht]

/-- Words of the I format. -/
theorem fI_decodes {f : Pr → Nat → Nat → Instr} {w : Nat} (hop : op ≠ 2 ∧ op < 127)
    (hwf : (decide (n < 16384) && tgtOk t) = true) (henc : encode (f p n t) = [w])
    (hw : w = op * 0x2000000 + p.code * 0x800000 + n * 0x200 + t)
    (hdis : ∀ w ws, fld w 25 7 = op → decodeWord w ws = fI w f) : Decodes (f p n t) := by
  obtain ⟨hn, ht⟩ := Bool.and_eq_true_iff.1 hwf
  have := of_decide_eq_true hn
  have := tgtOk_iff.1 ht
  have := pr_lt p
  refine decodes_word (op := op) henc (by omega) hop fun h25 ws => ?_
  obtain rfl : fld w 9 14 = n := by unfold fld; omega
  obtain rfl : fld w 0 9 = t := by unfold fld; omega
  have h23 : fld w 23 2 = p.code := by unfold fld; omega
  rw [hdis w ws h25, fI, decPr_code _ h23, decT_ok _ ht]

/-- Words of the I format with a 6-bit number. -/
theorem fI6_decodes {f : Pr → Nat → Nat → Instr} {w : Nat} (hop : op ≠ 2 ∧ op < 127)
    (hwf : (decide (n < 64) && tgtOk t) = true) (henc : encode (f p n t) = [w])
    (hw : w = op * 0x2000000 + p.code * 0x800000 + n * 0x200 + t)
    (hdis : ∀ w ws, fld w 25 7 = op → decodeWord w ws = fI6 w f) : Decodes (f p n t) := by
  obtain ⟨hn, ht⟩ := Bool.and_eq_true_iff.1 hwf
  have := of_decide_eq_true hn
  have := tgtOk_iff.1 ht
  have := pr_lt p
  refine decodes_word (op := op) henc (by omega) hop fun h25 ws => ?_
  obtain rfl : fld w 9 6 = n := by unfold fld; omega
  obtain rfl : fld w 0 9 = t := by unfold fld; omega
  have h23 : fld w 23 2 = p.code := by unfold fld; omega
  have h15 : fld w 15 8 = 0 := by unfold fld; omega
  rw [hdis w ws h25, fI6, decPr_code _ h23, h15, mbz_zero, decT_ok _ ht]

/-- Words of the M format. -/
theorem fM_decodes {f : Pr → Nat → Nat → Nat → Instr} {w : Nat} (hop : op ≠ 2 ∧ op < 127)
    (hwf : (decide (l < 32) && decide (n < 512) && tgtOk t) = true) (henc : encode (f p l n t) = [w])
    (hw : w = op * 0x2000000 + p.code * 0x800000 + l * 0x40000 + n * 0x200 + t)
    (hdis : ∀ w ws, fld w 25 7 = op → decodeWord w ws = fM w f) : Decodes (f p l n t) := by
  obtain ⟨hln, ht⟩ := Bool.and_eq_true_iff.1 hwf
  obtain ⟨hl, hn⟩ := Bool.and_eq_true_iff.1 hln
  have := of_decide_eq_true hl
  have := of_decide_eq_true hn
  have := tgtOk_iff.1 ht
  have := pr_lt p
  refine decodes_word (op := op) henc (by omega) hop fun h25 ws => ?_
  obtain rfl : fld w 18 5 = l := by unfold fld; omega
  obtain rfl : fld w 9 9 = n := by unfold fld; omega
  obtain rfl : fld w 0 9 = t := by unfold fld; omega
  have h23 : fld w 23 2 = p.code := by unfold fld; omega
  rw [hdis w ws h25, fM, decPr_code _ h23, decT_ok _ ht]

/-- Words of the A format with a result. -/
theorem fA_decodes {f : Pr → Nat → Nat → Instr} {w : Nat} (hop : op ≠ 2 ∧ op < 127 ∧ x < 32)
    (hwf : (decide (l < 32) && tgtOk t) = true) (henc : encode (f p l t) = [w])
    (hw : w = op * 0x2000000 + x * 0x2000 + p.code * 0x800000 + l * 0x40000 + t)
    (hdis : ∀ w ws, fld w 25 7 = op → fld w 13 5 = x → decodeWord w ws = fA w f) : Decodes (f p l t) := by
  obtain ⟨hl, ht⟩ := Bool.and_eq_true_iff.1 hwf
  have := of_decide_eq_true hl
  have := tgtOk_iff.1 ht
  have := pr_lt p
  refine decodes_word (op := op) henc (by omega) ⟨hop.1, hop.2.1⟩ fun h25 ws => ?_
  obtain rfl : fld w 18 5 = l := by unfold fld; omega
  obtain rfl : fld w 0 9 = t := by unfold fld; omega
  have h13 : fld w 13 5 = x := by unfold fld; omega
  have h23 : fld w 23 2 = p.code := by unfold fld; omega
  have h9 : fld w 9 4 = 0 := by unfold fld; omega
  rw [hdis w ws h25 h13, fA, decPr_code _ h23, h9, mbz_zero, decT_ok _ ht]

/-- Words of the A format without a result. -/
theorem fA0_decodes {f : Pr → Nat → Instr} {w : Nat} (hop : op ≠ 2 ∧ op < 127 ∧ x < 32)
    (hwf : decide (l < 32) = true) (henc : encode (f p l) = [w])
    (hw : w = op * 0x2000000 + x * 0x2000 + 511 + p.code * 0x800000 + l * 0x40000)
    (hdis : ∀ w ws, fld w 25 7 = op → fld w 13 5 = x → decodeWord w ws = fA0 w f) : Decodes (f p l) := by
  have := of_decide_eq_true hwf
  have := pr_lt p
  refine decodes_word (op := op) henc (by omega) ⟨hop.1, hop.2.1⟩ fun h25 ws => ?_
  obtain rfl : fld w 18 5 = l := by unfold fld; omega
  have h0 : fld w 0 9 = 511 := by unfold fld; omega
  have h13 : fld w 13 5 = x := by unfold fld; omega
  have h23 : fld w 23 2 = p.code := by unfold fld; omega
  have h9 : fld w 9 4 = 0 := by unfold fld; omega
  rw [hdis w ws h25 h13, fA0, decPr_code _ h23, h9, mbz_zero, noT_none _ h0]

/-- Words of the A format with a scope and without a result. -/
theorem fAC0_decodes {f : Pr → Nat → Scope → Instr} {w : Nat} (hop : op ≠ 2 ∧ op < 127 ∧ x < 32)
    (hwf : decide (l < 32) = true) (henc : encode (f p l c) = [w])
    (hw : w = op * 0x2000000 + x * 0x2000 + 511 + p.code * 0x800000 + l * 0x40000 + c.code * 0x200)
    (hdis : ∀ w ws, fld w 25 7 = op → fld w 13 5 = x → decodeWord w ws = fAC0 w f) : Decodes (f p l c) := by
  have := of_decide_eq_true hwf
  have := pr_lt p
  have := scope_lt c
  refine decodes_word (op := op) henc (by omega) ⟨hop.1, hop.2.1⟩ fun h25 ws => ?_
  obtain rfl : fld w 18 5 = l := by unfold fld; omega
  have h0 : fld w 0 9 = 511 := by unfold fld; omega
  have h13 : fld w 13 5 = x := by unfold fld; omega
  have h23 : fld w 23 2 = p.code := by unfold fld; omega
  have h9 : fld w 9 4 = c.code := by unfold fld; omega
  rw [hdis w ws h25 h13, fAC0, decPr_code _ h23, noT_none _ h0, decC_code _ h9]

/-- Words of the X format with an offset of 20 bits. -/
theorem fX20_decodes {f : Pr → Nat → Nat → Instr} {w : Nat} (hop : op ≠ 2 ∧ op < 127)
    (hwf : (decide (k < 8) && decide (n < 1048576)) = true) (henc : encode (f p k n) = [w])
    (hw : w = op * 0x2000000 + p.code * 0x800000 + k * 0x100000 + n)
    (hdis : ∀ w ws, fld w 25 7 = op → decodeWord w ws = fX w 20 f) : Decodes (f p k n) := by
  obtain ⟨hk, hn⟩ := Bool.and_eq_true_iff.1 hwf
  have := of_decide_eq_true hk
  have := of_decide_eq_true hn
  have := pr_lt p
  refine decodes_word (op := op) henc (by omega) hop fun h25 ws => ?_
  obtain rfl : fld w 20 3 = k := by unfold fld; omega
  obtain rfl : fld w 0 20 = n := by unfold fld; omega
  have h23 : fld w 23 2 = p.code := by unfold fld; omega
  rw [hdis w ws h25, fX, decPr_code _ h23]

/-- Words of the X format with an offset of 16 bits and a number in bits 16 to 19. -/
theorem fX16_decodes {f : Pr → Nat → Nat → Instr} {w : Nat} (hop : op ≠ 2 ∧ op < 127 ∧ x < 16)
    (hwf : (decide (k < 8) && decide (n < 65536)) = true) (henc : encode (f p k n) = [w])
    (hw : w = op * 0x2000000 + x * 0x10000 + p.code * 0x800000 + k * 0x100000 + n)
    (hdis : ∀ w ws, fld w 25 7 = op → fld w 16 4 = x → decodeWord w ws = fX w 16 f) : Decodes (f p k n) := by
  obtain ⟨hk, hn⟩ := Bool.and_eq_true_iff.1 hwf
  have := of_decide_eq_true hk
  have := of_decide_eq_true hn
  have := pr_lt p
  refine decodes_word (op := op) henc (by omega) ⟨hop.1, hop.2.1⟩ fun h25 ws => ?_
  obtain rfl : fld w 20 3 = k := by unfold fld; omega
  obtain rfl : fld w 0 16 = n := by unfold fld; omega
  have h23 : fld w 23 2 = p.code := by unfold fld; omega
  have h16 : fld w 16 4 = x := by unfold fld; omega
  rw [hdis w ws h25 h16, fX, decPr_code _ h23]

/-- Words of the X format without an offset. -/
theorem fX0_decodes {f : Pr → Nat → Instr} {w : Nat} (hop : op ≠ 2 ∧ op < 127 ∧ (n = 16 ∨ n = 20))
    (hwf : decide (k < 8) = true) (henc : encode (f p k) = [w])
    (hw : w = op * 0x2000000 + p.code * 0x800000 + k * 0x100000)
    (hdis : ∀ w ws, fld w 25 7 = op → fld w 16 4 = 0 → decodeWord w ws = fX0 w n f) : Decodes (f p k) := by
  have := of_decide_eq_true hwf
  have := pr_lt p
  refine decodes_word (op := op) henc (by omega) ⟨hop.1, hop.2.1⟩ fun h25 ws => ?_
  obtain rfl : fld w 20 3 = k := by unfold fld; omega
  have h23 : fld w 23 2 = p.code := by unfold fld; omega
  have h16 : fld w 16 4 = 0 := by unfold fld; omega
  have h0 : fld w 0 n = 0 := by obtain rfl | rfl := hop.2.2 <;> (unfold fld; omega)
  rw [hdis w ws h25 h16, fX0, decPr_code _ h23, h0, mbz_zero]

end

/-! ### Words with a layout of their own -/

theorem readReg_decodes {k s t : Nat}
    (h : (decide (k < 16) && tgtOk s && tgtOk t) = true) : Decodes (.readReg k s t) := by
  simp only [Bool.and_eq_true, decide_eq_true_eq] at h
  obtain ⟨⟨hk, hs⟩, ht⟩ := h
  have := tgtOk_iff.1 hs
  have := tgtOk_iff.1 ht
  generalize hw : 0x00000000 + k * 0x40000 + s * 0x200 + t = w
  refine decodes_word (op := 0) (congrArg ([·]) hw) (by omega) (by decide) fun h25 ws => ?_
  obtain rfl : fld w 9 9 = s := by unfold fld; omega
  obtain rfl : fld w 0 9 = t := by unfold fld; omega
  obtain rfl : fld w 18 4 = k := by unfold fld; omega
  have h22 : fld w 22 3 = 0 := by unfold fld; omega
  simp [decodeWord, fld_opcode_high, fld_opcode_low, dec0, h25, h22, mbz, decST_ok _ hs ht]

theorem mov4_decodes {p : Pr} {s t t3 t2 : Nat} (h : (tgtOk s && tgtOk t && tgtOk t3 && tgtOk t2) = true) :
    Decodes (.mov4 p s t t3 t2) := by
  have hfit := Laws.Fits.mov4 p s t t3 t2 h
  simp only [Bool.and_eq_true] at h
  obtain ⟨⟨⟨hs, ht⟩, ht3⟩, ht2⟩ := h
  have := pr_lt p
  have := tgtOk_iff.1 hs
  have := tgtOk_iff.1 ht
  have := tgtOk_iff.1 ht3
  have := tgtOk_iff.1 ht2
  generalize hw : 0x04000000 + p.code * 0x800000 + s * 0x200 + t = w
  generalize hv : t3 * 0x200 + t2 = v
  have henc : encode (.mov4 p s t t3 t2) = [w, v] := by rw [← hw, ← hv]; rfl
  have h25 : fld w 25 7 = 2 := by unfold fld; omega
  have h23 : fld w 23 2 = p.code := by unfold fld; omega
  have h18 : fld w 18 5 = 0 := by unfold fld; omega
  have hv18 : fld v 18 14 = 0 := by unfold fld; omega
  refine ⟨w, [v], henc, hfit, by simp [wordCount, h25], fun rest => ?_⟩
  obtain rfl : fld w 9 9 = s := by unfold fld; omega
  obtain rfl : fld w 0 9 = t := by unfold fld; omega
  obtain rfl : fld v 9 9 = t3 := by unfold fld; omega
  obtain rfl : fld v 0 9 = t2 := by unfold fld; omega
  simp [decodeWord, fld_opcode_high, fld_opcode_low, dec0, h25, h18, hv18, sub0, nth, mbz, decPr_code _ h23,
    decST_ok _ hs ht, decST_ok _ ht3 ht2]

/-- CONST and CONSTH. -/
theorem const_decodes {f : Nat → Nat → Instr} {op t n w : Nat} (hop : op ≠ 2 ∧ op < 127)
    (hwf : (tgtOk t && decide (n < 65536)) = true) (henc : encode (f t n) = [w])
    (hw : w = op * 0x2000000 + t * 0x10000 + n)
    (hdis : ∀ w ws, fld w 25 7 = op → decodeWord w ws = decT (fld w 16 9) fun t => .ok (f t (fld w 0 16))) :
    Decodes (f t n) := by
  obtain ⟨ht, hn⟩ := Bool.and_eq_true_iff.1 hwf
  have := tgtOk_iff.1 ht
  have := of_decide_eq_true hn
  refine decodes_word (op := op) henc (by omega) hop fun h25 ws => ?_
  obtain rfl : fld w 16 9 = t := by unfold fld; omega
  obtain rfl : fld w 0 16 = n := by unfold fld; omega
  rw [hdis w ws h25, decT_ok _ ht]

theorem sel_decodes {s t : Nat} (h : (Instr.sel s t).wf = true) : Decodes (.sel s t) := by
  obtain ⟨hs, ht⟩ := Bool.and_eq_true_iff.1 h
  have := tgtOk_iff.1 hs
  have := tgtOk_iff.1 ht
  generalize hw : 0x44000000 + s * 0x200 + t = w
  refine decodes_word (op := 0x22) (congrArg ([·]) hw) (by omega) (by decide) fun h25 ws => ?_
  obtain rfl : fld w 9 9 = s := by unfold fld; omega
  obtain rfl : fld w 0 9 = t := by unfold fld; omega
  have h23 : fld w 23 2 = 0 := by unfold fld; omega
  have h18 : fld w 18 5 = 0 := by unfold fld; omega
  simp [decodeWord, fld_opcode_high, fld_opcode_low, dec2, h25, h23, h18, sub0, mbz, decST_ok _ hs ht]

/-- BSWAP has no form for bytes. -/
theorem bswap_decodes {p : Pr} {v : Width} {s t : Nat} (h : (Instr.bswap p v s t).wf = true) :
    Decodes (.bswap p v s t) := by
  obtain ⟨hst, hv⟩ := Bool.and_eq_true_iff.1 h
  obtain ⟨hs, ht⟩ := Bool.and_eq_true_iff.1 hst
  have := pr_lt p
  have := width_lt v
  have := tgtOk_iff.1 hs
  have := tgtOk_iff.1 ht
  have hv0 : v.code ≠ 0 := by cases v <;> simp [Width.code] at hv ⊢
  generalize hw : 0x46400000 + p.code * 0x800000 + v.code * 0x40000 + s * 0x200 + t = w
  refine decodes_word (op := 0x23) (congrArg ([·]) hw) (by omega) (by decide) fun h25 ws => ?_
  obtain rfl : fld w 9 9 = s := by unfold fld; omega
  obtain rfl : fld w 0 9 = t := by unfold fld; omega
  have h23 : fld w 23 2 = p.code := by unfold fld; omega
  have h20 : fld w 20 3 = 4 := by unfold fld; omega
  have h18 : fld w 18 2 = v.code := by unfold fld; omega
  simp [decodeWord, fld_opcode_high, fld_opcode_low, dec2, h25, h20, h18, hv0, needSub, gW, decPr_code _ h23,
    decST_ok _ hs ht]

theorem bfx_decodes {p : Pr} {b : Bool} {l n t : Nat}
    (h : (decide (l < 64) && decide (n < 64) && tgtOk t && decide (l + n < 64)) = true) :
    Decodes (.bfx p b l n t) := by
  simp only [Bool.and_eq_true, decide_eq_true_eq] at h
  obtain ⟨⟨⟨hl, hn⟩, ht⟩, hln⟩ := h
  have := pr_lt p
  have := b.toNat_lt
  have := tgtOk_iff.1 ht
  generalize hw : 0x48000000 + p.code * 0x800000 + b.toNat * 0x200000 + l * 0x8000 + n * 0x200 + t = w
  refine decodes_word (op := 0x24) (congrArg ([·]) hw) (by omega) (by decide) fun h25 ws => ?_
  obtain rfl : fld w 15 6 = l := by unfold fld; omega
  obtain rfl : fld w 9 6 = n := by unfold fld; omega
  obtain rfl : fld w 0 9 = t := by unfold fld; omega
  have h23 : fld w 23 2 = p.code := by unfold fld; omega
  have h22 : fld w 22 1 = 0 := by unfold fld; omega
  have h21 : fld w 21 1 = b.toNat := by unfold fld; omega
  simp [decodeWord, fld_opcode_high, fld_opcode_low, dec2, h25, h22, h21, mbz, decPr_code _ h23, hln, decT_ok _ ht]

theorem bfi_decodes {p : Pr} {l n t : Nat}
    (h : (decide (l < 64) && decide (n < 64) && tgtOk t && decide (l + n < 64)) = true) : Decodes (.bfi p l n t) := by
  simp only [Bool.and_eq_true, decide_eq_true_eq] at h
  obtain ⟨⟨⟨hl, hn⟩, ht⟩, hln⟩ := h
  have := pr_lt p
  have := tgtOk_iff.1 ht
  generalize hw : 0x4A000000 + p.code * 0x800000 + l * 0x8000 + n * 0x200 + t = w
  refine decodes_word (op := 0x25) (congrArg ([·]) hw) (by omega) (by decide) fun h25 ws => ?_
  obtain rfl : fld w 15 6 = l := by unfold fld; omega
  obtain rfl : fld w 9 6 = n := by unfold fld; omega
  obtain rfl : fld w 0 9 = t := by unfold fld; omega
  have h23 : fld w 23 2 = p.code := by unfold fld; omega
  have h21 : fld w 21 2 = 0 := by unfold fld; omega
  simp [decodeWord, fld_opcode_high, fld_opcode_low, dec2, h25, h21, mbz, decPr_code _ h23, hln, decT_ok _ ht]

theorem st_decodes {p : Pr} {l n : Nat} {b : Bool} {v : Width} (h : (decide (l < 32) && decide (n < 512)) = true) :
    Decodes (.st p l n b v) := by
  simp only [Bool.and_eq_true, decide_eq_true_eq] at h
  obtain ⟨hl, hn⟩ := h
  have := pr_lt p
  have := b.toNat_lt
  have := width_lt v
  generalize hw : 0xB0000000 + p.code * 0x800000 + l * 0x40000 + n * 0x200 + b.toNat * 0x4 + v.code = w
  refine decodes_word (op := 0x58) (congrArg ([·]) hw) (by omega) (by decide) fun h25 ws => ?_
  obtain rfl : fld w 18 5 = l := by unfold fld; omega
  obtain rfl : fld w 9 9 = n := by unfold fld; omega
  have h23 : fld w 23 2 = p.code := by unfold fld; omega
  have h3 : fld w 3 6 = 0 := by unfold fld; omega
  have h2 : fld w 2 1 = b.toNat := by unfold fld; omega
  have h0 : fld w 0 2 = v.code := by unfold fld; omega
  simp [decodeWord, fld_opcode_high, fld_opcode_low, dec5, h25, h3, h2, h0, mbz, decPr_code _ h23]

/-- AMO with CAS takes a third operand, so that its PR is 00. -/
theorem decAmo_code {w : Nat} {p : Pr} {x : AmoOp} (h13 : fld w 13 5 = x.code) (h23 : fld w 23 2 = p.code)
    (h11 : fld w 11 2 = 0) (hpr : x ≠ .cas ∨ p = .always) (ht : tgtOk (fld w 0 9) = true) :
    decAmo w = .ok (.amo p (fld w 18 5) x (fld w 9 1 == 1) (fld w 10 1 == 1) (fld w 0 9)) := by
  have hcas : ¬(x = .cas ∧ p ≠ .always) := fun ⟨hx, hp⟩ => hpr.elim (· hx) hp
  simp only [decAmo, h13, amoOf_code, decPr_code _ h23, if_neg hcas, h11, mbz_zero, decT_ok _ ht]

theorem amo_decodes {p : Pr} {l t : Nat} {x : AmoOp} {a b : Bool}
    (h : (decide (l < 32) && tgtOk t && (x != .cas || p == .always)) = true) :
    Decodes (.amo p l x a b t) := by
  simp only [Bool.and_eq_true, decide_eq_true_eq, Bool.or_eq_true, bne_iff_ne, ne_eq, beq_iff_eq] at h
  obtain ⟨⟨hl, ht⟩, hcas⟩ := h
  have := pr_lt p
  have := amo_lt x
  have := a.toNat_lt
  have := b.toNat_lt
  have := tgtOk_iff.1 ht
  generalize hw : 0xB4000000 + p.code * 0x800000 + l * 0x40000 + x.code * 0x2000 +
    (a.toNat + 2 * b.toNat) * 0x200 + t = w
  refine decodes_word (op := 0x5A) (congrArg ([·]) hw) (by omega) (by decide) fun h25 ws => ?_
  obtain rfl : fld w 18 5 = l := by unfold fld; omega
  obtain rfl : fld w 0 9 = t := by unfold fld; omega
  have h23 : fld w 23 2 = p.code := by unfold fld; omega
  have h13 : fld w 13 5 = x.code := by unfold fld; omega
  have h11 : fld w 11 2 = 0 := by unfold fld; omega
  have h9 : fld w 9 2 = a.toNat + 2 * b.toNat := by unfold fld; omega
  have ha : fld w 9 1 = a.toNat := by rw [show fld w 9 1 = fld w 9 2 % 2 by unfold fld; omega]; omega
  have hb : fld w 10 1 = b.toNat := by rw [show fld w 10 1 = fld w 9 2 / 2 by unfold fld; omega]; omega
  rw [show decodeWord w ws = decAmo w by simp [decodeWord, fld_opcode_high, fld_opcode_low, dec5, h25],
    decAmo_code h13 h23 h11 hcas ht, ha, hb, toNat_beq_one, toNat_beq_one]

theorem arrive_decodes {p : Pr} {l t : Nat} {c : Scope} (h : (Instr.arrive p l c t).wf = true) :
    Decodes (.arrive p l c t) := by
  obtain ⟨hl, ht⟩ := Bool.and_eq_true_iff.1 h
  have := of_decide_eq_true hl
  have := pr_lt p
  have := scope_lt c
  have := tgtOk_iff.1 ht
  generalize hw : 0xB6002000 + p.code * 0x800000 + l * 0x40000 + c.code * 0x200 + t = w
  refine decodes_word (op := 0x5B) (congrArg ([·]) hw) (by omega) (by decide) fun h25 ws => ?_
  obtain rfl : fld w 18 5 = l := by unfold fld; omega
  obtain rfl : fld w 0 9 = t := by unfold fld; omega
  have h23 : fld w 23 2 = p.code := by unfold fld; omega
  have h13 : fld w 13 5 = 1 := by unfold fld; omega
  have h9 : fld w 9 4 = c.code := by unfold fld; omega
  simp [decodeWord, fld_opcode_high, fld_opcode_low, dec5, h25, h13, decPr_code _ h23, decC_code _ h9, decT_ok _ ht]

/-- The messages and atomics with a third operand: PR is 00. -/
theorem triple_decodes {f : Nat → Nat → Instr} {op x l t w : Nat} (hop : op ≠ 2 ∧ op < 127 ∧ x < 32)
    (hwf : (decide (l < 32) && tgtOk t) = true) (henc : encode (f l t) = [w])
    (hw : w = op * 0x2000000 + x * 0x2000 + l * 0x40000 + t)
    (hdis : ∀ w ws, fld w 25 7 = op → fld w 13 5 = x →
      decodeWord w ws = mbz (fld w 23 2) (mbz (fld w 9 4) (decT (fld w 0 9) fun t => .ok (f (fld w 18 5) t)))) :
    Decodes (f l t) := by
  obtain ⟨hl, ht⟩ := Bool.and_eq_true_iff.1 hwf
  have := of_decide_eq_true hl
  have := tgtOk_iff.1 ht
  refine decodes_word (op := op) henc (by omega) ⟨hop.1, hop.2.1⟩ fun h25 ws => ?_
  obtain rfl : fld w 18 5 = l := by unfold fld; omega
  obtain rfl : fld w 0 9 = t := by unfold fld; omega
  have h13 : fld w 13 5 = x := by unfold fld; omega
  have h23 : fld w 23 2 = 0 := by unfold fld; omega
  have h9 : fld w 9 4 = 0 := by unfold fld; omega
  rw [hdis w ws h25 h13, h23, h9, mbz_zero, mbz_zero, decT_ok _ ht]

theorem vsts_decodes {l : Nat} {v : Width} (h : (Instr.vsts l v).wf = true) : Decodes (.vsts l v) := by
  have := of_decide_eq_true h
  have := width_lt v
  generalize hw : 0xF60181FF + l * 0x40000 + v.code * 0x2000 = w
  refine decodes_word (op := 0x7B) (congrArg ([·]) hw) (by omega) (by decide) fun h25 ws => ?_
  obtain rfl : fld w 18 5 = l := by unfold fld; omega
  have h23 : fld w 23 2 = 0 := by unfold fld; omega
  have h15 : fld w 15 3 = 3 := by unfold fld; omega
  have h13 : fld w 13 2 = v.code := by unfold fld; omega
  have h9 : fld w 9 4 = 0 := by unfold fld; omega
  have h0 : fld w 0 9 = 511 := by unfold fld; omega
  simp [decodeWord, fld_opcode_high, fld_opcode_low, decVM, h25, h15, h13, h23, h9, mbz, noT_none _ h0]

theorem vamo_decodes {p : Pr} {l t : Nat} {v : Width} {a : AmoOp}
    (h : (decide (l < 32) && tgtOk t && a.lanewise) = true) :
    Decodes (.vamo p l v a t) := by
  simp only [Bool.and_eq_true, decide_eq_true_eq] at h
  obtain ⟨⟨hl, ht⟩, ha⟩ := h
  have := pr_lt p
  have := width_lt v
  have := amo_lt a
  have := tgtOk_iff.1 ht
  generalize hw : 0xF6028000 + p.code * 0x800000 + l * 0x40000 + v.code * 0x2000 + a.code * 0x200 + t = w
  refine decodes_word (op := 0x7B) (congrArg ([·]) hw) (by omega) (by decide) fun h25 ws => ?_
  obtain rfl : fld w 18 5 = l := by unfold fld; omega
  obtain rfl : fld w 0 9 = t := by unfold fld; omega
  have h23 : fld w 23 2 = p.code := by unfold fld; omega
  have h15 : fld w 15 3 = 5 := by unfold fld; omega
  have h13 : fld w 13 2 = v.code := by unfold fld; omega
  have h9 : fld w 9 4 = a.code := by unfold fld; omega
  simp [decodeWord, fld_opcode_high, fld_opcode_low, decVM, h25, h15, h13, h9, needSub, ha, decPr_code _ h23,
    decT_ok _ ht]

/-- A command field is the sum of its five words. -/
theorem command_field_words (f : BitVec 160) :
    BitVec.ofNat 160 (fld f.toNat 0 32 + fld f.toNat 32 32 * 2 ^ 32 + fld f.toNat 64 32 * 2 ^ 64 +
      fld f.toNat 96 32 * 2 ^ 96 + fld f.toNat 128 32 * 2 ^ 128) = f := by
  apply BitVec.eq_of_toNat_eq
  have := f.isLt
  rw [BitVec.toNat_ofNat]
  unfold fld
  omega

/-- Word 1 of a long command: WSEM, WTHR and SSEM. -/
theorem semaphore_word_fields {wsem wthr ssem : Nat} (hwsem : wsem < 256) (hwthr : wthr < 65536)
    (hssem : ssem < 256) :
    fld (wsem * 0x1000000 + wthr * 0x100 + ssem) 24 8 = wsem ∧ fld (wsem * 0x1000000 + wthr * 0x100 + ssem) 8 16 = wthr ∧
      fld (wsem * 0x1000000 + wthr * 0x100 + ssem) 0 8 = ssem := by
  unfold fld
  omega

/-- Word 2 of a long command: SINC and the flags. -/
theorem flag_word_fields {sinc flags : Nat} (hsinc : sinc < 65536) (hflags : flags < 65536) :
    fld (sinc * 0x10000 + flags) 16 16 = sinc ∧ fld (sinc * 0x10000 + flags) 0 16 = flags := by
  unfold fld
  omega

/-- Long commands. -/
theorem long_decodes {f : Long → Instr} {eng cmd : Nat} {c : Long} (hlong : longOf eng cmd = some f)
    (heng : eng < 8) (hcmd : cmd < 64) (hwf : longWf eng cmd c = true) (henc : encode (f c) = encLong eng cmd c) :
    Decodes (f c) := by
  have hfit := encLong_fits heng hcmd hwf
  rw [← henc] at hfit
  simp only [longWf, Bool.and_eq_true, decide_eq_true_eq] at hwf
  obtain ⟨⟨⟨⟨⟨⟨⟨hl, ht⟩, hwsem⟩, hwthr⟩, hssem⟩, hsinc⟩, hflags⟩, hfields⟩ := hwf
  have := pr_lt c.p
  have := tgtOk_iff.1 ht
  rw [encLong] at henc
  generalize hw : 0xFE000000 + c.p.code * 0x800000 + cmd * 0x20000 + eng * 0x4000 + c.lsid * 0x200 + c.t = w at henc
  have h25 : fld w 25 7 = 127 := by unfold fld; omega
  refine ⟨w, _, henc, hfit, by simp [wordCount, h25], fun rest => ?_⟩
  have h23 : fld w 23 2 = c.p.code := by unfold fld; omega
  have h17 : fld w 17 6 = cmd := by unfold fld; omega
  have h14 : fld w 14 3 = eng := by unfold fld; omega
  have h9 : fld w 9 5 = c.lsid := by unfold fld; omega
  have h0 : fld w 0 9 = c.t := by unfold fld; omega
  obtain ⟨h24', h8', h0'⟩ := semaphore_word_fields hwsem hwthr hssem
  obtain ⟨h16'', h0''⟩ := flag_word_fields hsinc hflags
  have hc := command_field_words c.f
  simp only [decodeWord, fld_opcode_high, fld_opcode_low, h25, decLong, decPr_code _ h23, h17, h14, h9, h0, hlong, nth,
    List.cons_append, List.getD_cons_zero, List.getD_cons_succ, h24', h8', h0', h16'', h0'', hc, Nat.reduceDiv,
    Nat.reduceMod, hfields, if_true, decT_ok _ ht]

/-- Every well-formed instruction that has words is what they decode to: by its constructor, each of a layout above. -/
theorem decodes_of_wf (i : Instr) (h : i.wf = true) (hne : encode i ≠ []) : Decodes i := by
  cases i with
  | mov p s t =>
    exact gX_decodes (op := 0x01) (x := 0) (by decide) h rfl rfl
      fun w ws e1 e2 => by simp [decodeWord, fld_opcode_high, fld_opcode_low, sub0, dec0, e1, e2]
  | movi p n t =>
    exact fI_decodes (op := 0x03) (by decide) h rfl rfl
      fun w ws e1 => by simp [decodeWord, fld_opcode_high, fld_opcode_low, dec0, e1]
  | null p s t =>
    exact gX_decodes (op := 0x06) (x := 0) (by decide) h rfl rfl
      fun w ws e1 e2 => by simp [decodeWord, fld_opcode_high, fld_opcode_low, sub0, dec0, e1, e2]
  | add p v s t =>
    exact gW_decodes (op := 0x10) (x := 0) (by decide) h rfl rfl
      fun w ws e1 e2 => by simp [decodeWord, fld_opcode_high, fld_opcode_low, gW0, sub0, dec1, e1, e2]
  | sub p v s t =>
    exact gW_decodes (op := 0x11) (x := 0) (by decide) h rfl rfl
      fun w ws e1 e2 => by simp [decodeWord, fld_opcode_high, fld_opcode_low, gW0, sub0, dec1, e1, e2]
  | mul p v s t =>
    exact gW_decodes (op := 0x12) (x := 0) (by decide) h rfl rfl
      fun w ws e1 e2 => by simp [decodeWord, fld_opcode_high, fld_opcode_low, gW0, sub0, dec1, e1, e2]
  | mulh p v s t =>
    exact gW_decodes (op := 0x13) (x := 0) (by decide) h rfl rfl
      fun w ws e1 e2 => by simp [decodeWord, fld_opcode_high, fld_opcode_low, gW0, sub0, dec1, e1, e2]
  | mulhn p v s t =>
    exact gW_decodes (op := 0x14) (x := 0) (by decide) h rfl rfl
      fun w ws e1 e2 => by simp [decodeWord, fld_opcode_high, fld_opcode_low, gW0, sub0, dec1, e1, e2]
  | div p v s t =>
    exact gW_decodes (op := 0x15) (x := 0) (by decide) h rfl rfl
      fun w ws e1 e2 => by simp [decodeWord, fld_opcode_high, fld_opcode_low, gW0, sub0, dec1, e1, e2]
  | divn p v s t =>
    exact gW_decodes (op := 0x16) (x := 0) (by decide) h rfl rfl
      fun w ws e1 e2 => by simp [decodeWord, fld_opcode_high, fld_opcode_low, gW0, sub0, dec1, e1, e2]
  | rem p v s t =>
    exact gW_decodes (op := 0x17) (x := 0) (by decide) h rfl rfl
      fun w ws e1 e2 => by simp [decodeWord, fld_opcode_high, fld_opcode_low, gW0, sub0, dec1, e1, e2]
  | remn p v s t =>
    exact gW_decodes (op := 0x18) (x := 0) (by decide) h rfl rfl
      fun w ws e1 e2 => by simp [decodeWord, fld_opcode_high, fld_opcode_low, gW0, sub0, dec1, e1, e2]
  | and p v s t =>
    exact gW_decodes (op := 0x19) (x := 0) (by decide) h rfl rfl
      fun w ws e1 e2 => by simp [decodeWord, fld_opcode_high, fld_opcode_low, gW0, sub0, dec1, e1, e2]
  | or p v s t =>
    exact gW_decodes (op := 0x1A) (x := 0) (by decide) h rfl rfl
      fun w ws e1 e2 => by simp [decodeWord, fld_opcode_high, fld_opcode_low, gW0, sub0, dec1, e1, e2]
  | xor p v s t =>
    exact gW_decodes (op := 0x1B) (x := 0) (by decide) h rfl rfl
      fun w ws e1 e2 => by simp [decodeWord, fld_opcode_high, fld_opcode_low, gW0, sub0, dec1, e1, e2]
  | andn p v s t =>
    exact gW_decodes (op := 0x1C) (x := 0) (by decide) h rfl rfl
      fun w ws e1 e2 => by simp [decodeWord, fld_opcode_high, fld_opcode_low, gW0, sub0, dec1, e1, e2]
  | shl p v s t =>
    exact gW_decodes (op := 0x1D) (x := 0) (by decide) h rfl rfl
      fun w ws e1 e2 => by simp [decodeWord, fld_opcode_high, fld_opcode_low, gW0, sub0, dec1, e1, e2]
  | shr p v s t =>
    exact gW_decodes (op := 0x1E) (x := 0) (by decide) h rfl rfl
      fun w ws e1 e2 => by simp [decodeWord, fld_opcode_high, fld_opcode_low, gW0, sub0, dec1, e1, e2]
  | sra p v s t =>
    exact gW_decodes (op := 0x1F) (x := 0) (by decide) h rfl rfl
      fun w ws e1 e2 => by simp [decodeWord, fld_opcode_high, fld_opcode_low, gW0, sub0, dec1, e1, e2]
  | rol p v s t =>
    exact gW_decodes (op := 0x20) (x := 0) (by decide) h rfl rfl
      fun w ws e1 e2 => by simp [decodeWord, fld_opcode_high, fld_opcode_low, dec2, e1, e2]
  | ror p v s t =>
    exact gW_decodes (op := 0x20) (x := 1) (by decide) h rfl rfl
      fun w ws e1 e2 => by simp [decodeWord, fld_opcode_high, fld_opcode_low, dec2, e1, e2]
  | min p v s t =>
    exact gW_decodes (op := 0x21) (x := 0) (by decide) h rfl rfl
      fun w ws e1 e2 => by simp [decodeWord, fld_opcode_high, fld_opcode_low, dec2, e1, e2]
  | max p v s t =>
    exact gW_decodes (op := 0x21) (x := 1) (by decide) h rfl rfl
      fun w ws e1 e2 => by simp [decodeWord, fld_opcode_high, fld_opcode_low, dec2, e1, e2]
  | minn p v s t =>
    exact gW_decodes (op := 0x21) (x := 2) (by decide) h rfl rfl
      fun w ws e1 e2 => by simp [decodeWord, fld_opcode_high, fld_opcode_low, dec2, e1, e2]
  | maxn p v s t =>
    exact gW_decodes (op := 0x21) (x := 3) (by decide) h rfl rfl
      fun w ws e1 e2 => by simp [decodeWord, fld_opcode_high, fld_opcode_low, dec2, e1, e2]
  | clz p v s t =>
    exact gW_decodes (op := 0x23) (x := 0) (by decide) h rfl rfl
      fun w ws e1 e2 => by simp [decodeWord, fld_opcode_high, fld_opcode_low, dec2, e1, e2]
  | ctz p v s t =>
    exact gW_decodes (op := 0x23) (x := 1) (by decide) h rfl rfl
      fun w ws e1 e2 => by simp [decodeWord, fld_opcode_high, fld_opcode_low, dec2, e1, e2]
  | popc p v s t =>
    exact gW_decodes (op := 0x23) (x := 2) (by decide) h rfl rfl
      fun w ws e1 e2 => by simp [decodeWord, fld_opcode_high, fld_opcode_low, dec2, e1, e2]
  | brev p v s t =>
    exact gW_decodes (op := 0x23) (x := 3) (by decide) h rfl rfl
      fun w ws e1 e2 => by simp [decodeWord, fld_opcode_high, fld_opcode_low, dec2, e1, e2]
  | abs p v s t =>
    exact gW_decodes (op := 0x23) (x := 5) (by decide) h rfl rfl
      fun w ws e1 e2 => by simp [decodeWord, fld_opcode_high, fld_opcode_low, dec2, e1, e2]
  | sext p v s t =>
    exact gW_decodes (op := 0x23) (x := 6) (by decide) h rfl rfl
      fun w ws e1 e2 => by simp [decodeWord, fld_opcode_high, fld_opcode_low, dec2, e1, e2]
  | zext p v s t =>
    exact gW_decodes (op := 0x23) (x := 7) (by decide) h rfl rfl
      fun w ws e1 e2 => by simp [decodeWord, fld_opcode_high, fld_opcode_low, dec2, e1, e2]
  | kvslot p s t =>
    exact gX_decodes (op := 0x26) (x := 0) (by decide) h rfl rfl
      fun w ws e1 e2 => by simp [decodeWord, fld_opcode_high, fld_opcode_low, sub0, dec2, e1, e2]
  | addi p n t =>
    exact fI_decodes (op := 0x27) (by decide) h rfl rfl
      fun w ws e1 => by simp [decodeWord, fld_opcode_high, fld_opcode_low, dec2, e1]
  | muli p n t =>
    exact fI_decodes (op := 0x28) (by decide) h rfl rfl
      fun w ws e1 => by simp [decodeWord, fld_opcode_high, fld_opcode_low, dec2, e1]
  | andi p n t =>
    exact fI_decodes (op := 0x29) (by decide) h rfl rfl
      fun w ws e1 => by simp [decodeWord, fld_opcode_high, fld_opcode_low, dec2, e1]
  | ori p n t =>
    exact fI_decodes (op := 0x2A) (by decide) h rfl rfl
      fun w ws e1 => by simp [decodeWord, fld_opcode_high, fld_opcode_low, dec2, e1]
  | xori p n t =>
    exact fI_decodes (op := 0x2B) (by decide) h rfl rfl
      fun w ws e1 => by simp [decodeWord, fld_opcode_high, fld_opcode_low, dec2, e1]
  | shli p n t =>
    exact fI6_decodes (op := 0x2C) (by decide) h rfl rfl
      fun w ws e1 => by simp [decodeWord, fld_opcode_high, fld_opcode_low, dec2, e1]
  | shri p n t =>
    exact fI6_decodes (op := 0x2D) (by decide) h rfl rfl
      fun w ws e1 => by simp [decodeWord, fld_opcode_high, fld_opcode_low, dec2, e1]
  | srai p n t =>
    exact fI6_decodes (op := 0x2E) (by decide) h rfl rfl
      fun w ws e1 => by simp [decodeWord, fld_opcode_high, fld_opcode_low, dec2, e1]
  | teq p v s t =>
    exact gW_decodes (op := 0x30) (x := 0) (by decide) h rfl rfl
      fun w ws e1 e2 => by simp [decodeWord, fld_opcode_high, fld_opcode_low, gW0, sub0, dec3, e1, e2]
  | tne p v s t =>
    exact gW_decodes (op := 0x31) (x := 0) (by decide) h rfl rfl
      fun w ws e1 e2 => by simp [decodeWord, fld_opcode_high, fld_opcode_low, gW0, sub0, dec3, e1, e2]
  | tlt p v s t =>
    exact gW_decodes (op := 0x32) (x := 0) (by decide) h rfl rfl
      fun w ws e1 e2 => by simp [decodeWord, fld_opcode_high, fld_opcode_low, gW0, sub0, dec3, e1, e2]
  | tle p v s t =>
    exact gW_decodes (op := 0x33) (x := 0) (by decide) h rfl rfl
      fun w ws e1 e2 => by simp [decodeWord, fld_opcode_high, fld_opcode_low, gW0, sub0, dec3, e1, e2]
  | tltn p v s t =>
    exact gW_decodes (op := 0x34) (x := 0) (by decide) h rfl rfl
      fun w ws e1 e2 => by simp [decodeWord, fld_opcode_high, fld_opcode_low, gW0, sub0, dec3, e1, e2]
  | tlen p v s t =>
    exact gW_decodes (op := 0x35) (x := 0) (by decide) h rfl rfl
      fun w ws e1 e2 => by simp [decodeWord, fld_opcode_high, fld_opcode_low, gW0, sub0, dec3, e1, e2]
  | teqi p n t =>
    exact fI_decodes (op := 0x36) (by decide) h rfl rfl
      fun w ws e1 => by simp [decodeWord, fld_opcode_high, fld_opcode_low, dec3, e1]
  | tnei p n t =>
    exact fI_decodes (op := 0x37) (by decide) h rfl rfl
      fun w ws e1 => by simp [decodeWord, fld_opcode_high, fld_opcode_low, dec3, e1]
  | tlti p n t =>
    exact fI_decodes (op := 0x38) (by decide) h rfl rfl
      fun w ws e1 => by simp [decodeWord, fld_opcode_high, fld_opcode_low, dec3, e1]
  | tlei p n t =>
    exact fI_decodes (op := 0x39) (by decide) h rfl rfl
      fun w ws e1 => by simp [decodeWord, fld_opcode_high, fld_opcode_low, dec3, e1]
  | tltni p n t =>
    exact fI_decodes (op := 0x3A) (by decide) h rfl rfl
      fun w ws e1 => by simp [decodeWord, fld_opcode_high, fld_opcode_low, dec3, e1]
  | tleni p n t =>
    exact fI_decodes (op := 0x3B) (by decide) h rfl rfl
      fun w ws e1 => by simp [decodeWord, fld_opcode_high, fld_opcode_low, dec3, e1]
  | tbit p n t =>
    exact fI6_decodes (op := 0x3C) (by decide) h rfl rfl
      fun w ws e1 => by simp [decodeWord, fld_opcode_high, fld_opcode_low, dec3, e1]
  | fadd p m q s t =>
    exact gQM_decodes (op := 0x40) (by decide) h rfl rfl
      fun w ws e1 => by simp [decodeWord, fld_opcode_high, fld_opcode_low, dec4, e1]
  | fsub p m q s t =>
    exact gQM_decodes (op := 0x41) (by decide) h rfl rfl
      fun w ws e1 => by simp [decodeWord, fld_opcode_high, fld_opcode_low, dec4, e1]
  | fmul p m q s t =>
    exact gQM_decodes (op := 0x42) (by decide) h rfl rfl
      fun w ws e1 => by simp [decodeWord, fld_opcode_high, fld_opcode_low, dec4, e1]
  | fdiv p m q s t =>
    exact gQM_decodes (op := 0x43) (by decide) h rfl rfl
      fun w ws e1 => by simp [decodeWord, fld_opcode_high, fld_opcode_low, dec4, e1]
  | fsqrt p m q s t =>
    exact gQM_decodes (op := 0x46) (by decide) h rfl rfl
      fun w ws e1 => by simp [decodeWord, fld_opcode_high, fld_opcode_low, dec4, e1]
  | fcvt p m q s t =>
    exact gQM_decodes (op := 0x4B) (by decide) h rfl rfl
      fun w ws e1 => by simp [decodeWord, fld_opcode_high, fld_opcode_low, dec4, e1]
  | fcvti p m q s t =>
    exact gQM_decodes (op := 0x4C) (by decide) h rfl rfl
      fun w ws e1 => by simp [decodeWord, fld_opcode_high, fld_opcode_low, dec4, e1]
  | icvtf p m q s t =>
    exact gQM_decodes (op := 0x4D) (by decide) h rfl rfl
      fun w ws e1 => by simp [decodeWord, fld_opcode_high, fld_opcode_low, dec4, e1]
  | frnd p m q s t =>
    exact gQM_decodes (op := 0x4E) (by decide) h rfl rfl
      fun w ws e1 => by simp [decodeWord, fld_opcode_high, fld_opcode_low, dec4, e1]
  | fma m q s t =>
    exact gQM3_decodes (op := 0x44) (by decide) h rfl rfl
      fun w ws e1 => by simp [decodeWord, fld_opcode_high, fld_opcode_low, dec4, e1]
  | fms m q s t =>
    exact gQM3_decodes (op := 0x45) (by decide) h rfl rfl
      fun w ws e1 => by simp [decodeWord, fld_opcode_high, fld_opcode_low, dec4, e1]
  | fmin p q s t =>
    exact gQ_decodes (op := 0x47) (x := 0) (by decide) h rfl rfl
      fun w ws e1 e2 => by simp [decodeWord, fld_opcode_high, fld_opcode_low, dec4, e1, e2]
  | fmax p q s t =>
    exact gQ_decodes (op := 0x47) (x := 1) (by decide) h rfl rfl
      fun w ws e1 e2 => by simp [decodeWord, fld_opcode_high, fld_opcode_low, dec4, e1, e2]
  | fabs p q s t =>
    exact gQ_decodes (op := 0x48) (x := 0) (by decide) h rfl rfl
      fun w ws e1 e2 => by simp [decodeWord, fld_opcode_high, fld_opcode_low, dec4, e1, e2]
  | fneg p q s t =>
    exact gQ_decodes (op := 0x48) (x := 1) (by decide) h rfl rfl
      fun w ws e1 e2 => by simp [decodeWord, fld_opcode_high, fld_opcode_low, dec4, e1, e2]
  | fsgn p q s t =>
    exact gQ_decodes (op := 0x48) (x := 2) (by decide) h rfl rfl
      fun w ws e1 e2 => by simp [decodeWord, fld_opcode_high, fld_opcode_low, dec4, e1, e2]
  | feq p q s t =>
    exact gQ_decodes (op := 0x49) (x := 0) (by decide) h rfl rfl
      fun w ws e1 e2 => by simp [decodeWord, fld_opcode_high, fld_opcode_low, dec4, e1, e2]
  | flt p q s t =>
    exact gQ_decodes (op := 0x49) (x := 1) (by decide) h rfl rfl
      fun w ws e1 e2 => by simp [decodeWord, fld_opcode_high, fld_opcode_low, dec4, e1, e2]
  | fle p q s t =>
    exact gQ_decodes (op := 0x49) (x := 2) (by decide) h rfl rfl
      fun w ws e1 e2 => by simp [decodeWord, fld_opcode_high, fld_opcode_low, dec4, e1, e2]
  | funord p q s t =>
    exact gQ_decodes (op := 0x49) (x := 3) (by decide) h rfl rfl
      fun w ws e1 e2 => by simp [decodeWord, fld_opcode_high, fld_opcode_low, dec4, e1, e2]
  | fclass p q s t =>
    exact gQ_decodes (op := 0x4A) (x := 0) (by decide) h rfl rfl
      fun w ws e1 e2 => by simp [decodeWord, fld_opcode_high, fld_opcode_low, sub0, dec4, e1, e2]
  | ldDAcq p l n t =>
    exact fM_decodes (op := 0x57) (by decide) h rfl rfl
      fun w ws e1 => by simp [decodeWord, fld_opcode_high, fld_opcode_low, dec5, e1]
  | ldfe p l t =>
    exact fA_decodes (op := 0x59) (x := 0) (by decide) h rfl rfl
      fun w ws e1 e2 => by simp [decodeWord, fld_opcode_high, fld_opcode_low, dec5, e1, e2]
  | ldff p l t =>
    exact fA_decodes (op := 0x59) (x := 1) (by decide) h rfl rfl
      fun w ws e1 e2 => by simp [decodeWord, fld_opcode_high, fld_opcode_low, dec5, e1, e2]
  | feprobe p l t =>
    exact fA_decodes (op := 0x59) (x := 2) (by decide) h rfl rfl
      fun w ws e1 e2 => by simp [decodeWord, fld_opcode_high, fld_opcode_low, dec5, e1, e2]
  | bwait p l t =>
    exact fA_decodes (op := 0x5B) (x := 2) (by decide) h rfl rfl
      fun w ws e1 e2 => by simp [decodeWord, fld_opcode_high, fld_opcode_low, dec5, e1, e2]
  | btest p l t =>
    exact fA_decodes (op := 0x5B) (x := 3) (by decide) h rfl rfl
      fun w ws e1 e2 => by simp [decodeWord, fld_opcode_high, fld_opcode_low, dec5, e1, e2]
  | join p l t =>
    exact fA_decodes (op := 0x5B) (x := 4) (by decide) h rfl rfl
      fun w ws e1 e2 => by simp [decodeWord, fld_opcode_high, fld_opcode_low, dec5, e1, e2]
  | leave p l t =>
    exact fA_decodes (op := 0x5B) (x := 5) (by decide) h rfl rfl
      fun w ws e1 e2 => by simp [decodeWord, fld_opcode_high, fld_opcode_low, dec5, e1, e2]
  | waita p l t =>
    exact fA_decodes (op := 0x5B) (x := 6) (by decide) h rfl rfl
      fun w ws e1 e2 => by simp [decodeWord, fld_opcode_high, fld_opcode_low, dec5, e1, e2]
  | semwait p l t =>
    exact fA_decodes (op := 0x5E) (x := 0) (by decide) h rfl rfl
      fun w ws e1 e2 => by simp [decodeWord, fld_opcode_high, fld_opcode_low, dec5, e1, e2]
  | semsig p l t =>
    exact fA_decodes (op := 0x5E) (x := 1) (by decide) h rfl rfl
      fun w ws e1 e2 => by simp [decodeWord, fld_opcode_high, fld_opcode_low, dec5, e1, e2]
  | spawn p l t =>
    exact fA_decodes (op := 0x66) (x := 0) (by decide) h rfl rfl
      fun w ws e1 e2 => by simp [decodeWord, fld_opcode_high, fld_opcode_low, dec6, e1, e2]
  | rld p l t =>
    exact fA_decodes (op := 0x60) (x := 0) (by decide) h rfl rfl
      fun w ws e1 e2 => by simp [decodeWord, fld_opcode_high, fld_opcode_low, sub0, dec6, e1, e2]
  | csrrd p l t =>
    exact fA_decodes (op := 0x7C) (x := 0) (by decide) h rfl rfl
      fun w ws e1 e2 => by simp [decodeWord, fld_opcode_high, fld_opcode_low, decSys, e1, e2]
  | csrwr p l t =>
    exact fA_decodes (op := 0x7C) (x := 1) (by decide) h rfl rfl
      fun w ws e1 e2 => by simp [decodeWord, fld_opcode_high, fld_opcode_low, decSys, e1, e2]
  | segld p l t =>
    exact fA_decodes (op := 0x7C) (x := 2) (by decide) h rfl rfl
      fun w ws e1 e2 => by simp [decodeWord, fld_opcode_high, fld_opcode_low, decSys, e1, e2]
  | segst p l t =>
    exact fA_decodes (op := 0x7C) (x := 3) (by decide) h rfl rfl
      fun w ws e1 e2 => by simp [decodeWord, fld_opcode_high, fld_opcode_low, decSys, e1, e2]
  | wake p l t =>
    exact fA_decodes (op := 0x7C) (x := 4) (by decide) h rfl rfl
      fun w ws e1 e2 => by simp [decodeWord, fld_opcode_high, fld_opcode_low, decSys, e1, e2]
  | ctxswap p l t =>
    exact fA_decodes (op := 0x7C) (x := 5) (by decide) h rfl rfl
      fun w ws e1 e2 => by simp [decodeWord, fld_opcode_high, fld_opcode_low, decSys, e1, e2]
  | slotpark p l t =>
    exact fA_decodes (op := 0x7C) (x := 6) (by decide) h rfl rfl
      fun w ws e1 e2 => by simp [decodeWord, fld_opcode_high, fld_opcode_low, decSys, e1, e2]
  | slotfree p l t =>
    exact fA_decodes (op := 0x7C) (x := 7) (by decide) h rfl rfl
      fun w ws e1 e2 => by simp [decodeWord, fld_opcode_high, fld_opcode_low, decSys, e1, e2]
  | marker p l t =>
    exact fA_decodes (op := 0x7C) (x := 9) (by decide) h rfl rfl
      fun w ws e1 e2 => by simp [decodeWord, fld_opcode_high, fld_opcode_low, decSys, e1, e2]
  | qwave p l t =>
    exact fA_decodes (op := 0x7C) (x := 10) (by decide) h rfl rfl
      fun w ws e1 e2 => by simp [decodeWord, fld_opcode_high, fld_opcode_low, decSys, e1, e2]
  | twin p l t =>
    exact fA_decodes (op := 0x7C) (x := 11) (by decide) h rfl rfl
      fun w ws e1 e2 => by simp [decodeWord, fld_opcode_high, fld_opcode_low, decSys, e1, e2]
  | scrub p l t =>
    exact fA_decodes (op := 0x7C) (x := 12) (by decide) h rfl rfl
      fun w ws e1 e2 => by simp [decodeWord, fld_opcode_high, fld_opcode_low, decSys, e1, e2]
  | stef p l =>
    exact fA0_decodes (op := 0x59) (x := 3) (by decide) h rfl rfl
      fun w ws e1 e2 => by simp [decodeWord, fld_opcode_high, fld_opcode_low, dec5, e1, e2]
  | stf p l =>
    exact fA0_decodes (op := 0x59) (x := 4) (by decide) h rfl rfl
      fun w ws e1 e2 => by simp [decodeWord, fld_opcode_high, fld_opcode_low, dec5, e1, e2]
  | feempty p l =>
    exact fA0_decodes (op := 0x59) (x := 5) (by decide) h rfl rfl
      fun w ws e1 e2 => by simp [decodeWord, fld_opcode_high, fld_opcode_low, dec5, e1, e2]
  | binit p l =>
    exact fA0_decodes (op := 0x5B) (x := 0) (by decide) h rfl rfl
      fun w ws e1 e2 => by simp [decodeWord, fld_opcode_high, fld_opcode_low, dec5, e1, e2]
  | fenceLoop p l =>
    exact fA0_decodes (op := 0x5C) (x := 2) (by decide) h rfl rfl
      fun w ws e1 e2 => by simp [decodeWord, fld_opcode_high, fld_opcode_low, dec5, e1, e2]
  | rowopen p l =>
    exact fA0_decodes (op := 0x5D) (x := 0) (by decide) h rfl rfl
      fun w ws e1 e2 => by simp [decodeWord, fld_opcode_high, fld_opcode_low, dec5, e1, e2]
  | rowclose p l =>
    exact fA0_decodes (op := 0x5D) (x := 1) (by decide) h rfl rfl
      fun w ws e1 e2 => by simp [decodeWord, fld_opcode_high, fld_opcode_low, dec5, e1, e2]
  | semset p l =>
    exact fA0_decodes (op := 0x5E) (x := 2) (by decide) h rfl rfl
      fun w ws e1 e2 => by simp [decodeWord, fld_opcode_high, fld_opcode_low, dec5, e1, e2]
  | rst p l =>
    exact fA0_decodes (op := 0x61) (x := 0) (by decide) h rfl rfl
      fun w ws e1 e2 => by simp [decodeWord, fld_opcode_high, fld_opcode_low, dec6, e1, e2]
  | rpost p l =>
    exact fA0_decodes (op := 0x61) (x := 2) (by decide) h rfl rfl
      fun w ws e1 e2 => by simp [decodeWord, fld_opcode_high, fld_opcode_low, dec6, e1, e2]
  | send p l =>
    exact fA0_decodes (op := 0x66) (x := 2) (by decide) h rfl rfl
      fun w ws e1 e2 => by simp [decodeWord, fld_opcode_high, fld_opcode_low, dec6, e1, e2]
  | tlbinv p l =>
    exact fA0_decodes (op := 0x7C) (x := 8) (by decide) h rfl rfl
      fun w ws e1 e2 => by simp [decodeWord, fld_opcode_high, fld_opcode_low, decSys, e1, e2]
  | notify p l c =>
    exact fAC0_decodes (op := 0x5B) (x := 7) (by decide) h rfl rfl
      fun w ws e1 e2 => by simp [decodeWord, fld_opcode_high, fld_opcode_low, dec5, e1, e2]
  | fence p l c =>
    exact fAC0_decodes (op := 0x5C) (x := 0) (by decide) h rfl rfl
      fun w ws e1 e2 => by simp [decodeWord, fld_opcode_high, fld_opcode_low, dec5, e1, e2]
  | fenceXp p l c =>
    exact fAC0_decodes (op := 0x5C) (x := 1) (by decide) h rfl rfl
      fun w ws e1 e2 => by simp [decodeWord, fld_opcode_high, fld_opcode_low, dec5, e1, e2]
  | rstf p l c =>
    exact fAC0_decodes (op := 0x61) (x := 1) (by decide) h rfl rfl
      fun w ws e1 e2 => by simp [decodeWord, fld_opcode_high, fld_opcode_low, dec6, e1, e2]
  | tid p s t =>
    exact gX_decodes (op := 0x67) (x := 0) (by decide) h rfl rfl
      fun w ws e1 e2 => by simp [decodeWord, fld_opcode_high, fld_opcode_low, dec6, e1, e2]
  | whereQ p s t =>
    exact gX_decodes (op := 0x67) (x := 1) (by decide) h rfl rfl
      fun w ws e1 e2 => by simp [decodeWord, fld_opcode_high, fld_opcode_low, dec6, e1, e2]
  | time p s t =>
    exact gX_decodes (op := 0x67) (x := 2) (by decide) h rfl rfl
      fun w ws e1 e2 => by simp [decodeWord, fld_opcode_high, fld_opcode_low, dec6, e1, e2]
  | br p k n =>
    exact fX20_decodes (op := 0x68) (by decide) h rfl rfl
      fun w ws e1 => by simp [decodeWord, fld_opcode_high, fld_opcode_low, dec6, e1]
  | call p k n =>
    exact fX20_decodes (op := 0x6A) (by decide) h rfl rfl
      fun w ws e1 => by simp [decodeWord, fld_opcode_high, fld_opcode_low, dec6, e1]
  | migrate p k n =>
    exact fX20_decodes (op := 0x6D) (by decide) h rfl rfl
      fun w ws e1 => by simp [decodeWord, fld_opcode_high, fld_opcode_low, dec6, e1]
  | bri p k =>
    exact fX0_decodes (op := 0x69) (n := 20) (by decide) h rfl rfl
      fun w ws e1 _ => by simp [decodeWord, fld_opcode_high, fld_opcode_low, dec6, e1]
  | ret p k =>
    exact fX0_decodes (op := 0x6B) (n := 20) (by decide) h rfl rfl
      fun w ws e1 _ => by simp [decodeWord, fld_opcode_high, fld_opcode_low, dec6, e1]
  | doneX p k =>
    exact fX0_decodes (op := 0x6F) (n := 16) (by decide) h rfl rfl
      fun w ws e1 e2 => by simp [decodeWord, fld_opcode_high, fld_opcode_low, dec6, e1, e2]
  | yieldX p k n =>
    exact fX16_decodes (op := 0x6F) (x := 1) (by decide) h rfl (by omega)
      fun w ws e1 e2 => by simp [decodeWord, fld_opcode_high, fld_opcode_low, dec6, e1, e2]
  | breakX p k n =>
    exact fX16_decodes (op := 0x6F) (x := 2) (by decide) h rfl (by omega)
      fun w ws e1 e2 => by simp [decodeWord, fld_opcode_high, fld_opcode_low, dec6, e1, e2]
  | vadd p y s t =>
    exact gY_decodes (ok := anyT) (op := 0x70) (u := 0) (by decide) h rfl rfl rfl
      fun w ws e1 e2 => by simp [decodeWord, fld_opcode_high, fld_opcode_low, decV, e1, e2]
  | vsub p y s t =>
    exact gY_decodes (ok := anyT) (op := 0x70) (u := 1) (by decide) h rfl rfl rfl
      fun w ws e1 e2 => by simp [decodeWord, fld_opcode_high, fld_opcode_low, decV, e1, e2]
  | vmul p y s t =>
    exact gY_decodes (ok := anyT) (op := 0x70) (u := 2) (by decide) h rfl rfl rfl
      fun w ws e1 e2 => by simp [decodeWord, fld_opcode_high, fld_opcode_low, decV, e1, e2]
  | vmin p y s t =>
    exact gY_decodes (ok := anyT) (op := 0x71) (u := 0) (by decide) h rfl rfl rfl
      fun w ws e1 e2 => by simp [decodeWord, fld_opcode_high, fld_opcode_low, decV, e1, e2]
  | vmax p y s t =>
    exact gY_decodes (ok := anyT) (op := 0x71) (u := 1) (by decide) h rfl rfl rfl
      fun w ws e1 e2 => by simp [decodeWord, fld_opcode_high, fld_opcode_low, decV, e1, e2]
  | vabs p y s t =>
    exact gY_decodes (ok := anyT) (op := 0x71) (u := 2) (by decide) h rfl rfl rfl
      fun w ws e1 e2 => by simp [decodeWord, fld_opcode_high, fld_opcode_low, decV, e1, e2]
  | vneg p y s t =>
    exact gY_decodes (ok := anyT) (op := 0x71) (u := 3) (by decide) h rfl rfl rfl
      fun w ws e1 e2 => by simp [decodeWord, fld_opcode_high, fld_opcode_low, decV, e1, e2]
  | vand p y s t =>
    obtain ⟨hst, hy⟩ := Bool.and_eq_true_iff.1 h
    exact gY_decodes (ok := intT) (op := 0x72) (u := 0) (by decide) hst hy rfl rfl
      fun w ws e1 e2 => by simp [decodeWord, fld_opcode_high, fld_opcode_low, decV, e1, e2]
  | vor p y s t =>
    obtain ⟨hst, hy⟩ := Bool.and_eq_true_iff.1 h
    exact gY_decodes (ok := intT) (op := 0x72) (u := 1) (by decide) hst hy rfl rfl
      fun w ws e1 e2 => by simp [decodeWord, fld_opcode_high, fld_opcode_low, decV, e1, e2]
  | vxor p y s t =>
    obtain ⟨hst, hy⟩ := Bool.and_eq_true_iff.1 h
    exact gY_decodes (ok := intT) (op := 0x72) (u := 2) (by decide) hst hy rfl rfl
      fun w ws e1 e2 => by simp [decodeWord, fld_opcode_high, fld_opcode_low, decV, e1, e2]
  | vandn p y s t =>
    obtain ⟨hst, hy⟩ := Bool.and_eq_true_iff.1 h
    exact gY_decodes (ok := intT) (op := 0x72) (u := 3) (by decide) hst hy rfl rfl
      fun w ws e1 e2 => by simp [decodeWord, fld_opcode_high, fld_opcode_low, decV, e1, e2]
  | vshl p y s t =>
    obtain ⟨hst, hy⟩ := Bool.and_eq_true_iff.1 h
    exact gY_decodes (ok := intT) (op := 0x73) (u := 0) (by decide) hst hy rfl rfl
      fun w ws e1 e2 => by simp [decodeWord, fld_opcode_high, fld_opcode_low, decV, e1, e2]
  | vshr p y s t =>
    obtain ⟨hst, hy⟩ := Bool.and_eq_true_iff.1 h
    exact gY_decodes (ok := intT) (op := 0x73) (u := 1) (by decide) hst hy rfl rfl
      fun w ws e1 e2 => by simp [decodeWord, fld_opcode_high, fld_opcode_low, decV, e1, e2]
  | vsra p y s t =>
    obtain ⟨hst, hy⟩ := Bool.and_eq_true_iff.1 h
    exact gY_decodes (ok := intT) (op := 0x73) (u := 2) (by decide) hst hy rfl rfl
      fun w ws e1 e2 => by simp [decodeWord, fld_opcode_high, fld_opcode_low, decV, e1, e2]
  | vbcast p y s t =>
    exact gY_decodes (ok := anyT) (op := 0x75) (u := 1) (by decide) h rfl rfl rfl
      fun w ws e1 e2 => by simp [decodeWord, fld_opcode_high, fld_opcode_low, decV, e1, e2]
  | vext p y s t =>
    exact gY_decodes (ok := anyT) (op := 0x75) (u := 2) (by decide) h rfl rfl rfl
      fun w ws e1 e2 => by simp [decodeWord, fld_opcode_high, fld_opcode_low, decV, e1, e2]
  | vshuf p y s t =>
    exact gY_decodes (ok := anyT) (op := 0x76) (u := 0) (by decide) h rfl rfl rfl
      fun w ws e1 e2 => by simp [decodeWord, fld_opcode_high, fld_opcode_low, decV, e1, e2]
  | vperm p y s t =>
    exact gY_decodes (ok := anyT) (op := 0x76) (u := 1) (by decide) h rfl rfl rfl
      fun w ws e1 e2 => by simp [decodeWord, fld_opcode_high, fld_opcode_low, decV, e1, e2]
  | vrot p y s t =>
    exact gY_decodes (ok := anyT) (op := 0x76) (u := 2) (by decide) h rfl rfl rfl
      fun w ws e1 e2 => by simp [decodeWord, fld_opcode_high, fld_opcode_low, decV, e1, e2]
  | vredadd p y s t =>
    exact gY_decodes (ok := anyT) (op := 0x77) (u := 0) (by decide) h rfl rfl rfl
      fun w ws e1 e2 => by simp [decodeWord, fld_opcode_high, fld_opcode_low, decV, e1, e2]
  | vredmax p y s t =>
    exact gY_decodes (ok := anyT) (op := 0x77) (u := 1) (by decide) h rfl rfl rfl
      fun w ws e1 e2 => by simp [decodeWord, fld_opcode_high, fld_opcode_low, decV, e1, e2]
  | vredmin p y s t =>
    exact gY_decodes (ok := anyT) (op := 0x77) (u := 2) (by decide) h rfl rfl rfl
      fun w ws e1 e2 => by simp [decodeWord, fld_opcode_high, fld_opcode_low, decV, e1, e2]
  | vscan p y s t =>
    exact gY_decodes (ok := anyT) (op := 0x77) (u := 3) (by decide) h rfl rfl rfl
      fun w ws e1 e2 => by simp [decodeWord, fld_opcode_high, fld_opcode_low, decV, e1, e2]
  | vpopc p y s t =>
    obtain ⟨hst, hy⟩ := Bool.and_eq_true_iff.1 h
    exact gY_decodes (ok := intT) (op := 0x78) (u := 0) (by decide) hst hy rfl rfl
      fun w ws e1 e2 => by simp [decodeWord, fld_opcode_high, fld_opcode_low, decV, e1, e2]
  | vpfxc p y s t =>
    obtain ⟨hst, hy⟩ := Bool.and_eq_true_iff.1 h
    exact gY_decodes (ok := intT) (op := 0x78) (u := 1) (by decide) hst hy rfl rfl
      fun w ws e1 e2 => by simp [decodeWord, fld_opcode_high, fld_opcode_low, decV, e1, e2]
  | vexp2 p y s t =>
    obtain ⟨hst, hy⟩ := Bool.and_eq_true_iff.1 h
    exact gY_decodes (ok := VT.isFloat) (op := 0x7A) (u := 0) (by decide) hst hy rfl rfl
      fun w ws e1 e2 => by simp [decodeWord, fld_opcode_high, fld_opcode_low, decV, e1, e2]
  | vlog2 p y s t =>
    obtain ⟨hst, hy⟩ := Bool.and_eq_true_iff.1 h
    exact gY_decodes (ok := VT.isFloat) (op := 0x7A) (u := 1) (by decide) hst hy rfl rfl
      fun w ws e1 e2 => by simp [decodeWord, fld_opcode_high, fld_opcode_low, decV, e1, e2]
  | vrcp p y s t =>
    obtain ⟨hst, hy⟩ := Bool.and_eq_true_iff.1 h
    exact gY_decodes (ok := VT.isFloat) (op := 0x7A) (u := 2) (by decide) hst hy rfl rfl
      fun w ws e1 e2 => by simp [decodeWord, fld_opcode_high, fld_opcode_low, decV, e1, e2]
  | vrsqrt p y s t =>
    obtain ⟨hst, hy⟩ := Bool.and_eq_true_iff.1 h
    exact gY_decodes (ok := VT.isFloat) (op := 0x7A) (u := 3) (by decide) hst hy rfl rfl
      fun w ws e1 e2 => by simp [decodeWord, fld_opcode_high, fld_opcode_low, decV, e1, e2]
  | vfma y s t =>
    obtain ⟨hst, hy⟩ := Bool.and_eq_true_iff.1 h
    exact gY3_decodes (ok := VT.isFloat) (op := 0x70) (u := 3) (by decide) hst hy rfl rfl
      fun w ws e1 e2 => by simp [decodeWord, fld_opcode_high, fld_opcode_low, decV, e1, e2]
  | vsel y s t =>
    exact gY3_decodes (ok := anyT) (op := 0x75) (u := 0) (by decide) h rfl rfl rfl
      fun w ws e1 e2 => by simp [decodeWord, fld_opcode_high, fld_opcode_low, decV, e1, e2]
  | vins y s t =>
    exact gY3_decodes (ok := anyT) (op := 0x75) (u := 3) (by decide) h rfl rfl rfl
      fun w ws e1 e2 => by simp [decodeWord, fld_opcode_high, fld_opcode_low, decV, e1, e2]
  | readReg k s t => exact readReg_decodes h
  | mov4 p s t t3 t2 => exact mov4_decodes h
  | const t n =>
    exact const_decodes (op := 4) (by decide) h rfl rfl
      fun w ws e1 => by simp [decodeWord, fld_opcode_high, fld_opcode_low, dec0, e1]
  | consth t n =>
    exact const_decodes (op := 5) (by decide) h rfl rfl
      fun w ws e1 => by simp [decodeWord, fld_opcode_high, fld_opcode_low, dec0, e1]
  | sel s t => exact sel_decodes h
  | bswap p v s t => exact bswap_decodes h
  | bfx p b l n t => exact bfx_decodes h
  | bfi p l n t => exact bfi_decodes h
  | st p l n b v => exact st_decodes h
  | amo p l x a b t => exact amo_decodes h
  | arrive p l c t => exact arrive_decodes h
  | vsts l v => exact vsts_decodes h
  | vamo p l v a t => exact vamo_decodes h
  | ld v p l n t =>
    exact fM_decodes (op := 0x50 + v.code) (by cases v <;> decide) h rfl (by omega) fun w ws e1 => by
      cases v <;> simp [decodeWord, fld_opcode_high, fld_opcode_low, dec5, e1, Width.code]
  | ldS v p l n t =>
    obtain ⟨hlnt, hv⟩ := Bool.and_eq_true_iff.1 h
    exact fM_decodes (op := 0x54 + v.code) (by cases v <;> decide) hlnt rfl (by omega) fun w ws e1 => by
      cases v <;> simp at hv <;> simp [decodeWord, fld_opcode_high, fld_opcode_low, dec5, e1, Width.code]
  | ramo p l x t =>
    obtain ⟨hlt, hx⟩ := Bool.and_eq_true_iff.1 h
    exact fA_decodes (f := fun p l t => .ramo p l x t) (op := 0x62) (x := x.code) (by cases x <;> decide) hlt rfl
      (by omega)
      fun w ws e1 e2 => by simp [decodeWord, fld_opcode_high, fld_opcode_low, dec6, e1, e2, needSub, bne_iff_ne.1 hx]
  | rvamo p l x v t =>
    obtain ⟨hlt, hx⟩ := Bool.and_eq_true_iff.1 h
    have := amo_simple hx
    have := width_lt v
    have hx4 : (x.code * 4 + v.code) / 4 = x.code := by omega
    have hv4 : (x.code * 4 + v.code) % 4 = v.code := by omega
    exact fA_decodes (f := fun p l t => .rvamo p l x v t) (op := 0x65) (x := x.code * 4 + v.code) (by omega) hlt rfl
      (by omega)
      fun w ws e1 e2 => by simp [decodeWord, fld_opcode_high, fld_opcode_low, fld_aop_high, fld_aop_low, dec6, e1, e2, hx4, hv4]
  | rcas l t =>
    exact triple_decodes (op := 0x63) (x := 0) (by decide) h rfl rfl fun w ws e1 e2 => by
      simp [decodeWord, fld_opcode_high, fld_opcode_low, dec6, sub0, e1, e2]
  | callat l t =>
    exact triple_decodes (op := 0x66) (x := 1) (by decide) h rfl rfl fun w ws e1 e2 => by
      simp [decodeWord, fld_opcode_high, fld_opcode_low, dec6, e1, e2]
  | roadd p l y =>
    exact fA0_decodes (f := fun p l => .roadd p l y) (op := 0x64) (x := y.code) (by cases y <;> decide) h rfl (by omega)
      fun w ws e1 e2 => by cases y <;> simp [decodeWord, fld_opcode_high, fld_opcode_low, dec6, e1, e2, RoTy.code]
  | loop p k m n =>
    obtain ⟨hkm, hn⟩ := Bool.and_eq_true_iff.1 h
    obtain ⟨hk, hm⟩ := Bool.and_eq_true_iff.1 hkm
    have := of_decide_eq_true hm
    exact fX16_decodes (f := fun p k n => .loop p k m n) (op := 0x6C) (x := m) (by omega)
      (Bool.and_eq_true_iff.2 ⟨hk, hn⟩) rfl (by omega)
      fun w ws e1 e2 => by simp [decodeWord, fld_opcode_high, fld_opcode_low, dec6, e1, e2]
  | trap p k m n =>
    obtain ⟨hkm, hn⟩ := Bool.and_eq_true_iff.1 h
    obtain ⟨hk, hm⟩ := Bool.and_eq_true_iff.1 hkm
    have := of_decide_eq_true hm
    exact fX16_decodes (f := fun p k n => .trap p k m n) (op := 0x6E) (x := m) (by omega)
      (Bool.and_eq_true_iff.2 ⟨hk, hn⟩) rfl (by omega)
      fun w ws e1 e2 => by simp [decodeWord, fld_opcode_high, fld_opcode_low, dec6, e1, e2]
  | vcmp p c y s t =>
    obtain ⟨hst, hy⟩ := Bool.and_eq_true_iff.1 h
    exact gY_decodes (f := fun p y s t => .vcmp p c y s t) (ok := if c = .ltn then intT else anyT) (op := 0x74)
      (u := c.code) (by cases c <;> decide) hst (by cases c <;> simp at hy ⊢ <;> simp [intT, anyT, hy]) rfl (by omega)
      fun w ws e1 e2 => by cases c <;> simp [decodeWord, fld_opcode_high, fld_opcode_low, decV, e1, e2, VCond.code]
  | vcvt p d y s t =>
    obtain ⟨hstd, hy⟩ := Bool.and_eq_true_iff.1 h
    obtain ⟨hst, hd⟩ := Bool.and_eq_true_iff.1 hstd
    have hcode : cvtOf (cvtCode d) = d := by cases d <;> simp [cvtOk] at hd <;> rfl
    exact gY_decodes (f := fun p y s t => .vcvt p d y s t) (ok := fun y => d != y) (op := 0x79) (u := cvtCode d)
      (by cases d <;> decide) hst hy rfl (by omega) fun w ws e1 e2 => by
        simp [decodeWord, fld_opcode_high, fld_opcode_low, decV, e1, e2, hcode]
  | vld p l v t =>
    exact fA_decodes (f := fun p l t => .vld p l v t) (op := 0x7B) (x := 0 + v.code) (by cases v <;> decide) h rfl
      (by omega)
      fun w ws e1 e2 => by cases v <;>
        simp [decodeWord, fld_opcode_high, fld_opcode_low, decVM, fld_aop_high, fld_aop_low, e1, e2, Width.code, widthOf]
  | vldg p l v t =>
    exact fA_decodes (f := fun p l t => .vldg p l v t) (op := 0x7B) (x := 8 + v.code) (by cases v <;> decide) h rfl
      (by omega)
      fun w ws e1 e2 => by cases v <;>
        simp [decodeWord, fld_opcode_high, fld_opcode_low, decVM, fld_aop_high, fld_aop_low, e1, e2, Width.code, widthOf]
  | vtld p l v t =>
    obtain ⟨hlt, hv⟩ := Bool.and_eq_true_iff.1 h
    exact fA_decodes (f := fun p l t => .vtld p l v t) (op := 0x7B) (x := 16 + v.code) (by cases v <;> decide) hlt rfl
      (by omega) fun w ws e1 e2 => by
        cases v <;> simp at hv <;>
          simp [decodeWord, fld_opcode_high, fld_opcode_low, decVM, fld_aop_high, fld_aop_low, e1, e2, Width.code, widthOf,
            needSub]
  | vst p l v =>
    exact fA0_decodes (f := fun p l => .vst p l v) (op := 0x7B) (x := 4 + v.code) (by cases v <;> decide) h rfl (by omega)
     
      fun w ws e1 e2 => by cases v <;>
        simp [decodeWord, fld_opcode_high, fld_opcode_low, decVM, fld_aop_high, fld_aop_low, e1, e2, Width.code, widthOf]
  | mma c => exact long_decodes (eng := 0) (cmd := 0) rfl (by decide) (by decide) h rfl
  | tileLd c => exact long_decodes (eng := 1) (cmd := 0) rfl (by decide) (by decide) h rfl
  | tileSt c => exact long_decodes (eng := 1) (cmd := 1) rfl (by decide) (by decide) h rfl
  | tileCp c => exact long_decodes (eng := 1) (cmd := 2) rfl (by decide) (by decide) h rfl
  | tileDeal c => exact long_decodes (eng := 1) (cmd := 3) rfl (by decide) (by decide) h rfl
  | tileResume c => exact long_decodes (eng := 1) (cmd := 4) rfl (by decide) (by decide) h rfl
  | castDec c => exact long_decodes (eng := 2) (cmd := 0) rfl (by decide) (by decide) h rfl
  | castPlane c => exact long_decodes (eng := 2) (cmd := 1) rfl (by decide) (by decide) h rfl
  | castTable c => exact long_decodes (eng := 2) (cmd := 2) rfl (by decide) (by decide) h rfl
  | xswap c => exact long_decodes (eng := 3) (cmd := 0) rfl (by decide) (by decide) h rfl
  | pgPromote c => exact long_decodes (eng := 3) (cmd := 1) rfl (by decide) (by decide) h rfl
  | pgRequant c => exact long_decodes (eng := 3) (cmd := 2) rfl (by decide) (by decide) h rfl
  | kvAlloc c => exact long_decodes (eng := 4) (cmd := 0) rfl (by decide) (by decide) h rfl
  | kvFree c => exact long_decodes (eng := 4) (cmd := 1) rfl (by decide) (by decide) h rfl
  | kvAppend c => exact long_decodes (eng := 4) (cmd := 2) rfl (by decide) (by decide) h rfl
  | kvEvict c => exact long_decodes (eng := 4) (cmd := 3) rfl (by decide) (by decide) h rfl
  | pfxMatch c => exact long_decodes (eng := 4) (cmd := 4) rfl (by decide) (by decide) h rfl
  | pfxInsert c => exact long_decodes (eng := 4) (cmd := 5) rfl (by decide) (by decide) h rfl
  | pfxUnref c => exact long_decodes (eng := 4) (cmd := 6) rfl (by decide) (by decide) h rfl
  | _ => exact absurd rfl hne

/-! ## Bytes -/

/-- Four little-endian bytes give back a word of 32 bits. -/
theorem wordsOf_leBytes {w : Nat} (hw : w < 2 ^ 32) (bs : List Byte) :
    wordsOf (leBytes 4 w ++ bs) = w :: wordsOf bs := by
  simp only [leBytes, List.cons_append, List.nil_append, wordsOf, leNat, BitVec.toNat_ofNat, List.cons.injEq, and_true]
  omega

theorem wordsOf_flatMap_leBytes {ws : List Nat} (hws : ∀ w ∈ ws, w < 2 ^ 32) (bs : List Byte) :
    wordsOf (ws.flatMap (leBytes 4) ++ bs) = ws ++ wordsOf bs := by
  induction ws with
  | nil => rfl
  | cons w ws ih =>
    rw [List.flatMap_cons, List.append_assoc, wordsOf_leBytes (hws w List.mem_cons_self),
      ih fun v hv => hws v (List.mem_cons_of_mem _ hv), List.cons_append]

theorem length_flatMap_leBytes (ws : List Nat) : (ws.flatMap (leBytes 4)).length = 4 * ws.length := by
  simp [List.length_flatMap, leBytes, Nat.mul_comm]

/-- Settles O1: the bytes of an instruction give its words, and by its layout those decode to it. -/
theorem decodeOfEncode : Obligations.DecodeOfEncode := by
  intro i rest hwf hne
  obtain ⟨w, ws, henc, hfit, hcount, hdec⟩ := decodes_of_wf i hwf hne
  have hwords : wordsOf ((encode i).flatMap (leBytes 4) ++ rest) = w :: (ws ++ wordsOf rest) := by
    rw [wordsOf_flatMap_leBytes hfit, henc, List.cons_append]
  have hlen : ((encode i).flatMap (leBytes 4)).length = 4 * wordCount w := by
    rw [length_flatMap_leBytes, henc, hcount, List.length_cons]
  have henough : ¬(ws ++ wordsOf rest).length + 1 < wordCount w := by
    rw [hcount, List.length_append]
    omega
  rw [decode, hwords]
  simp only [hdec, if_neg henough, ← hlen, List.drop_left]

/-! ## What a decoded part says about its field -/

section
variable {w : Nat} {i : Instr}

theorem decPr_inv {k : Pr → DRes} (h : decPr w k = .ok i) : ∃ p, fld w 23 2 = p.code ∧ k p = .ok i := by
  unfold decPr at h
  split at h
  · exact ⟨.always, ‹_›, h⟩
  · exact ⟨.onTrue, ‹_›, h⟩
  · exact ⟨.onFalse, ‹_›, h⟩
  · nomatch h

theorem decQ_inv {k : Prec → DRes} (h : decQ w k = .ok i) : ∃ q, fld w 18 2 = q.code ∧ k q = .ok i := by
  unfold decQ at h
  split at h
  · exact ⟨.sp, ‹_›, h⟩
  · exact ⟨.dp, ‹_›, h⟩
  · nomatch h

theorem decM_inv {k : Rm → DRes} (h : decM w k = .ok i) : ∃ m, fld w 20 3 = m.code ∧ k m = .ok i := by
  unfold decM at h
  split at h
  · exact ⟨.static .rne, ‹_›, h⟩
  · exact ⟨.static .rtz, ‹_›, h⟩
  · exact ⟨.static .rdn, ‹_›, h⟩
  · exact ⟨.static .rup, ‹_›, h⟩
  · exact ⟨.static .rna, ‹_›, h⟩
  · exact ⟨.dyn, ‹_›, h⟩
  · nomatch h

theorem vtOf_inv {n : Nat} {y : VT} (h : vtOf n = some y) : n = y.code := by
  unfold vtOf at h
  split at h <;> cases h <;> rfl

theorem amoOf_inv {n : Nat} {x : AmoOp} (h : amoOf n = some x) : n = x.code := by
  unfold amoOf at h
  split at h <;> cases h <;> rfl

theorem widthOf_inv {n : Nat} (h : n < 4) : n = (widthOf n).code := by
  interval_cases n <;> rfl

theorem cvtOf_inv {n : Nat} (h : n < 4) : n = cvtCode (cvtOf n) ∧ cvtOk (cvtOf n) = true := by
  interval_cases n <;> exact ⟨rfl, rfl⟩

theorem decY_inv {ok : VT → Bool} {k : VT → DRes} (h : decY w ok k = .ok i) :
    ∃ y, fld w 18 3 = y.code ∧ ok y = true ∧ k y = .ok i := by
  unfold decY at h
  split at h
  next y e =>
    split at h
    · exact ⟨y, vtOf_inv e, ‹_›, h⟩
    · nomatch h
  · nomatch h

theorem mbz_inv {c : Nat} {k : DRes} (h : mbz c k = .ok i) : c = 0 ∧ k = .ok i := by
  unfold mbz at h
  split at h
  · exact ⟨‹_›, h⟩
  · nomatch h

theorem sub0_inv {c : Nat} {k : DRes} (h : sub0 c k = .ok i) : c = 0 ∧ k = .ok i := by
  unfold sub0 at h
  split at h
  · exact ⟨‹_›, h⟩
  · nomatch h

theorem needSub_inv {b : Bool} {k : DRes} (h : needSub b k = .ok i) : b = true ∧ k = .ok i := by
  unfold needSub at h
  split at h
  · exact ⟨‹_›, h⟩
  · nomatch h

theorem noT_inv {k : DRes} (h : noT w k = .ok i) : fld w 0 9 = 511 ∧ k = .ok i := by
  unfold noT at h
  split at h
  · exact ⟨‹_›, h⟩
  · nomatch h

theorem decT_inv {t : Nat} {k : Nat → DRes} (h : decT t k = .ok i) : tgtOk t = true ∧ k t = .ok i := by
  unfold decT at h
  split at h
  · exact ⟨‹_›, h⟩
  · nomatch h

theorem decST_inv {k : Nat → Nat → DRes} (h : decST w k = .ok i) :
    (tgtOk (fld w 9 9) && tgtOk (fld w 0 9)) = true ∧ k (fld w 9 9) (fld w 0 9) = .ok i := by
  obtain ⟨hs, h⟩ := decT_inv h
  obtain ⟨ht, h⟩ := decT_inv h
  exact ⟨Bool.and_eq_true_iff.2 ⟨hs, ht⟩, h⟩

theorem decC_inv {k : Scope → DRes} (h : decC w k = .ok i) : ∃ c, fld w 9 4 = c.code ∧ k c = .ok i := by
  obtain ⟨h12, h⟩ := mbz_inv h
  have h9 : fld w 9 4 = fld w 9 3 := by unfold fld at *; omega
  rw [h9]
  split at h
  · exact ⟨.core, ‹_›, h⟩
  · exact ⟨.square, ‹_›, h⟩
  · exact ⟨.die, ‹_›, h⟩
  · exact ⟨.pkg, ‹_›, h⟩
  · exact ⟨.sys, ‹_›, h⟩
  · nomatch h

/-- A field of n bits, as a condition of well-formedness. -/
theorem fld_ok (w lo n : Nat) : decide (fld w lo n < 2 ^ n) = true := decide_eq_true (fld_lt w lo n)

end

/-! ## A decoded word is well formed and encodes to itself -/

/-- Vector memory words: bits 13 and 14 hold the width, bits 15 to 17 the operation. -/
theorem vmem_aop {w x : Nat} (hx : fld w 15 3 = x) : fld w 13 5 = x * 4 + (widthOf (fld w 13 2)).code := by
  rw [← widthOf_inv (fld_lt w 13 2), ← hx]
  unfold fld
  omega

/-- The instruction i is well formed, and w is its one word. -/
def Sound (w : Nat) (i : Instr) : Prop := i.wf = true ∧ encode i = [w]

theorem sound_of_eq {w v : Nat} {i : Instr} (hwf : i.wf = true) (henc : encode i = [v]) (h : v = w) : Sound w i :=
  ⟨hwf, henc.trans (congrArg ([·]) h)⟩

section
variable {w a b x u n : Nat} {i : Instr} (hw : w < 2 ^ 32) (h29 : fld w 29 3 = a) (h25 : fld w 25 4 = b)
include hw h29 h25

/-- Words of the G format with an integer width. -/
theorem gW_sound {f : Pr → Width → Nat → Nat → Instr} (h20 : fld w 20 3 = x) (h : gW w f = .ok i)
    (henc : ∀ p v s t, encode (f p v s t) =
      [(a * 16 + b) * 0x2000000 + x * 0x100000 + p.code * 0x800000 + v.code * 0x40000 + s * 0x200 + t])
    (hwf : ∀ p v s t, (tgtOk s && tgtOk t) = true → (f p v s t).wf = true) : Sound w i := by
  obtain ⟨p, h23, h⟩ := decPr_inv h
  obtain ⟨hst, h⟩ := decST_inv h
  have h18 := widthOf_inv (fld_lt w 18 2)
  obtain rfl := Except.ok.inj h
  refine sound_of_eq (hwf _ _ _ _ hst) (henc _ _ _ _) ?_
  unfold fld at *
  omega

/-- Words of the G format with no width. -/
theorem gX_sound {f : Pr → Nat → Nat → Instr} (h18 : fld w 18 5 = x) (h : gX w f = .ok i)
    (henc : ∀ p s t, encode (f p s t) = [(a * 16 + b) * 0x2000000 + x * 0x40000 + p.code * 0x800000 + s * 0x200 + t])
    (hwf : ∀ p s t, (tgtOk s && tgtOk t) = true → (f p s t).wf = true) : Sound w i := by
  obtain ⟨p, h23, h⟩ := decPr_inv h
  obtain ⟨hst, h⟩ := decST_inv h
  obtain rfl := Except.ok.inj h
  refine sound_of_eq (hwf _ _ _ hst) (henc _ _ _) ?_
  unfold fld at *
  omega

/-- Words of the G format with a precision and a rounding mode. -/
theorem gQM_sound {f : Pr → Rm → Prec → Nat → Nat → Instr} (h : gQM w f = .ok i)
    (henc : ∀ p m q s t, encode (f p m q s t) =
      [(a * 16 + b) * 0x2000000 + p.code * 0x800000 + m.code * 0x100000 + q.code * 0x40000 + s * 0x200 + t])
    (hwf : ∀ p m q s t, (tgtOk s && tgtOk t) = true → (f p m q s t).wf = true) : Sound w i := by
  obtain ⟨q, h18, h⟩ := decQ_inv h
  obtain ⟨p, h23, h⟩ := decPr_inv h
  obtain ⟨m, h20, h⟩ := decM_inv h
  obtain ⟨hst, h⟩ := decST_inv h
  obtain rfl := Except.ok.inj h
  refine sound_of_eq (hwf _ _ _ _ _ hst) (henc _ _ _ _ _) ?_
  unfold fld at *
  omega

/-- Words of the G format with a precision, a rounding mode and a third operand. -/
theorem gQM3_sound {f : Rm → Prec → Nat → Nat → Instr} (h : gQM3 w f = .ok i)
    (henc : ∀ m q s t, encode (f m q s t) =
      [(a * 16 + b) * 0x2000000 + m.code * 0x100000 + q.code * 0x40000 + s * 0x200 + t])
    (hwf : ∀ m q s t, (tgtOk s && tgtOk t) = true → (f m q s t).wf = true) : Sound w i := by
  obtain ⟨q, h18, h⟩ := decQ_inv h
  obtain ⟨h23, h⟩ := mbz_inv h
  obtain ⟨m, h20, h⟩ := decM_inv h
  obtain ⟨hst, h⟩ := decST_inv h
  obtain rfl := Except.ok.inj h
  refine sound_of_eq (hwf _ _ _ _ hst) (henc _ _ _ _) ?_
  unfold fld at *
  omega

/-- Words of the G format with a precision. -/
theorem gQ_sound {f : Pr → Prec → Nat → Nat → Instr} (h20 : fld w 20 3 = x) (h : gQ w f = .ok i)
    (henc : ∀ p q s t, encode (f p q s t) =
      [(a * 16 + b) * 0x2000000 + x * 0x100000 + p.code * 0x800000 + q.code * 0x40000 + s * 0x200 + t])
    (hwf : ∀ p q s t, (tgtOk s && tgtOk t) = true → (f p q s t).wf = true) : Sound w i := by
  obtain ⟨q, h18, h⟩ := decQ_inv h
  obtain ⟨p, h23, h⟩ := decPr_inv h
  obtain ⟨hst, h⟩ := decST_inv h
  obtain rfl := Except.ok.inj h
  refine sound_of_eq (hwf _ _ _ _ hst) (henc _ _ _ _) ?_
  unfold fld at *
  omega

/-- Vector words of the G format. -/
theorem gY_sound {f : Pr → VT → Nat → Nat → Instr} {ok : VT → Bool} (h21 : fld w 21 2 = u) (h : gY w ok f = .ok i)
    (henc : ∀ p y s t, encode (f p y s t) =
      [(a * 16 + b) * 0x2000000 + u * 0x200000 + p.code * 0x800000 + y.code * 0x40000 + s * 0x200 + t])
    (hwf : ∀ p y s t, (tgtOk s && tgtOk t) = true → ok y = true → (f p y s t).wf = true) : Sound w i := by
  obtain ⟨y, h18, hy, h⟩ := decY_inv h
  obtain ⟨p, h23, h⟩ := decPr_inv h
  obtain ⟨hst, h⟩ := decST_inv h
  obtain rfl := Except.ok.inj h
  refine sound_of_eq (hwf _ _ _ _ hst hy) (henc _ _ _ _) ?_
  unfold fld at *
  omega

/-- Vector words of the G format with a third operand. -/
theorem gY3_sound {f : VT → Nat → Nat → Instr} {ok : VT → Bool} (h21 : fld w 21 2 = u) (h : gY3 w ok f = .ok i)
    (henc : ∀ y s t, encode (f y s t) = [(a * 16 + b) * 0x2000000 + u * 0x200000 + y.code * 0x40000 + s * 0x200 + t])
    (hwf : ∀ y s t, (tgtOk s && tgtOk t) = true → ok y = true → (f y s t).wf = true) : Sound w i := by
  obtain ⟨y, h18, hy, h⟩ := decY_inv h
  obtain ⟨h23, h⟩ := mbz_inv h
  obtain ⟨hst, h⟩ := decST_inv h
  obtain rfl := Except.ok.inj h
  refine sound_of_eq (hwf _ _ _ hst hy) (henc _ _ _) ?_
  unfold fld at *
  omega

/-- Words of the I format. -/
theorem fI_sound {f : Pr → Nat → Nat → Instr} (h : fI w f = .ok i)
    (henc : ∀ p n t, encode (f p n t) = [(a * 16 + b) * 0x2000000 + p.code * 0x800000 + n * 0x200 + t])
    (hwf : ∀ p n t, (decide (n < 16384) && tgtOk t) = true → (f p n t).wf = true) : Sound w i := by
  obtain ⟨p, h23, h⟩ := decPr_inv h
  obtain ⟨ht, h⟩ := decT_inv h
  obtain rfl := Except.ok.inj h
  refine sound_of_eq (hwf _ _ _ (Bool.and_eq_true_iff.2 ⟨fld_ok w 9 14, ht⟩)) (henc _ _ _) ?_
  unfold fld at *
  omega

/-- Words of the I format with a 6-bit number. -/
theorem fI6_sound {f : Pr → Nat → Nat → Instr} (h : fI6 w f = .ok i)
    (henc : ∀ p n t, encode (f p n t) = [(a * 16 + b) * 0x2000000 + p.code * 0x800000 + n * 0x200 + t])
    (hwf : ∀ p n t, (decide (n < 64) && tgtOk t) = true → (f p n t).wf = true) : Sound w i := by
  obtain ⟨p, h23, h⟩ := decPr_inv h
  obtain ⟨h15, h⟩ := mbz_inv h
  obtain ⟨ht, h⟩ := decT_inv h
  obtain rfl := Except.ok.inj h
  refine sound_of_eq (hwf _ _ _ (Bool.and_eq_true_iff.2 ⟨fld_ok w 9 6, ht⟩)) (henc _ _ _) ?_
  unfold fld at *
  omega

/-- Words of the M format. -/
theorem fM_sound {f : Pr → Nat → Nat → Nat → Instr} (h : fM w f = .ok i)
    (henc : ∀ p l n t, encode (f p l n t) =
      [(a * 16 + b) * 0x2000000 + p.code * 0x800000 + l * 0x40000 + n * 0x200 + t])
    (hwf : ∀ p l n t, (decide (l < 32) && decide (n < 512) && tgtOk t) = true → (f p l n t).wf = true) : Sound w i := by
  obtain ⟨p, h23, h⟩ := decPr_inv h
  obtain ⟨ht, h⟩ := decT_inv h
  obtain rfl := Except.ok.inj h
  refine sound_of_eq (hwf _ _ _ _ (Bool.and_eq_true_iff.2 ⟨(Bool.and_eq_true_iff.2 ⟨fld_ok w 18 5, fld_ok w 9 9⟩), ht⟩))
    (henc _ _ _ _) ?_
  unfold fld at *
  omega

/-- Words of the A format with a result. -/
theorem fA_sound {f : Pr → Nat → Nat → Instr} (h13 : fld w 13 5 = x) (h : fA w f = .ok i)
    (henc : ∀ p l t, encode (f p l t) = [(a * 16 + b) * 0x2000000 + x * 0x2000 + p.code * 0x800000 + l * 0x40000 + t])
    (hwf : ∀ p l t, (decide (l < 32) && tgtOk t) = true → (f p l t).wf = true) : Sound w i := by
  obtain ⟨p, h23, h⟩ := decPr_inv h
  obtain ⟨h9, h⟩ := mbz_inv h
  obtain ⟨ht, h⟩ := decT_inv h
  obtain rfl := Except.ok.inj h
  refine sound_of_eq (hwf _ _ _ (Bool.and_eq_true_iff.2 ⟨fld_ok w 18 5, ht⟩)) (henc _ _ _) ?_
  unfold fld at *
  omega

/-- Words of the A format without a result. -/
theorem fA0_sound {f : Pr → Nat → Instr} (h13 : fld w 13 5 = x) (h : fA0 w f = .ok i)
    (henc : ∀ p l, encode (f p l) = [(a * 16 + b) * 0x2000000 + x * 0x2000 + 511 + p.code * 0x800000 + l * 0x40000])
    (hwf : ∀ p l, decide (l < 32) = true → (f p l).wf = true) : Sound w i := by
  obtain ⟨p, h23, h⟩ := decPr_inv h
  obtain ⟨h9, h⟩ := mbz_inv h
  obtain ⟨h0, h⟩ := noT_inv h
  obtain rfl := Except.ok.inj h
  refine sound_of_eq (hwf _ _ (fld_ok w 18 5)) (henc _ _) ?_
  unfold fld at *
  omega

/-- Words of the A format with a scope and without a result. -/
theorem fAC0_sound {f : Pr → Nat → Scope → Instr} (h13 : fld w 13 5 = x) (h : fAC0 w f = .ok i)
    (henc : ∀ p l c, encode (f p l c) =
      [(a * 16 + b) * 0x2000000 + x * 0x2000 + 511 + p.code * 0x800000 + l * 0x40000 + c.code * 0x200])
    (hwf : ∀ p l c, decide (l < 32) = true → (f p l c).wf = true) : Sound w i := by
  obtain ⟨p, h23, h⟩ := decPr_inv h
  obtain ⟨h0, h⟩ := noT_inv h
  obtain ⟨c, h9, h⟩ := decC_inv h
  obtain rfl := Except.ok.inj h
  refine sound_of_eq (hwf _ _ _ (fld_ok w 18 5)) (henc _ _ _) ?_
  unfold fld at *
  omega

/-- Words of the X format with an offset of 20 bits. -/
theorem fX20_sound {f : Pr → Nat → Nat → Instr} (h : fX w 20 f = .ok i)
    (henc : ∀ p k n, encode (f p k n) = [(a * 16 + b) * 0x2000000 + p.code * 0x800000 + k * 0x100000 + n])
    (hwf : ∀ p k n, (decide (k < 8) && decide (n < 1048576)) = true → (f p k n).wf = true) : Sound w i := by
  obtain ⟨p, h23, h⟩ := decPr_inv h
  obtain rfl := Except.ok.inj h
  refine sound_of_eq (hwf _ _ _ (Bool.and_eq_true_iff.2 ⟨fld_ok w 20 3, fld_ok w 0 20⟩)) (henc _ _ _) ?_
  unfold fld at *
  omega

/-- Words of the X format with an offset of 16 bits and a number in bits 16 to 19. -/
theorem fX16_sound {f : Pr → Nat → Nat → Instr} (h16 : fld w 16 4 = x) (h : fX w 16 f = .ok i)
    (henc : ∀ p k n, encode (f p k n) =
      [(a * 16 + b) * 0x2000000 + x * 0x10000 + p.code * 0x800000 + k * 0x100000 + n])
    (hwf : ∀ p k n, (decide (k < 8) && decide (n < 65536)) = true → (f p k n).wf = true) : Sound w i := by
  obtain ⟨p, h23, h⟩ := decPr_inv h
  obtain rfl := Except.ok.inj h
  refine sound_of_eq (hwf _ _ _ (Bool.and_eq_true_iff.2 ⟨fld_ok w 20 3, fld_ok w 0 16⟩)) (henc _ _ _) ?_
  unfold fld at *
  omega

/-- Words of the X format without an offset. -/
theorem fX0_sound {f : Pr → Nat → Instr} (hx : n = 20 ∧ x = 0 ∨ n = 16 ∧ fld w 16 4 = x) (h : fX0 w n f = .ok i)
    (henc : ∀ p k, encode (f p k) = [(a * 16 + b) * 0x2000000 + x * 0x10000 + p.code * 0x800000 + k * 0x100000])
    (hwf : ∀ p k, decide (k < 8) = true → (f p k).wf = true) : Sound w i := by
  obtain ⟨p, h23, h⟩ := decPr_inv h
  obtain ⟨h0, h⟩ := mbz_inv h
  obtain rfl := Except.ok.inj h
  refine sound_of_eq (hwf _ _ (fld_ok w 20 3)) (henc _ _) ?_
  obtain ⟨rfl, rfl⟩ | ⟨rfl, h16⟩ := hx <;> (unfold fld at *; omega)

end

section
variable {w : Nat} {i : Instr} (hw : w < 2 ^ 32)
include hw

theorem readReg_sound (h29 : fld w 29 3 = 0) (h25 : fld w 25 4 = 0)
    (h : (mbz (fld w 22 3) <| decST w fun s t => .ok (.readReg (fld w 18 4) s t)) = .ok i) : Sound w i := by
  obtain ⟨h22, h⟩ := mbz_inv h
  obtain ⟨hst, h⟩ := decST_inv h
  obtain rfl := Except.ok.inj h
  have hwf : (decide (fld w 18 4 < 16) && (tgtOk (fld w 9 9) && tgtOk (fld w 0 9))) = true :=
    Bool.and_eq_true_iff.2 ⟨fld_ok w 18 4, hst⟩
  refine sound_of_eq (by rwa [← Bool.and_assoc] at hwf) rfl ?_
  unfold fld at *
  omega

/-- CONST and CONSTH. -/
theorem const_sound {a b : Nat} {f : Nat → Nat → Instr} (h29 : fld w 29 3 = a) (h25 : fld w 25 4 = b)
    (h : (decT (fld w 16 9) fun t => .ok (f t (fld w 0 16))) = .ok i)
    (henc : ∀ t n, encode (f t n) = [(a * 16 + b) * 0x2000000 + t * 0x10000 + n])
    (hwf : ∀ t n, (tgtOk t && decide (n < 65536)) = true → (f t n).wf = true) : Sound w i := by
  obtain ⟨ht, h⟩ := decT_inv h
  obtain rfl := Except.ok.inj h
  refine sound_of_eq (hwf _ _ (Bool.and_eq_true_iff.2 ⟨ht, fld_ok w 0 16⟩)) (henc _ _) ?_
  unfold fld at *
  omega

/-- Opcodes 0x00-0x0F, without MOV4. -/
theorem dec0_sound {n : Nat} (h : dec0 w n = .ok i) (h29 : fld w 29 3 = 0) (h2 : fld w 25 4 ≠ 2) : Sound w i := by
  unfold dec0 at h
  split at h
  next e => exact readReg_sound hw h29 e h
  next e =>
    obtain ⟨e', h⟩ := sub0_inv h
    exact gX_sound hw h29 e e' h (fun _ _ _ => rfl) fun _ _ _ h => h
  next e => exact absurd e h2
  next e => exact fI_sound hw h29 e h (fun _ _ _ => rfl) fun _ _ _ h => h
  iterate 2
    next e => exact const_sound hw h29 e h (fun _ _ => rfl) fun _ _ h => h
  next e =>
    obtain ⟨e', h⟩ := sub0_inv h
    exact gX_sound hw h29 e e' h (fun _ _ _ => rfl) fun _ _ _ h => h
  next => nomatch h

/-- A word of a G format with an integer width and no other sub-operation. -/
theorem gW0_sound {a b : Nat} {f : Pr → Width → Nat → Nat → Instr} (h29 : fld w 29 3 = a) (h25 : fld w 25 4 = b)
    (h : gW0 w f = .ok i)
    (henc : ∀ p v s t, encode (f p v s t) =
      [(a * 16 + b) * 0x2000000 + 0 * 0x100000 + p.code * 0x800000 + v.code * 0x40000 + s * 0x200 + t])
    (hwf : ∀ p v s t, (tgtOk s && tgtOk t) = true → (f p v s t).wf = true) : Sound w i := by
  obtain ⟨h20, h⟩ := sub0_inv h
  exact gW_sound hw h29 h25 h20 h henc hwf

/-- Opcodes 0x10-0x1F. -/
theorem dec1_sound (h : dec1 w = .ok i) (h29 : fld w 29 3 = 1) : Sound w i := by
  unfold dec1 at h
  split at h
  iterate 15
    next e => exact gW0_sound hw h29 e h (fun _ _ _ _ => rfl) fun _ _ _ _ h => h
  next e =>
    have e : fld w 25 4 = 15 := by have := fld_lt w 25 4; simp only [imp_false] at *; omega
    exact gW0_sound hw h29 e h (fun _ _ _ _ => rfl) fun _ _ _ _ h => h

theorem sel_sound (h29 : fld w 29 3 = 2) (h25 : fld w 25 4 = 2)
    (h : (sub0 (fld w 18 5) <| mbz (fld w 23 2) <| decST w fun s t => .ok (.sel s t)) = .ok i) : Sound w i := by
  obtain ⟨h18, h⟩ := sub0_inv h
  obtain ⟨h23, h⟩ := mbz_inv h
  obtain ⟨hst, h⟩ := decST_inv h
  obtain rfl := Except.ok.inj h
  refine sound_of_eq hst rfl ?_
  unfold fld at *
  omega

/-- BSWAP has no form for bytes. -/
theorem bswap_sound (h29 : fld w 29 3 = 2) (h25 : fld w 25 4 = 3) (h20 : fld w 20 3 = 4)
    (h : needSub (fld w 18 2 != 0) (gW w .bswap) = .ok i) : Sound w i := by
  obtain ⟨hv, h⟩ := needSub_inv h
  obtain ⟨p, h23, h⟩ := decPr_inv h
  obtain ⟨hst, h⟩ := decST_inv h
  have h18 := widthOf_inv (fld_lt w 18 2)
  obtain rfl := Except.ok.inj h
  have hv8 : (widthOf (fld w 18 2) != .w8) = true := by
    rw [h18] at hv
    revert hv
    cases widthOf (fld w 18 2) <;> decide
  refine sound_of_eq (Bool.and_eq_true_iff.2 ⟨hst, hv8⟩) rfl ?_
  unfold fld at *
  omega

theorem bfx_sound (h29 : fld w 29 3 = 2) (h25 : fld w 25 4 = 4)
    (h : (decPr w fun p => mbz (fld w 22 1) <| if fld w 15 6 + fld w 9 6 < 64 then
      decT (fld w 0 9) fun t => .ok (.bfx p (fld w 21 1 == 1) (fld w 15 6) (fld w 9 6) t) else .error .field) = .ok i) :
    Sound w i := by
  obtain ⟨p, h23, h⟩ := decPr_inv h
  obtain ⟨h22, h⟩ := mbz_inv h
  split at h
  next hln =>
    obtain ⟨ht, h⟩ := decT_inv h
    obtain rfl := Except.ok.inj h
    have hb : (fld w 21 1 == 1).toNat = fld w 21 1 := beq_one_toNat (fld_lt w 21 1)
    refine sound_of_eq (v := 0x48000000 + p.code * 0x800000 + (fld w 21 1 == 1).toNat * 0x200000 +
      fld w 15 6 * 0x8000 + fld w 9 6 * 0x200 + fld w 0 9) ?_ rfl ?_
    · exact Bool.and_eq_true_iff.2 ⟨Bool.and_eq_true_iff.2 ⟨Bool.and_eq_true_iff.2 ⟨fld_ok w 15 6, fld_ok w 9 6⟩, ht⟩,
        decide_eq_true hln⟩
    · rw [hb]
      unfold fld at *
      omega
  · nomatch h

theorem bfi_sound (h29 : fld w 29 3 = 2) (h25 : fld w 25 4 = 5)
    (h : (decPr w fun p => mbz (fld w 21 2) <| if fld w 15 6 + fld w 9 6 < 64 then
      decT (fld w 0 9) fun t => .ok (.bfi p (fld w 15 6) (fld w 9 6) t) else .error .field) = .ok i) : Sound w i := by
  obtain ⟨p, h23, h⟩ := decPr_inv h
  obtain ⟨h21, h⟩ := mbz_inv h
  split at h
  next hln =>
    obtain ⟨ht, h⟩ := decT_inv h
    obtain rfl := Except.ok.inj h
    refine sound_of_eq ?_ rfl ?_
    · exact Bool.and_eq_true_iff.2 ⟨Bool.and_eq_true_iff.2 ⟨Bool.and_eq_true_iff.2 ⟨fld_ok w 15 6, fld_ok w 9 6⟩, ht⟩,
        decide_eq_true hln⟩
    · unfold fld at *
      omega
  · nomatch h

/-- Opcodes 0x20-0x2F. -/
theorem dec2_sound (h : dec2 w = .ok i) (h29 : fld w 29 3 = 2) : Sound w i := by
  unfold dec2 at h
  split at h
  next e =>
    split at h
    iterate 2
      next e' => exact gW_sound hw h29 e e' h (fun _ _ _ _ => rfl) fun _ _ _ _ h => h
    next => nomatch h
  next e =>
    split at h
    iterate 4
      next e' => exact gW_sound hw h29 e e' h (fun _ _ _ _ => rfl) fun _ _ _ _ h => h
    next => nomatch h
  next e => exact sel_sound hw h29 e h
  next e =>
    split at h
    iterate 4
      next e' => exact gW_sound hw h29 e e' h (fun _ _ _ _ => rfl) fun _ _ _ _ h => h
    next e' => exact bswap_sound hw h29 e e' h
    iterate 2
      next e' => exact gW_sound hw h29 e e' h (fun _ _ _ _ => rfl) fun _ _ _ _ h => h
    next e' =>
      have e' : fld w 20 3 = 7 := by have := fld_lt w 20 3; simp only [imp_false] at *; omega
      exact gW_sound hw h29 e e' h (fun _ _ _ _ => rfl) fun _ _ _ _ h => h
  next e => exact bfx_sound hw h29 e h
  next e => exact bfi_sound hw h29 e h
  next e =>
    obtain ⟨e', h⟩ := sub0_inv h
    exact gX_sound hw h29 e e' h (fun _ _ _ => rfl) fun _ _ _ h => h
  iterate 5
    next e => exact fI_sound hw h29 e h (fun _ _ _ => rfl) fun _ _ _ h => h
  iterate 3
    next e => exact fI6_sound hw h29 e h (fun _ _ _ => rfl) fun _ _ _ h => h
  next => nomatch h

/-- Opcodes 0x30-0x3F. -/
theorem dec3_sound (h : dec3 w = .ok i) (h29 : fld w 29 3 = 3) : Sound w i := by
  unfold dec3 at h
  split at h
  iterate 6
    next e => exact gW0_sound hw h29 e h (fun _ _ _ _ => rfl) fun _ _ _ _ h => h
  iterate 6
    next e => exact fI_sound hw h29 e h (fun _ _ _ => rfl) fun _ _ _ h => h
  next e => exact fI6_sound hw h29 e h (fun _ _ _ => rfl) fun _ _ _ h => h
  next => nomatch h

/-- Opcodes 0x40-0x4F. -/
theorem dec4_sound (h : dec4 w = .ok i) (h29 : fld w 29 3 = 4) : Sound w i := by
  unfold dec4 at h
  split at h
  iterate 4
    next e => exact gQM_sound hw h29 e h (fun _ _ _ _ _ => rfl) fun _ _ _ _ _ h => h
  iterate 2
    next e => exact gQM3_sound hw h29 e h (fun _ _ _ _ => rfl) fun _ _ _ _ h => h
  next e => exact gQM_sound hw h29 e h (fun _ _ _ _ _ => rfl) fun _ _ _ _ _ h => h
  next e =>
    split at h
    iterate 2
      next e' => exact gQ_sound hw h29 e e' h (fun _ _ _ _ => rfl) fun _ _ _ _ h => h
    next => nomatch h
  next e =>
    split at h
    iterate 3
      next e' => exact gQ_sound hw h29 e e' h (fun _ _ _ _ => rfl) fun _ _ _ _ h => h
    next => nomatch h
  next e =>
    split at h
    iterate 4
      next e' => exact gQ_sound hw h29 e e' h (fun _ _ _ _ => rfl) fun _ _ _ _ h => h
    next => nomatch h
  next e =>
    obtain ⟨e', h⟩ := sub0_inv h
    exact gQ_sound hw h29 e e' h (fun _ _ _ _ => rfl) fun _ _ _ _ h => h
  iterate 4
    next e => exact gQM_sound hw h29 e h (fun _ _ _ _ _ => rfl) fun _ _ _ _ _ h => h
  next => nomatch h

theorem st_sound (h29 : fld w 29 3 = 5) (h25 : fld w 25 4 = 8)
    (h : (decPr w fun p => mbz (fld w 3 6) <|
      .ok (.st p (fld w 18 5) (fld w 9 9) (fld w 2 1 == 1) (widthOf (fld w 0 2)))) = .ok i) : Sound w i := by
  obtain ⟨p, h23, h⟩ := decPr_inv h
  obtain ⟨h3, h⟩ := mbz_inv h
  obtain rfl := Except.ok.inj h
  have hb : (fld w 2 1 == 1).toNat = fld w 2 1 := beq_one_toNat (fld_lt w 2 1)
  have hv := widthOf_inv (fld_lt w 0 2)
  refine sound_of_eq (v := 0xB0000000 + p.code * 0x800000 + fld w 18 5 * 0x40000 + fld w 9 9 * 0x200 +
    (fld w 2 1 == 1).toNat * 0x4 + (widthOf (fld w 0 2)).code) ?_ rfl ?_
  · exact Bool.and_eq_true_iff.2 ⟨fld_ok w 18 5, fld_ok w 9 9⟩
  · rw [hb, ← hv]
    unfold fld at *
    omega

theorem amo_sound (h29 : fld w 29 3 = 5) (h25 : fld w 25 4 = 10) (h : decAmo w = .ok i) : Sound w i := by
  unfold decAmo at h
  split at h
  · nomatch h
  next x hx =>
    obtain ⟨p, h23, h⟩ := decPr_inv h
    split at h
    · nomatch h
    next hcas =>
      obtain ⟨h11, h⟩ := mbz_inv h
      obtain ⟨ht, h⟩ := decT_inv h
      obtain rfl := Except.ok.inj h
      have hx' := amoOf_inv hx
      have ha : (fld w 9 1 == 1).toNat = fld w 9 1 := beq_one_toNat (fld_lt w 9 1)
      have hb : (fld w 10 1 == 1).toNat = fld w 10 1 := beq_one_toNat (fld_lt w 10 1)
      have hcas' : (x != .cas || p == .always) = true := by
        simp only [Bool.or_eq_true, bne_iff_ne, beq_iff_eq, ne_eq]
        tauto
      refine sound_of_eq (v := 0xB4000000 + p.code * 0x800000 + fld w 18 5 * 0x40000 + x.code * 0x2000 +
        ((fld w 9 1 == 1).toNat + 2 * (fld w 10 1 == 1).toNat) * 0x200 + fld w 0 9) ?_ rfl ?_
      · exact Bool.and_eq_true_iff.2 ⟨Bool.and_eq_true_iff.2 ⟨fld_ok w 18 5, ht⟩, hcas'⟩
      · rw [ha, hb, ← hx']
        unfold fld at *
        omega

theorem arrive_sound (h29 : fld w 29 3 = 5) (h25 : fld w 25 4 = 11) (h13 : fld w 13 5 = 1)
    (h : (decPr w fun p => decC w fun c => decT (fld w 0 9) fun t => .ok (.arrive p (fld w 18 5) c t)) = .ok i) :
    Sound w i := by
  obtain ⟨p, h23, h⟩ := decPr_inv h
  obtain ⟨c, h9, h⟩ := decC_inv h
  obtain ⟨ht, h⟩ := decT_inv h
  obtain rfl := Except.ok.inj h
  refine sound_of_eq (Bool.and_eq_true_iff.2 ⟨fld_ok w 18 5, ht⟩) rfl ?_
  unfold fld at *
  omega

/-- Opcodes 0x50-0x5F. -/
theorem dec5_sound (h : dec5 w = .ok i) (h29 : fld w 29 3 = 5) : Sound w i := by
  unfold dec5 at h
  split at h
  iterate 4
    next e => exact fM_sound hw h29 e h (fun _ _ _ _ => rfl) fun _ _ _ _ h => h
  iterate 3
    next e => exact fM_sound hw h29 e h (fun _ _ _ _ => rfl) fun _ _ _ _ h => Bool.and_eq_true_iff.2 ⟨h, rfl⟩
  next e => exact fM_sound hw h29 e h (fun _ _ _ _ => rfl) fun _ _ _ _ h => h
  next e => exact st_sound hw h29 e h
  next e =>
    split at h
    iterate 3
      next e' => exact fA_sound hw h29 e e' h (fun _ _ _ => rfl) fun _ _ _ h => h
    iterate 3
      next e' => exact fA0_sound hw h29 e e' h (fun _ _ => rfl) fun _ _ h => h
    next => nomatch h
  next e => exact amo_sound hw h29 e h
  next e =>
    split at h
    next e' => exact fA0_sound hw h29 e e' h (fun _ _ => rfl) fun _ _ h => h
    next e' => exact arrive_sound hw h29 e e' h
    iterate 5
      next e' => exact fA_sound hw h29 e e' h (fun _ _ _ => rfl) fun _ _ _ h => h
    next e' => exact fAC0_sound hw h29 e e' h (fun _ _ _ => rfl) fun _ _ _ h => h
    next => nomatch h
  next e =>
    split at h
    iterate 2
      next e' => exact fAC0_sound hw h29 e e' h (fun _ _ _ => rfl) fun _ _ _ h => h
    next e' => exact fA0_sound hw h29 e e' h (fun _ _ => rfl) fun _ _ h => h
    next => nomatch h
  next e =>
    split at h
    iterate 2
      next e' => exact fA0_sound hw h29 e e' h (fun _ _ => rfl) fun _ _ h => h
    next => nomatch h
  next e =>
    split at h
    iterate 2
      next e' => exact fA_sound hw h29 e e' h (fun _ _ _ => rfl) fun _ _ _ h => h
    next e' => exact fA0_sound hw h29 e e' h (fun _ _ => rfl) fun _ _ h => h
    next => nomatch h
  next => nomatch h

/-- The messages and atomics with a third operand: PR is 00. -/
theorem triple_sound {f : Nat → Nat → Instr} {a b x : Nat} (h29 : fld w 29 3 = a) (h25 : fld w 25 4 = b)
    (h13 : fld w 13 5 = x)
    (h : mbz (fld w 23 2) (mbz (fld w 9 4) (decT (fld w 0 9) fun t => .ok (f (fld w 18 5) t))) = .ok i)
    (henc : ∀ l t, encode (f l t) = [(a * 16 + b) * 0x2000000 + x * 0x2000 + l * 0x40000 + t])
    (hwf : ∀ l t, (decide (l < 32) && tgtOk t) = true → (f l t).wf = true) : Sound w i := by
  obtain ⟨h23, h⟩ := mbz_inv h
  obtain ⟨h9, h⟩ := mbz_inv h
  obtain ⟨ht, h⟩ := decT_inv h
  obtain rfl := Except.ok.inj h
  refine sound_of_eq (hwf _ _ (Bool.and_eq_true_iff.2 ⟨fld_ok w 18 5, ht⟩)) (henc _ _) ?_
  unfold fld at *
  omega

/-- A word of the A format with a result, whose AOP field holds the number v. -/
theorem fA_sound_of_eq {f : Pr → Nat → Nat → Instr} {v : Nat} (hv : fld w 13 5 = v) (h : fA w f = .ok i)
    (henc : ∀ p l t, encode (f p l t) = [fld w 25 7 * 0x2000000 + v * 0x2000 + p.code * 0x800000 + l * 0x40000 + t])
    (hwf : ∀ p l t, (decide (l < 32) && tgtOk t) = true → (f p l t).wf = true) : Sound w i := by
  refine fA_sound (a := fld w 25 7 / 16) (b := fld w 25 7 % 16) hw (fld_opcode_high w) (fld_opcode_low w) hv h ?_ hwf
  rwa [show fld w 25 7 / 16 * 16 + fld w 25 7 % 16 = fld w 25 7 by omega]

theorem ramo_sound (h29 : fld w 29 3 = 6) (h25 : fld w 25 4 = 2) {x : AmoOp} (hx : fld w 13 5 = x.code)
    (h : needSub (x != .cas) (fA w fun p l t => .ramo p l x t) = .ok i) : Sound w i := by
  obtain ⟨hcas, h⟩ := needSub_inv h
  refine fA_sound_of_eq hw hx h (fun p l t => congrArg ([·]) ?_) fun _ _ _ h => Bool.and_eq_true_iff.2 ⟨h, hcas⟩
  have h7 : fld w 25 7 = 0x62 := by unfold fld at *; omega
  omega

theorem rvamo_sound (h29 : fld w 29 3 = 6) (h25 : fld w 25 4 = 5) {o : AmoOp} (ho : fld w 15 3 = o.code)
    (h : (fA w fun p l t => .rvamo p l o (widthOf (fld w 13 2)) t) = .ok i) : Sound w i := by
  have hv := widthOf_inv (fld_lt w 13 2)
  have h13 : fld w 13 5 = o.code * 4 + (widthOf (fld w 13 2)).code := by
    rw [← hv, ← ho]
    unfold fld
    omega
  have hsimple : o.simple = true := by
    have hlt := fld_lt w 15 3
    rw [ho] at hlt
    revert hlt
    cases o <;> decide
  refine fA_sound_of_eq hw h13 h (fun p l t => congrArg ([·]) ?_) fun _ _ _ h => Bool.and_eq_true_iff.2 ⟨h, hsimple⟩
  have h7 : fld w 25 7 = 0x65 := by unfold fld at *; omega
  omega

/-- LOOP and TRAP: an exit with a number in bits 16 to 19. -/
theorem exit_number_sound {f : Pr → Nat → Nat → Nat → Instr} {a b : Nat} (h29 : fld w 29 3 = a) (h25 : fld w 25 4 = b)
    (h : (fX w 16 fun p e n => f p e (fld w 16 4) n) = .ok i)
    (henc : ∀ p e k n, encode (f p e k n) =
      [(a * 16 + b) * 0x2000000 + p.code * 0x800000 + e * 0x100000 + k * 0x10000 + n])
    (hwf : ∀ p e k n, (decide (e < 8) && decide (k < 16) && decide (n < 65536)) = true → (f p e k n).wf = true) :
    Sound w i := by
  obtain ⟨p, h23, h⟩ := decPr_inv h
  obtain rfl := Except.ok.inj h
  refine sound_of_eq (hwf _ _ _ _ (Bool.and_eq_true_iff.2 ⟨Bool.and_eq_true_iff.2 ⟨fld_ok w 20 3, fld_ok w 16 4⟩,
    fld_ok w 0 16⟩)) (henc _ _ _ _) ?_
  unfold fld at *
  omega

/-- Opcodes 0x60-0x6F. -/
theorem dec6_sound (h : dec6 w = .ok i) (h29 : fld w 29 3 = 6) : Sound w i := by
  unfold dec6 at h
  split at h
  next e =>
    obtain ⟨e', h⟩ := sub0_inv h
    exact fA_sound hw h29 e e' h (fun _ _ _ => rfl) fun _ _ _ h => h
  next e =>
    split at h
    next e' => exact fA0_sound hw h29 e e' h (fun _ _ => rfl) fun _ _ h => h
    next e' => exact fAC0_sound hw h29 e e' h (fun _ _ _ => rfl) fun _ _ _ h => h
    next e' => exact fA0_sound hw h29 e e' h (fun _ _ => rfl) fun _ _ h => h
    next => nomatch h
  next e =>
    split at h
    · nomatch h
    next x hx => exact ramo_sound hw h29 e (amoOf_inv hx) h
  next e =>
    obtain ⟨e', h⟩ := sub0_inv h
    exact triple_sound hw h29 e e' h (fun _ _ => rfl) fun _ _ h => h
  next e =>
    split at h
    iterate 3
      next e' =>
        exact fA0_sound hw h29 e e' h (fun _ _ => congrArg ([·]) (by simp only [RoTy.code]; omega)) fun _ _ h => h
    next => nomatch h
  next e =>
    split at h
    · nomatch h
    next o ho => exact rvamo_sound hw h29 e (amoOf_inv ho) h
  next e =>
    split at h
    next e' => exact fA_sound hw h29 e e' h (fun _ _ _ => rfl) fun _ _ _ h => h
    next e' => exact triple_sound hw h29 e e' h (fun _ _ => rfl) fun _ _ h => h
    next e' => exact fA0_sound hw h29 e e' h (fun _ _ => rfl) fun _ _ h => h
    next => nomatch h
  next e =>
    split at h
    iterate 3
      next e' => exact gX_sound hw h29 e e' h (fun _ _ _ => rfl) fun _ _ _ h => h
    next => nomatch h
  next e => exact fX20_sound hw h29 e h (fun _ _ _ => rfl) fun _ _ _ h => h
  next e => exact fX0_sound hw h29 e (.inl ⟨rfl, rfl⟩) h (fun _ _ => rfl) fun _ _ h => h
  next e => exact fX20_sound hw h29 e h (fun _ _ _ => rfl) fun _ _ _ h => h
  next e => exact fX0_sound hw h29 e (.inl ⟨rfl, rfl⟩) h (fun _ _ => rfl) fun _ _ h => h
  next e => exact exit_number_sound hw h29 e h (fun _ _ _ _ => rfl) fun _ _ _ _ h => h
  next e => exact fX20_sound hw h29 e h (fun _ _ _ => rfl) fun _ _ _ h => h
  next e => exact exit_number_sound hw h29 e h (fun _ _ _ _ => rfl) fun _ _ _ _ h => h
  next e =>
    have e : fld w 25 4 = 15 := by have := fld_lt w 25 4; simp only [imp_false] at *; omega
    split at h
    next e' => exact fX0_sound hw h29 e (.inr ⟨rfl, e'⟩) h (fun _ _ => rfl) fun _ _ h => h
    iterate 2
      next e' => exact fX16_sound hw h29 e e' h (fun _ _ _ => congrArg ([·]) (by omega)) fun _ _ _ h => h
    next => nomatch h

theorem vcvt_sound {n : Nat} (h29 : fld w 29 3 = 7) (h25 : fld w 25 4 = 9) (h21 : fld w 21 2 = n)
    (h : (gY w (fun y => cvtOf n != y) fun p y s t => .vcvt p (cvtOf n) y s t) = .ok i) : Sound w i := by
  obtain ⟨hn, hok⟩ := cvtOf_inv (h21 ▸ fld_lt w 21 2)
  have henc : ∀ p y s t, encode (.vcvt p (cvtOf n) y s t) =
      [(7 * 16 + 9) * 0x2000000 + n * 0x200000 + p.code * 0x800000 + y.code * 0x40000 + s * 0x200 + t] := by
    intro p y s t
    refine congrArg ([·]) ?_
    omega
  exact gY_sound hw h29 h25 h21 h henc fun p y s t hst hy =>
    Bool.and_eq_true_iff.2 ⟨Bool.and_eq_true_iff.2 ⟨hst, hok⟩, hy⟩

/-- Opcodes 0x70-0x7A: vector compute words. -/
theorem decV_sound (h : decV w = .ok i) (h29 : fld w 29 3 = 7) : Sound w i := by
  unfold decV at h
  split at h
  iterate 3
    next e e' => exact gY_sound hw h29 e e' h (fun _ _ _ _ => rfl) fun _ _ _ _ h _ => h
  next e e' => exact gY3_sound hw h29 e e' h (fun _ _ _ => rfl) fun _ _ _ h hy => Bool.and_eq_true_iff.2 ⟨h, hy⟩
  iterate 4
    next e e' => exact gY_sound hw h29 e e' h (fun _ _ _ _ => rfl) fun _ _ _ _ h _ => h
  iterate 7
    next e e' => exact gY_sound hw h29 e e' h (fun _ _ _ _ => rfl) fun _ _ _ _ h hy => Bool.and_eq_true_iff.2 ⟨h, hy⟩
  iterate 3
    next e e' =>
      exact gY_sound hw h29 e e' h (fun _ _ _ _ => congrArg ([·]) (by simp only [VCond.code]; omega))
        fun _ _ _ _ h _ => Bool.and_eq_true_iff.2 ⟨h, rfl⟩
  next e e' =>
    exact gY_sound hw h29 e e' h (fun _ _ _ _ => congrArg ([·]) (by simp only [VCond.code]; omega))
      fun _ _ _ _ h hy => Bool.and_eq_true_iff.2 ⟨h, hy⟩
  next e e' => exact gY3_sound hw h29 e e' h (fun _ _ _ => rfl) fun _ _ _ h _ => h
  iterate 2
    next e e' => exact gY_sound hw h29 e e' h (fun _ _ _ _ => rfl) fun _ _ _ _ h _ => h
  next e e' => exact gY3_sound hw h29 e e' h (fun _ _ _ => rfl) fun _ _ _ h _ => h
  iterate 7
    next e e' => exact gY_sound hw h29 e e' h (fun _ _ _ _ => rfl) fun _ _ _ _ h _ => h
  iterate 2
    next e e' => exact gY_sound hw h29 e e' h (fun _ _ _ _ => rfl) fun _ _ _ _ h hy => Bool.and_eq_true_iff.2 ⟨h, hy⟩
  next e => exact vcvt_sound hw h29 e rfl h
  iterate 4
    next e e' => exact gY_sound hw h29 e e' h (fun _ _ _ _ => rfl) fun _ _ _ _ h hy => Bool.and_eq_true_iff.2 ⟨h, hy⟩
  next => nomatch h

/-- A vector memory word with a result. -/
theorem vmem_sound {f : Pr → Nat → Width → Nat → Instr} {x : Nat} (h29 : fld w 29 3 = 7) (h25 : fld w 25 4 = 11)
    (hx : fld w 15 3 = x) (h : (fA w fun p l t => f p l (widthOf (fld w 13 2)) t) = .ok i)
    (henc : ∀ p l v t, encode (f p l v t) =
      [0xF6000000 + x * 0x8000 + p.code * 0x800000 + l * 0x40000 + v.code * 0x2000 + t])
    (hwf : ∀ p l t, (decide (l < 32) && tgtOk t) = true → (f p l (widthOf (fld w 13 2)) t).wf = true) : Sound w i := by
  have h7 : fld w 25 7 = 0x7B := by unfold fld at *; omega
  refine fA_sound_of_eq hw (vmem_aop hx) h (fun p l t => (henc _ _ _ _).trans (congrArg ([·]) ?_)) hwf
  omega

theorem vst_sound (h29 : fld w 29 3 = 7) (h25 : fld w 25 4 = 11) (hx : fld w 15 3 = 1)
    (h : (fA0 w fun p l => .vst p l (widthOf (fld w 13 2))) = .ok i) : Sound w i := by
  refine fA0_sound hw h29 h25 (vmem_aop hx) h (fun p l => congrArg ([·]) ?_) fun _ _ h => h
  omega

theorem vsts_sound (h29 : fld w 29 3 = 7) (h25 : fld w 25 4 = 11) (hx : fld w 15 3 = 3)
    (h : (mbz (fld w 23 2) <| mbz (fld w 9 4) <| noT w <| .ok (.vsts (fld w 18 5) (widthOf (fld w 13 2)))) = .ok i) :
    Sound w i := by
  obtain ⟨h23, h⟩ := mbz_inv h
  obtain ⟨h9, h⟩ := mbz_inv h
  obtain ⟨h0, h⟩ := noT_inv h
  obtain rfl := Except.ok.inj h
  have hv := widthOf_inv (fld_lt w 13 2)
  refine sound_of_eq (v := 0xF60181FF + fld w 18 5 * 0x40000 + (widthOf (fld w 13 2)).code * 0x2000)
    (fld_ok w 18 5) rfl ?_
  rw [← hv]
  unfold fld at *
  omega

theorem vamo_sound (h29 : fld w 29 3 = 7) (h25 : fld w 25 4 = 11) (hx : fld w 15 3 = 5) {a : AmoOp}
    (ha : fld w 9 4 = a.code)
    (h : (needSub a.lanewise (decPr w fun p => decT (fld w 0 9) fun t =>
      .ok (.vamo p (fld w 18 5) (widthOf (fld w 13 2)) a t))) = .ok i) : Sound w i := by
  obtain ⟨hlane, h⟩ := needSub_inv h
  obtain ⟨p, h23, h⟩ := decPr_inv h
  obtain ⟨ht, h⟩ := decT_inv h
  obtain rfl := Except.ok.inj h
  have hv := widthOf_inv (fld_lt w 13 2)
  refine sound_of_eq (v := 0xF6028000 + p.code * 0x800000 + fld w 18 5 * 0x40000 +
    (widthOf (fld w 13 2)).code * 0x2000 + a.code * 0x200 + fld w 0 9)
    (Bool.and_eq_true_iff.2 ⟨Bool.and_eq_true_iff.2 ⟨fld_ok w 18 5, ht⟩, hlane⟩) rfl ?_
  rw [← hv]
  unfold fld at *
  omega

/-- Opcode 0x7B: vector memory words. -/
theorem decVM_sound (h : decVM w = .ok i) (h29 : fld w 29 3 = 7) (e : fld w 25 4 = 11) : Sound w i := by
  unfold decVM at h
  split at h
  next e' => exact vmem_sound hw h29 e e' h (fun _ _ _ _ => rfl) fun _ _ _ h => h
  next e' => exact vst_sound hw h29 e e' h
  next e' => exact vmem_sound hw h29 e e' h (fun _ _ _ _ => rfl) fun _ _ _ h => h
  next e' => exact vsts_sound hw h29 e e' h
  next e' =>
    obtain ⟨hv, h⟩ := needSub_inv h
    exact vmem_sound hw h29 e e' h (fun _ _ _ _ => rfl) fun _ _ _ h => Bool.and_eq_true_iff.2 ⟨h, hv⟩
  next e' =>
    split at h
    next a ha => exact vamo_sound hw h29 e e' (amoOf_inv ha) h
    next => nomatch h
  next => nomatch h

/-- Opcode 0x7C: system words. -/
theorem decSys_sound (h : decSys w = .ok i) (h29 : fld w 29 3 = 7) (e : fld w 25 4 = 12) : Sound w i := by
  unfold decSys at h
  split at h
  iterate 8
    next e' => exact fA_sound hw h29 e e' h (fun _ _ _ => rfl) fun _ _ _ h => h
  next e' => exact fA0_sound hw h29 e e' h (fun _ _ => rfl) fun _ _ h => h
  iterate 4
    next e' => exact fA_sound hw h29 e e' h (fun _ _ _ => rfl) fun _ _ _ h => h
  next => nomatch h

end

/-! ## Long commands -/

/-- A command of Table 16.2 has its engine and command number in its words. -/
theorem longOf_inv {eng cmd : Nat} {f : Long → Instr} (h : longOf eng cmd = some f) (c : Long) :
    (f c).wf = longWf eng cmd c ∧ encode (f c) = encLong eng cmd c := by
  unfold longOf at h
  split at h <;> cases h <;> exact ⟨rfl, rfl⟩

/-- The command field that five words of 32 bits give. -/
theorem command_field_toNat {a b c d e : Nat} (ha : a < 2 ^ 32) (hb : b < 2 ^ 32) (hc : c < 2 ^ 32) (hd : d < 2 ^ 32)
    (he : e < 2 ^ 32) : ∀ n, n = (BitVec.ofNat 160 (a + b * 2 ^ 32 + c * 2 ^ 64 + d * 2 ^ 96 + e * 2 ^ 128)).toNat →
      [fld n 0 32, fld n 32 32, fld n 64 32, fld n 96 32, fld n 128 32] = [a, b, c, d, e] := by
  rintro n rfl
  rw [BitVec.toNat_ofNat, Nat.mod_eq_of_lt (by omega)]
  simp only [fld, List.cons.injEq, and_true]
  omega

/-- A long command and its eight words. -/
theorem decLong_sound {w : Nat} {ws : List Nat} {i : Instr} (hw : w < 2 ^ 32) (hws : ∀ x ∈ ws, x < 2 ^ 32)
    (hlen : 7 ≤ ws.length) (h25 : fld w 25 7 = 127) (h : decLong w ws = .ok i) :
    i.wf = true ∧ encode i = (w :: ws).take 8 := by
  obtain ⟨w1, w2, w3, w4, w5, w6, w7, rest, rfl⟩ : ∃ w1 w2 w3 w4 w5 w6 w7 rest,
      ws = w1 :: w2 :: w3 :: w4 :: w5 :: w6 :: w7 :: rest := by
    match ws, hlen with
    | w1 :: w2 :: w3 :: w4 :: w5 :: w6 :: w7 :: rest, _ => exact ⟨w1, w2, w3, w4, w5, w6, w7, rest, rfl⟩
  simp only [List.mem_cons, forall_eq_or_imp] at hws
  obtain ⟨h1, h2, h3, h4, h5, h6, h7, -⟩ := hws
  obtain ⟨p, h23, h⟩ := decPr_inv h
  simp only [nth, List.getD_cons_zero, List.getD_cons_succ] at h
  split at h
  · split at h <;> nomatch h
  next f hf =>
    split at h
    next hfields =>
      obtain ⟨ht, h⟩ := decT_inv h
      obtain rfl := Except.ok.inj h
      obtain ⟨hwf, henc⟩ := longOf_inv hf _
      rw [hwf, henc]
      refine ⟨?_, ?_⟩
      · simp only [longWf, Bool.and_eq_true]
        exact ⟨⟨⟨⟨⟨⟨⟨fld_ok w 9 5, ht⟩, fld_ok w1 24 8⟩, fld_ok w1 8 16⟩, fld_ok w1 0 8⟩, fld_ok w2 16 16⟩, fld_ok w2 0 16⟩,
          hfields⟩
      · have hfield := command_field_toNat h3 h4 h5 h6 h7 _ rfl
        simp only [List.cons.injEq, and_true] at hfield
        obtain ⟨e3, e4, e5, e6, e7⟩ := hfield
        simp only [encLong, List.take_succ_cons, List.take_zero, e3, e4, e5, e6, e7, List.cons.injEq, and_true]
        refine ⟨?_, ?_, ?_⟩
        · unfold fld at *
          omega
        · unfold fld
          omega
        · unfold fld
          omega
    next => nomatch h

/-! ## The decoder as a whole -/

theorem mov4_sound {w v : Nat} {i : Instr} (hw : w < 2 ^ 32) (hv : v < 2 ^ 32) (h25 : fld w 25 7 = 2)
    (h : dec0 w v = .ok i) : i.wf = true ∧ encode i = [w, v] := by
  have h4 : fld w 25 4 = 2 := by rw [fld_opcode_low, h25]
  simp only [dec0, h4] at h
  obtain ⟨h18, h⟩ := sub0_inv h
  obtain ⟨p, h23, h⟩ := decPr_inv h
  obtain ⟨hv18, h⟩ := mbz_inv h
  obtain ⟨hst, h⟩ := decST_inv h
  obtain ⟨hst', h⟩ := decST_inv h
  obtain rfl := Except.ok.inj h
  refine ⟨?_, ?_⟩
  · show (tgtOk _ && tgtOk _ && tgtOk _ && tgtOk _) = true
    rw [Bool.and_assoc, hst, hst']
    rfl
  · show [_, _] = [w, v]
    congr 1
    · unfold fld at *
      omega
    · refine congrArg ([·]) ?_
      unfold fld at *
      omega

/-- Words that decode to an instruction of one word: w is not the opcode of MOV4 or of a long command. -/
theorem decodeWord_sound {w : Nat} {ws : List Nat} {i : Instr} (hw : w < 2 ^ 32) (h2 : fld w 25 7 ≠ 2)
    (h127 : fld w 25 7 ≠ 127) (h : decodeWord w ws = .ok i) : Sound w i := by
  have hop : fld w 25 7 = fld w 29 3 * 16 + fld w 25 4 := by unfold fld; omega
  unfold decodeWord at h
  split at h
  next e => exact dec0_sound hw h e (by omega)
  next e => exact dec1_sound hw h e
  next e => exact dec2_sound hw h e
  next e => exact dec3_sound hw h e
  next e => exact dec4_sound hw h e
  next e => exact dec5_sound hw h e
  next e => exact dec6_sound hw h e
  next =>
    have e : fld w 29 3 = 7 := by have := fld_lt w 29 3; simp only [imp_false] at *; omega
    split at h
    next e' => exact decVM_sound hw h e e'
    next e' => exact decSys_sound hw h e e'
    iterate 2
      next => nomatch h
    next e' => exact absurd (by omega) h127
    next => exact decV_sound hw h e

/-- Settles O2: by the opcode, MOV4 and the long commands have words after the first, every other word stands alone. -/
theorem encodeOfDecode : Obligations.EncodeOfDecode := by
  intro w ws i hw hws hlen h
  by_cases h2 : fld w 25 7 = 2
  · rw [wordCount, if_pos h2] at hlen ⊢
    obtain ⟨v, rest, rfl⟩ := List.exists_cons_of_length_pos (by omega : 0 < ws.length)
    have h29 : fld w 29 3 = 0 := by rw [fld_opcode_high, h2]
    rw [decodeWord, h29] at h
    exact mov4_sound hw (hws v List.mem_cons_self) h2 h
  · by_cases h127 : fld w 25 7 = 127
    · rw [wordCount, if_neg h2, if_pos h127] at hlen ⊢
      have h29 : fld w 29 3 = 7 := by rw [fld_opcode_high, h127]
      have h25 : fld w 25 4 = 15 := by rw [fld_opcode_low, h127]
      simp only [decodeWord, h29, h25] at h
      exact decLong_sound hw hws (by omega) h127 h
    · rw [wordCount, if_neg h2, if_neg h127]
      exact decodeWord_sound hw h2 h127 h

end Sys2Proof.Proofs

/-! PROOFS. Results of scalar instructions (13): the structural, immediate and integer operations are those of bit vectors. -/

namespace Sys2Proof.Proofs

open Sys2Proof.Machine Sys2Proof.Laws

/-! ## The result of a scalar instruction whose inputs have arrived -/

section
variable {i : Instr} {s : State} {x y z v : Word} {l r q : Tok}

/-- A word instruction fires with the value that its operation gives. -/
theorem wordOp_result {f : Word → Word → Word → Word} (hexec : exec i s = .next (wordOp i f s)) (h : s.ready i x y z)
    (hv : f x y z = v) : exec i s = .next (s.fires i v) := by
  rw [hexec, wordOp_ready f h, hv]

/-- A scalar instruction fires with the token and the flags that its operation gives. -/
theorem scalar_result {g : Slot → Word → Word → Word → Tok × Nat} (hexec : exec i s = .next (scalar i g s))
    (h : s.ready i x y z) {e : Tok × Nat} (hv : g s.cur x y z = e) : exec i s = .next (s.gives i e) := by
  rw [hexec, scalar_ready g h, hv]

/-- A class C instruction fires with the token and the flags that its operation gives. -/
theorem compute_result {g : Slot → Tok → Tok → Tok → Tok × Nat} (hexec : exec i s = .next (compute i g s))
    (h : s.has i l r q) {e : Tok × Nat} (hv : g s.cur l r q = e) : exec i s = .next (s.gives i e) := by
  obtain ⟨-, -, -, -, hvals⟩ := compute_cases i g s
  rw [hexec, hvals l r q h, hv]

end

/-! ## Integers as bit vectors of 64 bits -/

theorem wordOfInt_eq_ofInt (v : Int) : wordOfInt v = BitVec.ofInt 64 v := by
  rw [wordOfInt, trunc_eq_toNat, word_toNat]
  exact BitVec.setWidth_eq _

/-- The signed value of a bit vector, as a word, is its sign extension. -/
theorem wordOfInt_toInt {n : Nat} (b : BitVec n) : wordOfInt b.toInt = b.signExtend 64 := wordOfInt_eq_ofInt _

theorem simm_eq_toInt (im : Nat) : simm im = (BitVec.ofNat 14 im).toInt := sgn_eq_toInt 14 im

theorem wordOfInt_simm (im : Nat) : wordOfInt (simm im) = (BitVec.ofNat 14 im).signExtend 64 := by
  rw [simm_eq_toInt, wordOfInt_toInt]

theorem sgn64_eq_toInt (x : Word) : sgn64 x = x.toInt := by
  rw [sgn64, sgn_eq_toInt, BitVec.ofNat_toNat, BitVec.setWidth_eq]

theorem wordOfInt_sgn64_add (x : Word) (v : Int) : wordOfInt (sgn64 x + v) = x + wordOfInt v := by
  rw [wordOfInt_eq_ofInt, wordOfInt_eq_ofInt, sgn64_eq_toInt, BitVec.ofInt_add, BitVec.ofInt_toInt]

theorem wordOfInt_sgn64_mul (x : Word) (v : Int) : wordOfInt (sgn64 x * v) = x * wordOfInt v := by
  rw [wordOfInt_eq_ofInt, wordOfInt_eq_ofInt, sgn64_eq_toInt, BitVec.ofInt_mul, BitVec.ofInt_toInt]

/-! ## Structural and immediate instructions (R290, R297) -/

/-- CONSTH: the immediate fills the 16 bits that the shift leaves free. -/
theorem consth_value (x : Word) {im : Nat} (him : im < 65536) :
    word (x.toNat * 2 ^ 16 + im) = (x <<< 16) ||| (BitVec.ofNat 16 im).setWidth 64 := by
  have hdisjoint : x.toNat * 2 ^ 16 + im = x.toNat <<< 16 ||| im := by
    rw [← Nat.shiftLeft_add_eq_or_of_lt him, Nat.shiftLeft_eq]
  apply BitVec.eq_of_toNat_eq
  rw [hdisjoint, word, BitVec.toNat_ofNat, Nat.or_mod_two_pow, BitVec.toNat_or, BitVec.toNat_shiftLeft,
    BitVec.toNat_setWidth, BitVec.toNat_ofNat, Nat.mod_eq_of_lt him]

section
variable {s : State} {k s1 t : Nat} {l r q : Tok}

theorem readReg_result (h : s.has (.readReg k s1 t) l r q) {v : Tok} (hv : readTok s.cur k s.ci = v) :
    exec (.readReg k s1 t) s = .next (s.gives (.readReg k s1 t) (v, 0)) :=
  compute_result rfl h (by rw [hv])

end

section
variable {x : Slot} {k i : Nat}

theorem readTok_lost (hb : x.badRegs.getLsbD k = true) :
    readTok x k i = .poison { cause := 0x60, index := i } true := if_pos hb

theorem readTok_masked (hp : x.pmask.getLsbD k = true) (hb : x.badRegs.getLsbD k = false) :
    readTok x k i = .poison { cause := 0x60, index := i } false := (if_neg (ne_true_of_eq_false hb)).trans (if_pos hp)

theorem readTok_clean (hp : x.pmask.getLsbD k = false) (hb : x.badRegs.getLsbD k = false) :
    readTok x k i = .val (x.ctx.reg k) :=
  (if_neg (ne_true_of_eq_false hb)).trans (if_neg (ne_true_of_eq_false hp))

end

/-- Settles O8: READ by what marks its register, the others by the value of their operation. -/
theorem structuralResults : Obligations.StructuralResults := by
  refine ⟨fun s p k s1 t t2 t3 im l r q x y z => ?_, fun s p im n t x y z _ => ?_⟩
  · refine ⟨fun h _ hp hb => ?clean, fun h _ hp hb => ?masked, fun h _ hb => ?lost, fun h => ?mov, fun h => ?mov4,
      fun h => ?movi, fun h => ?const, fun h him => ?consth, fun h => ?null⟩
    case clean => exact readReg_result h (readTok_clean hp hb)
    case masked => exact readReg_result h (readTok_masked hp hb)
    case lost => exact readReg_result h (readTok_lost hb)
    case mov => exact compute_result rfl h rfl
    case mov4 => exact compute_result rfl h rfl
    case null => exact compute_result rfl h rfl
    case movi => exact wordOp_result rfl h (wordOfInt_simm im)
    case const => exact wordOp_result rfl h (by rw [sgn_eq_toInt, wordOfInt_toInt])
    case consth => exact wordOp_result rfl h (consth_value x him)
  · have hself : BitVec.setWidth 64 x = x := BitVec.setWidth_eq x
    refine ⟨fun h => ?addi, fun h => ?muli, fun h => ?andi, fun h => ?ori, fun h => ?xori, fun h => ?shli,
      fun h => ?shri, fun h => ?srai⟩
    case addi => exact wordOp_result rfl h (by rw [wordOfInt_sgn64_add, wordOfInt_simm])
    case muli => exact wordOp_result rfl h (by rw [wordOfInt_sgn64_mul, wordOfInt_simm])
    case andi => exact wordOp_result rfl h (by rw [wordOfInt_simm])
    case ori => exact wordOp_result rfl h (by rw [wordOfInt_simm])
    case xori => exact wordOp_result rfl h (by rw [wordOfInt_simm])
    case shli => exact wordOp_result rfl h (by rw [shlBits_eq, word_toNat]; exact BitVec.setWidth_eq _)
    case shri => exact wordOp_result rfl h (by rw [shrBits_eq, word_toNat]; exact BitVec.setWidth_eq _)
    case srai => exact wordOp_result rfl h (by rw [sraBits_eq, word_toNat]; exact BitVec.setWidth_eq _)

/-! ## Integer arithmetic and logic (R286, R291, R292) -/

theorem wBits_le (w : Width) : wBits w ≤ 64 := by cases w <;> decide

theorem wBits_pos (w : Width) : 0 < wBits w := by cases w <;> decide

/-- The low bits of a word are its cut, zero-extended. -/
theorem low_eq_zext_cut (w : Width) (x : Word) : low w x = zext (cut w x) := rfl

theorem opU_eq (w : Width) (f : Nat → Nat → Nat) (x y z : Word) :
    opU w f x y z = zext (BitVec.ofNat (wBits w) (f (cut w x).toNat (cut w y).toNat)) := by
  rw [opU, outW_natCast, lowW_eq_cut, lowW_eq_cut]

theorem opS_eq (w : Width) (f : Int → Int → Int) (x y z : Word) :
    opS w f x y z = zext (BitVec.ofInt (wBits w) (f (cut w x).toInt (cut w y).toInt)) := by
  rw [opS, outW_eq_zext, sgnW_eq_cut, sgnW_eq_cut]

theorem zext_ofNat_cut (w : Width) (x : Word) : zext (BitVec.ofNat (wBits w) (cut w x).toNat) = low w x := by
  rw [BitVec.ofNat_toNat, BitVec.setWidth_eq, low_eq_zext_cut]

/-- The bits of a signed number from n on, of 2 n at most, are those of its 128-bit form. -/
theorem setWidth_ofInt_shift (w : Width) (v : Int) :
    cut w ((BitVec.ofInt 128 v >>> wBits w).setWidth 64) = BitVec.ofInt (wBits w) (v / ((2 ^ wBits w : Nat) : Int)) := by
  apply BitVec.eq_of_toNat_eq
  rw [cut, BitVec.toNat_setWidth, BitVec.toNat_setWidth, BitVec.toNat_ushiftRight, Nat.shiftRight_eq_div_pow,
    BitVec.toNat_ofInt, BitVec.toNat_ofInt]
  cases w <;> simp only [wBits, Width.code] <;> omega

theorem opS_mulh (w : Width) (x y z : Word) :
    opS w (fun a b => a * b / ((2 ^ wBits w : Nat) : Int)) x y z =
      low w ((((cut w x).signExtend 128 * (cut w y).signExtend 128) >>> wBits w).setWidth 64) := by
  rw [opS_eq, low_eq_zext_cut, BitVec.signExtend, BitVec.signExtend, ← BitVec.ofInt_mul, setWidth_ofInt_shift]

theorem opU_mulhn (w : Width) (x y z : Word) :
    opU w (fun a b => a * b / 2 ^ wBits w) x y z =
      low w ((((cut w x).setWidth 128 * (cut w y).setWidth 128) >>> wBits w).setWidth 64) := by
  have hcast : (((cut w x).toNat * (cut w y).toNat / 2 ^ wBits w : Nat) : Int) =
      (((cut w x).toNat * (cut w y).toNat : Nat) : Int) / ((2 ^ wBits w : Nat) : Int) := Int.natCast_ediv _ _
  have hprod : (cut w x).setWidth 128 * (cut w y).setWidth 128 =
      BitVec.ofInt 128 (((cut w x).toNat * (cut w y).toNat : Nat) : Int) := by
    rw [BitVec.ofInt_natCast, BitVec.ofNat_mul, BitVec.ofNat_toNat, BitVec.ofNat_toNat]
  rw [opU_eq, low_eq_zext_cut, hprod, setWidth_ofInt_shift, ← hcast, BitVec.ofInt_natCast]

theorem toNat_and_not {n : Nat} (a b : BitVec n) : a.toNat &&& (2 ^ n - 1 - b.toNat) = (a &&& ~~~b).toNat := by
  rw [BitVec.toNat_and, BitVec.toNat_not]

/-- A rotation is the sum of two parts that share no bit. -/
theorem rolBits_eq {n : Nat} (hn : 0 < n) (a : BitVec n) (k : Nat) : rolBits n a.toNat k = (a.rotateLeft k).toNat := by
  have hk : k % n < n := Nat.mod_lt _ hn
  have hsmall : a.toNat >>> (n - k % n) < 2 ^ (k % n) := by
    rw [Nat.shiftRight_eq_div_pow]
    refine Nat.div_lt_of_lt_mul ?_
    rw [← Nat.pow_add, Nat.sub_add_cancel (le_of_lt hk)]
    exact a.isLt
  have hfit : a.toNat >>> (n - k % n) < 2 ^ n := lt_of_lt_of_le hsmall (Nat.pow_le_pow_right (by decide) (le_of_lt hk))
  rw [rolBits, BitVec.toNat_rotateLeft, ← Nat.shiftRight_eq_div_pow, ← Nat.shiftLeft_eq,
    Nat.shiftLeft_add_eq_or_of_lt hsmall, Nat.or_mod_two_pow, Nat.mod_eq_of_lt hfit]

theorem rorBits_eq {n : Nat} (hn : 0 < n) (a : BitVec n) (k : Nat) : rorBits n a.toNat k = (a.rotateRight k).toNat := by
  have hk : k % n < n := Nat.mod_lt _ hn
  have hsmall : a.toNat >>> (k % n) < 2 ^ (n - k % n) := by
    rw [Nat.shiftRight_eq_div_pow]
    refine Nat.div_lt_of_lt_mul ?_
    rw [← Nat.pow_add, Nat.add_sub_cancel' (le_of_lt hk)]
    exact a.isLt
  have hfit : a.toNat >>> (k % n) < 2 ^ n := lt_of_lt_of_le hsmall (Nat.pow_le_pow_right (by decide) (Nat.sub_le _ _))
  rw [rorBits, BitVec.toNat_rotateRight, ← Nat.shiftRight_eq_div_pow, ← Nat.shiftLeft_eq, Nat.add_comm,
    Nat.shiftLeft_add_eq_or_of_lt hsmall, Nat.or_mod_two_pow, Nat.mod_eq_of_lt hfit, Nat.or_comm]

/-- A choice between two operands' low bits, as unsigned numbers, is that choice between the operands. -/
theorem opU_choice (w : Width) (f : Nat → Nat → Nat) (b : Bool) (x y z u v : Word)
    (h : f (cut w x).toNat (cut w y).toNat = if b then (cut w u).toNat else (cut w v).toNat) :
    opU w f x y z = if b then low w u else low w v := by
  rw [opU_eq, h]
  cases b
  · exact zext_ofNat_cut w v
  · exact zext_ofNat_cut w u

/-- The low bits of a difference are the difference of the low bits. -/
theorem cut_sub (w : Width) (x y : Word) : cut w (x - y) = cut w x - cut w y := by
  refine eq_sub_of_add_eq ?_
  rw [cut, cut, cut, ← BitVec.setWidth_add _ _ (wBits_le w), sub_add_cancel]

theorem sgn_toNat {n : Nat} (a : BitVec n) : sgn n a.toNat = a.toInt := by
  rw [sgn_eq_toInt, BitVec.ofNat_toNat, BitVec.setWidth_eq]

/-- Of two equal numbers either is the greater one. -/
theorem maxS_toNat {n : Nat} (a b : BitVec n) : maxS n a.toNat b.toNat = if a.sle b then b.toNat else a.toNat := by
  rw [maxS, sgn_toNat, sgn_toNat, BitVec.sle_eq_decide]
  rcases lt_trichotomy a.toInt b.toInt with h | h | h
  · simp [h.le, h.not_ge]
  · simp [BitVec.toInt_inj.1 h]
  · simp [h.le, h.not_ge]

theorem max_toNat {n : Nat} (a b : BitVec n) : Nat.max a.toNat b.toNat = if a.ule b then b.toNat else a.toNat := by
  rw [BitVec.ule_eq_decide]
  exact Nat.max_def.trans (by simp only [decide_eq_true_eq])

/-- Settles O9: each operation on numbers is the bit vectors' operation on the low bits. -/
theorem integerResults : Obligations.IntegerResults := by
  refine ⟨fun s p w s1 t x y z => ?_, fun s p w s1 t x y z => ?_⟩
  · refine ⟨fun h => wordOp_result rfl h ?add, fun h => wordOp_result rfl h ?sub, fun h => wordOp_result rfl h ?mul,
      fun h => wordOp_result rfl h (opS_mulh w x y z), fun h => wordOp_result rfl h (opU_mulhn w x y z),
      fun h => wordOp_result rfl h ?and, fun h => wordOp_result rfl h ?or, fun h => wordOp_result rfl h ?xor,
      fun h => wordOp_result rfl h ?andn⟩
    case add =>
      rw [opU_eq, BitVec.ofNat_add, BitVec.ofNat_toNat, BitVec.ofNat_toNat, BitVec.setWidth_eq, BitVec.setWidth_eq,
        low_eq_zext_cut, cut, cut, cut, BitVec.setWidth_add _ _ (wBits_le w)]
    case sub =>
      rw [opS_eq, Int.sub_eq_add_neg, BitVec.ofInt_add, BitVec.ofInt_neg, BitVec.ofInt_toInt, BitVec.ofInt_toInt,
        ← BitVec.sub_eq_add_neg, low_eq_zext_cut, cut_sub]
    case mul =>
      rw [opU_eq, BitVec.ofNat_mul, BitVec.ofNat_toNat, BitVec.ofNat_toNat, BitVec.setWidth_eq, BitVec.setWidth_eq,
        low_eq_zext_cut, cut, cut, cut, BitVec.setWidth_mul _ _ (wBits_le w)]
    case and =>
      rw [opU_eq, ← BitVec.toNat_and, BitVec.ofNat_toNat, BitVec.setWidth_eq, low_eq_zext_cut, cut, cut, cut,
        BitVec.setWidth_and]
    case or =>
      rw [opU_eq, ← BitVec.toNat_or, BitVec.ofNat_toNat, BitVec.setWidth_eq, low_eq_zext_cut, cut, cut, cut,
        BitVec.setWidth_or]
    case xor =>
      rw [opU_eq, ← BitVec.toNat_xor, BitVec.ofNat_toNat, BitVec.setWidth_eq, low_eq_zext_cut, cut, cut, cut,
        BitVec.setWidth_xor]
    case andn =>
      rw [opU_eq, toNat_and_not, BitVec.ofNat_toNat, BitVec.setWidth_eq, low_eq_zext_cut, cut, cut, cut,
        BitVec.setWidth_and, BitVec.setWidth_not (wBits_le w)]
  · refine ⟨fun h => wordOp_result rfl h ?rol, fun h => wordOp_result rfl h ?ror,
      fun h => wordOp_result rfl h (opU_choice w _ _ x y z _ _ ?min), fun h => wordOp_result rfl h (opU_choice w _ _ x y z _ _ ?max),
      fun h => wordOp_result rfl h (opU_choice w _ _ x y z _ _ ?minn), fun h => wordOp_result rfl h (opU_choice w _ _ x y z _ _ ?maxn)⟩
    case rol => rw [lowW_eq_cut, rolBits_eq (wBits_pos w), word_toNat]
    case ror => rw [lowW_eq_cut, rorBits_eq (wBits_pos w), word_toNat]
    case min => simp only [minS, sgn_toNat, BitVec.sle_eq_decide, decide_eq_true_eq]
    case minn => simp only [BitVec.ule_eq_decide, decide_eq_true_eq]; exact Nat.min_def
    case max => exact maxS_toNat _ _
    case maxn => exact max_toNat _ _

end Sys2Proof.Proofs

/-! PROOFS. Results of scalar instructions (13): bits, comparisons and floating point. -/

namespace Sys2Proof.Proofs

open Sys2Proof.Machine Sys2Proof.Laws

/-! ## Counts, reversals, bit fields (R294, R296, R298, R299) -/

theorem lt_two_pow_bitLen (a : Nat) : a < 2 ^ bitLen a := by
  rw [bitLen]
  split
  · omega
  · exact Nat.lt_log2_self

theorem bitLen_le_of_lt {a n : Nat} (h : a < 2 ^ n) : bitLen a ≤ n := by
  rw [bitLen]
  split
  · omega
  · exact (Nat.log2_lt (by assumption)).2 h

/-- CLZ: no one stands above the last bit counted, and a one stands below it. -/
theorem clzBits_spec {n : Nat} (a : BitVec n) :
    clzBits n a.toNat ≤ n ∧ (∀ j, n - clzBits n a.toNat ≤ j → a.getLsbD j = false) ∧
      (clzBits n a.toNat < n → a.getLsbD (n - 1 - clzBits n a.toNat) = true) := by
  have hle : bitLen a.toNat ≤ n := bitLen_le_of_lt a.isLt
  refine ⟨Nat.sub_le _ _, fun j hj => ?_, fun hlt => ?_⟩
  · rw [clzBits, Nat.sub_sub_self hle] at hj
    exact Nat.testBit_lt_two_pow ((lt_two_pow_bitLen _).trans_le (Nat.pow_le_pow_right (by decide) hj))
  · have hne : a.toNat ≠ 0 := by
      rintro h0
      rw [clzBits, h0, bitLen, if_pos rfl] at hlt
      exact absurd hlt (by omega)
    have hpos : n - 1 - clzBits n a.toNat = Nat.log2 a.toNat := by
      rw [clzBits]
      rw [bitLen, if_neg hne] at hle ⊢
      omega
    rw [hpos]
    exact Nat.testBit_log2 hne

theorem lowestSet_spec (v n : Nat) : ∀ i,
    (∀ k, lowestSet v n i = some k → i ≤ k ∧ k < i + n ∧ v.testBit k = true ∧ ∀ j, i ≤ j → j < k → v.testBit j = false) ∧
    (lowestSet v n i = none → ∀ j, i ≤ j → j < i + n → v.testBit j = false) := by
  induction n with
  | zero => exact fun i => ⟨fun k hk => (Option.some_ne_none k hk.symm).elim, fun _ j hij hj => absurd hj (by omega)⟩
  | succ n ih =>
    intro i
    obtain ⟨hsome, hnone⟩ := ih (i + 1)
    rw [lowestSet]
    cases hbit : v.testBit i with
    | true =>
      refine ⟨fun k hk => ?_, fun h => nomatch h⟩
      obtain rfl : i = k := Option.some.inj hk
      exact ⟨le_rfl, by omega, hbit, fun j hij hj => absurd hj (by omega)⟩
    | false =>
      refine ⟨fun k hk => ?_, fun h j hij hj => ?_⟩
      · obtain ⟨hik, hkn, hset, hclear⟩ := hsome k hk
        refine ⟨by omega, by omega, hset, fun j hij hj => ?_⟩
        rcases Nat.eq_or_lt_of_le hij with rfl | hlt
        · exact hbit
        · exact hclear j hlt hj
      · rcases Nat.eq_or_lt_of_le hij with rfl | hlt
        · exact hbit
        · exact hnone h j hlt (by omega)

/-- CTZ: no one stands among the bits counted, and a one stands above them. -/
theorem ctzBits_spec {n : Nat} (a : BitVec n) :
    ctzBits n a.toNat ≤ n ∧ (∀ j, j < ctzBits n a.toNat → a.getLsbD j = false) ∧
      (ctzBits n a.toNat < n → a.getLsbD (ctzBits n a.toNat) = true) := by
  obtain ⟨hsome, hnone⟩ := lowestSet_spec a.toNat n 0
  rw [ctzBits]
  cases h : lowestSet a.toNat n 0 with
  | none =>
    exact ⟨le_rfl, fun j hj => hnone h j (Nat.zero_le j) (by rwa [Nat.zero_add]), fun hlt => absurd hlt (lt_irrefl n)⟩
  | some k =>
    obtain ⟨-, hkn, hset, hclear⟩ := hsome k h
    exact ⟨by rw [Option.getD_some]; omega, fun j hj => hclear j (Nat.zero_le j) hj, fun _ => hset⟩

theorem popcount_eq_countP (n : Nat) : ∀ v, popcount n v = (List.range n).countP fun j => v.testBit j := by
  induction n with
  | zero => exact fun _ => rfl
  | succ n ih =>
    intro v
    have hlow : v % 2 = if v.testBit 0 then 1 else 0 := by
      rw [Nat.testBit_zero]
      rcases Nat.mod_two_eq_zero_or_one v with h | h <;> simp [h]
    rw [popcount, ih, List.range_succ_eq_map, List.countP_cons, List.countP_map, hlow, Nat.add_comm]
    simp only [Function.comp_def, Nat.testBit_succ]

theorem brevBits_lt (n : Nat) : ∀ a, brevBits n a < 2 ^ n := by
  induction n with
  | zero => exact fun _ => Nat.one_pos
  | succ n ih =>
    intro a
    have hrest : brevBits n (a / 2) < 2 ^ n := ih _
    have htop : a % 2 * 2 ^ n ≤ 1 * 2 ^ n := Nat.mul_le_mul_right _ (by omega)
    rw [brevBits, Nat.pow_succ]
    omega

theorem testBit_brevBits (n : Nat) : ∀ a j, j < n → (brevBits n a).testBit j = a.testBit (n - 1 - j) := by
  induction n with
  | zero => exact fun _ j hj => absurd hj (Nat.not_lt_zero j)
  | succ n ih =>
    intro a j hj
    rw [brevBits, Nat.mul_comm, Nat.testBit_two_pow_mul_add _ (brevBits_lt n _)]
    split
    case isTrue hlt =>
      rw [ih _ _ hlt, Nat.testBit_div_two]
      congr 1
      omega
    case isFalse hge =>
      obtain rfl : j = n := by omega
      rw [Nat.sub_self, Nat.testBit_zero, show j + 1 - 1 - j = 0 by omega, Nat.testBit_zero, Nat.mod_mod]

theorem word_brevBits {n : Nat} (a : BitVec n) : word (brevBits n a.toNat) = zext a.reverse := by
  have h : brevBits n a.toNat = a.reverse.toNat := by
    refine Nat.eq_of_testBit_eq fun j => ?_
    rw [BitVec.testBit_toNat, BitVec.getLsbD_reverse, BitVec.getMsbD_eq_getLsbD]
    by_cases hj : j < n
    · rw [testBit_brevBits n _ _ hj, BitVec.testBit_toNat, decide_eq_true hj, Bool.true_and]
    · rw [decide_eq_false hj, Bool.false_and]
      exact Nat.testBit_lt_two_pow ((brevBits_lt n _).trans_le (Nat.pow_le_pow_right (by decide) (by omega)))
  rw [h, word_toNat, zext]

theorem bswapBytes_lt (n : Nat) : ∀ a, bswapBytes n a < 2 ^ (8 * n) := by
  induction n with
  | zero => exact fun _ => Nat.one_pos
  | succ n ih =>
    intro a
    have hrest : bswapBytes n (a / 256) < 2 ^ (8 * n) := ih _
    have htop : a % 256 * 2 ^ (8 * n) ≤ 255 * 2 ^ (8 * n) := Nat.mul_le_mul_right _ (by omega)
    have hpow : 256 ^ n = 2 ^ (8 * n) := (Nat.pow_mul 2 8 n).symm
    rw [bswapBytes, hpow, Nat.mul_succ, Nat.pow_add]
    omega

theorem testBit_bswapBytes (n : Nat) : ∀ a j b, j < n → b < 8 →
    (bswapBytes n a).testBit (8 * j + b) = a.testBit (8 * (n - 1 - j) + b) := by
  induction n with
  | zero => exact fun _ j _ hj => absurd hj (Nat.not_lt_zero j)
  | succ n ih =>
    intro a j b hj hb
    have hpow : 256 ^ n = 2 ^ (8 * n) := (Nat.pow_mul 2 8 n).symm
    rw [bswapBytes, hpow, Nat.mul_comm, Nat.testBit_two_pow_mul_add _ (bswapBytes_lt n _)]
    split
    case isTrue hlt =>
      have hjn : j < n := by omega
      rw [ih _ _ _ hjn hb, show (256 : Nat) = 2 ^ 8 from rfl, Nat.testBit_div_two_pow]
      congr 1
      omega
    case isFalse hge =>
      obtain rfl : j = n := by omega
      rw [Nat.add_sub_cancel_left, show (256 : Nat) = 2 ^ 8 from rfl, Nat.testBit_mod_two_pow, decide_eq_true hb,
        Bool.true_and]
      congr 1
      omega

/-- BSWAP at a width: byte j of the result is the byte as far from the other end. -/
theorem bswap_result (w : Width) (x : Word) : ∃ v : BitVec (wBits w),
    (∀ j b, j < wBits w / 8 → b < 8 → v.getLsbD (8 * j + b) = (cut w x).getLsbD (8 * (wBits w / 8 - 1 - j) + b)) ∧
      word (bswapBytes (wBits w / 8) (lowW w x)) = zext v := by
  have hbytes : 8 * (wBits w / 8) = wBits w := by cases w <;> rfl
  have hlt : bswapBytes (wBits w / 8) (cut w x).toNat < 2 ^ wBits w := by
    have h := bswapBytes_lt (wBits w / 8) (cut w x).toNat
    rwa [hbytes] at h
  refine ⟨BitVec.ofNatLT _ hlt, fun j b hj hb => ?_, ?_⟩
  · rw [← BitVec.testBit_toNat, BitVec.toNat_ofNatLT, testBit_bswapBytes _ _ _ _ hj hb, BitVec.testBit_toNat]
  · rw [lowW_eq_cut]
    exact (word_toNat (BitVec.ofNatLT _ hlt))

theorem bfxBits_unsigned (n l : Nat) (x : Word) : bfxBits false n (l + 1) x = zext ((x >>> n).setWidth (l + 1)) := by
  have hfield : ((x >>> n).setWidth (l + 1)).toNat = x.toNat / 2 ^ n % 2 ^ (l + 1) := by
    rw [BitVec.toNat_setWidth, BitVec.toNat_ushiftRight, Nat.shiftRight_eq_div_pow]
  rw [← word_toNat, hfield]
  rfl

theorem bfxBits_signed (n l : Nat) (x : Word) :
    bfxBits true n (l + 1) x = ((x >>> n).setWidth (l + 1)).signExtend 64 := by
  have hfield : BitVec.ofNat (l + 1) (x.toNat / 2 ^ n % 2 ^ (l + 1)) = (x >>> n).setWidth (l + 1) := by
    apply BitVec.eq_of_toNat_eq
    rw [BitVec.toNat_ofNat, Nat.mod_mod, BitVec.toNat_setWidth, BitVec.toNat_ushiftRight, Nat.shiftRight_eq_div_pow]
  rw [← hfield, ← wordOfInt_toInt, ← sgn_eq_toInt]
  rfl

/-- A number with a field replaced: the field's bits are the new ones, the others as they were. -/
theorem testBit_putBits (x hi lo v j : Nat) (h : lo ≤ hi + 1) :
    (putBits x hi lo v).testBit j = if lo ≤ j ∧ j ≤ hi then v.testBit (j - lo) else x.testBit j := by
  set n := hi + 1 - lo with hn
  have hold : x = 2 ^ lo * (2 ^ n * (x / 2 ^ lo / 2 ^ n) + x / 2 ^ lo % 2 ^ n) + x % 2 ^ lo := by
    rw [Nat.div_add_mod, Nat.div_add_mod]
  have hnew : putBits x hi lo v = 2 ^ lo * (2 ^ n * (x / 2 ^ lo / 2 ^ n) + v % 2 ^ n) + x % 2 ^ lo := by
    rw [putBits, bits, ← hn, Nat.mul_comm _ (2 ^ lo), Nat.mul_comm _ (2 ^ lo)]
    rw [Nat.mul_add] at hold ⊢
    omega
  have hlow : x % 2 ^ lo < 2 ^ lo := Nat.mod_lt _ (Nat.two_pow_pos lo)
  have hmid : x / 2 ^ lo % 2 ^ n < 2 ^ n := Nat.mod_lt _ (Nat.two_pow_pos n)
  have hmid' : v % 2 ^ n < 2 ^ n := Nat.mod_lt _ (Nat.two_pow_pos n)
  rw [hnew, Nat.testBit_two_pow_mul_add _ hlow, Nat.testBit_two_pow_mul_add _ hmid']
  conv => rhs; rw [hold, Nat.testBit_two_pow_mul_add _ hlow, Nat.testBit_two_pow_mul_add _ hmid]
  by_cases hjlo : j < lo
  · rw [if_pos hjlo, if_neg (by omega), if_pos hjlo]
  by_cases hjhi : j ≤ hi
  · rw [if_neg hjlo, if_pos (by omega), if_pos ⟨by omega, hjhi⟩, Nat.testBit_mod_two_pow, decide_eq_true (by omega),
      Bool.true_and]
  · rw [if_neg hjlo, if_neg (by omega), if_neg (by omega), if_neg hjlo, if_neg (by omega)]

theorem getLsbD_bfiBits (n l : Nat) (x y : Word) (j : Nat) (hj : j < 64) :
    (bfiBits n (l + 1) x y).getLsbD j = if n ≤ j ∧ j ≤ n + l then y.getLsbD (j - n) else x.getLsbD j := by
  rw [bfiBits, word, BitVec.getLsbD_ofNat, decide_eq_true hj, Bool.true_and, show n + (l + 1) - 1 = n + l by omega,
    testBit_putBits _ _ _ _ _ (by omega)]
  split
  · rw [Nat.testBit_mod_two_pow, decide_eq_true (by omega), Bool.true_and, BitVec.testBit_toNat]
  · rfl

/-- KVSLOT: bit 63, the slot of 16 bits, zeros between. -/
theorem kvslotOf_spec (x y : Word) :
    (kvslotOf x y).getLsbD 63 = (!x.getLsbD (y.setWidth 6).toNat) ∧
    (kvslotOf x y).setWidth 16 = (y >>> 16).setWidth 16 +
      BitVec.ofNat 16 ((List.range (y.setWidth 6).toNat).countP fun j => x.getLsbD j) ∧
    ∀ j, 16 ≤ j → j < 63 → (kvslotOf x y).getLsbD j = false := by
  have hp : wbits y 5 0 = (y.setWidth 6).toNat := by
    rw [wbits, bits, Nat.pow_zero, Nat.div_one, BitVec.toNat_setWidth]
  set p := (y.setWidth 6).toNat
  set slot := (wbits y 31 16 + popcount p x.toNat) % 2 ^ 16 with hslot
  have hlt : slot < 2 ^ 16 := Nat.mod_lt _ (by decide)
  have hval : kvslotOf x y = word (2 ^ 63 * (if x.getLsbD p then 0 else 1) + slot) := by
    simp only [kvslotOf, hp, ← hslot, ← BitVec.testBit_toNat]
    congr 2
    split <;> rfl
  have hfit : slot < 2 ^ 63 := hlt.trans (by decide)
  have hbit : ∀ j, j < 64 → (kvslotOf x y).getLsbD j =
      if j < 63 then slot.testBit j else (if x.getLsbD p then 0 else 1 : Nat).testBit (j - 63) := fun j hj => by
    rw [hval, word, BitVec.getLsbD_ofNat, decide_eq_true hj, Bool.true_and, Nat.testBit_two_pow_mul_add _ hfit]
  refine ⟨?_, ?_, fun j h16 h63 => ?_⟩
  · rw [hbit 63 (by decide), if_neg (by decide)]
    cases x.getLsbD p <;> rfl
  · apply BitVec.eq_of_toNat_eq
    rw [hval, BitVec.toNat_setWidth, BitVec.toNat_add, BitVec.toNat_setWidth, BitVec.toNat_ushiftRight,
      Nat.shiftRight_eq_div_pow, BitVec.toNat_ofNat, word, BitVec.toNat_ofNat, hslot, wbits, bits, popcount_eq_countP]
    simp only [BitVec.testBit_toNat]
    omega
  · rw [hbit j (by omega), if_pos h63]
    exact Nat.testBit_lt_two_pow (hlt.trans_le (Nat.pow_le_pow_right (by decide) h16))

theorem word_absBits {n : Nat} (a : BitVec n) : word (absBits n a.toNat) = zext a.abs := by
  have h : absBits n a.toNat = a.abs.toNat := by
    have hlt : a.toNat < 2 ^ n := a.isLt
    rw [absBits, sgn_toNat, BitVec.toInt_eq_msb_cond, BitVec.abs]
    split
    · refine Eq.trans ?_ (BitVec.toNat_neg a).symm
      congr 1
      omega
    · rw [Int.natAbs_natCast, Nat.mod_eq_of_lt hlt]
  rw [h, word_toNat, zext]

/-- Settles O12: counts by the position of their lowest or highest one, the others bit by bit. -/
theorem bitResults : Obligations.BitResults := by
  refine ⟨fun s p w s1 t x y z => ⟨fun h => ?clz, fun h => ?ctz, fun h => ?popc, fun h => ?brev, fun h => ?bswap⟩,
    fun s p l n s1 t x y z => ⟨fun h _ => ?bfx, fun h _ => ?bfxs, fun h _ => ?bfi, fun h => ?kvslot⟩,
    fun s p w s1 t x y z => ⟨fun h => ?sel, fun h => ?abs, fun h => ?sext, fun h => ?zext⟩⟩
  case clz =>
    obtain ⟨hle, hzeros, hone⟩ := clzBits_spec (cut w x)
    exact ⟨_, hle, hzeros, hone, wordOp_result rfl h (by rw [lowW_eq_cut, word])⟩
  case ctz =>
    obtain ⟨hle, hzeros, hone⟩ := ctzBits_spec (cut w x)
    exact ⟨_, hle, hzeros, hone, wordOp_result rfl h (by rw [lowW_eq_cut, word])⟩
  case popc => exact wordOp_result rfl h (by rw [lowW_eq_cut, popcount_eq_countP, word]; rfl)
  case brev => exact wordOp_result rfl h (by rw [lowW_eq_cut, word_brevBits])
  case bswap =>
    obtain ⟨v, hbytes, hv⟩ := bswap_result w x
    exact ⟨v, hbytes, wordOp_result rfl h hv⟩
  case bfx => exact wordOp_result rfl h (bfxBits_unsigned n l x)
  case bfxs => exact wordOp_result rfl h (bfxBits_signed n l x)
  case bfi => exact ⟨_, getLsbD_bfiBits n l x y, wordOp_result rfl h rfl⟩
  case kvslot =>
    obtain ⟨htop, hslot, hzeros⟩ := kvslotOf_spec x y
    exact ⟨_, htop, hslot, hzeros, wordOp_result rfl h rfl⟩
  case sel => exact wordOp_result rfl h rfl
  case abs => exact wordOp_result rfl h (by rw [lowW_eq_cut, word_absBits])
  case sext => exact wordOp_result rfl h (by rw [sgnW_eq_cut, wordOfInt_toInt])
  case zext => exact wordOp_result rfl h (by rw [lowW_eq_cut, word_toNat, low_eq_zext_cut, zext])

/-! ## Comparisons (R300) -/

theorem truth_eq (b : Bool) : (if b = true then (1 : Word) else 0) = truth b := rfl

theorem cmpU_eq {w : Width} {f : Nat → Nat → Bool} {x y z : Word} {b : Bool} (h : f (cut w x).toNat (cut w y).toNat = b) :
    cmpU w f x y z = truth b := by
  rw [cmpU, lowW_eq_cut, lowW_eq_cut, h, truth]

theorem cmpS_eq {w : Width} {f : Int → Int → Bool} {x y z : Word} {b : Bool} (h : f (cut w x).toInt (cut w y).toInt = b) :
    cmpS w f x y z = truth b := by
  rw [cmpS, sgnW_eq_cut, sgnW_eq_cut, h, truth]

theorem toNat_beq {n : Nat} (a b : BitVec n) : (a.toNat == b.toNat) = (a == b) := by
  rw [Bool.eq_iff_iff, beq_iff_eq, beq_iff_eq, BitVec.toNat_inj]

/-- The immediate of a signed comparison is the value of its sign extension. -/
theorem simm_eq_toInt_signExtend (im : Nat) : simm im = ((BitVec.ofNat 14 im).signExtend 64).toInt := by
  rw [simm_eq_toInt, BitVec.toInt_signExtend_of_le (by decide)]

/-- Settles O13: each comparison of numbers is the bit vectors' comparison of the low bits. -/
theorem comparisonResults : Obligations.ComparisonResults := by
  intro s p w s1 t im n x y z him hn
  have himm : (BitVec.ofNat 64 im).toNat = im := by
    rw [BitVec.toNat_ofNat, Nat.mod_eq_of_lt (him.trans (by decide))]
  have hbeq : (sgn64 x == simm im) = (x == (BitVec.ofNat 14 im).signExtend 64) := by
    rw [Bool.eq_iff_iff, beq_iff_eq, beq_iff_eq, sgn64_eq_toInt, simm_eq_toInt_signExtend, BitVec.toInt_inj]
  refine ⟨fun h => wordOp_result rfl h (cmpU_eq (toNat_beq _ _)),
    fun h => wordOp_result rfl h (cmpU_eq (by rw [bne, toNat_beq, bne])),
    fun h => wordOp_result rfl h (cmpS_eq BitVec.slt_eq_decide.symm),
    fun h => wordOp_result rfl h (cmpS_eq BitVec.sle_eq_decide.symm),
    fun h => wordOp_result rfl h (cmpU_eq BitVec.ult_eq_decide.symm),
    fun h => wordOp_result rfl h (cmpU_eq BitVec.ule_eq_decide.symm),
    fun h => wordOp_result rfl h ?teqi, fun h => wordOp_result rfl h ?tnei, fun h => wordOp_result rfl h ?tlti,
    fun h => wordOp_result rfl h ?tlei, fun h => wordOp_result rfl h ?tltni, fun h => wordOp_result rfl h ?tleni,
    fun h => wordOp_result rfl h rfl⟩
  case teqi => rw [hbeq, truth]
  case tnei => rw [bne, hbeq, truth, bne]
  case tlti => rw [sgn64_eq_toInt, simm_eq_toInt_signExtend, ← BitVec.slt_eq_decide, truth]
  case tlei => rw [sgn64_eq_toInt, simm_eq_toInt_signExtend, ← BitVec.sle_eq_decide, truth]
  case tltni => rw [BitVec.ult_eq_decide, himm, truth]
  case tleni => rw [BitVec.ule_eq_decide, himm, truth]

/-! ## Floating point (R301-R310) -/

/-- Settles O14: each instruction hands on what its operation of the format gives. -/
theorem floatResults : Obligations.FloatResults := by
  intro s p m q s1 t x y z
  refine ⟨?fadd, ?fsub, ?fmul, ?fdiv, ?fma, ?fms, ?fsqrt, ?fcvt, ?fcvti, ?icvtf, ?frnd, ?fmin, ?fmax, ?fabs, ?fneg,
    ?fsgn, ?feq, ?flt, ?fle, ?funord, ?fclass⟩
  case icvtf =>
    intro h
    rw [← sgn64_eq_toInt]
    exact scalar_result rfl h rfl
  all_goals exact fun h => scalar_result rfl h rfl

end Sys2Proof.Proofs

/-! PROOFS. Results of vector instructions (15): lanes and reductions. -/

namespace Sys2Proof.Proofs

open Sys2Proof.Machine Sys2Proof.Laws

/-! ## Vector instructions (R338-R352) -/

/-- Settles O16: each instruction hands on the lanes, or the scalar, of its function. -/
theorem vectorResults : Obligations.VectorResults := by
  refine ⟨fun s p c y d s1 t l r z => ?lanewise, fun s p y s1 t l r z => ?moved⟩
  case lanewise =>
    refine ⟨?vadd, ?vsub, ?vmul, ?vmin, ?vmax, ?vabs, ?vneg, ?vand, ?vor, ?vxor, ?vandn, ?vshl, ?vshr, ?vsra, ?vcmp,
      ?vfma, ?vpopc, ?vexp2, ?vlog2, ?vrcp, ?vrsqrt, ?vcvt⟩
    all_goals exact fun h => compute_result rfl h rfl
  case moved =>
    refine ⟨?vsel, ?vbcast, ?vext, ?vins, ?vshuf, ?vperm, ?vrot, ?vredadd, ?vredmax, ?vredmin, ?vscan, ?vpfxc⟩
    all_goals exact fun h => compute_result rfl h rfl

/-! ## Lanes read back (R338, R339) -/

/-- The digits of a number in base b: the lowest, and those above it. -/
theorem digit_zero {b d v : Nat} (h : d < b) : (d + b * v) % b = d := by
  rw [Nat.add_mul_mod_self_left, Nat.mod_eq_of_lt h]

theorem digit_succ {k d v : Nat} (h : d < 2 ^ k) (i : Nat) : (d + 2 ^ k * v) / 2 ^ ((i + 1) * k) = v / 2 ^ (i * k) := by
  rw [Nat.succ_mul, Nat.add_comm (i * k) k, Nat.pow_add, ← Nat.div_div_eq_div_mul,
    Nat.add_mul_div_left _ _ (Nat.two_pow_pos k), Nat.div_eq_of_lt h, Nat.zero_add]

theorem digits_lt {k d v n : Nat} (h : d < 2 ^ k) (hv : v < 2 ^ (n * k)) : d + 2 ^ k * v < 2 ^ ((n + 1) * k) := by
  rw [Nat.succ_mul, Nat.pow_add, Nat.mul_comm (2 ^ (n * k))]
  have : 2 ^ k * v + 2 ^ k ≤ 2 ^ k * 2 ^ (n * k) := by
    rw [← Nat.mul_succ]
    exact Nat.mul_le_mul_left _ hv
  omega

/-- The digit of a lane's value in the packed number. -/
def valueDigit (w : Nat) (x : Option Nat) : Nat := x.getD 0 % 2 ^ w

/-- The digit of a lane in the packed null mask. -/
def nullDigit (w : Nat) (x : Option Nat) : Nat := if x.isNone then 2 ^ (w / 8) - 1 else 0

theorem packLanes_cons (w : Nat) (x : Option Nat) (xs : List (Option Nat)) :
    packLanes w (x :: xs) =
      (valueDigit w x + 2 ^ w * (packLanes w xs).1, nullDigit w x + 2 ^ (w / 8) * (packLanes w xs).2) := by
  cases x <;> simp [packLanes, valueDigit, nullDigit]

theorem valueDigit_lt (w : Nat) (x : Option Nat) : valueDigit w x < 2 ^ w := Nat.mod_lt _ (Nat.two_pow_pos w)

theorem nullDigit_lt (w : Nat) (x : Option Nat) : nullDigit w x < 2 ^ (w / 8) := by
  have := Nat.two_pow_pos (w / 8)
  rw [nullDigit]
  split <;> omega

theorem packLanes_lt (w : Nat) (ls : List (Option Nat)) :
    (packLanes w ls).1 < 2 ^ (ls.length * w) ∧ (packLanes w ls).2 < 2 ^ (ls.length * (w / 8)) := by
  induction ls with
  | nil => exact ⟨by simp [packLanes], by simp [packLanes]⟩
  | cons x xs ih =>
    obtain ⟨hv, hn⟩ := ih
    rw [packLanes_cons]
    exact ⟨digits_lt (valueDigit_lt w x) hv, digits_lt (nullDigit_lt w x) hn⟩

/-- Lane i of the packed numbers is that of the list. -/
theorem packLanes_digit (w : Nat) (ls : List (Option Nat)) : ∀ i (h : i < ls.length),
    (packLanes w ls).1 / 2 ^ (i * w) % 2 ^ w = valueDigit w ls[i] ∧
      (packLanes w ls).2 / 2 ^ (i * (w / 8)) % 2 ^ (w / 8) = nullDigit w ls[i] := by
  induction ls with
  | nil => exact fun i h => absurd h (Nat.not_lt_zero i)
  | cons x xs ih =>
    intro i h
    rw [packLanes_cons]
    cases i with
    | zero =>
      rw [Nat.zero_mul, Nat.zero_mul, Nat.pow_zero, Nat.div_one, Nat.div_one]
      exact ⟨digit_zero (valueDigit_lt w x), digit_zero (nullDigit_lt w x)⟩
    | succ i =>
      rw [digit_succ (valueDigit_lt w x), digit_succ (nullDigit_lt w x)]
      exact ih i (Nat.lt_of_succ_lt_succ h)

theorem length_lanes (w : Nat) (t : Tok) : (lanes w t).length = 512 / w := by
  rw [lanes, List.length_map, List.length_range]

theorem lanes_lt (w : Nat) (t : Tok) {a : Option Nat} (ha : a ∈ lanes w t) {v : Nat} (hv : a = some v) : v < 2 ^ w := by
  obtain ⟨i, -, rfl⟩ := List.mem_map.1 ha
  split at hv
  · exact nomatch hv
  · obtain rfl := Option.some.inj hv
    exact Nat.mod_lt _ (Nat.two_pow_pos w)

/-- The lanes of a token that was packed from them. -/
theorem lanes_vecTok (y : VT) (ls : List (Option Nat)) (hlen : ls.length = 512 / vBits y)
    (hfit : ∀ a ∈ ls, ∀ v, a = some v → v < 2 ^ vBits y) : lanes (vBits y) (vecTok (vBits y) ls) = ls := by
  obtain ⟨hv, hn⟩ := packLanes_lt (vBits y) ls
  have hbits : ls.length * vBits y = 512 := by rw [hlen]; cases y <;> rfl
  have hmask : ls.length * (vBits y / 8) = 64 := by rw [hlen]; cases y <;> rfl
  have hbyte : 2 ≤ 2 ^ (vBits y / 8) := by cases y <;> decide
  rw [hbits] at hv
  rw [hmask] at hn
  refine List.ext_getElem (by rw [length_lanes, hlen]) fun i hi hi' => ?_
  obtain ⟨hval, hnull⟩ := packLanes_digit (vBits y) ls i hi'
  simp only [lanes, vecTok, Tok.nulls, Tok.v, List.getElem_map, List.getElem_range, BitVec.toNat_ofNat,
    Nat.mod_eq_of_lt hv, Nat.mod_eq_of_lt hn, hval, hnull]
  cases hx : ls[i] with
  | none =>
    rw [nullDigit, Option.isNone_none, if_pos rfl, if_pos]
    rw [bne_iff_ne]
    omega
  | some v =>
    have hlt : v < 2 ^ vBits y := hfit _ (List.getElem_mem hi') v hx
    rw [nullDigit, Option.isNone_some, if_neg Bool.false_ne_true, if_neg (by decide), valueDigit, Option.getD_some,
      Nat.mod_eq_of_lt hlt]

/-- What a two-input operation makes of two lanes. -/
theorem lane2_getElem (y : VT) (f : Nat → Nat → Nat × Nat) (l r : Tok) (i : Nat) (hf : ∀ a b, (f a b).1 < 2 ^ vBits y)
    (hi : i < 512 / vBits y) :
    (lanes (vBits y) (lane2 y f l r).1)[i]? =
      some (match (lanes (vBits y) l).getD i none, (lanes (vBits y) r).getD i none with
        | some a, some b => some (f a b).1
        | _, _ => none) := by
  have hl : i < (lanes (vBits y) l).length := by rwa [length_lanes]
  have hr : i < (lanes (vBits y) r).length := by rwa [length_lanes]
  rw [lane2, vecFlags, lanes_vecTok]
  · rw [List.getElem?_map, List.getElem?_zipWith, List.getElem?_eq_getElem hl, List.getElem?_eq_getElem hr,
      List.getD_eq_getElem _ _ hl, List.getD_eq_getElem _ _ hr]
    cases (lanes (vBits y) l)[i] <;> cases (lanes (vBits y) r)[i] <;> rfl
  · rw [List.length_map, List.length_zipWith, length_lanes, length_lanes, Nat.min_self]
  · rintro a ha v rfl
    obtain ⟨b, hb, hv⟩ := List.mem_map.1 ha
    obtain ⟨k, hk, rfl⟩ := List.getElem_of_mem hb
    rw [List.getElem_zipWith] at hv
    split at hv
    · obtain rfl := Option.some.inj hv
      exact hf _ _
    · exact nomatch hv

/-! ## Reductions (R348) -/

/-- A lane that holds v, as the tree of a reduction takes it. -/
def leafOf (v : Nat) : Option Nat × Nat := (some v, 0)

theorem vaddLane_int {y : VT} (h : y.isFloat = false) (m : RMode) (a b : Nat) :
    vaddLane y m a b = ((a + b) % 2 ^ vBits y, 0) := by
  rw [vaddLane, byKind, h, if_neg Bool.false_ne_true, noFlag]

theorem combine_leafOf {y : VT} (h : y.isFloat = false) (m : RMode) (a b : Nat) :
    combine (vaddLane y m) (leafOf a) (leafOf b) = leafOf ((a + b) % 2 ^ vBits y) := by
  simp only [leafOf, combine, vaddLane_int h, Nat.or_self]

/-- One level of the tree halves the lanes and keeps their sum modulo the lane width. -/
theorem combinePairs_sum {y : VT} (h : y.isFloat = false) (m : RMode) : ∀ vs : List Nat, (∀ v ∈ vs, v < 2 ^ vBits y) →
    ∃ us : List Nat, combinePairs (vaddLane y m) (vs.map leafOf) = us.map leafOf ∧ us.length = (vs.length + 1) / 2 ∧
      (∀ u ∈ us, u < 2 ^ vBits y) ∧ us.sum % 2 ^ vBits y = vs.sum % 2 ^ vBits y
  | [], _ => ⟨[], rfl, rfl, fun _ hu => absurd hu List.not_mem_nil, rfl⟩
  | [v], hv => ⟨[v], rfl, by simp, hv, rfl⟩
  | a :: b :: vs, hv => by
    obtain ⟨us, heq, hlen, hlt, hsum⟩ := combinePairs_sum h m vs fun v hmem =>
      hv v (List.mem_cons_of_mem _ (List.mem_cons_of_mem _ hmem))
    refine ⟨(a + b) % 2 ^ vBits y :: us, ?_, ?_, ?_, ?_⟩
    · rw [List.map_cons, List.map_cons, combinePairs, heq, combine_leafOf h, List.map_cons]
    · rw [List.length_cons, List.length_cons, List.length_cons, hlen]
      omega
    · rintro u (_ | ⟨_, hu⟩)
      · exact Nat.mod_lt _ (Nat.two_pow_pos _)
      · exact hlt u hu
    · rw [List.sum_cons, List.sum_cons, List.sum_cons, Nat.mod_add_mod, Nat.add_mod, hsum, ← Nat.add_mod, Nat.add_assoc]

theorem reduceTree_sum {y : VT} (h : y.isFloat = false) (m : RMode) (n : Nat) : ∀ vs : List Nat,
    (∀ v ∈ vs, v < 2 ^ vBits y) → 0 < vs.length → vs.length ≤ 2 ^ n →
    reduceTree (vaddLane y m) n (vs.map leafOf) = [leafOf (vs.sum % 2 ^ vBits y)] := by
  induction n with
  | zero =>
    intro vs hlt hpos hlen
    obtain ⟨v, rfl⟩ := List.length_eq_one_iff.1 (le_antisymm hlen hpos)
    rw [List.map_singleton, reduceTree, List.sum_singleton, Nat.mod_eq_of_lt (hlt v (List.mem_singleton.2 rfl))]
  | succ n ih =>
    intro vs hlt hpos hlen
    obtain ⟨us, heq, hhalf, hus, hsum⟩ := combinePairs_sum h m vs hlt
    rw [reduceTree, heq, ih us hus (by omega) (by rw [Nat.pow_succ] at hlen; omega), hsum]

theorem combinePairs_null (op : Nat → Nat → Nat × Nat) : ∀ t : List (Option Nat × Nat), (∀ x ∈ t, x.1 = none) →
    ∀ x ∈ combinePairs op t, x.1 = none
  | [], h => h
  | [_], h => h
  | (a, f) :: (b, g) :: t, h => by
    obtain rfl : a = none := h _ List.mem_cons_self
    obtain rfl : b = none := h _ (List.mem_cons_of_mem _ List.mem_cons_self)
    rintro x (_ | ⟨_, hx⟩)
    · rfl
    · exact combinePairs_null op t (fun y hy => h y (List.mem_cons_of_mem _ (List.mem_cons_of_mem _ hy))) x hx

theorem reduceTree_null (op : Nat → Nat → Nat × Nat) (n : Nat) : ∀ t : List (Option Nat × Nat), (∀ x ∈ t, x.1 = none) →
    ∀ x ∈ reduceTree op n t, x.1 = none := by
  induction n with
  | zero => exact fun _ h => h
  | succ n ih => exact fun t h => ih _ (combinePairs_null op t h)

theorem reduceLanes_int {y : VT} (h : y.isFloat = false) (m : RMode) (l : Tok) (vs : List Nat)
    (hl : lanes (vBits y) l = vs.map some) : reduceLanes y (vaddLane y m) l = (.val (word (vs.sum % 2 ^ vBits y)), 0) := by
  have hlen : vs.length = 512 / vBits y := by rw [← length_lanes (vBits y) l, hl, List.length_map]
  have hlt : ∀ v ∈ vs, v < 2 ^ vBits y := fun v hv =>
    lanes_lt (vBits y) l (hl ▸ List.mem_map_of_mem hv) rfl
  have hpos : 0 < vs.length := by rw [hlen]; cases y <;> decide
  have hle : vs.length ≤ 2 ^ 6 := by rw [hlen]; cases y <;> decide
  have htree : reduceTree (vaddLane y m) 6 ((lanes (vBits y) l).map fun a => (a, 0)) = [leafOf (vs.sum % 2 ^ vBits y)] := by
    rw [hl, List.map_map]
    exact reduceTree_sum h m 6 vs hlt hpos hle
  rw [reduceLanes, htree, leafOf]

theorem reduceLanes_null (y : VT) (op : Nat → Nat → Nat × Nat) (l : Tok) (hl : ∀ a ∈ lanes (vBits y) l, a = none) :
    reduceLanes y op l = (.null, 0) := by
  have hnull : ∀ x ∈ reduceTree op 6 ((lanes (vBits y) l).map fun a => (a, 0)), x.1 = none :=
    reduceTree_null op 6 _ fun x hx => by
      obtain ⟨a, ha, rfl⟩ := List.mem_map.1 hx
      exact hl a ha
  rw [reduceLanes]
  split
  case h_1 v f t heq => exact nomatch hnull (some v, f) (heq ▸ List.mem_cons_self)
  case h_2 => rfl

/-- Settles O17: packing and its digits for the lanes, the sum kept by every level for the reduction. -/
theorem lanesOfResults : Obligations.LanesOfResults :=
  ⟨fun y => ⟨lanes_vecTok y, lane2_getElem y⟩, fun y m l h => ⟨reduceLanes_int h m l, reduceLanes_null y _ l⟩⟩

end Sys2Proof.Proofs

/-! PROOFS. Rounding (11). -/

namespace Sys2Proof.Proofs

open Sys2Proof.Machine Sys2Proof.Laws

/-! ## Rounding to an integer multiple (R240) -/

section
variable (neg : Bool) (m k : Nat)

theorem roundShift_inexact (mode : RMode) : (roundShift mode neg m k false).2 = decide (m % 2 ^ k ≠ 0) := by
  simp only [roundShift, Bool.or_false]
  rw [Bool.eq_iff_iff, bne_iff_ne, decide_eq_true_iff]

theorem above_half : (k != 0 && decide (2 ^ (k - 1) < m % 2 ^ k)) = decide (2 ^ k < 2 * (m % 2 ^ k)) := by
  cases k with
  | zero => simp [Nat.mod_one]
  | succ j => simp [Nat.pow_succ, Nat.mul_comm]

theorem at_half : (k != 0 && m % 2 ^ k == 2 ^ (k - 1)) = decide (2 ^ k = 2 * (m % 2 ^ k)) := by
  rw [Bool.eq_iff_iff]
  cases k with
  | zero => simp [Nat.mod_one]
  | succ j =>
    simp only [Nat.succ_ne_zero, bne_iff_ne, ne_eq, not_false_eq_true, Bool.and_eq_true, beq_iff_eq, true_and,
      decide_eq_true_eq, Nat.add_sub_cancel]
    rw [Nat.pow_succ']
    omega

/-- A quotient, one higher where b holds, times the divisor. -/
theorem quot_add_mul (b : Bool) : (m / 2 ^ k + b.toNat) * 2 ^ k = m - m % 2 ^ k + if b then 2 ^ k else 0 := by
  have hdiv : m / 2 ^ k * 2 ^ k = m - m % 2 ^ k := by
    have := Nat.div_add_mod' m (2 ^ k)
    omega
  rw [Nat.add_mul, hdiv]
  cases b <;> simp

theorem ceil_div : (m + 2 ^ k - 1) / 2 ^ k = m / 2 ^ k + (m % 2 ^ k != 0).toNat := by
  have hpos : 0 < 2 ^ k := Nat.two_pow_pos k
  have hlt : m % 2 ^ k < 2 ^ k := Nat.mod_lt _ hpos
  have hm : 2 ^ k * (m / 2 ^ k) + m % 2 ^ k = m := Nat.div_add_mod m (2 ^ k)
  by_cases h : m % 2 ^ k = 0
  · rw [h, Nat.add_zero] at hm
    have hsplit : m + 2 ^ k - 1 = 2 ^ k * (m / 2 ^ k) + (2 ^ k - 1) := by omega
    rw [hsplit, Nat.mul_add_div hpos, Nat.div_eq_of_lt (by omega : 2 ^ k - 1 < 2 ^ k), h]
    rfl
  · have hsplit : m + 2 ^ k - 1 = 2 ^ k * (m / 2 ^ k + 1) + (m % 2 ^ k - 1) := by
      rw [Nat.mul_add]
      omega
    rw [hsplit, Nat.mul_add_div hpos, Nat.div_eq_of_lt (by omega : m % 2 ^ k - 1 < 2 ^ k), Nat.add_zero,
      bne_iff_ne.2 h]
    rfl

theorem roundShift_rne {y : Nat} (hy : y = (roundShift .rne neg m k false).1) :
    2 * m ≤ 2 * (y * 2 ^ k) + 2 ^ k ∧ 2 * (y * 2 ^ k) ≤ 2 * m + 2 ^ k ∧
      ((2 * m = 2 * (y * 2 ^ k) + 2 ^ k ∨ 2 * (y * 2 ^ k) = 2 * m + 2 ^ k) → y % 2 = 0) := by
  have hlt : m % 2 ^ k < 2 ^ k := Nat.mod_lt _ (Nat.two_pow_pos k)
  have hle : m % 2 ^ k ≤ m := Nat.mod_le _ _
  simp only [roundShift, above_half, at_half, Bool.false_or] at hy
  rw [hy, quot_add_mul]
  rcases lt_trichotomy (2 ^ k) (2 * (m % 2 ^ k)) with h | h | h
  · simp only [decide_eq_true h, Bool.true_or, if_true]
    omega
  · rw [decide_eq_false (by omega : ¬ 2 ^ k < 2 * (m % 2 ^ k)), decide_eq_true h, Bool.false_or, Bool.true_and]
    rcases Nat.mod_two_eq_zero_or_one (m / 2 ^ k) with hq | hq <;> simp [hq] <;> omega
  · rw [decide_eq_false (by omega : ¬ 2 ^ k < 2 * (m % 2 ^ k)), decide_eq_false (by omega : ¬ 2 ^ k = 2 * (m % 2 ^ k))]
    simp only [Bool.false_and, Bool.false_or, Bool.false_eq_true, if_false]
    omega

theorem roundShift_rna {y : Nat} (hy : y = (roundShift .rna neg m k false).1) :
    2 * m < 2 * (y * 2 ^ k) + 2 ^ k ∧ 2 * (y * 2 ^ k) ≤ 2 * m + 2 ^ k := by
  have hlt : m % 2 ^ k < 2 ^ k := Nat.mod_lt _ (Nat.two_pow_pos k)
  have hle : m % 2 ^ k ≤ m := Nat.mod_le _ _
  simp only [roundShift, above_half, at_half, ← Bool.decide_or] at hy
  rw [hy, quot_add_mul]
  simp only [decide_eq_true_eq]
  split <;> omega

end

/-! ## Values of a format round to themselves (R234, R240, R241) -/

theorem bitLen_of_bounds {m p : Nat} (hlo : 2 ^ p ≤ m) (hhi : m < 2 ^ (p + 1)) : bitLen m = p + 1 := by
  have hne : m ≠ 0 := by have := Nat.two_pow_pos p; omega
  rw [bitLen, if_neg hne, (Nat.log2_eq_iff hne).2 ⟨hlo, hhi⟩]

section
variable (f : Fmt) (mode : RMode) (sat neg : Bool) (m : Nat) (e : Int)

/-- A magnitude that stands at the last bit of its format's grid is kept, without a flag. -/
theorem round_of_grid (hm : m ≠ 0) (hl : max (lsbOf (f.man + 1) m e) f.emin = e)
    (hfit : (e - f.emin).toNat * 2 ^ f.man + m ≤ f.maxBits) :
    f.round mode sat neg m e false = (f.sign neg + ((e - f.emin).toNat * 2 ^ f.man + m), 0) := by
  have hmag : f.roundMag mode neg m e false = ((e - f.emin).toNat * 2 ^ f.man + m, false) := by
    simp only [Fmt.roundMag, hl, roundAt, le_refl, if_true, sub_self, Int.toNat_zero, Nat.pow_zero, Nat.mul_one]
  rw [Fmt.round, if_neg (fun h => hm h.1), hmag]
  simp only [if_neg (Nat.not_lt.2 hfit), roundFlags, flagIf, Bool.false_and, Bool.false_eq_true, if_false, Nat.add_zero]

end

/-- A number of a format: its sign, its exponent field and its mantissa field. -/
theorem fields_of_lt (f : Fmt) {x : Nat} (hx : x < 2 ^ (f.low + 1)) :
    x = f.sign (x.testBit f.low) + (x / 2 ^ f.man % 2 ^ f.exp * 2 ^ f.man + x % 2 ^ f.man) := by
  have hlow : x % 2 ^ f.low = x / 2 ^ f.man % 2 ^ f.exp * 2 ^ f.man + x % 2 ^ f.man := by
    rw [Fmt.low, Nat.pow_add, Nat.mod_mul, Nat.mul_comm, Nat.add_comm]
  have hsign : x / 2 ^ f.low * 2 ^ f.low = f.sign (x.testBit f.low) := by
    have htop : x / 2 ^ f.low < 2 := by
      rw [Nat.div_lt_iff_lt_mul (Nat.two_pow_pos _), ← Nat.pow_succ']
      exact hx
    rw [Fmt.sign, Nat.testBit_eq_decide_div_mod_eq, Nat.mod_eq_of_lt htop]
    rcases Nat.lt_or_ge (x / 2 ^ f.low) 1 with h | h
    · rw [Nat.lt_one_iff.1 h, Nat.zero_mul]; rfl
    · rw [show x / 2 ^ f.low = 1 by omega, Nat.one_mul]; rfl
  rw [← hlow, ← hsign, Nat.mul_comm, Nat.div_add_mod]

section
variable {f : Fmt} (hinf : f.inf = true) (hnan : f.oneNan = false)
include hinf hnan

theorem decode_fin {x m : Nat} {e : Int} {neg : Bool} (h : f.decode x = .fin neg m e) :
    neg = x.testBit f.low ∧ x / 2 ^ f.man % 2 ^ f.exp ≠ 2 ^ f.exp - 1 ∧
      ((x / 2 ^ f.man % 2 ^ f.exp = 0 ∧ m = x % 2 ^ f.man ∧ e = f.emin) ∨
        (x / 2 ^ f.man % 2 ^ f.exp ≠ 0 ∧ m = 2 ^ f.man + x % 2 ^ f.man ∧
          e = f.emin + (x / 2 ^ f.man % 2 ^ f.exp : Nat) - 1)) := by
  simp only [Fmt.decode, hinf, hnan, Bool.true_and, Bool.false_and, Bool.false_eq_true, if_false, beq_iff_eq] at h
  split at h
  · split at h <;> exact nomatch h
  case isFalse htop =>
    split at h
    case isTrue hzero =>
      obtain ⟨rfl, rfl, rfl⟩ := FVal.fin.inj h
      exact ⟨rfl, htop, .inl ⟨hzero, rfl, rfl⟩⟩
    case isFalse hpos =>
      obtain ⟨rfl, rfl, rfl⟩ := FVal.fin.inj h
      exact ⟨rfl, htop, .inr ⟨hpos, rfl, rfl⟩⟩

theorem round_decode (mode : RMode) (sat neg : Bool) {x m : Nat} {e : Int} (hx : x < 2 ^ (f.low + 1))
    (h : f.decode x = .fin neg m e) : f.round mode sat neg m e false = (x, 0) := by
  obtain ⟨rfl, htop, hcase⟩ := decode_fin hinf hnan h
  have hfields := fields_of_lt f hx
  have hfrac : x % 2 ^ f.man < 2 ^ f.man := Nat.mod_lt _ (Nat.two_pow_pos _)
  have hexp : x / 2 ^ f.man % 2 ^ f.exp < 2 ^ f.exp := Nat.mod_lt _ (Nat.two_pow_pos _)
  have hmax : x / 2 ^ f.man % 2 ^ f.exp * 2 ^ f.man + x % 2 ^ f.man ≤ f.maxBits := by
    have hnext : (x / 2 ^ f.man % 2 ^ f.exp + 1) * 2 ^ f.man ≤ (2 ^ f.exp - 1) * 2 ^ f.man :=
      Nat.mul_le_mul_right _ (by omega)
    rw [Nat.succ_mul] at hnext
    rw [Fmt.maxBits, if_pos hinf, Fmt.infBits]
    omega
  rcases hcase with ⟨hzero, rfl, rfl⟩ | ⟨hpos, rfl, rfl⟩
  case inl =>
    rw [hzero, Nat.zero_mul, Nat.zero_add] at hfields hmax
    by_cases hm : x % 2 ^ f.man = 0
    · rw [Fmt.round, if_pos ⟨hm, by decide⟩]
      rw [hm, Nat.add_zero] at hfields
      rw [← hfields]
    · have hlen : bitLen (x % 2 ^ f.man) ≤ f.man := bitLen_le_of_lt hfrac
      rw [round_of_grid f mode sat _ _ _ hm (by rw [lsbOf]; omega) (by simpa using hmax)]
      simpa using hfields.symm
  case inr =>
    have hlen : bitLen (2 ^ f.man + x % 2 ^ f.man) = f.man + 1 :=
      bitLen_of_bounds (Nat.le_add_right _ _) (by rw [Nat.pow_succ]; omega)
    have hmag : (f.emin + (x / 2 ^ f.man % 2 ^ f.exp : Nat) - 1 - f.emin).toNat * 2 ^ f.man +
        (2 ^ f.man + x % 2 ^ f.man) = x / 2 ^ f.man % 2 ^ f.exp * 2 ^ f.man + x % 2 ^ f.man := by
      obtain ⟨j, hj⟩ := Nat.exists_eq_succ_of_ne_zero hpos
      rw [hj, show (f.emin + ((j.succ : Nat) : Int) - 1 - f.emin).toNat = j by omega, Nat.succ_mul]
      omega
    rw [round_of_grid f mode sat _ _ _ (by have := Nat.two_pow_pos f.man; omega) (by rw [lsbOf, hlen]; omega)
      (by rw [hmag]; exact hmax), hmag, ← hfields]

end

/-- Settles O15: the quotient and remainder by the unit for the modes, the grid of the format for its own values. -/
theorem roundingRule : Obligations.RoundingRule := by
  refine ⟨fun neg m k => ⟨roundShift_inexact neg m k, fun y hy => roundShift_rne neg m k hy,
    fun y hy => roundShift_rna neg m k hy, rfl, ?rdn, ?rup⟩, fun q mode sat neg x m e hx h => ?own⟩
  case rdn =>
    rw [ceil_div]
    cases neg <;> simp [roundShift]
  case rup =>
    rw [ceil_div]
    cases neg <;> simp [roundShift]
  case own =>
    cases q with
    | sp => exact round_decode rfl rfl mode sat neg hx h
    | dp => exact round_decode rfl rfl mode sat neg hx h

end Sys2Proof.Proofs

/-! PROOFS. Words, firing and delivery (12): steps, the firing rule, targets, the frame of class C. -/

namespace Sys2Proof.Proofs

open Sys2Proof.Machine Sys2Proof.Laws

/-! ## Words and steps -/

/-- Settles O3: the decoder runs on the words. -/
theorem decodeGivesTableWords : Obligations.DecodeGivesTableWords := by
  refine ⟨?readReg, ?add, ?movi, ?st, ?br, ?fma, ?tileLd⟩
  all_goals decide

/-- The instructions from word i on, where n words are passed over first, stand at higher words. -/
theorem le_of_mem_instrsFrom (ws : List Nat) : ∀ {i n k x}, (k, x) ∈ instrsFrom ws i n → i + n ≤ k := by
  induction ws with
  | nil => intro i n k x h; exact absurd h List.not_mem_nil
  | cons w ws ih =>
    intro i n k x h
    cases n with
    | succ n => have := ih h; omega
    | zero =>
      rw [instrsFrom] at h
      split at h
      · rcases List.mem_cons.1 h with heq | htail
        · obtain ⟨rfl, -⟩ := Prod.mk.inj heq
          exact le_rfl
        · have := ih htail; omega
      · have := ih h; omega

/-- Each of the instructions of a block is what the words from its place on decode to. -/
theorem decode_of_mem_instrsFrom (ws : List Nat) : ∀ {i n k x}, (k, x) ∈ instrsFrom ws i n →
    ∃ w rest, ws.drop (k - i) = w :: rest ∧ decodeWord w rest = .ok x := by
  induction ws with
  | nil => intro i n k x h; exact absurd h List.not_mem_nil
  | cons w ws ih =>
    intro i n k x h
    have htail : ∀ m, (k, x) ∈ instrsFrom ws (i + 1) m →
        ∃ v rest, (w :: ws).drop (k - i) = v :: rest ∧ decodeWord v rest = .ok x := fun m hm => by
      have hle := le_of_mem_instrsFrom ws hm
      obtain ⟨v, rest, hdrop, hdec⟩ := ih hm
      rw [show k - i = (k - (i + 1)) + 1 by omega, List.drop_succ_cons]
      exact ⟨v, rest, hdrop, hdec⟩
    cases n with
    | succ n => exact htail n h
    | zero =>
      rw [instrsFrom] at h
      split at h
      case h_1 y hdec =>
        rcases List.mem_cons.1 h with heq | hmem
        · obtain ⟨rfl, rfl⟩ := Prod.mk.inj heq
          exact ⟨w, ws, by rw [Nat.sub_self, List.drop_zero], hdec⟩
        · exact htail _ hmem
      case h_2 => exact htail _ h

theorem instrAt_of_mem {f : Frame} {n : Nat} {i : Instr} (h : (n, i) ∈ f.instrs) : f.instrAt n = some i := by
  obtain ⟨w, rest, hdrop, hdec⟩ := decode_of_mem_instrsFrom f.words h
  rw [Nat.sub_zero] at hdrop
  rw [Frame.instrAt, hdrop]
  simp only [hdec, Except.toOption]

/-- The search for a ready word finds the one below which none is ready. -/
theorem firstReady_instrsFrom {f : Frame} {scan n : Nat} {i : Instr} (hscan : scan ≤ n)
    (hready : gather i.shape f n ≠ .wait) (ws : List Nat) : ∀ {j m}, (n, i) ∈ instrsFrom ws j m →
    (∀ e ∈ instrsFrom ws j m, scan ≤ e.1 → e.1 < n → gather e.2.shape f e.1 = .wait) →
    firstReady f scan (instrsFrom ws j m) = some (n, i) := by
  induction ws with
  | nil => intro j m h; exact absurd h List.not_mem_nil
  | cons w ws ih =>
    intro j m h hbelow
    cases m with
    | succ m => exact ih h hbelow
    | zero =>
      rw [instrsFrom] at h hbelow ⊢
      split at h
      case h_2 hdec =>
        simp only [hdec] at hbelow ⊢
        exact ih h hbelow
      case h_1 y hdec =>
        simp only [hdec] at hbelow ⊢
        rw [firstReady]
        rcases List.mem_cons.1 h with heq | hmem
        · obtain ⟨rfl, rfl⟩ := Prod.mk.inj heq
          exact if_pos ⟨hscan, hready⟩
        · have hlt : j < n := by have := le_of_mem_instrsFrom ws hmem; omega
          rw [if_neg fun hc => hc.2 (hbelow (j, y) List.mem_cons_self hc.1 hlt)]
          exact ih hmem fun e he => hbelow e (List.mem_cons_of_mem _ he)

/-- Settles O4: the instructions of a block stand in the order of their words. -/
theorem stepRunsDecodedInstruction : Obligations.StepRunsDecodedInstruction := by
  refine ⟨fun s n i hagenda hexec hmem hscan hready hbelow => ⟨instrAt_of_mem hmem, ?_⟩, fun s i t h => ?_⟩
  · have hnext : s.nextWord = some (n, i) := by
      rw [State.nextWord, if_pos hexec]
      exact firstReady_instrsFrom hscan hready _ hmem hbelow
    have hstep : step s = exec i (s.atWord n) := by
      rw [step, hagenda]
      simp only [hnext]
    exact hstep
  · rw [step, h]

/-! ## Firing (R265-R267) -/

/-- Whether the predicate token keeps an instruction from firing: it has arrived with a value that does not match. -/
def predFails (h : Shape) : Option Tok → Bool
  | none => false
  | some t => h.pr != .always && (!t.isPoison && !t.isNull && (t.w.toNat.testBit 0 != (h.pr == .onTrue)))

/-- What the tokens of the inputs say, where the predicate does not keep the instruction from firing. -/
def gotOf (h : Shape) : Option (Tok × Tok × Tok) → Got
  | none => .wait
  | some (l, r, p) =>
    match pickPoison (pickPoison l r) p with
    | .poison d m => .poison d m
    | _ => if h.pr != Pr.always && p.isNull then .null else .vals l r (if h.d then p else .val 0)

section
variable {h : Shape} {f : Frame} {i : Nat}

theorem gather_unfired (hf : f.fired.find? i = none) :
    gather h f i = if predFails h (f.input i 2) then .mismatch else gotOf h (inputsOf h f i) := by
  simp only [gather, hf, bne_self_eq_false, Bool.false_eq_true, if_false]
  cases f.input i 2 <;> cases inputsOf h f i <;> cases hp : h.pr <;> simp only [predFails, gotOf, hp] <;> rfl

theorem predFails_val {v : Word} (hpr : h.pr = .onTrue ∨ h.pr = .onFalse) :
    predFails h (some (.val v)) = (v.getLsbD 0 != (h.pr == .onTrue)) := by
  rcases hpr with hp | hp <;> rw [predFails, hp] <;> rfl

theorem predFails_always (x : Option Tok) (hpr : h.pr = .always) : predFails h x = false := by
  cases x <;> rw [predFails]
  rw [hpr]
  rfl

theorem gather_mismatch (hf : f.fired.find? i = none) (hpr : h.pr = .onTrue ∨ h.pr = .onFalse) {v : Word}
    (hv : f.input i 2 = some (.val v)) (hne : v.getLsbD 0 ≠ (h.pr == .onTrue)) : gather h f i = .mismatch := by
  rw [gather_unfired hf, hv, predFails_val hpr, if_pos (bne_iff_ne.2 hne)]

/-- Where there is no predicate, or it matches, the inputs decide. -/
theorem gather_matches (hf : f.fired.find? i = none)
    (hm : h.pr = .always ∨ ∃ v : Word, f.input i 2 = some (.val v) ∧ v.getLsbD 0 = (h.pr == .onTrue)) :
    gather h f i = gotOf h (inputsOf h f i) := by
  have hpass : predFails h (f.input i 2) = false := by
    by_cases hp : h.pr = .always
    · exact predFails_always _ hp
    · obtain ⟨v, hv, hbit⟩ := hm.resolve_left hp
      have hpr : h.pr = .onTrue ∨ h.pr = .onFalse := by cases h' : h.pr <;> simp_all
      rw [hv, predFails_val hpr, hbit, bne_self_eq_false]
  rw [gather_unfired hf, hpass, if_neg Bool.false_ne_true]

theorem inputsOf_missing {k : Nat} (hk : k < 3) (hhas : h.has k = true) (hin : f.input i k = none) :
    inputsOf h f i = none := by
  have hget : (if h.has k then f.input i k else some (.val 0)) = none := by rw [if_pos hhas, hin]
  rcases (by omega : k = 0 ∨ k = 1 ∨ k = 2) with rfl | rfl | rfl
  · simp only [inputsOf, hget]
  · cases h0 : (if h.has 0 then f.input i 0 else some (.val 0)) <;> simp only [inputsOf, h0, hget]
  · cases h0 : (if h.has 0 then f.input i 0 else some (.val 0)) <;>
      cases h1 : (if h.has 1 then f.input i 1 else some (.val 0)) <;> simp only [inputsOf, h0, h1, hget]

theorem pickPoison_left {a b : Tok} (hb : b.isPoison = false) : pickPoison a b = if a.isPoison then a else b := by
  cases a <;> cases b <;> first | rfl | exact Bool.noConfusion hb

theorem pickPoison_right {a b : Tok} (ha : a.isPoison = false) : pickPoison a b = b := by
  cases a <;> first | rfl | exact Bool.noConfusion ha

theorem gotOf_poison {l r p : Tok} {d : FaultD} {m : Bool} (hp : pickPoison (pickPoison l r) p = .poison d m) :
    gotOf h (some (l, r, p)) = .poison d m := by
  rw [gotOf, hp]

theorem gotOf_clean {l r p : Tok} (hl : l.isPoison = false) (hr : r.isPoison = false) (hp : p.isPoison = false) :
    gotOf h (some (l, r, p)) =
      if h.pr != Pr.always && p.isNull then .null else .vals l r (if h.d then p else .val 0) := by
  rw [gotOf, pickPoison_right hl, pickPoison_right hr]
  cases p <;> first | rfl | exact Bool.noConfusion hp

end

/-- Settles O5: the predicate first, then the inputs that are missing, then poison, then a null predicate. -/
theorem firingRule : Obligations.FiringRule := by
  refine ⟨fun h f i => ⟨gather_fired, fun hf hpr v hv hne => gather_mismatch hf hpr hv hne, ?missing, ?values⟩,
    fun h f i l r hf hpr hd hl hr hin0 hin1 => ?poison⟩
  case missing =>
    rintro hf hm ⟨k, hk, hhas, hin⟩
    rw [gather_matches hf hm, inputsOf_missing hk hhas hin]
    rfl
  case values =>
    intro hf hm l r p hgl hgr hgp hl hr hp
    have hnull : (h.pr != Pr.always && p.isNull) = false := by
      by_cases hpr : h.pr = .always
      · rw [hpr]; rfl
      · obtain ⟨v, hv, -⟩ := hm.resolve_left hpr
        have hhas : h.has 2 = true := by simp [Shape.has, hpr]
        rw [if_pos hhas, hv] at hgp
        obtain rfl := Option.some.inj hgp
        exact Bool.and_false _
    rw [gather_matches hf hm, inputsOf_eq hgl hgr hgp, gotOf_clean hl hr hp, hnull, if_neg Bool.false_ne_true]
  case poison =>
    have hhas2 : h.has 2 = false := by simp [Shape.has, hd, hpr]
    have hgot : gather h f i = gotOf h (some (l, r, .val 0)) := by
      rw [gather_matches hf (.inl hpr),
        inputsOf_eq (l := l) (r := r) (p := .val 0) (by simp [Shape.has, hl, hin0]) (by simp [Shape.has, hr, hin1])
          (by simp [hhas2])]
    refine ⟨fun d m hp hclean => ?_, fun d m hclean hp => ?_, fun d m d' m' hp hp' hle => ?_,
      fun d m d' m' hp hp' hlt => ?_, fun b hcl hcr hnull => ?_⟩
    · rw [hgot, gotOf_poison]
      rw [pickPoison_left hclean, hp]
      rfl
    · rw [hgot, gotOf_poison]
      rw [pickPoison_right hclean, hp]
      rfl
    · rw [hgot, gotOf_poison]
      rw [hp, hp', pickPoison, if_neg (Nat.not_lt.2 hle)]
      rfl
    · rw [hgot, gotOf_poison]
      rw [hp, hp', pickPoison, if_pos hlt]
      rfl
    · have hin : inputsOf { h with pr := if b then .onTrue else .onFalse } f i = some (l, r, .null) :=
        inputsOf_eq (by simp [Shape.has, hl, hin0]) (by simp [Shape.has, hr, hin1]) (by cases b <;> simp [Shape.has, hnull])
      rw [gather_unfired hf, hnull, hin, gotOf_clean hcl hcr rfl]
      cases b <;> rfl

/-! ## Delivery (R259, R265) -/

section
variable (f : Frame) (src : Nat) (x : Tok)

/-- What an input that has no token takes from a delivery: the token, and a fault where it is a commit output. -/
theorem deliver1_input {t : Nat} (ht : t < 384) (hn : f.ops.find? t = none) : ∃ ds : List FaultD,
    f.deliver1 src t x = { f with ops := f.ops.put t x, faults := f.faults ++ ds } := by
  simp only [Frame.deliver1, if_pos ht, hn, Option.isSome_none, Bool.false_eq_true, if_false]
  split
  case h_1 d _ => exact ⟨[d], rfl⟩
  case h_2 => exact ⟨[], by rw [List.append_nil]⟩

theorem deliver1_input_again {t : Nat} (ht : t < 384) {y : Tok} (hy : f.ops.find? t = some y) :
    f.deliver1 src t x = f.addFault { cause := 0x06, index := t / 3, lsid := f.lsidAt (t / 3) } := by
  simp only [Frame.deliver1, if_pos ht, hy, Option.isSome_some, if_true]

theorem deliver1_reg {t : Nat} (hlo : 384 ≤ t) (ht : t < 400) (hn : f.regs.find? (t - 384) = none) :
    ∃ ds : List FaultD, f.deliver1 src t x = { f with regs := f.regs.put (t - 384) x, faults := f.faults ++ ds } := by
  simp only [Frame.deliver1, if_neg (Nat.not_lt.2 hlo), if_pos ht, hn, Option.isSome_none, Bool.false_eq_true, if_false]
  split
  case h_1 d m => exact ⟨[poisonCause d m 0x60], rfl⟩
  case h_2 => exact ⟨[], by rw [List.append_nil]⟩

theorem deliver1_reg_again {t : Nat} (hlo : 384 ≤ t) (ht : t < 400) {y : Tok} (hy : f.regs.find? (t - 384) = some y) :
    f.deliver1 src t x = f.addFault { cause := 0x06, index := src, lsid := f.lsidAt src } := by
  simp only [Frame.deliver1, if_neg (Nat.not_lt.2 hlo), if_pos ht, hy, Option.isSome_some, if_true]

theorem deliver1_none {t : Nat} (ht : 400 ≤ t) : f.deliver1 src t x = f := by
  simp only [Frame.deliver1, if_neg (by omega : ¬ t < 384), if_neg (by omega : ¬ t < 400)]

/-- A delivery to one target changes only operands, register writes and faults; the first token of a target stays. -/
theorem deliver1_effect (u : Nat) :
    (∃ o g ds, f.deliver1 src u x = { f with ops := o, regs := g, faults := ds }) ∧
    (∀ t, t < 384 → (f.deliver1 src u x).ops.find? t =
      if f.ops.find? t = none ∧ t = u then some x else f.ops.find? t) ∧
    (∀ t, t < 16 → (f.deliver1 src u x).regs.find? t =
      if f.regs.find? t = none ∧ t + 384 = u then some x else f.regs.find? t) := by
  rcases (by omega : u < 384 ∨ (384 ≤ u ∧ u < 400) ∨ 400 ≤ u) with hu | ⟨hlo, hu⟩ | hu
  · cases hfind : f.ops.find? u with
    | none =>
      obtain ⟨ds, heq⟩ := deliver1_input f src x hu hfind
      rw [heq]
      refine ⟨⟨_, _, _, rfl⟩, fun t _ => ?_, fun t _ => by rw [if_neg (by omega)]⟩
      by_cases htu : t = u
      · rw [htu, if_pos ⟨hfind, rfl⟩]
        exact find_put_same _ _ _
      · rw [if_neg fun h => htu h.2]
        exact find_put_other _ _ htu
    | some y =>
      rw [deliver1_input_again f src x hu hfind]
      refine ⟨⟨_, _, _, rfl⟩, fun t _ => ?_, fun t _ => by rw [if_neg (by omega)]; rfl⟩
      rw [if_neg]
      · rfl
      · rintro ⟨hn, rfl⟩
        exact nomatch hn.symm.trans hfind
  · cases hfind : f.regs.find? (u - 384) with
    | none =>
      obtain ⟨ds, heq⟩ := deliver1_reg f src x hlo hu hfind
      rw [heq]
      refine ⟨⟨_, _, _, rfl⟩, fun t _ => by rw [if_neg (by omega)], fun t _ => ?_⟩
      by_cases htu : t + 384 = u
      · have ht : t = u - 384 := by omega
        rw [ht, if_pos ⟨hfind, by omega⟩]
        exact find_put_same _ _ _
      · rw [if_neg fun h => htu h.2]
        exact find_put_other _ _ (by omega)
    | some y =>
      rw [deliver1_reg_again f src x hlo hu hfind]
      refine ⟨⟨_, _, _, rfl⟩, fun t _ => by rw [if_neg (by omega)]; rfl, fun t _ => ?_⟩
      rw [if_neg]
      · rfl
      · rintro ⟨hn, rfl⟩
        rw [Nat.add_sub_cancel] at hfind
        exact nomatch hn.symm.trans hfind
  · rw [deliver1_none f src x hu]
    exact ⟨⟨_, _, _, rfl⟩, fun t _ => by rw [if_neg (by omega)], fun t _ => by rw [if_neg (by omega)]⟩

end

/-- A first token of two: where a list of targets names it, or its head does. -/
theorem first_token {P Q : Prop} [Decidable P] [Decidable Q] (a : Option Tok) (x : Tok) :
    (if (if a = none ∧ P then some x else a) = none ∧ Q then some x else if a = none ∧ P then some x else a) =
      if a = none ∧ (P ∨ Q) then some x else a := by
  cases a <;> by_cases hP : P <;> simp [hP]

/-- A delivery changes only operands, register writes and faults; the first token of a target stays. -/
theorem deliver_effect (src : Nat) (x : Tok) (ts : List Nat) : ∀ f : Frame,
    (∃ o g ds, f.deliver src ts x = { f with ops := o, regs := g, faults := ds }) ∧
    (∀ t, t < 384 → (f.deliver src ts x).ops.find? t =
      if f.ops.find? t = none ∧ t ∈ ts then some x else f.ops.find? t) ∧
    (∀ t, t < 16 → (f.deliver src ts x).regs.find? t =
      if f.regs.find? t = none ∧ t + 384 ∈ ts then some x else f.regs.find? t) := by
  induction ts with
  | nil => exact fun f => ⟨⟨_, _, _, rfl⟩, fun t _ => by simp [Frame.deliver], fun t _ => by simp [Frame.deliver]⟩
  | cons u ts ih =>
    intro f
    obtain ⟨⟨o, g, ds, heq⟩, hops, hregs⟩ := deliver1_effect f src x u
    obtain ⟨⟨o', g', ds', heq'⟩, hops', hregs'⟩ := ih (f.deliver1 src u x)
    refine ⟨⟨o', g', ds', ?_⟩, fun t ht => ?_, fun t ht => ?_⟩
    · refine heq'.trans ?_
      rw [heq]
    · refine (hops' t ht).trans ?_
      rw [hops t ht, first_token]
      simp only [List.mem_cons]
    · refine (hregs' t ht).trans ?_
      rw [hregs t ht, first_token]
      simp only [List.mem_cons]

/-- Settles O6: one target at a time. -/
theorem resultReachesTargets : Obligations.ResultReachesTargets := by
  refine ⟨fun f src ts x t => ?_, fun f src t x y => ⟨fun ht hy => deliver1_input_again f src x ht hy,
    fun hlo ht hy => deliver1_reg_again f src x hlo ht hy⟩⟩
  obtain ⟨⟨o, g, ds, heq⟩, hops, hregs⟩ := deliver_effect src x ts f
  refine ⟨hops t, hregs t, ?_, ?_, ?_⟩ <;> rw [heq]

/-! ## The frame of class C (R265-R267) -/

section
variable {i : Instr} {s : State}

/-- An instruction of class C whose result is a token with flags. -/
theorem computes_of_compute {g : Slot → Tok → Tok → Tok → Tok × Nat} (h : exec i s = .next (compute i g s)) :
    ∃ g, exec i s = .next (compute i g s) := ⟨g, h⟩

/-- An instruction of class C on scalars. -/
theorem computes_of_scalar {g : Slot → Word → Word → Word → Tok × Nat} (h : exec i s = .next (scalar i g s)) :
    ∃ g, exec i s = .next (compute i g s) := ⟨_, h⟩

/-- An instruction of class C on scalars whose result is a word. -/
theorem computes_of_wordOp {f : Word → Word → Word → Word} (h : exec i s = .next (wordOp i f s)) :
    ∃ g, exec i s = .next (compute i g s) := computes_of_scalar h

end

/-- What an instruction of class C other than the queries executes. -/
theorem exec_compute (i : Instr) (s : State) (hc : i.shape.cls = .compute)
    (hq : ∀ p a b, i ≠ .tid p a b ∧ i ≠ .whereQ p a b ∧ i ≠ .time p a b) :
    ∃ g, exec i s = .next (compute i g s) := by
  cases i
  all_goals cases hc
  case tid p a b => exact absurd rfl (hq p a b).1
  case whereQ p a b => exact absurd rfl (hq p a b).2.1
  case time p a b => exact absurd rfl (hq p a b).2.2
  case movi | const | consth | add | sub | mul | mulh | mulhn | and | or | xor | andn | shl | shr | sra | rol
      | ror | min | max | minn | maxn | sel | clz | ctz | popc | brev | bswap | abs | sext | zext | bfx | bfi
      | kvslot | addi | muli | andi | ori | xori | shli | shri | srai | teq | tne | tlt | tle | tltn | tlen | teqi
      | tnei | tlti | tlei | tltni | tleni | tbit =>
    exact computes_of_wordOp rfl
  case div | divn | rem | remn | fadd | fsub | fmul | fdiv | fma | fms | fsqrt | fmin | fmax | fabs | fneg | fsgn
      | feq | flt | fle | funord | fclass | fcvt | fcvti | icvtf | frnd =>
    exact computes_of_scalar rfl
  case readReg | mov | mov4 | null | vadd | vsub | vmul | vfma | vmin | vmax | vabs | vneg | vand | vor | vxor
      | vandn | vshl | vshr | vsra | vcmp | vsel | vbcast | vext | vins | vshuf | vperm | vrot | vredadd | vredmax
      | vredmin | vscan | vpopc | vpfxc | vcvt | vexp2 | vlog2 | vrcp | vrsqrt =>
    exact computes_of_compute rfl

/-- What an instruction of class C does to the frame at the cursor: its word is marked and its targets take a token. -/
theorem compute_updF (i : Instr) (g : Slot → Tok → Tok → Tok → Tok × Nat) (s : State) : compute i g s = s ∨
    ∃ F : Frame → Frame, compute i g s = s.updF F ∧ ∀ f, f.sameBut (F f) ∧
      ∀ n, n ≠ s.ci → (F f).fired.find? n = f.fired.find? n := by
  have hfire : ∀ x n, ∃ F : Frame → Frame, s.fireWith i x n = s.updF F ∧ ∀ f, f.sameBut (F f) ∧
      ∀ n, n ≠ s.ci → (F f).fired.find? n = f.fired.find? n := fun x n => by
    refine ⟨_, rfl, fun f => ?_⟩
    obtain ⟨⟨o, r, ds, heq⟩, -, -⟩ := deliver_effect s.ci x i.shape.targets (f.mark s.ci true)
    rw [heq]
    exact ⟨rfl, fun n hn => find_put_other _ _ hn⟩
  unfold compute
  split
  case h_1 => exact .inl rfl
  case h_2 => exact .inr ⟨_, rfl, fun f => ⟨rfl, fun n hn => find_put_other _ _ hn⟩⟩
  case h_3 => exact .inr (hfire _ _)
  case h_4 => exact .inr (hfire _ _)
  case h_5 => exact .inr (hfire _ _)

/-- An update of the frame at the cursor leaves everything else. -/
theorem updF_frame (s : State) (F : Frame → Frame) :
    s.updF F = { s with cores := (s.updF F).cores } ∧ (∀ c, c ≠ s.cc → (s.updF F).core c = s.core c) ∧
      { (s.updF F).core s.cc with slots := (s.core s.cc).slots } = s.core s.cc ∧
      (∀ k, k ≠ s.ck → (s.updF F).slot s.cc k = s.slot s.cc k) ∧
      { (s.updF F).cur with frame := s.cur.frame } = s.cur ∧ (s.updF F).cur.frame = F s.cur.frame := by
  refine ⟨rfl, fun c hc => core_updCore_other _ _ hc, ?_, fun k hk => slot_updSlot_slot _ _ hk, ?_, ?_⟩
  · have hcore : (s.updF F).core s.cc = _ := core_updSlot s s.cc s.ck _
    rw [hcore]
  · rw [cur_updF]
  · rw [cur_updF]

/-- Settles O7: an instruction of class C is a `compute`, which updates the frame at the cursor. -/
theorem computeFrame : Obligations.ComputeFrame := by
  refine ⟨fun i s t hc hq hexec => ?_, fun i s hc hq => ?_⟩
  · obtain ⟨g, hg⟩ := exec_compute i s hc hq
    obtain rfl : compute i g s = t := Host.Outcome.next.inj (hg.symm.trans hexec)
    rcases compute_updF i g s with heq | ⟨F, heq, hF⟩
    · rw [heq]
      exact ⟨rfl, fun _ _ => rfl, rfl, fun _ _ => rfl, rfl, rfl, fun _ _ => rfl⟩
    · obtain ⟨hcores, hother, hcore, hslots, hcur, hframe⟩ := updF_frame s F
      obtain ⟨hsame, hfired⟩ := hF s.cur.frame
      rw [heq]
      exact ⟨hcores, hother, hcore, hslots, hcur, hframe ▸ hsame, hframe ▸ hfired⟩
  · obtain ⟨g, hg⟩ := exec_compute i s hc hq
    obtain ⟨hwait, hmis, hpoison, hnull, -⟩ := compute_cases i g s
    rw [hg]
    exact ⟨fun h => congrArg _ (hwait h), fun h => congrArg _ (hmis h), fun d m h => congrArg _ (hpoison d m h),
      fun h => congrArg _ (hnull h)⟩

end Sys2Proof.Proofs

/-! PROOFS. Addresses and translation (08): the checks of R148, one level of a walk, what an access changes. -/

namespace Sys2Proof.Proofs

open Sys2Proof.Machine Sys2Proof.Laws

/-! ## The checks of an address (R148) -/

section
variable {a : Who} {k off n u : Nat} {kind : AKind}

/-- Settles O54: the checks one by one. -/
theorem addressChecks : Obligations.AddressChecks := by
  intro a k off n u ea kind g r hg hea hr hn
  have hsmall : ea + n - 1 < 2 ^ 56 → ea % 2 ^ 56 = ea := fun h => Nat.mod_eq_of_lt (by omega)
  subst hg hr
  refine ⟨fun hpriv hun => ?_, fun hpriv => ⟨fun hlim => ?_, fun hoff hlim => ?_⟩⟩
  · simp only [address, hpriv, hun, ← hea, Bool.not_false, Bool.and_self, if_true]
  · have h27 : (segBit (Tab.rd 0 a.segs k) 111 && !a.priv) = false := by
      rcases hpriv with h | h <;> rw [h] <;> simp
    simp only [address, h27, ← hea, if_pos hlim, Bool.false_eq_true, if_false]
  · have h27 : (segBit (Tab.rd 0 a.segs k) 111 && !a.priv) = false := by
      rcases hpriv with h | h <;> rw [h] <;> simp
    have h20 : ¬(2 ^ 48 ≤ off ∨ segLimit (Tab.rd 0 a.segs k) < off + n - 1) := by omega
    refine ⟨fun h22 => ?_, fun h22 => ⟨fun h21 => ?_, fun h21 => ⟨fun h25 => ?_, fun h25 => ⟨fun h28 => ?_, fun h28 => ?_⟩⟩⟩⟩
    · simp only [address, h27, ← hea, if_neg h20, h22, Bool.false_eq_true, if_false, Bool.not_false, if_true]
    · simp only [address, h27, ← hea, if_neg h20, h22, Bool.false_eq_true, if_false, Bool.not_true, if_pos h21]
    · simp only [address, h27, ← hea, if_neg h20, h22, Bool.false_eq_true, if_false, Bool.not_true,
        if_neg (Nat.not_le.2 h21), if_pos h25, hsmall h21]
    · simp only [address, h27, ← hea, if_neg h20, h22, Bool.false_eq_true, if_false, Bool.not_true,
        if_neg (Nat.not_le.2 h21), if_neg (not_not.2 h25), if_pos h28, hsmall h21]
    · have hpass : address a k off n u kind = match regionOf (isSvc a.core) ea with
          | .hole _ => .error { cause := 0x26, addr := ea }
          | .mesh =>
            if meshHole ea || meshHole (ea + n - 1) then .error { cause := 0x26, addr := ea }
            else if !segBit (Tab.rd 0 a.segs k) 110 then .error { cause := 0x23, addr := ea }
            else if kind = .fetch then .error { cause := 0x29, addr := ea }
            else .ok ea
          | .view _ => if !segBit (Tab.rd 0 a.segs k) 109 then .error { cause := 0x23, addr := ea }
            else if kind = .fetch then .error { cause := 0x29, addr := ea } else .ok ea
          | .square => if kind = .fetch then .error { cause := 0x29, addr := ea } else .ok ea
          | .tcm | .virt => .ok ea := by
        simp only [address, h27, ← hea, if_neg h20, h22, Bool.false_eq_true, if_false, Bool.not_true,
          if_neg (Nat.not_le.2 h21), if_neg (not_not.2 h25), if_neg (not_not.2 h28), hsmall h21] <;> rfl
      refine ⟨fun ⟨h, hr⟩ => ?_, fun hr => ?_, fun hr => ?_, fun ⟨v, hr⟩ => ?_, fun hr hm => ?_, fun hr hm hm' => ?_⟩
      · rw [hpass, hr]
      · rcases hr with hr | hr <;> rw [hpass, hr]
      · rw [hpass, hr]
      · rw [hpass, hr]
        simp only [Bool.not_eq_true']
      · have hhole : (meshHole ea || meshHole (ea + n - 1)) = true := by rcases hm with h | h <;> simp [h]
        rw [hpass, hr]
        simp only [hhole, if_true]
      · rw [hpass, hr]
        simp only [hm, hm', Bool.or_self, Bool.false_eq_true, if_false, Bool.not_eq_true']

end

/-! ## What an access changes (R158, R168) -/

/-- What holds of the second component of a pair, read off an equation. -/
theorem of_snd {α β : Type} {P : β → Prop} {x : α × β} {a : α} {b : β} (heq : x = (a, b)) (h : P x.2) : P b := by
  rw [heq] at h
  exact h

theorem sameButTlb_refl (s : State) : s.sameButTlb s := ⟨rfl, fun _ => rfl, fun _ => rfl⟩

theorem sameButTlb_trans {s t u : State} (h : s.sameButTlb t) (h' : t.sameButTlb u) : s.sameButTlb u := by
  obtain ⟨heq, hcores, hvaults⟩ := h
  obtain ⟨heq', hcores', hvaults'⟩ := h'
  refine ⟨?_, fun c => (hcores' c).trans (hcores c), fun c => (hvaults' c).trans (hvaults c)⟩
  rw [heq', heq]

/-- An access to a location opens a row at most. -/
theorem sameButTlb_touchRow (s : State) (loc : Nat) : s.sameButTlb (s.touchRow loc) := by
  rw [State.touchRow]
  split
  case h_1 c _ _ =>
    refine ⟨rfl, fun _ => rfl, fun d => ?_⟩
    by_cases hd : d = c
    · rw [hd, vault_updVault_same]
    · rw [vault_updVault_other _ _ hd]
  case h_2 => exact sameButTlb_refl s

theorem sameButTlb_touchRows (ls : List Nat) : ∀ s : State, s.sameButTlb (ls.foldl State.touchRow s) := by
  induction ls with
  | nil => exact sameButTlb_refl
  | cons l ls ih => exact fun s => sameButTlb_trans (sameButTlb_touchRow s l) (ih _)

/-- An update of a TLB. -/
theorem sameButTlb_tlb (s : State) (c : Nat) (f : List TlbEntry → List TlbEntry) :
    s.sameButTlb (s.updCore c fun x => { x with tlb := f x.tlb }) := by
  refine ⟨rfl, fun d => ?_, fun _ => rfl⟩
  by_cases hd : d = c
  · rw [hd, core_updCore_same]
  · rw [core_updCore_other _ _ hd]

theorem sameButTlb_translate (s : State) (a : Who) (va : Nat) (kind : AKind) :
    s.sameButTlb (translate s a va kind).2 := by
  unfold Machine.translate
  split
  case h_1 => exact sameButTlb_refl s
  case h_2 =>
    dsimp only
    split
    · exact sameButTlb_touchRows _ s
    · exact sameButTlb_trans (sameButTlb_touchRows _ s) (sameButTlb_tlb _ a.core fun l => List.take Config.tlbEntries (_ :: l))

theorem sameButTlb_translateAll (a : Who) (kind : AKind) (fuel : Nat) : ∀ (s : State) (ea n : Nat),
    s.sameButTlb (translateAll a kind fuel s ea n).2 := by
  induction fuel with
  | zero => exact fun s _ _ => sameButTlb_refl s
  | succ fuel ih =>
    intro s ea n
    rw [translateAll]
    split
    · exact sameButTlb_refl s
    · dsimp only
      split <;> rename_i heq
      · exact of_snd heq (sameButTlb_translate s a ea kind)
      · have htr := of_snd heq (sameButTlb_translate s a ea kind)
        split <;> rename_i heq' <;> exact sameButTlb_trans htr (of_snd heq' (ih _ _ _))

theorem sameButTlb_ordAccess (s : State) (a : Who) (t : Word) (n u : Nat) (kind : AKind) (w32 : Bool) (lanes : Nat)
    (onView : Option Nat) : s.sameButTlb (ordAccess s a t n u kind w32 lanes onView).2 := by
  unfold ordAccess
  dsimp only
  split
  · exact sameButTlb_refl s
  · rename_i ea _
    split
    case h_5 =>
      have htr := sameButTlb_translateAll a kind 3 s ea
      split <;> rename_i heq
      · exact of_snd heq (htr _)
      · split <;> exact of_snd heq (htr _)
    case h_4 =>
      split
      · exact sameButTlb_refl s
      · split
        · exact sameButTlb_refl s
        · split <;> exact sameButTlb_refl s
    case h_6 =>
      split
      · exact sameButTlb_refl s
      · split
        · exact sameButTlb_refl s
        · split <;> exact sameButTlb_refl s
    all_goals exact sameButTlb_refl s

/-- Settles O55: one level of the walk, and what it leaves. -/
theorem translationWalk : Obligations.TranslationWalk := by
  intro s a va lvl t base e n u lanes kind ls tok w o
  refine ⟨fun h => ?_, fun h => ⟨fun hoff => ?_, fun hoff hbusy => ?_, fun hoff hbusy hp => ?_, fun hoff hbusy hp he => ?_⟩,
    sameButTlb_translate s a va kind, sameButTlb_ordAccess s a tok n u kind w lanes o⟩
  · simp only [walkFrom, h]
  · simp only [walkFrom, h, hoff, if_true]
  · simp only [walkFrom, h, hoff, hbusy, Bool.false_eq_true, if_false, if_true]
  · simp only [walkFrom, h, hoff, hbusy, hp, Bool.false_eq_true, if_false, if_true]
  · subst he
    refine ⟨fun hv => ?_, fun hv hm => ?_, fun hv hm hl => ?_, fun hv hm hl => ?_⟩
    · simp only [walkFrom, h, hoff, hbusy, hp, hv, Bool.false_eq_true, if_false, Bool.not_false, if_true]
    · simp only [walkFrom, h, hoff, hbusy, hp, hv, hm, Bool.false_eq_true, if_false, Bool.not_true, if_true]
    · simp only [walkFrom, h, hoff, hbusy, hp, hv, hm, hl, Bool.false_eq_true, if_false, Bool.not_true, if_true]
    · simp only [walkFrom, h, hoff, hbusy, hp, hv, hm, hl, Bool.false_eq_true, if_false, Bool.not_true]

end Sys2Proof.Proofs

/-! PROOFS. Loads (08, 14, 15): plain bytes of memory, and what a load fires with. -/

namespace Sys2Proof.Proofs

open Sys2Proof.Machine Sys2Proof.Laws

/-! ## What an access leaves (R158, R168) -/

section
variable {s t : State} (h : s.sameButTlb t)
include h

theorem sameButTlb_cursor : t.cursor = s.cursor := by obtain ⟨heq, -, -⟩ := h; rw [heq]

theorem sameButTlb_mem : t.mem = s.mem := by obtain ⟨heq, -, -⟩ := h; rw [heq]

theorem sameButTlb_cc : t.cc = s.cc := congrArg Cursor.core (sameButTlb_cursor h)

theorem sameButTlb_ck : t.ck = s.ck := congrArg Cursor.slot (sameButTlb_cursor h)

theorem sameButTlb_ci : t.ci = s.ci := congrArg Cursor.word (sameButTlb_cursor h)

theorem sameButTlb_slot (c k : Nat) : t.slot c k = s.slot c k := by
  obtain ⟨-, hcores, -⟩ := h
  exact congrArg (fun x : Core => Tab.rd {} x.slots k) (hcores c)

theorem sameButTlb_cur : t.cur = s.cur := by
  rw [State.cur, sameButTlb_cc h, sameButTlb_ck h, sameButTlb_slot h, State.cur]

end

/-! ## Plain bytes of memory -/

theorem leNat_map_byte (s : State) (n : Nat) : ∀ loc, leNat ((locRange loc n).map s.byte) = s.rdMem loc n := by
  induction n with
  | zero => exact fun _ => rfl
  | succ n ih =>
    intro loc
    have hrange : locRange loc (n + 1) = loc :: locRange (loc + 1) n := by
      rw [locRange, List.range_succ_eq_map, List.map_cons, List.map_map]
      refine congrArg₂ List.cons (Nat.add_zero loc) (List.map_congr_left fun i _ => ?_)
      exact (Nat.add_right_comm loc i 1).trans rfl
    rw [hrange, List.map_cons, leNat, ih]
    rfl

theorem byWord_flatten (ls : List Nat) : (byWord ls).flatten = ls := by
  induction ls with
  | nil => rfl
  | cons l ls ih =>
    rw [byWord]
    split
    case h_1 x xs gs heq =>
      rw [heq] at ih
      split
      · rw [← ih]; rfl
      · rw [← ih]; rfl
    case h_2 => rw [List.flatten_cons, ih]; rfl

section
variable {s : State} (hown : s.ownEntries s.cc s.ck = []) (hbufs : s.readBufs = [])

include hbufs in
theorem portByte_of_no_buffer (c t loc : Nat) : s.portByte c t loc = s.byte loc := by
  have hnone : s.bufFor c t loc = none := by simp [State.bufFor, hbufs]
  rw [State.portByte, hnone]
  rfl

include hown hbufs in
/-- Without pending stores and read buffers a load's words are those of memory. -/
theorem loadWords_plain (remote loop : Bool) : ∀ gs : List (List Nat), (∀ ls ∈ gs, ∀ a ∈ ls, s.mem.isPois a = false) →
    s.loadWords s.cc s.ck remote loop gs = some (gs.flatten.map fun a => (s.byte a, false))
  | [], _ => rfl
  | ls :: gs, hp => by
    have hrest := loadWords_plain remote loop gs fun l hl => hp l (List.mem_cons_of_mem _ hl)
    have hhead : (ls.map fun l => (s.portByte (s.accCore s.cc s.ck) (s.slot s.cc s.ck).tid l, s.mem.isPois l)) =
        ls.map fun a => (s.byte a, false) := List.map_congr_left fun a ha => by
      rw [portByte_of_no_buffer hbufs, hp ls List.mem_cons_self a ha]
    rw [State.loadWords, hown, seenIn]
    simp only [hrest, hhead, Option.map_some, List.flatten_cons, List.map_append]

include hown hbufs in
/-- A load that no store of its thread, pending or of its block, and no read buffer answers reads memory. -/
theorem loadBytes_plain {a : Who} {l : Nat} (haddr : s.addressedBelow a l = []) (hmine : s.cur.frame.storesBelow l = [])
    (vec loop : Bool) (ea : Nat) {ls : List Nat} (hp : ∀ x ∈ ls, s.mem.isPois x = false) :
    s.loadBytes a l vec false loop ea ls = .ok (leNat (ls.map s.byte)) := by
  have hwords : s.loadWords s.cc s.ck false loop (byWord ls) = some (ls.map fun a => (s.byte a, false)) := by
    rw [loadWords_plain hown hbufs false loop (byWord ls) fun w hw x hx =>
      hp x (byWord_flatten ls ▸ List.mem_flatten_of_mem hw hx), byWord_flatten]
  have hclean : (ls.map fun a => (s.byte a, false)).any (·.2) = false := by
    rw [List.any_map]
    exact List.any_eq_false.2 fun _ _ => Bool.false_ne_true
  have hvals : ((ls.map fun a => (s.byte a, false)).map (·.1)) = ls.map s.byte := by rw [List.map_map]; rfl
  simp only [State.loadBytes, haddr, hmine, List.any_nil, Bool.false_eq_true, if_false, List.reverse_nil, List.find?_nil,
    ite_self, hwords, overlay, loadedOf, hclean, hvals]

end

/-- Where nothing of the asynchronous path is under way, a read through a port only opens its row. -/
theorem notePort_plain {s : State} (hasync : s.async = []) {acc : Acc} (hview : acc.view = none) {loc n : Nat} (hn : 0 < n)
    (hlocs : acc.locs = locRange loc n) : s.notePort acc acc.locs = s.touchRow loc := by
  have hnote : ∀ port t x, s.noteRead port t x = s := fun port t x => by
    rw [State.noteRead, State.mapAsync, hasync]
    exact congrArg (fun a => { s with async := a }) hasync.symm
  have hfold : ∀ ls : List Nat,
      ls.foldl (fun u x => u.noteRead (some (u.accCore u.cc u.ck)) u.cur.tid x) s = s := fun ls => by
    induction ls with
    | nil => rfl
    | cons x ls ih => rw [List.foldl_cons, hnote, ih]
  obtain ⟨m, rfl⟩ : ∃ m, n = m + 1 := ⟨n - 1, by omega⟩
  have hhead : acc.locs.headD (2 ^ 39) = loc := by
    rw [hlocs, locRange, List.range_succ_eq_map, List.map_cons]
    rfl
  have hne : ¬(acc.view.isSome = true ∨ acc.locs = []) := by
    rw [hview, hlocs, locRange, List.range_succ_eq_map]
    rintro (h | h) <;> exact nomatch h
  rw [State.notePort, if_neg hne, hhead, hfold]

/-- What a load of plain bytes leaves. -/
theorem loaded_val {s : State} (hasync : s.async = []) {acc : Acc} (hview : acc.view = none) {loc n lanes l : Nat} (hn : 0 < n)
    (hlocs : acc.locs = locRange loc n) {v : Tok} (hv : (∃ x, v = .val x) ∨ ∃ x y, v = .vec x y) :
    s.loaded acc lanes l (.tok v acc.locs) = (s.touchRow loc).watch acc.ea n l true false := by
  have hspan : acc.span lanes = n := by
    rw [Acc.span, hview, hlocs, locRange]
    exact (List.length_map _).trans List.length_range
  rcases hv with ⟨x, rfl⟩ | ⟨x, y, rfl⟩ <;> rw [State.loaded, notePort_plain hasync hview hn hlocs, hspan]

theorem wBytes_pos (w : Width) : 0 < wBytes w := by cases w <;> decide

theorem wBytes_mul (w : Width) : 8 * wBytes w = wBits w := by cases w <;> rfl

theorem extend_signed (w : Width) (v : Nat) : extend (8 * wBytes w) true v = (BitVec.ofNat (wBits w) v).signExtend 64 := by
  rw [extend, if_pos rfl, sgn_eq_toInt, wordOfInt_toInt, wBytes_mul]

/-! ## Loads (R269, R314, R354-R356) -/

section
variable {s s1 u : State} {l loc : Nat} {acc : Acc} {x y z : Tok}

theorem loadOp_tok {i : Instr} {f : State → Who → Tok → Tok → LoadOut × State} {t : State} {v : Tok} {ls : List Nat}
    (hv : s.has i x y z) (hx : x.isNull = false) (hm : s.mayLoad l) (hf : f s s.me x y = (.tok v ls, t)) :
    loadOp i l f s = if v.waits then t else t.loadDone i l false v ls := by
  rw [loadOp_may hv hx hm, hf]

theorem loadOp_waits {i : Instr} {f : State → Who → Tok → Tok → LoadOut × State} {t : State} {v : Tok} {ls : List Nat}
    (hv : s.has i x y z) (hx : x.isNull = false) (hm : s.mayLoad l) (hf : f s s.me x y = (.tok v ls, t))
    (hw : v.waits = true) : loadOp i l f s = t := by
  rw [loadOp_tok hv hx hm hf, if_pos hw]

theorem loadOp_fires {i : Instr} {f : State → Who → Tok → Tok → LoadOut × State} {t : State} {v : Tok} {ls : List Nat}
    (hv : s.has i x y z) (hx : x.isNull = false) (hm : s.mayLoad l) (hf : f s s.me x y = (.tok v ls, t))
    (hw : v.waits = false) : loadOp i l f s = t.loadDone i l false v ls := by
  rw [loadOp_tok hv hx hm hf, hw, if_neg Bool.false_ne_true]

/-- An access meets plain bytes of memory: no view, a port that lets it go, no pending store of its thread or of its block,
no read buffer, no write under way, no poison. -/
def meetsMemory (s s1 : State) (l : Nat) (acc : Acc) : Prop :=
  acc.view = none ∧ s1.portSays s.me.core acc.locs = .go ∧ s1.addressedBelow s.me l = [] ∧
    s1.cur.frame.storesBelow l = [] ∧ s1.ownEntries s.cc s.ck = [] ∧ s1.readBufs = [] ∧ s1.async = [] ∧
    ∀ a ∈ acc.locs, s1.mem.isPois a = false

theorem loadAcc_plain (hsame : s.sameButTlb s1) (hmeets : meetsMemory s s1 l acc) (vec : Bool) (n lanes : Nat)
    (hlocs : acc.locs = locRange loc n) : s1.loadAcc s.me l vec acc lanes = (.ok (s1.rdMem loc n), acc.locs) := by
  obtain ⟨hview, hport, haddr, hmine, hown, hbufs, -, hp⟩ := hmeets
  rw [← sameButTlb_cc hsame, ← sameButTlb_ck hsame] at hown
  have hload : s1.loadBytes s.me l vec false acc.loop acc.ea acc.locs = .ok (s1.rdMem loc n) := by
    rw [loadBytes_plain hown hbufs haddr hmine vec acc.loop acc.ea hp, hlocs, leNat_map_byte]
  simp only [State.loadAcc, hview, hport, hload]

theorem scalarLoad_plain {w : Width} {im : Nat} (signed : Bool) (hmeets : meetsMemory s s1 l acc)
    (hlocs : acc.locs = locRange loc (wBytes w))
    (hacc : ordAccess s s.me (mTok x.w im (wBytes w)) (wBytes w) (wBytes w) .load (w == .w32) 1 none = (.ok acc, s1)) :
    scalarLoad w signed l im s s.me x y =
      (.tok (.val (extend (8 * wBytes w) signed (s1.rdMem loc (wBytes w)))) acc.locs,
        (s1.touchRow loc).watch acc.ea (wBytes w) l true false) := by
  have hsame : s.sameButTlb s1 := of_snd hacc (sameButTlb_ordAccess _ _ _ _ _ _ _ _ _)
  obtain ⟨hview, -, -, -, -, -, hasync, -⟩ := id hmeets
  simp only [scalarLoad, hacc, loadAcc_plain hsame hmeets false (wBytes w) 1 hlocs, loadOut]
  rw [loaded_val hasync hview (wBytes_pos w) hlocs (.inl ⟨_, rfl⟩)]

theorem vectorLoad_plain {w : Width} (hmeets : meetsMemory s s1 l acc) (hlocs : acc.locs = locRange loc 64)
    (hacc : ordAccess s s.me x.w 64 64 .load (w == .w32) 16 none = (.ok acc, s1)) :
    vectorLoad w l s s.me x y = (.tok (.vec (BitVec.ofNat 512 (s1.rdMem loc 64)) 0) acc.locs,
      (s1.touchRow loc).watch acc.ea 64 l true false) := by
  have hsame : s.sameButTlb s1 := of_snd hacc (sameButTlb_ordAccess _ _ _ _ _ _ _ _ _)
  obtain ⟨hview, -, -, -, -, -, hasync, -⟩ := id hmeets
  simp only [vectorLoad, hacc, loadAcc_plain hsame hmeets true 64 16 hlocs, loadOut]
  rw [loaded_val hasync hview (by decide) hlocs (.inr ⟨_, _, rfl⟩)]

end

/-- Settles O18: the loads of plain bytes meet memory, the others fire with what they obtain. -/
theorem loadResults : Obligations.LoadResults := by
  refine ⟨fun s s1 p w l im t loc acc x y z hx hm hview hport haddr hmine hown hbufs hasync hp => ⟨?scalar, ?vector⟩,
    fun s s1 p w l im t v x y z ls hx hm => ⟨?waits, fun hw => ⟨?ld, ?ldS, ?vld, ?vldg, ?vtld, fun i => ⟨loadDone_inOrder, ?replay⟩⟩⟩⟩
  case scalar =>
    intro i u hi hv hlocs hacc hu horder
    have hmeets : meetsMemory s s1 l acc := ⟨hview, hport, haddr, hmine, hown, hbufs, hasync, hp⟩
    rcases hi with rfl | rfl
    · rw [if_pos rfl, hu, ← loadDone_inOrder (hu ▸ horder)]
      exact congrArg _ (loadOp_fires hv hx hm (scalarLoad_plain false hmeets hlocs hacc) rfl)
    · rw [if_neg (fun h => nomatch h), ← extend_signed, hu, ← loadDone_inOrder (hu ▸ horder)]
      exact congrArg _ (loadOp_fires hv hx hm (scalarLoad_plain true hmeets hlocs hacc) rfl)
  case vector =>
    intro u hv hlocs hacc hu horder
    have hmeets : meetsMemory s s1 l acc := ⟨hview, hport, haddr, hmine, hown, hbufs, hasync, hp⟩
    rw [hu, ← loadDone_inOrder (hu ▸ horder)]
    exact congrArg _ (loadOp_fires hv hx hm (vectorLoad_plain hmeets hlocs hacc) rfl)
  case waits =>
    intro i hi hv hw
    rcases hi with ⟨rfl, hf⟩ | ⟨rfl, hf⟩ | ⟨rfl, hf⟩ | ⟨rfl, hf⟩ | ⟨rfl, hf⟩ <;>
      exact congrArg _ (loadOp_waits hv hx hm hf hw)
  case replay =>
    intro horder hlock
    rw [State.loadDone, if_pos]
    rw [hlock]
    simpa [State.loadInOrder] using horder
  all_goals exact fun hv hf => congrArg _ (loadOp_fires hv hx hm hf hw)

end Sys2Proof.Proofs

/-! PROOFS. Stores (08, 14, 15): what class K instructions leave for the commit of their block. -/

namespace Sys2Proof.Proofs

open Sys2Proof.Machine Sys2Proof.Laws

/-! ## Class K instructions (R274, R315-R317, R320-R326, R354, R355, R369) -/

section
variable {s t : State} {i : Instr} {l : Nat} {x y z : Tok} {e : SbEntry}

/-- A watchpoint that covers none of the accesses leaves the state as it is. -/
theorem watchAll_none {xs : List (Nat × Nat)} (h : (xs.any fun x => watchHit t t.cc x.1 x.2 false true) = false) :
    t.watchAll l xs = t := by
  have hnone : xs.find? (fun x => watchHit t t.cc x.1 x.2 false true) = none :=
    List.find?_eq_none.2 fun x hx hhit => Bool.false_ne_true (h.symm.trans (List.any_eq_true.2 ⟨x, hx, hhit⟩))
  rw [State.watchAll, hnone]

/-- A store that nothing keeps out of its block is left for the commit. -/
theorem leave_store (hfree : t.storeFree l e) : t.leave l (.ok (.store e)) = t.leaves l (.store e) := by
  obtain ⟨hgate, hover, hwatch⟩ := hfree
  have hclear : (if t.cur.frame.lock then StoreGate.clear else t.gateOf e) = .clear := by rw [hgate, ite_self]
  have hseen : (if (e.op.accesses && !t.cur.frame.lock) = true then t.watchAll l e.watched else t) = t := by
    split
    · rename_i h
      rw [(Bool.and_eq_true_iff.1 h).1, Bool.true_and] at hwatch
      exact watchAll_none hwatch
    · rfl
  simp only [State.leave, hclear, hover, ne_eq, not_true_eq_false, if_false, hseen]
  rfl

/-- A posted write that no watchpoint covers is left for the commit. -/
theorem leave_post {op : RemOp} (hwatch : watchHit t t.cc op.ea 8 false true = false) :
    t.leave l (.ok (.post op)) = t.leaves l (.post op) := by
  have hseen : (if t.cur.frame.lock then t else t.watch op.ea 8 l false true) = t := by
    rw [State.watch, hwatch, if_neg Bool.false_ne_true, ite_self]
  simp only [State.leave, hseen]
  rfl

variable {f : State → Who → Tok → Tok → Tok → Built × State}

theorem storeOp_store (hv : s.has i x y z) (hf : f s s.me x y z = (.ok (.store e), t)) (hfree : t.storeFree l e) :
    storeOp i l f s = t.leaves l (.store e) := by
  obtain ⟨-, -, -, -, -, hbuilt⟩ := storeOp_cases i l f s
  rw [hbuilt x y z _ t hv hf, leave_store hfree]

theorem storeOp_post {op : RemOp} (hv : s.has i x y z) (hf : f s s.me x y z = (.ok (.post op), t))
    (hwatch : watchHit t t.cc op.ea 8 false true = false) : storeOp i l f s = t.leaves l (.post op) := by
  obtain ⟨-, -, -, -, -, hbuilt⟩ := storeOp_cases i l f s
  rw [hbuilt x y z _ t hv hf, leave_post hwatch]

end

/-- Settles O19: each instruction builds its entry, and nothing keeps it out of its block. -/
theorem storeResults : Obligations.StoreResults := by
  refine ⟨fun s s1 p w rel c l im acc x y z e hx hy hfree => ⟨?st, fun hacc => ⟨?stf, ?feempty, ?notify⟩⟩,
    fun s s1 p w c l x y z e op hfree => ⟨?vst, ?vsts, ?binit, ?rowopen, ?rowclose, ?rst, ?rstf, ?rpost, ?semset, ?fence,
      ?fenceXp, ?fenceLoop⟩⟩
  case st =>
    intro hv hview hacc he
    have hbuilt : buildSt w rel l im s s.me x y = (.ok (.store e), s1) := by
      simp only [buildSt, hx, hy, hacc, hview, Bool.or_self, Bool.false_eq_true, if_false, he]
    have hsame : s.sameButTlb s1 := of_snd hacc (sameButTlb_ordAccess _ _ _ _ _ _ _ _ _)
    exact ⟨congrArg _ (storeOp_store hv hbuilt hfree), (sameButTlb_mem hsame :)⟩
  case stf =>
    intro hv he
    have hbuilt : buildStf l s s.me x y = (.ok (.store e), s1) := by
      simp only [buildStf, buildWord, hx, hy, hacc, Bool.or_self, Bool.false_eq_true, if_false, he]
    exact congrArg _ (storeOp_store hv hbuilt hfree)
  case feempty =>
    intro hv he
    have hbuilt : buildFeempty l s s.me x = (.ok (.store e), s1) := by
      simp only [buildFeempty, buildWord, hx, hacc, Bool.false_eq_true, if_false, he]
      rfl
    exact congrArg _ (storeOp_store hv hbuilt hfree)
  case notify =>
    intro hv he
    have hbuilt : buildNotify l c s s.me x y = (.ok (.store e), s1) := by
      simp only [buildNotify, buildWord, hx, hy, hacc, Bool.or_self, Bool.false_eq_true, if_false, he]
    exact congrArg _ (storeOp_store hv hbuilt hfree)
  case rpost => exact fun hv hbuilt hwatch => congrArg _ (storeOp_post hv hbuilt hwatch)
  case semset =>
    rintro hv hx hy rfl he
    refine congrArg _ (storeOp_store hv ?_ hfree)
    simp only [hx, hy, Bool.or_self, Bool.false_eq_true, if_false, he]
  case fence | fenceXp | fenceLoop =>
    rintro hv rfl rfl
    exact congrArg _ (storeOp_store hv rfl hfree)
  all_goals exact fun hv hbuilt => congrArg _ (storeOp_store hv hbuilt hfree)

end Sys2Proof.Proofs

/-! PROOFS. Words of the ordinary path (14): the full/empty family. -/

namespace Sys2Proof.Proofs

open Sys2Proof.Machine Sys2Proof.Laws

/-! ## What does not touch the launches -/

@[simp] theorem touchRow_dies (s : State) (loc : Nat) : (s.touchRow loc).dies = s.dies := by
  rw [State.touchRow]; split <;> rfl

@[simp] theorem touchRow_mem (s : State) (loc : Nat) : (s.touchRow loc).mem = s.mem := by
  rw [State.touchRow]; split <;> rfl

@[simp] theorem touchRow_cores (s : State) (loc : Nat) : (s.touchRow loc).cores = s.cores := by
  rw [State.touchRow]; split <;> rfl

@[simp] theorem touchRow_cursor (s : State) (loc : Nat) : (s.touchRow loc).cursor = s.cursor := by
  rw [State.touchRow]; split <;> rfl

@[simp] theorem touchRow_unack (s : State) (loc : Nat) : (s.touchRow loc).unack = s.unack := by
  rw [State.touchRow]; split <;> rfl

@[simp] theorem touchRow_cur (s : State) (loc : Nat) : (s.touchRow loc).cur = s.cur := by
  rw [State.touchRow]; split <;> rfl

@[simp] theorem watch_dies (s : State) (ea n l : Nat) (rd wr : Bool) : (s.watch ea n l rd wr).dies = s.dies := by
  rw [State.watch]; split <;> rfl

@[simp] theorem wakeWord_dies (s : State) (loc : Nat) (ks : List Nat) : (s.wakeWord loc ks).dies = s.dies := rfl

@[simp] theorem wakeLine_dies (s : State) (loc : Nat) : (s.wakeLine loc).dies = s.dies := rfl

@[simp] theorem noteRead_dies (s : State) (p : Option Nat) (t loc : Nat) : (s.noteRead p t loc).dies = s.dies := rfl

@[simp] theorem acquireWord_dies (s : State) (t loc : Nat) : (s.acquireWord t loc).dies = s.dies := rfl

@[simp] theorem releaseWord_dies (s : State) (c t : Nat) (x : Scope) (d : Bool) (loc : Nat) :
    (s.releaseWord c t x d loc).dies = s.dies := rfl

@[simp] theorem storeFull_dies (s : State) (loc : Nat) (v : Word) : (s.storeFull loc v).dies = s.dies := rfl

@[simp] theorem putBytes_dies (s : State) (loc n v : Nat) : (s.putBytes loc n v).dies = s.dies := rfl

/-! ## Operations on a word of the ordinary path (R228, R271, R273, R317, R319, R324) -/

section
variable {s s1 u : State} {t x y z v : Tok} {n onView ea loc fl : Nat} {kind : AKind}
  {f : State → Nat → Nat → Perf × State}

/-- Where no mould is recorded or replayed, an operation on a word is recorded as it stands. -/
theorem tallyBank_unrecorded (hs : s.unrecorded) (hdies : u.dies = s.dies) (at_ ident : Nat) :
    u.tallyBank (tswLid s.cur.ctx.tsw) at_ ident = some u := by
  have hentry : ∀ lid, u.entry lid = s.entry lid := fun lid => by
    simp only [State.entry, State.entryAt, State.die, hdies]
  rw [State.tallyBank]
  split
  · rfl
  · rw [State.tally]
    split
    · rfl
    · rename_i hlid
      obtain ⟨henf, hrec⟩ := hs.resolve_left hlid
      simp only [hentry, henf, hrec, State.mouldWaits, Bool.false_and, Bool.false_eq_true, if_false]

/-- The access of an operation that reaches its word. -/
theorem reaches_sameButTlb (hr : s.reaches t n kind onView ea loc s1) : s.sameButTlb s1 := by
  obtain ⟨acc, hacc, -, -, -⟩ := hr
  exact of_snd hacc (sameButTlb_ordAccess _ _ _ _ _ _ _ _ _)

/-- The release of an operation has nothing to wait for: it is none, or its scope's writes are acknowledged. -/
def releaseMet (s : State) (c k : Nat) (rel : Option Scope) : Prop := ∀ x, rel = some x → s.released c k x = true

/-- An operation on a word that its access reaches and that succeeds. -/
theorem wordPerform_done (hs : s.unrecorded) (hr : s.reaches t n kind onView ea loc s1) {rel : Option Scope}
    (hrel : releaseMet s1 s.cc s.ck rel) (hf : f s1 ea loc = (.done v fl, u)) (hdies : u.dies = s1.dies) :
    wordPerform n kind onView rel f s s.me t = (.done v fl, u.bankCount s loc) := by
  have hsame := reaches_sameButTlb hr
  have hdies' : u.dies = s.dies := by
    obtain ⟨heq, -, -⟩ := hsame
    rw [hdies, heq]
  obtain ⟨acc, hacc, hport, rfl, rfl⟩ := hr
  rw [← sameButTlb_cc hsame, ← sameButTlb_ck hsame] at hrel
  simp only [wordPerform, hacc, hport, hf, tallyBank_unrecorded hs hdies']
  cases rel with
  | none => rfl
  | some x =>
    simp only [hrel x rfl, if_true]
    rfl

/-- An operation on a word that its access reaches and that parks its thread. -/
theorem wordPerform_park (hr : s.reaches t n kind onView ea loc s1) {rel : Option Scope}
    (hrel : releaseMet s1 s.cc s.ck rel) {k a l : Nat} (hf : f s1 ea loc = (.park k a l, u)) :
    wordPerform n kind onView rel f s s.me t = (.park k a l, u) := by
  have hsame := reaches_sameButTlb hr
  obtain ⟨acc, hacc, hport, rfl, rfl⟩ := hr
  rw [← sameButTlb_cc hsame, ← sameButTlb_ck hsame] at hrel
  simp only [wordPerform, hacc, hport, hf]
  cases rel with
  | none => rfl
  | some x => simp only [hrel x rfl, if_true]

theorem releaseMet_none (s : State) (c k : Nat) : releaseMet s c k none := fun _ h => nomatch h

theorem releaseMet_some {c k : Nat} {x : Scope} (h : s.released c k x = true) : releaseMet s c k (some x) :=
  fun _ h' => Option.some.inj h' ▸ h

variable {i : Instr} {l : Nat} {force : Bool} {nulled : Tok → Bool}
  {chk : State → Who → Tok → Tok → Except FaultD (Option (Nat × Nat)) × State}

/-- A performing operation at its lock that succeeds. -/
theorem performOp_done {g : State → Who → Tok → Tok → Tok → Perf × State} (hm : s.mayPerform i force (nulled y) x y z)
    (hg : g s s.me x y z = (.done v fl, u)) : performOp i l force nulled chk g s = u.performed i l v fl := by
  rw [performOp_may hm, hg]

theorem performOp_park {g : State → Who → Tok → Tok → Tok → Perf × State} (hm : s.mayPerform i force (nulled y) x y z)
    {k a at_ : Nat} (hg : g s s.me x y z = (.park k a at_, u)) :
    performOp i l force nulled chk g s = u.parkOn k a at_ := by
  rw [performOp_may hm, hg]

/-- A synchronising read that succeeds. -/
theorem syncOp_done {g : State → Who → Tok → Tok → Perf × State} (hm : s.maySync i l force x y)
    (hg : g s s.me x y = (.done v fl, u)) : syncOp i l force g s = u.synced i v := by
  rw [syncOp_may hm, hg]

theorem syncOp_park {g : State → Who → Tok → Tok → Perf × State} (hm : s.maySync i l force x y) {k a at_ : Nat}
    (hg : g s s.me x y = (.park k a at_, u)) : syncOp i l force g s = u.parkOn k a at_ := by
  rw [syncOp_may hm, hg]

/-- A synchronising read on a word, once its thread's stores are performed. -/
theorem wordSync_done (hs : s.unrecorded) (hd : s.drained s.cc s.ck = true) (hr : s.reaches t 8 kind 0x74 ea loc s1)
    (hf : f s1 ea loc = (.done v fl, u)) (hdies : u.dies = s1.dies) :
    wordSync l kind f s s.me t = (.done v fl, (u.watch ea 8 l true false).bankCount s loc) := by
  rw [wordSync, if_pos hd]
  refine wordPerform_done hs hr (releaseMet_none _ _ _) ?_ ((watch_dies _ _ _ _ _ _).trans hdies)
  rw [watched, hf]

end

/-- Settles O21: each operation of the family at its word, which the access has reached. -/
theorem fullEmptyResults : Obligations.FullEmptyResults := by
  intro s s1 p l t ea loc x y z hs hp
  refine ⟨fun hm hr hfull => ?ldfe, fun hm hr hempty hrel => ?stef, fun hm hd hr hfull => ?ldff, fun hm hd hr => ?feprobe⟩
  case ldfe =>
    have hdo : doLdfe s1 ea loc = (.done (.val (s1.rdWord loc)) 0,
        (((s1.touchRow loc).setFull loc false).wakeWord loc [2]).acquireWord s1.cur.tid loc) := by
      simp only [doLdfe, hp, hfull, Bool.false_eq_true, if_false, Bool.not_true]
    exact congrArg _ (performOp_done hm (wordPerform_done hs hr (releaseMet_none _ _ _) hdo (by simp)))
  case stef =>
    have hdo : doStef y.w s1 ea loc = (.done (.val 0) 0,
        (((s1.touchRow loc).dropReadBufs [loc]).storeFull loc y.w).releaseWord s1.cc s1.cur.tid .die false loc) := by
      simp only [doStef, hp, hempty, Bool.false_eq_true, if_false]
    exact congrArg _ (performOp_done hm (wordPerform_done hs hr (releaseMet_some hrel) hdo
      (by simp)))
  case ldff =>
    have hdo : doLdff s1 ea loc = (.done (.val (s1.rdWord loc)) 0, (s1.touchRow loc).acquireWord s1.cur.tid loc) := by
      simp only [doLdff, hp, hfull, Bool.false_eq_true, if_false, Bool.not_true]
    exact congrArg _ (syncOp_done hm (wordSync_done hs hd hr hdo (by simp)))
  case feprobe =>
    have hdo : doFeprobe s1 ea loc = (.done (.val (truth (s1.mem.isFull loc))) 0, s1.touchRow loc) := by
      simp only [doFeprobe, hp, Bool.false_eq_true, if_false, tokBool, truth]
    exact congrArg _ (syncOp_done hm (wordSync_done hs hd hr hdo (by simp)))

end Sys2Proof.Proofs

/-! PROOFS. Atomics, barriers, semaphores (07, 14, 16). -/

namespace Sys2Proof.Proofs

open Sys2Proof.Machine Sys2Proof.Laws

/-! ## Local atomics (R319, R357) -/

theorem word_mod (n : Nat) : word (n % 2 ^ 64) = word n := by
  apply BitVec.eq_of_toNat_eq
  rw [word, word, BitVec.toNat_ofNat, BitVec.toNat_ofNat, Nat.mod_mod]

theorem word_toNat_self (x : Word) : word x.toNat = x := by
  rw [word_toNat, zext, BitVec.setWidth_eq]

theorem minS_toNat {n : Nat} (a b : BitVec n) : minS n a.toNat b.toNat = if a.sle b then a.toNat else b.toNat := by
  rw [minS, sgn_toNat, sgn_toNat, BitVec.sle_eq_decide]
  simp only [decide_eq_true_eq]

theorem min_toNat {n : Nat} (a b : BitVec n) : min a.toNat b.toNat = if a.ule b then a.toNat else b.toNat := by
  rw [BitVec.ule_eq_decide, Nat.min_def]
  simp only [decide_eq_true_eq]

/-- A choice between two words, as numbers, is that choice as words. -/
theorem word_choice (b : Prop) [Decidable b] (x y : Word) : word (if b then x.toNat else y.toNat) = if b then x else y := by
  split <;> exact word_toNat_self _

theorem amoCalc_word (o r v : Word) :
    word (amoCalc .add 64 o.toNat r.toNat v.toNat).1 = o + r ∧
    word (amoCalc .and 64 o.toNat r.toNat v.toNat).1 = o &&& r ∧
    word (amoCalc .or 64 o.toNat r.toNat v.toNat).1 = o ||| r ∧
    word (amoCalc .xor 64 o.toNat r.toNat v.toNat).1 = o ^^^ r ∧
    word (amoCalc .min 64 o.toNat r.toNat v.toNat).1 = (if o.sle r then o else r) ∧
    word (amoCalc .max 64 o.toNat r.toNat v.toNat).1 = (if o.sle r then r else o) ∧
    word (amoCalc .minn 64 o.toNat r.toNat v.toNat).1 = (if o.ule r then o else r) ∧
    word (amoCalc .maxn 64 o.toNat r.toNat v.toNat).1 = (if o.ule r then r else o) ∧
    word (amoCalc .swap 64 o.toNat r.toNat v.toNat).1 = r ∧
    word (amoCalc .cas 64 o.toNat r.toNat v.toNat).1 = (if o = r then v else o) ∧
    (∀ x, x ≠ .fadd → (amoCalc x 64 o.toNat r.toNat v.toNat).2 = 0) := by
  refine ⟨?add, ?and, ?or, ?xor, ?min, ?max, ?minn, ?maxn, word_toNat_self r, ?cas, fun x hx => ?flags⟩
  case add => rw [amoCalc, word_mod, word, BitVec.ofNat_add, BitVec.ofNat_toNat, BitVec.ofNat_toNat,
    BitVec.setWidth_eq, BitVec.setWidth_eq]
  case and => rw [amoCalc, ← BitVec.toNat_and, word_toNat_self]
  case or => rw [amoCalc, ← BitVec.toNat_or, word_toNat_self]
  case xor => rw [amoCalc, ← BitVec.toNat_xor, word_toNat_self]
  case min => rw [amoCalc, minS_toNat, word_choice]
  case max => rw [amoCalc, maxS_toNat, word_choice]
  case minn => rw [amoCalc, min_toNat, word_choice]
  case maxn =>
    have hmax : max o.toNat r.toNat = if o.ule r then r.toNat else o.toNat := max_toNat o r
    rw [amoCalc, hmax, word_choice]
  case cas =>
    have hiff : o.toNat = r.toNat ↔ o = r := BitVec.toNat_inj
    simp only [amoCalc, hiff, word_choice]
  case flags =>
    cases x with
    | fadd => exact absurd rfl hx
    | _ => rfl

theorem putBytes_word {u : State} (hu : Safe u) (loc v : Nat) :
    (∀ a, (a < loc ∨ loc + 8 ≤ a) → (u.putBytes loc 8 v).byte a = u.byte a) ∧
      (u.putBytes loc 8 v).rdWord loc = word v := by
  refine ⟨fun a ha => byte_write_outside _ _ _ _ ha, ?_⟩
  have hread : (u.mem.write loc 8 v).read loc 8 = v % 256 ^ 8 := read_write_same loc 8 v hu
  exact (congrArg word hread).trans (word_mod v)

section
variable {s s1 : State} {loc ea : Nat}

theorem doAmo_clean (o : AmoOp) (acq rel : Bool) (r p : Word) (hp : s.mem.isPois loc = false) {u u' : State}
    (hu : u = ((s.putBytes loc 8 (amoCalc o 64 (s.rdWord loc).toNat r.toNat p.toNat).1).wakeLine loc).touchRow loc)
    (hu' : u' = if acq then u.acquireWord s.cur.tid loc else u.noteRead none s.cur.tid loc) :
    doAmo o acq rel r p s ea loc = (.done (.val (s.rdWord loc)) (amoCalc o 64 (s.rdWord loc).toNat r.toNat p.toNat).2,
      if rel then u'.releaseWord s.cc s.cur.tid .die true loc else u') := by
  simp only [doAmo, State.amoAt, hp, Bool.false_eq_true, if_false]
  rw [hu', hu]

theorem lineAt_dies {o : AmoOp} {w : Width} {t old : Tok} {s2 : State} (h : s.lineAt o w loc t = some (old, s2)) :
    s2.dies = s.dies := by
  rw [State.lineAt] at h
  split at h
  · exact nomatch h
  · obtain ⟨-, rfl⟩ := Prod.mk.inj (Option.some.inj h)
    rw [touchRow_dies, wakeLine_dies]
    rfl

end

/-- Settles O22: the operation at its word or line, the frame of the write, each calculation. -/
theorem atomicResults : Obligations.AtomicResults := by
  refine ⟨fun s s1 s2 p l t ea loc o acq rel w x y z old hs => ⟨fun hm hr hp hrel => ⟨_, rfl, fun u u' hu hu' => ?amo⟩,
    fun u v hu => putBytes_word hu loc v, fun hm hr hline => ?vamo⟩, amoCalc_word⟩
  case amo =>
    have hmet : releaseMet s1 s.cc s.ck (if rel then some .die else none) := by
      cases rel with
      | false => exact releaseMet_none _ _ _
      | true => exact releaseMet_some (hrel rfl)
    have hdies : (if rel then u'.releaseWord s1.cc s1.cur.tid .die true loc else u').dies = s1.dies := by
      have hdu' : u'.dies = s1.dies := by
        rw [hu', hu]
        cases acq <;> simp
      cases rel with
      | false => exact hdu'
      | true => exact hdu'
    exact congrArg _ (performOp_done hm (wordPerform_done hs hr hmet (doAmo_clean o acq rel _ _ hp hu hu') hdies))
  case vamo =>
    have hdo : doVamo o w y s1 ea loc = (.done old 0, s2) := by rw [doVamo, hline]
    exact congrArg _ (performOp_done hm (wordPerform_done hs hr (releaseMet_none _ _ _) hdo (lineAt_dies hline)))

/-! ## Barriers (R139, R322) -/

/-- A field that has just been written. -/
theorem bits_putBits_same (x hi lo v : Nat) (h : lo ≤ hi) : bits (putBits x hi lo v) hi lo = v % 2 ^ (hi + 1 - lo) := by
  refine Nat.eq_of_testBit_eq fun i => ?_
  rw [testBit_bits, testBit_putBits _ _ _ _ _ (by omega), Nat.testBit_mod_two_pow]
  by_cases hi' : i < hi + 1 - lo
  · rw [decide_eq_true hi', if_pos ⟨by omega, by omega⟩, Nat.add_sub_cancel_left]
  · rw [decide_eq_false hi', Bool.false_and, Bool.false_and]

/-- A field apart from the one that is written. -/
theorem bits_putBits_other (x hi lo v hi' lo' : Nat) (h : lo ≤ hi) (hne : hi' < lo ∨ hi < lo') :
    bits (putBits x hi lo v) hi' lo' = bits x hi' lo' := by
  refine Nat.eq_of_testBit_eq fun i => ?_
  rw [testBit_bits, testBit_bits, testBit_putBits _ _ _ _ _ (by omega)]
  by_cases hi' : i < hi' + 1 - lo'
  · rw [decide_eq_true hi', if_neg (by omega)]
  · rw [decide_eq_false hi', Bool.false_and, Bool.false_and]

theorem bits_lt (v hi lo : Nat) : bits v hi lo < 2 ^ (hi + 1 - lo) := Nat.mod_lt _ (Nat.two_pow_pos _)

/-- FlipCheck where nothing flips. -/
theorem flipCheck_short {b : Nat} (h : (bits b 63 32 = 0 ∧ bits b 127 64 = 0) ∨ bits b 31 0 < bits b 63 32 ∨
    bits b 191 128 < bits b 127 64) : flipCheck b = (b, false) := by
  rw [flipCheck]
  exact if_neg (by omega)

/-- FlipCheck where both counts are met. -/
theorem flipCheck_met {b : Nat} (h : ¬((bits b 63 32 = 0 ∧ bits b 127 64 = 0) ∨ bits b 31 0 < bits b 63 32 ∨
    bits b 191 128 < bits b 127 64)) :
    ∃ b', flipCheck b = (b', true) ∧ bits b' 31 0 = bits b 31 0 - bits b 63 32 ∧ bits b' 63 32 = bits b 63 32 ∧
      bits b' 127 64 = bits b 127 64 ∧ bits b' 191 128 = bits b 191 128 - bits b 127 64 ∧
      bits b' 192 192 = 1 - bits b 192 192 ∧ bits b' 223 193 = bits b 223 193 ∧
      bits b' 255 224 = (bits b 255 224 + 1) % 2 ^ 32 := by
  have harra := bits_lt b 31 0
  have hcntb := bits_lt b 191 128
  refine ⟨_, by rw [flipCheck]; exact if_pos (by omega), ?_, ?_, ?_, ?_, ?_, ?_, ?_⟩
  · rw [bits_putBits_other _ _ _ _ _ _ (by omega) (by omega), bits_putBits_other _ _ _ _ _ _ (by omega) (by omega),
      bits_putBits_other _ _ _ _ _ _ (by omega) (by omega), bits_putBits_same _ _ _ _ (by omega)]
    exact Nat.mod_eq_of_lt (by omega)
  · rw [bits_putBits_other _ _ _ _ _ _ (by omega) (by omega), bits_putBits_other _ _ _ _ _ _ (by omega) (by omega),
      bits_putBits_other _ _ _ _ _ _ (by omega) (by omega), bits_putBits_other _ _ _ _ _ _ (by omega) (by omega)]
  · rw [bits_putBits_other _ _ _ _ _ _ (by omega) (by omega), bits_putBits_other _ _ _ _ _ _ (by omega) (by omega),
      bits_putBits_other _ _ _ _ _ _ (by omega) (by omega), bits_putBits_other _ _ _ _ _ _ (by omega) (by omega)]
  · rw [bits_putBits_other _ _ _ _ _ _ (by omega) (by omega), bits_putBits_other _ _ _ _ _ _ (by omega) (by omega),
      bits_putBits_same _ _ _ _ (by omega)]
    exact Nat.mod_eq_of_lt (by omega)
  · rw [bits_putBits_other _ _ _ _ _ _ (by omega) (by omega), bits_putBits_same _ _ _ _ (by omega),
      bits_putBits_other _ _ _ _ _ _ (by omega) (by omega), bits_putBits_other _ _ _ _ _ _ (by omega) (by omega)]
    exact Nat.mod_eq_of_lt (by omega)
  · rw [bits_putBits_other _ _ _ _ _ _ (by omega) (by omega), bits_putBits_other _ _ _ _ _ _ (by omega) (by omega),
      bits_putBits_other _ _ _ _ _ _ (by omega) (by omega), bits_putBits_other _ _ _ _ _ _ (by omega) (by omega)]
  · rw [bits_putBits_same _ _ _ _ (by omega), bits_putBits_other _ _ _ _ _ _ (by omega) (by omega),
      bits_putBits_other _ _ _ _ _ _ (by omega) (by omega), bits_putBits_other _ _ _ _ _ _ (by omega) (by omega)]

section
variable {s s1 : State} {t : Tok} {ea loc : Nat} {f : State → Nat → Nat → Perf × State}

/-- The access of an operation that reaches its barrier object. -/
theorem sameButTlb_barAccess (s : State) (a : Who) (t : Word) : s.sameButTlb (barAccess s a t).2 := by
  unfold barAccess
  split
  · exact sameButTlb_refl s
  · dsimp only
    split
    case h_1 =>
      split
      · exact sameButTlb_refl s
      · split <;> rename_i heq <;> exact of_snd heq (sameButTlb_translate _ _ _ _)
    case h_2 => split <;> exact sameButTlb_refl s
    all_goals exact sameButTlb_refl s

/-- An operation on a barrier object that its access reaches, and whose release has nothing to wait for. -/
theorem barPerform_reaches (hr : s.reachesObject t ea loc s1) {rel : Option Scope} (hrel : releaseMet s1 s.cc s.ck rel) :
    barPerform rel f s s.me t = f (s1.touchRow loc) ea loc := by
  obtain ⟨hacc, hoff, hbusy, hok, hp⟩ := hr
  have hsame : s.sameButTlb s1 := of_snd hacc (sameButTlb_barAccess _ _ _)
  rw [← sameButTlb_cc hsame, ← sameButTlb_ck hsame] at hrel
  simp only [barPerform, hacc, hoff, hbusy, hok, hp, Bool.false_eq_true, if_false, Bool.not_true]
  cases rel with
  | none => rfl
  | some x => simp only [hrel x rfl, if_true]

/-- A synchronising read of a barrier object, once its thread's stores are performed. -/
theorem barSync_reaches (hd : s.drained s.cc s.ck = true) (hr : s.reachesObject t ea loc s1) (l : Nat) :
    barSync l f s s.me t = watched 32 l f (s1.touchRow loc) ea loc := by
  rw [barSync, if_pos hd, barPerform_reaches hr (releaseMet_none _ _ _)]

end

@[simp] theorem touchRow_barrier (s : State) (loc at_ : Nat) : (s.touchRow loc).barrier at_ = s.barrier at_ := by
  rw [State.barrier, State.barrier, State.rdMem, State.rdMem, touchRow_mem]

@[simp] theorem touchRow_cc (s : State) (loc : Nat) : (s.touchRow loc).cc = s.cc := congrArg Cursor.core (touchRow_cursor s loc)

/-- Settles O23: each operation at its object, which the access has reached; FlipCheck by its condition. -/
theorem barrierResults : Obligations.BarrierResults := by
  refine ⟨fun s s1 p c l t ea loc x y z hr => ⟨fun hm hrel hn => ?arrive, fun hm hn => ?join, fun hm hn => ?leave,
    fun hm hd hph => ?bwait, fun hm hd => ⟨fun hph => ?btestSame, fun hph => ?btestOther⟩⟩,
    fun b _ => ⟨flipCheck_short, flipCheck_met⟩⟩
  case arrive =>
    refine congrArg _ (performOp_done hm ((barPerform_reaches hr (releaseMet_some hrel)).trans ?_))
    simp only [doArrive, touchRow_barrier, if_neg hn, touchRow_cc, touchRow_cur, tokBool, truth]
  case join =>
    refine congrArg _ (performOp_done hm ((barPerform_reaches hr (releaseMet_none _ _ _)).trans ?_))
    simp only [doJoin, touchRow_barrier, if_neg hn]
  case leave =>
    refine congrArg _ (performOp_done hm ((barPerform_reaches hr (releaseMet_none _ _ _)).trans ?_))
    simp only [doLeave, touchRow_barrier, if_neg hn]
  case bwait =>
    refine congrArg _ (syncOp_done hm (fl := 0) ((barSync_reaches hd hr l).trans ?_))
    simp only [watched, doBwait, touchRow_barrier, touchRow_cur, if_pos hph]
  case btestSame =>
    refine congrArg _ (syncOp_done hm (fl := 0) ((barSync_reaches hd hr l).trans ?_))
    simp only [watched, doBtest, touchRow_barrier, touchRow_cur, if_pos hph, tokBool, if_true]
  case btestOther =>
    refine congrArg _ (syncOp_done hm (fl := 0) ((barSync_reaches hd hr l).trans ?_))
    simp only [watched, doBtest, touchRow_barrier, touchRow_cur, if_neg hph, tokBool, Bool.false_eq_true, if_false]

/-! ## WAITA, acquire loads, semaphores (R271, R314, R324, R369) -/

section
variable {s s1 : State} {t : Tok} {ea loc : Nat}

/-- WAITA at a word that its access reaches. -/
theorem waitaAt_reaches (hr : s.reaches t 8 .load 0x74 ea loc s1) (l : Nat) (r : Word) :
    waitaAt l r s s.me t = watched 8 l (doWaita r) s1 ea loc := by
  obtain ⟨acc, hacc, hport, rfl, rfl⟩ := hr
  simp only [waitaAt, hacc, hport]

theorem doLdAcq_tok {l im : Nat} {y v : Tok} {ls : List Nat}
    (hload : scalarLoad .w64 false l im s s.me t y = (.tok v ls, s1)) (hv : v.isPoison = false) :
    doLdAcq l im s s.me t y = (.done v 0, s1.acquireWord s1.cur.tid (ls.headD 0)) := by
  rw [doLdAcq, hload]
  cases v with
  | poison d m => exact Bool.noConfusion hv
  | val _ | vec _ _ | null => rfl

end

/-- Settles O24: each operation at its word or semaphore. -/
theorem waitAndSemaphoreResults : Obligations.WaitAndSemaphoreResults := by
  intro s s1 p l im t ea loc x y z v ls
  refine ⟨fun hm hd hr hp hne => ?waita, fun hm hload hv => congrArg _ (syncOp_done hm (doLdAcq_tok hload hv)),
    fun hm hd hle => ?semwait, fun hm hrel hlt => ?semsig⟩
  case waita =>
    have hdo : (if s.drained s.cc s.ck then waitaAt l y.w s s.me x else (.wait, s)) =
        (.done (.val (s1.rdWord loc)) 0, ((s1.touchRow loc).acquireWord s1.cur.tid loc).watch ea 8 l true false) := by
      rw [if_pos hd, waitaAt_reaches hr]
      simp only [watched, doWaita, hp, hne, Bool.false_eq_true, if_false]
    exact congrArg _ (syncOp_done hm hdo)
  case semwait =>
    refine congrArg _ (syncOp_done hm (fl := 0) ?_)
    simp only [doSemwait, hd, hle, Bool.not_true, Bool.false_eq_true, if_false, if_true]
  case semsig =>
    refine congrArg _ (performOp_done hm ?_)
    simp only [doSemsig, hrel, Bool.not_true, Bool.false_eq_true, if_false]
    exact if_neg (by omega)

end Sys2Proof.Proofs

/-! PROOFS. Parking and abandoned blocks (07). -/

namespace Sys2Proof.Proofs

open Sys2Proof.Machine Sys2Proof.Laws

/-! ## Slots whose block is abandoned (R118, R121, R225) -/

/-- Two states that differ in the mesh, the ports and the cores at most. -/
def apartFromCores (s t : State) : Prop := ∃ n p cs, t = { s with net := n, ports := p, cores := cs }

theorem apartFromCores_refl (s : State) : apartFromCores s s := ⟨_, _, _, rfl⟩

theorem apartFromCores_trans {s t u : State} (h : apartFromCores s t) (h' : apartFromCores t u) : apartFromCores s u := by
  obtain ⟨_, _, _, rfl⟩ := h
  obtain ⟨_, _, _, rfl⟩ := h'
  exact ⟨_, _, _, rfl⟩

theorem apartFromCores_updSlot (s : State) (c k : Nat) (f : Slot → Slot) : apartFromCores s (s.updSlot c k f) :=
  ⟨_, _, _, rfl⟩

/-- Giving a reservation back sends on the mesh or on a port. -/
theorem unreserve_links (s : State) (c : Nat) (m : Msg) (h : Nat) :
    ∃ n p, s.unreserve c m h = { s with net := n, ports := p } := by
  rw [State.unreserve]
  split
  · exact ⟨_, _, rfl⟩
  · split
    · exact ⟨_, _, rfl⟩
    · split <;> exact ⟨_, _, rfl⟩

theorem releaseFold_links (es : Tab Pend) (f : State → Nat × Pend → State)
    (hf : ∀ s e, ∃ n p, f s e = { s with net := n, ports := p }) (s : State) :
    ∃ n p, es.foldl f s = { s with net := n, ports := p } := by
  induction es generalizing s with
  | nil => exact ⟨_, _, rfl⟩
  | cons e es ih =>
    obtain ⟨n, p, he⟩ := hf s e
    obtain ⟨n', p', hes⟩ := ih (f s e)
    exact ⟨n', p', by rw [List.foldl_cons, hes, he]⟩

theorem releaseResv_links (s : State) (c k : Nat) : ∃ n p, s.releaseResv c k = { s with net := n, ports := p } := by
  refine releaseFold_links _ _ (fun s e => ?_) s
  split
  · exact unreserve_links _ _ _ _
  · exact ⟨_, _, rfl⟩

theorem releaseResv_apart (s : State) (c k : Nat) : apartFromCores s (s.releaseResv c k) := by
  obtain ⟨n, p, h⟩ := releaseResv_links s c k
  exact ⟨n, p, s.cores, h⟩

@[simp] theorem releaseResv_slot (s : State) (c k d j : Nat) : (s.releaseResv c k).slot d j = s.slot d j := by
  obtain ⟨n, p, h⟩ := releaseResv_links s c k
  rw [h]
  rfl

theorem twinCore_ne (c : Nat) : c ≠ twinCore c := by
  rw [twinCore]
  split <;> omega

theorem abandon_apart (s : State) (c k : Nat) : apartFromCores s (s.abandon c k) := by
  rw [State.abandon]
  have h := apartFromCores_trans (releaseResv_apart s c k) (apartFromCores_updSlot _ c k Slot.noFrames)
  dsimp only
  split
  · exact apartFromCores_trans h (apartFromCores_updSlot _ _ _ _)
  · exact h

/-- Abandoning a block discards the frames of its slot. -/
@[simp] theorem abandon_slot (s : State) (c k : Nat) : (s.abandon c k).slot c k = (s.slot c k).noFrames := by
  have h : ((s.releaseResv c k).updSlot c k Slot.noFrames).slot c k = (s.slot c k).noFrames := by
    rw [slot_updSlot_same, releaseResv_slot]
  rw [State.abandon]
  dsimp only
  split
  · rw [slot_updSlot_core _ _ (twinCore_ne c), h]
  · exact h

/-- Abandoning a block of a thread that is no twin leaves every other slot. -/
theorem abandon_slot_other {s : State} {c k d j : Nat} (ht : s.twinSlot c k = none) (h : d ≠ c ∨ j ≠ k) :
    (s.abandon c k).slot d j = s.slot d j := by
  have hother : ((s.releaseResv c k).updSlot c k Slot.noFrames).slot d j = s.slot d j := by
    by_cases hd : d = c
    · subst hd
      rw [slot_updSlot_slot _ _ (h.resolve_left fun h => h rfl), releaseResv_slot]
    · rw [slot_updSlot_core _ _ hd, releaseResv_slot]
  simp only [State.abandon, ht, ite_self, hother]

/-- A thread that is no twin has no other copy. -/
theorem twinSlot_none {s : State} {c k : Nat} (h : (s.slot c k).twin = none) : s.twinSlot c k = none := by
  simp only [State.twinSlot, h, Option.isSome_none, Bool.and_false, Bool.false_and, List.find?_eq_none,
    Bool.false_eq_true, not_false_eq_true, implies_true]

theorem both_apart (s : State) (c k : Nat) (f : Slot → Slot) : apartFromCores s (s.both c k f) := by
  rw [State.both]
  split
  · exact apartFromCores_trans (apartFromCores_updSlot _ _ _ _) (apartFromCores_updSlot _ _ _ _)
  · exact apartFromCores_updSlot _ _ _ _

@[simp] theorem both_slot (s : State) (c k : Nat) (f : Slot → Slot) : (s.both c k f).slot c k = f (s.slot c k) := by
  rw [State.both]
  split
  · rw [slot_updSlot_core _ _ (twinCore_ne c), slot_updSlot_same]
  · exact slot_updSlot_same _ _ _ _

/-- Parking changes the mesh, the ports, the cores and the count of serial numbers. -/
theorem park_apart (s : State) (c k kind addr : Nat) : ∃ n p cs,
    s.park c k kind addr = { s with net := n, ports := p, cores := cs, serial := s.serial + 1 } := by
  obtain ⟨n, p, cs, h⟩ := apartFromCores_trans (abandon_apart s c k) (both_apart (s.abandon c k) c k _)
  refine ⟨n, p, cs, ?_⟩
  rw [State.park, h]
  rfl

theorem park_slot (s : State) (c k kind addr : Nat) : (s.park c k kind addr).slot c k =
    { (s.slot c k).noFrames with
      st := .park, ctx := { (s.slot c k).ctx with wait := waitOf kind addr }, parkSeq := s.serial, parkedAt := s.time } := by
  have h : (s.park c k kind addr).slot c k = ((s.abandon c k).both c k _).slot c k := rfl
  rw [h, both_slot, abandon_slot]
  rfl

/-- Where a waiter is registered (R153): at its bank, in the overflow area, or for a later wake. -/
theorem register_cases (s : State) (w : Waiter) :
    s.register w = { s with waiters := s.waiters ++ [w] } ∨
    s.register w = { s with waiters := s.waiters ++ [{ w with overflow := true }] } ∨
    s.register w = s.updCore w.core fun x => { x with retry := x.retry ++ [(s.time + 1000, w)] } := by
  rw [State.register]
  dsimp only
  split
  · exact .inl rfl
  · split
    · exact .inr (.inr rfl)
    · split
      · exact .inr (.inl rfl)
      · exact .inr (.inr rfl)

/-- A change of a core that keeps its slots keeps every slot. -/
theorem slot_updCore_slots (s : State) (c d k : Nat) {f : Core → Core} (hf : ∀ x, (f x).slots = x.slots) :
    (s.updCore c f).slot d k = s.slot d k := by
  rw [State.slot, State.slot]
  by_cases h : d = c
  · rw [h, core_updCore_same, hf]
  · rw [core_updCore_other _ _ h]

@[simp] theorem register_slot (s : State) (w : Waiter) (c k : Nat) : (s.register w).slot c k = s.slot c k := by
  obtain h | h | h := register_cases s w
  · rw [h]; rfl
  · rw [h]; rfl
  · rw [h]; exact slot_updCore_slots _ _ _ _ fun _ => rfl

@[simp] theorem register_mem (s : State) (w : Waiter) : (s.register w).mem = s.mem := by
  obtain h | h | h := register_cases s w <;> simp only [h, updCore_mem]

@[simp] theorem register_cursor (s : State) (w : Waiter) : (s.register w).cursor = s.cursor := by
  obtain h | h | h := register_cases s w <;> simp only [h, updCore_cursor]

/-! ## Where operations park (R121, R317, R322, R324, R369) -/

section
variable {s s1 : State} {t : Tok} {ea loc : Nat}

theorem doLdfe_empty (hp : s.mem.isPois loc = false) (he : s.mem.isFull loc = false) :
    doLdfe s ea loc = (.park 1 ea loc, s.touchRow loc) := by
  simp only [doLdfe, hp, he, Bool.false_eq_true, if_false, Bool.not_false, if_true]

theorem doStef_full (v : Word) (hp : s.mem.isPois loc = false) (hf : s.mem.isFull loc = true) :
    doStef v s ea loc = (.park 2 ea loc, s.touchRow loc) := by
  simp only [doStef, hp, hf, Bool.false_eq_true, if_false, if_true]

theorem doWaita_same {r : Word} (hp : s.mem.isPois loc = false) (he : s.rdWord loc = r) :
    doWaita r s ea loc = (.park 3 ea loc, s.touchRow loc) := by
  simp only [doWaita, hp, he, Bool.false_eq_true, if_false, if_true]

theorem doBwait_otherPhase (h : bits (s.barrier loc) 192 192 ≠ (tswGph s.cur.ctx.tsw).toNat) :
    doBwait s ea loc = (.park 4 ea loc, (s.readPhase loc).setGw true) := by
  simp only [doBwait, h, if_false]

/-- What a watchpoint watches does not matter where the operation parks. -/
theorem watched_park {f : State → Nat → Nat → Perf × State} {n l k a at_ : Nat} {u : State}
    (hf : f s ea loc = (.park k a at_, u)) : watched n l f s ea loc = (.park k a at_, u) := by
  rw [watched, hf]

end

/-- A thread that parks on a word or an object: its slot, memory, and where it is registered. -/
theorem parkOn_registers {s t : State} {kind addr loc : Nat} (hk : kind ≠ 5) (ht : t = s.parkOn kind addr loc) :
    t.cur.st = .park ∧ t.cur.ctx = { s.cur.ctx with wait := waitOf kind addr } ∧ t.cur.frame = {} ∧ t.cur.next = {} ∧
    t.mem = s.mem ∧
    (mkWaiter s s.cc s.ck loc kind ∈ t.waiters ∨ { mkWaiter s s.cc s.ck loc kind with overflow := true } ∈ t.waiters ∨
      (s.time + 1000, mkWaiter s s.cc s.ck loc kind) ∈ (t.core s.cc).retry) := by
  have ht' : t = (s.park s.cc s.ck kind addr).register (mkWaiter s s.cc s.ck loc kind) := by
    rw [ht, State.parkOn]
    exact if_neg hk
  obtain ⟨n, p, cs, hp⟩ := park_apart s s.cc s.ck kind addr
  have hcursor : t.cursor = s.cursor := by
    rw [ht', register_cursor, hp]
  have hcur : t.cur = (s.park s.cc s.ck kind addr).slot s.cc s.ck := by
    rw [State.cur, State.cc, State.ck, hcursor, ht', register_slot]
    rfl
  rw [hcur, park_slot]
  refine ⟨rfl, rfl, rfl, rfl, ?_, ?_⟩
  · rw [ht', register_mem, hp]
  · rw [ht']
    obtain h | h | h := register_cases (s.park s.cc s.ck kind addr) (mkWaiter s s.cc s.ck loc kind)
    · exact .inl (by rw [h]; exact List.mem_append_right _ (List.mem_singleton.2 rfl))
    · exact .inr (.inl (by rw [h]; exact List.mem_append_right _ (List.mem_singleton.2 rfl)))
    · refine .inr (.inr ?_)
      have htime : (s.park s.cc s.ck kind addr).time = s.time := by rw [hp]
      rw [h, htime]
      change _ ∈ (State.core (State.updCore _ s.cc _) s.cc).retry
      rw [core_updCore_same]
      exact List.mem_append_right _ (List.mem_singleton.2 rfl)

/-- Settles O25: each operation parks at its word, object or semaphore; what parking leaves. -/
theorem parkingRule : Obligations.ParkingRule := by
  refine ⟨fun s s1 p l t ea loc x y z => ⟨fun hm hr hp he => ?ldfe, fun hm hr hp hrel hf => ?stef,
    fun hm hd hr hp he => ?waita, fun hm hd hr hph => ?bwait, fun hm hd hlt => ?semwait⟩,
    fun s t kind addr loc hk ht => parkOn_registers hk ht⟩
  case ldfe =>
    exact congrArg _ (performOp_park hm (wordPerform_park hr (releaseMet_none _ _ _) (doLdfe_empty hp he)))
  case stef =>
    exact congrArg _ (performOp_park hm (wordPerform_park hr (releaseMet_some hrel) (doStef_full _ hp hf)))
  case waita =>
    refine congrArg _ (syncOp_park hm (k := 3) (a := ea) (at_ := loc) ?_)
    rw [if_pos hd, waitaAt_reaches hr, watched_park (doWaita_same hp he)]
  case bwait =>
    refine congrArg _ (syncOp_park hm (k := 4) (a := ea) (at_ := loc) ((barSync_reaches hd hr l).trans ?_))
    exact watched_park (doBwait_otherPhase (by rw [touchRow_barrier, touchRow_cur]; exact hph))
  case semwait =>
    refine congrArg _ (syncOp_park hm (k := 5) (a := wbits x.w 7 0) (at_ := wbits x.w 7 0) ?_)
    simp only [doSemwait, hd, Bool.not_true, Bool.false_eq_true, if_false]
    exact if_neg (by omega)

end Sys2Proof.Proofs

/-! PROOFS. Queries, exits, module reset (12, 14, 01). -/

namespace Sys2Proof.Proofs

open Sys2Proof.Machine Sys2Proof.Laws

/-! ## Queries (R332) -/

/-- A query whose inputs have arrived, of a thread that is no shadow. -/
theorem queryOp_has {i : Instr} {s u : State} {l r z : Tok} {f : State → Option (Word × State)} {v : Word}
    (hs : s.isShadow = false) (h : s.has i l r z) (hf : f s = some (v, u)) : queryOp i f s = u.fireOut i (.val v) := by
  unfold State.has at h
  simp only [queryOp, h, hs, Bool.false_eq_true, if_false, hf]

/-- Where no mould is recorded or replayed, TIME delivers the timestamp. -/
theorem timeFor_unrecorded {s : State} (hs : s.unrecorded) : s.timeFor = some (word s.time, s.countOp s.cc s.ck) := by
  have hentry : ∀ lid, (s.countOp s.cc s.ck).entry lid = s.entry lid := fun lid => rfl
  unfold State.unrecorded at hs
  rw [State.timeFor, State.tally]
  by_cases hlid : tswLid s.cur.ctx.tsw = 0
  · rw [if_neg fun h => h.1 hlid, if_pos hlid]
    rfl
  · obtain ⟨henf, hrec⟩ := hs.resolve_left hlid
    simp only [hentry, henf, hrec, State.mouldWaits, Bool.false_and, Bool.false_eq_true, and_false, if_false, hlid,
      Option.map_some]

/-- Settles O28: each query fires with its word. -/
theorem queryResults : Obligations.QueryResults :=
  fun _ _ _ _ _ _ _ hshadow hrec => ⟨fun h => congrArg _ (queryOp_has hshadow h rfl),
    fun h => congrArg _ (queryOp_has hshadow h rfl), fun h => congrArg _ (queryOp_has hshadow h (timeFor_unrecorded hrec))⟩

/-! ## Exits (R276, R334-R337) -/

section
variable {s u : State} {i : Instr} {x y z : Tok} {g : State → Word → Except FaultD ExitFired × State} {e : ExitFired}

/-- An exit whose inputs have arrived. -/
theorem exitOp_has (h : s.has i x y z) (hx : x.isNull = false) (hg : g s x.w = (.ok e, u)) :
    exitOp i g s = u.fireExit e := (exitOp_cases i g s).2.2.2 x y z e u h hx hg

/-- The first exit of a block. -/
theorem fireExit_first (h : s.cur.frame.exits = []) : s.fireExit e =
    s.updF fun f => { f.mark s.ci true with exits := [{ e with idx := s.ci }] } := by
  rw [State.fireExit, h]
  rfl

/-- A second exit of a block. -/
theorem fireExit_second (h : s.cur.frame.exits ≠ []) : s.fireExit e =
    (s.updF fun f => f.mark s.ci true).raise s.cc s.ck { cause := 0x03, index := s.ci } := by
  rw [State.fireExit]
  exact if_neg (by rw [List.isEmpty_iff]; exact h)

theorem exitOp_first {k : ExitKind} {off : Int} (hexec : exec i s = .next (exitOp i g s)) (hf : s.cur.frame.exits = [])
    (hx : x.isNull = false) (h : s.has i x y z) (hg : g s x.w = (.ok { kind := k, off := off }, s)) :
    exec i s = .next (s.updF fun f => { f.mark s.ci true with exits := [{ kind := k, off := off, idx := s.ci }] }) := by
  rw [hexec, exitOp_has h hx hg, fireExit_first hf]

/-- An exit other than MIGRATE only fires. -/
theorem exec_exit (hc : i.shape.cls = .exit) (hm : ∀ p e f, i ≠ .migrate p e f) (s : State) :
    ∃ g : State → Word → Except FaultD ExitFired × State, exec i s = .next (exitOp i g s) ∧
      ∀ v, ∃ e, g s v = (.ok e, s) := by
  cases i
  case migrate p e f => exact absurd rfl (hm p e f)
  case br | bri | call | ret | loop | trap | doneX | yieldX | breakX => exact ⟨_, rfl, fun v => ⟨_, rfl⟩⟩
  all_goals cases hc

end

/-- What MIGRATE's access leaves. -/
theorem sameButTlb_migrateOwner (s : State) (v : Word) : s.sameButTlb (migrateOwner s v).2 := by
  have hfound : ∀ (u : State) (b : Bool) (r r' : Except FaultD Nat), s.sameButTlb u →
      s.sameButTlb (if b then (r, u) else (r', u)).2 := fun u b r r' hu => by split <;> exact hu
  unfold migrateOwner
  dsimp only
  split
  · exact sameButTlb_refl s
  · split
    case h_6 =>
      split <;> rename_i heq <;> have hu := of_snd heq (sameButTlb_translate _ _ _ _)
      · exact hu
      · exact hu
      · split
        · exact hu
        · exact hfound _ _ _ _ hu
    case h_5 =>
      split
      · exact sameButTlb_refl s
      · exact hfound _ _ _ _ (sameButTlb_refl s)
    case h_4 => exact sameButTlb_refl s
    all_goals exact hfound _ _ _ _ (sameButTlb_refl s)

/-- Settles O29: each exit fires as the block's only one, a second one faults, where each goes. -/
theorem exitResults : Obligations.ExitResults := by
  refine ⟨fun s s1 p e k f o x y z hx hf => ⟨?br, ?call, ?loop, ?trap, ?doneX, ?yieldX, ?breakX, ?bri, ?ret,
    fun h ho => ?migrate⟩, fun s i x y z hc hm h hx hf => ?second, fun x f e v k code => ?goes⟩
  case br | call | loop | trap | doneX | yieldX | breakX | bri | ret =>
    exact fun h => exitOp_first rfl hf hx h rfl
  case migrate =>
    have hsame := of_snd ho (sameButTlb_migrateOwner _ _)
    have hf1 : s1.cur.frame.exits = [] := by
      rw [sameButTlb_cur hsame]
      exact hf
    refine congrArg _ ((exitOp_has h hx (u := s1) (e := { kind := .migrate o, off := off20 f }) ?_).trans (fireExit_first hf1))
    rw [ho]
  case second =>
    obtain ⟨g, hexec, hg⟩ := exec_exit hc hm s
    obtain ⟨e, he⟩ := hg x.w
    rw [hexec, exitOp_has h hx he, fireExit_second hf]
  case goes =>
    refine ⟨?_, ?_, fun h => ?_, fun h => ⟨fun hlt => ?_, fun hle => ?_⟩, fun h => ?_, fun h => ?_⟩
    · rintro (h | h | h | h) <;> simp only [exitTo, h, pcAt]
    · rintro (h | h) <;> simp only [exitTo, h]
    · simp only [exitTo, h]
      exact ⟨rfl, reg_setReg_same _ _ _, fun r hr => reg_setReg_other _ _ hr⟩
    · simp only [exitTo, h, if_pos hlt, reg_setReg_same, and_self]
    · simp only [exitTo, h, if_neg (Nat.not_lt.2 hle), reg_setReg_same, and_true]
      rfl
    · simp only [exitFault, h]
    · simp only [exitFault, h]

/-! ## Module reset (R22) -/

/-- Settles O59: every clause reads the module's reset state. -/
theorem resetState : Obligations.ResetState := by
  refine ⟨rfl, rfl, safe_reset, fun _ => rfl, fun c k => ⟨rfl, rfl, rfl, fun _ => rfl⟩, fun q => ⟨rfl, rfl, rfl, rfl, rfl⟩,
    fun d => ⟨rfl, rfl, rfl, rfl⟩, fun c => ⟨rfl, rfl, rfl, rfl⟩⟩

end Sys2Proof.Proofs

/-! PROOFS. Messages, long commands, system instructions (14, 16). -/

namespace Sys2Proof.Proofs

open Sys2Proof.Machine Sys2Proof.Laws

/-! ## Messages (R130, R132, R330, R331) -/

section
variable {s s1 : State} {i : Instr} {l kind h n : Nat} {x y z : Tok}

/-- A message without a fault, of a thread that is no shadow. -/
theorem messageOp_has (hx : x.isNull = false) (hy : y ≠ .null) (hz : z.isNull = false)
    (ha : s.cur.frame.asked.find? s.ci = none) (hs : s.isShadow = false) (hf : s.msgFault (s.msgOf kind x y z) = none)
    (h : s.has i x y z) : messageOp i l kind s =
      if kind = 3 then (s.fireWith i (.val 0) 0).updF fun f =>
        { f with pend := f.pend.put l (.message (s.msgOf kind x y z) none false) }
      else s.askResv (s.msgOf kind x y z) := by
  have hy' : (y == Tok.null) = false := beq_eq_false_iff_ne.2 hy
  unfold State.has at h
  simp only [messageOp, h, hx, hy', hz, ha, hs, hf, Bool.false_or, Bool.false_eq_true, if_false, Option.isSome_none]

/-- A core of the package is asked on the mesh. -/
theorem askResv_here {m : Msg} (h : m.dpkg = s.pkg) : s.askResv m =
    ((s.countOp s.cc s.ck).updF fun f => { f with asked := f.asked.put s.ci m.ident }).send
      (.resvReq s.cc s.ck s.cur.fseq s.ci m) := by
  rw [State.askResv, if_pos h]

/-- An answer of no launch is recorded in no mould. -/
theorem tallyAnswer_noLaunch (s : State) (c : Nat) (b : Bool) (ident : Nat) : s.tallyAnswer 0 c b ident = some s := rfl

section
variable {c k fseq idx : Nat} {q : Msg} (hp : s.packet? n = some (.resvReq c k fseq idx q))
  (hst : s.stuckAt n q.dcore = false) (hq : (s.slot c k).fseq = fseq) (hr : (s.slot c k).st = .run) (hl : q.lid = 0)
include hp hst hq hr hl

theorem reservationRequest_granted (hg : (s.dropPacket n).reserveAt q.dcore q.t = some (h, s1)) :
    exec (.reservationRequest n) s = .next (s1.atWordOf c k idx fun u => u.answered q (some h)) := by
  have hgone : ¬((s.slot c k).fseq ≠ fseq ∨ (s.slot c k).st ≠ .run) := by simp only [hq, hr, ne_eq, not_true, or_self, not_false_iff]
  refine congrArg Host.Outcome.next (?_ : _ = _)
  simp only [hp, hst, hgone, hg, hl, tallyAnswer_noLaunch, Bool.false_eq_true, if_false]

theorem reservationRequest_bounced (hg : (s.dropPacket n).reserveAt q.dcore q.t = none) :
    exec (.reservationRequest n) s = .next ((s.dropPacket n).atWordOf c k idx fun u => u.answered q none) := by
  have hgone : ¬((s.slot c k).fseq ≠ fseq ∨ (s.slot c k).st ≠ .run) := by simp only [hq, hr, ne_eq, not_true, or_self, not_false_iff]
  refine congrArg Host.Outcome.next (?_ : _ = _)
  simp only [hp, hst, hgone, hg, hl, tallyAnswer_noLaunch, Bool.false_eq_true, if_false]

end

end

/-- Settles O30: the three messages as they fire, and the destination's answer. -/
theorem messageResults : Obligations.MessageResults := by
  refine fun s s1 p l t h x y z m hx hy hz ha hs hf => ⟨fun h hm => ?send, fun i hi h hd => ?ask,
    fun n c k fseq idx q hp hst hq hr hl => ⟨reservationRequest_granted hp hst hq hr hl,
      reservationRequest_bounced hp hst hq hr hl⟩⟩
  case send =>
    subst hm
    exact congrArg _ (messageOp_has hx hy hz ha hs hf h)
  case ask =>
    obtain ⟨rfl, rfl⟩ | ⟨rfl, rfl⟩ := hi
    · exact congrArg _ ((messageOp_has hx hy hz ha hs hf h).trans (askResv_here hd))
    · exact congrArg _ ((messageOp_has hx hy hz ha hs hf h).trans (askResv_here hd))

/-! ## Long commands (R359, R362) -/

/-- A long command without a null input, of a thread that is no shadow. -/
theorem commandOp_has {s : State} {i : Instr} {eng cmd : Nat} {c : Long} {x y z : Tok}
    (hn : (x.isNull || y.isNull || z.isNull) = false) (hs : s.isShadow = false) (h : s.has i x y z) :
    commandOp i eng cmd c s = ((s.updCore s.cc fun q => { q with lastTicket := nextTicket (s.core s.cc) }).fireOut i
        (.val (word (nextTicket (s.core s.cc))))).updF fun f =>
      { f with pend := f.pend.put c.lsid (.command
        { eng := eng, cmd := cmd, slot := s.ck, ticket := nextTicket (s.core s.cc), wsem := c.wsem, wthr := c.wthr
          ssem := c.ssem, sinc := c.sinc, flags := c.flags, f := fieldsWith c x y z, tid := s.cur.tid, priv := tswPriv s.cur.ctx.tsw
          lid := tswLid s.cur.ctx.tsw, pc := s.cur.ctx.pc, index := s.ci, lsid := c.lsid }) } := by
  unfold State.has at h
  simp only [commandOp, h, hn, hs, Bool.false_eq_true, if_false]

/-- Settles O31: each long command is its engine's and its command's code. -/
theorem commandsTakeTickets : Obligations.CommandsTakeTickets := by
  intro s c x y z hn hs
  simp only [List.forall_mem_cons]
  refine ⟨?_, ?_, ?_, ?_, ?_, ?_, ?_, ?_, ?_, ?_, ?_, ?_, ?_, ?_, ?_, ?_, ?_, ?_, ?_, fun _ he => nomatch he⟩ <;>
    exact fun h => congrArg Host.Outcome.next (commandOp_has hn hs h)

/-! ## System registers (R399-R401) -/

section
variable {s s1 u : State} {i : Instr} {l loc fl : Nat} {x y z v : Tok} {acc : Acc}

/-- A system instruction at its lock that succeeds. -/
theorem sysOp_done {f : State → Who → Tok → Tok → Perf × State} (hm : s.mayPerform i true y.isNull x y z)
    (hf : f s s.me x y = (.done v fl, u)) : sysOp i l f s = u.performed i l v fl := performOp_done hm hf

/-- A system instruction at its lock that waits on. -/
theorem sysOp_wait {f : State → Who → Tok → Tok → Perf × State} (hm : s.mayPerform i true y.isNull x y z)
    (hf : f s s.me x y = (.wait, u)) : sysOp i l f s = u := by
  rw [sysOp, performOp_may hm, hf]

/-- The thread at the cursor is no shadow, so it takes nothing from a primary. -/
theorem shadowDoes_primary (g : State → Tok → Tok → State) (hs : s.isShadow = false) : shadowDoes i g s u = u := by
  unfold shadowDoes
  split
  · rw [hs, Bool.false_and, Bool.false_and]
    rfl
  · rfl

theorem mayPerform_primary {b n : Bool} (hm : s.mayPerform i b n x y z) : s.isShadow = false := hm.2.2.1

/-- An access to a 16-byte image that its port lets go. -/
theorem imagePerform_go {kind : AKind} {f : State → Nat → Nat → Perf × State}
    (hacc : ordAccess s s.me x.w 16 16 kind false 1 (some 0x24) = (.ok acc, s1))
    (hport : s1.portSays s.me.core acc.locs = .go) (hloc : acc.locs.headD 0 = loc) :
    imagePerform kind f s s.me x = f s1 acc.ea loc := by
  simp only [imagePerform, hacc, hport, hloc]

/-- SEGLD of a well-formed image, by a thread that is no twin. -/
theorem doSegld_ok {k ea : Nat} (hp : s.anyPois loc 16 = false) (hok : segOk (BitVec.ofNat 128 (s.rdMem loc 16)) = true)
    (ht : s.twinSlot s.cc s.ck = none) : doSegld k s ea loc = (.done (.val 0) 0,
      (s.touchRow loc).updF fun f => { f with segNew := f.segNew.put k (BitVec.ofNat 128 (s.rdMem loc 16)) }) := by
  simp only [doSegld, hp, hok, ht, Bool.false_eq_true, if_false, Bool.not_true]

end

/-- Settles O32: CSRs that exist and those that do not, segment images. -/
theorem systemRegisterResults : Obligations.SystemRegisterResults := by
  refine ⟨fun s s1 p l t loc acc v x y z => ⟨fun hm hd hv => ?csrrd, fun hm hv => ?csrwr,
    fun hm hacc hport hloc hp hok ht => ?segld, fun hm hacc hport hloc => ?segst⟩,
    fun s p l t x y z hv => ⟨fun hm hd => ?rdRefused, fun hm => ?wrRefused⟩⟩
  case csrrd =>
    refine congrArg _ (syncOp_done hm (fl := 0) ?_)
    simp only [doCsrrd, hd, hv, Bool.not_true, Bool.false_eq_true, if_false]
  case csrwr =>
    refine congrArg _ ((shadowDoes_primary _ (mayPerform_primary hm)).trans (sysOp_done hm ?_))
    simp only [doCsrwr, hv]
  case segld =>
    refine congrArg _ ((shadowDoes_primary _ (mayPerform_primary hm)).trans (performOp_done hm ?_))
    rw [imagePerform_go hacc hport hloc, doSegld_ok hp hok ht]
  case segst =>
    exact congrArg _ (performOp_done hm (imagePerform_go hacc hport hloc))
  case rdRefused =>
    refine congrArg _ ((syncOp_may hm).trans ?_)
    simp only [doCsrrd, hd, hv, Bool.not_true, Bool.false_eq_true, if_false]
    rfl
  case wrRefused =>
    refine congrArg _ ((shadowDoes_primary _ (mayPerform_primary hm)).trans ((performOp_may hm).trans ?_))
    simp only [doCsrwr, hv]
    rfl

/-! ## System instructions (R218, R227, R399-R404) -/

section
variable {s u : State} {c k l n : Nat} {x y z : Tok} {i : Instr}

/-- A slot command that its slot's state allows, and one that it does not. -/
theorem slotCmd_named {own : Bool} {f : State → Nat → Nat → Option State} {r : Option State} {w : Word}
    (hn : s.slotNamed x.w = some (c, k)) (ho : (!own && s.isOwn c k) = false) (hf : f s c k = r)
    (hr : (r = some u ∧ w = 0) ∨ (r = none ∧ u = s ∧ w = 1)) : slotCmd own f s s.me x y = (.done (.val w) 0, u) := by
  obtain ⟨rfl, rfl⟩ | ⟨rfl, rfl, rfl⟩ := hr
  · simp only [slotCmd, hn, ho, hf, Bool.false_eq_true, if_false]
    rfl
  · simp only [slotCmd, hn, ho, hf, Bool.false_eq_true, if_false]
    rfl

/-- Dropping translations from the TLBs of a list of cores. -/
theorem dropTlb_fold (keep : TlbEntry → Bool) (ds : List Nat) (s : State) :
    let u := ds.foldl (fun s d => s.updCore d fun y => { y with tlb := y.tlb.filter keep }) s
    u = { s with cores := u.cores } ∧ ∀ d, { u.core d with tlb := [] } = { s.core d with tlb := [] } ∧
      (d ∉ ds → u.core d = s.core d) ∧ (d ∈ ds → (u.core d).tlb = (s.core d).tlb.filter keep) := by
  induction ds generalizing s with
  | nil => exact ⟨rfl, fun d => ⟨rfl, fun _ => rfl, fun h => nomatch h⟩⟩
  | cons e es ih =>
    obtain ⟨hu, hcore⟩ := ih (s.updCore e fun y => { y with tlb := y.tlb.filter keep })
    refine ⟨hu, fun d => ?_⟩
    obtain ⟨hsame, hout, hin⟩ := hcore d
    by_cases hd : d = e
    · subst hd
      rw [core_updCore_same] at hsame hout hin
      refine ⟨hsame, fun h => absurd List.mem_cons_self h, fun _ => ?_⟩
      by_cases hes : d ∈ es
      · refine (hin hes).trans ?_
        simp only [List.filter_filter, Bool.and_self]
      · exact congrArg Core.tlb (hout hes)
    · rw [core_updCore_other _ _ hd] at hsame hout hin
      exact ⟨hsame, fun h => hout fun h' => h (List.mem_cons_of_mem _ h'),
        fun h => hin ((List.mem_cons.1 h).resolve_left hd)⟩

end

/-- Settles O33: the slot commands by their answers, TLBINV by its reach, what MARKER, TWIN and SCRUB start. -/
theorem systemInstructionResults : Obligations.SystemInstructionResults := by
  refine ⟨fun s s1 p l t c k v x y z fl hn => ⟨fun r n u hr => ⟨fun hm ho hc => ?wake, fun hm hc => ?park,
    fun hm hb ho hc => ?retire, fun hm hb hc => ?kill⟩, fun hm hd => ?ctxswap⟩,
    fun s p l t c k x y z => ⟨fun hm hlt => ?tlbinv, fun hm => ?qwave, fun hm ha hlive hact hsus hcut => ?marker,
      fun hm ha hn hlead htw hun => ?twin, fun hm ha hpass hvault => ?scrub⟩⟩
  case wake => exact congrArg _ (sysOp_done hm (slotCmd_named hn (by rw [ho]; rfl) hc hr))
  case park => exact congrArg _ (sysOp_done hm (slotCmd_named hn rfl hc hr))
  case retire =>
    refine congrArg _ (sysOp_done hm ((if_pos ?_).trans (slotCmd_named hn (by rw [ho]; rfl) hc hr)))
    exact hb
  case kill =>
    refine congrArg _ (sysOp_done hm ((if_neg ?_).trans (slotCmd_named hn rfl hc hr)))
    exact fun h => Bool.noConfusion (hb.symm.trans h)
  case ctxswap => exact congrArg _ (performOp_done hm hd)
  case tlbinv =>
    obtain ⟨hu, hcore⟩ := dropTlb_fold (fun e => !x.w.toNat.testBit 63 && !(decide (e.page ≤ wbits x.w 55 16 * 2 ^ 16) &&
      decide (wbits x.w 55 16 * 2 ^ 16 < e.page + e.size))) (reachCores s.cc (wbits x.w 62 60) (s.cores.map (·.1))) s
    refine ⟨_, hcore, hu, congrArg _ (sysOp_done hm ?_)⟩
    exact if_neg (Nat.not_le.2 hlt)
  case qwave => exact congrArg _ (sysOp_done hm rfl)
  case marker =>
    refine congrArg _ (sysOp_wait hm ?_)
    simp only [doMarker, ha, hlive, hact, hsus, hcut, Bool.not_true, Bool.false_eq_true, if_false, reduceCtorEq, or_self]
  case twin =>
    have htw' : (s.slot c k).twin.isNone = false := Option.isNone_eq_false_iff.2 (Option.isSome_iff_ne_none.2 htw)
    refine congrArg _ (sysOp_wait hm ?_)
    simp only [doTwin, ha, hn, hlead, htw', hun, Bool.not_true, Bool.false_eq_true, if_false]
  case scrub =>
    have hpass' : wbits x.w 13 12 ≠ 3 := Nat.ne_of_lt hpass
    refine congrArg _ (sysOp_wait hm ?_)
    simp only [doScrub, ha, hpass', hvault, Bool.false_eq_true, if_false, Option.isSome_none]

end Sys2Proof.Proofs

/-! PROOFS. The steps of a turnover (04). -/

namespace Sys2Proof.Proofs

open Sys2Proof.Machine Sys2Proof.Laws

/-! ## Folds over the state, ranges of memory -/

/-- A fold whose steps keep a part of the state keeps it. -/
theorem foldl_keeps {α β : Type} (part : State → β) {f : State → α → State} (h : ∀ s e, part (f s e) = part s)
    (es : List α) (s : State) : part (es.foldl f s) = part s := by
  induction es generalizing s with
  | nil => rfl
  | cons e es ih => rw [List.foldl_cons, ih, h]

/-- An entry that a choice by keys leaves out reads as the default, any other as before. -/
theorem rd_filter_key {α : Type} (d : α) (t : Tab α) (keep : Nat → Bool) (k : Nat) :
    Tab.rd d (t.filter fun e => keep e.1) k = if keep k then Tab.rd d t k else d := by
  induction t with
  | nil => rw [List.filter_nil, Tab.rd, ite_self]
  | cons e t ih =>
    obtain ⟨j, v⟩ := e
    by_cases hk : j = k
    · subst hk
      cases hj : keep j with
      | true => simp only [List.filter_cons, hj, if_true, Tab.rd]
      | false => simp only [List.filter_cons, hj, Bool.false_eq_true, if_false, ih]
    · cases hj : keep j with
      | true => simp only [List.filter_cons, hj, if_true, Tab.rd, if_neg hk, ih]
      | false => simp only [List.filter_cons, hj, Bool.false_eq_true, if_false, ih, Tab.rd, if_neg hk]

theorem byte_clear (m : Memory) (lo hi a : Nat) :
    (m.clear lo hi).byte a = if lo ≤ a ∧ a < hi then 0 else m.byte a := by
  refine (rd_filter_key 0 m.bytes (fun k => !(decide (lo ≤ k) && decide (k < hi))) a).trans ?_
  by_cases h : lo ≤ a ∧ a < hi
  · simp only [h, decide_true, Bool.and_self, Bool.not_true, Bool.false_eq_true, if_false, and_self, if_true]
  · rw [if_neg h, if_pos]
    · rfl
    · rw [Bool.not_eq_true', ← Bool.not_eq_true, Bool.and_eq_true, decide_eq_true_eq, decide_eq_true_eq]
      exact h

theorem clearMem_byte_inside (s : State) {lo hi a : Nat} (h : lo ≤ a ∧ a < hi) : (s.clearMem lo hi).byte a = 0 := by
  rw [State.byte, State.clearMem, byte_clear, if_pos h]

theorem clearMem_byte_outside (s : State) {lo hi a : Nat} (h : a < lo ∨ hi ≤ a) :
    (s.clearMem lo hi).byte a = s.byte a := by
  rw [State.byte, State.clearMem, byte_clear, if_neg (by omega), State.byte]

theorem byte_of_mem {s t : State} (h : t.mem = s.mem) (a : Nat) : t.byte a = s.byte a := by
  rw [State.byte, State.byte, h]

/-! ## The steps of a turnover (R61-R72, R112) -/

/-- Where every entry of a list of keys is changed to have a property, it has it. -/
theorem rd_foldl_upd {α : Type} (d : α) (f : α → α) {P : α → Prop} (hP : ∀ x, P (f x)) (ks : List Nat) (t : Tab α) {k : Nat}
    (h : k ∈ ks ∨ P (Tab.rd d t k)) : P (Tab.rd d (ks.foldl (fun t j => Tab.upd d t j f) t) k) := by
  induction ks generalizing t with
  | nil => exact h.resolve_left fun h => nomatch h
  | cons j ks ih =>
    refine ih _ ?_
    by_cases hj : k = j
    · subst hj
      rw [rd_upd_same]
      exact .inr (hP _)
    · rw [rd_upd_other _ _ _ hj]
      exact h.imp_left fun h => (List.mem_cons.1 h).resolve_left hj

theorem holdSvcs_svcs (s : State) (b : Bool) : (holdSvcs s b).svcs =
    (List.range 16).foldl (fun t q => Tab.upd {} t q fun x => { x with held := b }) s.svcs := by
  rw [holdSvcs]

theorem svc_holdSvcs (s : State) (b : Bool) {q : Nat} (hq : q < 16) : ((holdSvcs s b).svc q).held = b := by
  have h := rd_foldl_upd {} (fun x : Svc => { x with held := b }) (P := fun x => x.held = b) (fun _ => rfl) (List.range 16)
    s.svcs (.inl (List.mem_range.2 hq))
  rw [State.svc, holdSvcs_svcs]
  exact h

theorem retarget_squares (s : State) (sq : Nat) : ∃ q, s.retarget sq = { s with squares := q } := by
  rw [State.retarget]
  split <;> exact ⟨_, rfl⟩

theorem retargetDie_squares (s : State) (d : Nat) : ∃ q, s.retargetDie d = { s with squares := q } := by
  have hfold : ∀ (l : List Nat) (s : State), ∃ q, l.foldl (fun s i => s.retarget (d * 256 + i)) s = { s with squares := q } := by
    intro l
    induction l with
    | nil => exact fun s => ⟨_, rfl⟩
    | cons i l ih =>
      intro s
      obtain ⟨q, h⟩ := retarget_squares s (d * 256 + i)
      obtain ⟨q', h'⟩ := ih { s with squares := q }
      exact ⟨q', by rw [List.foldl_cons, h, h']⟩
  exact hfold _ s

/-- Two states that differ in the dies and the squares at most. -/
def apartFromDies (s t : State) : Prop := ∃ d q, t = { s with dies := d, squares := q }

theorem apartFromDies_trans {s t u : State} (h : apartFromDies s t) (h' : apartFromDies t u) : apartFromDies s u := by
  obtain ⟨_, _, rfl⟩ := h
  obtain ⟨_, _, rfl⟩ := h'
  exact ⟨_, _, rfl⟩

theorem hardwareControlStep_apart (s : State) (e : Nat) :
    apartFromDies s ((s.updDie e fun x => { x with hw := true }).retargetDie e) := by
  obtain ⟨q, hq⟩ := retargetDie_squares (s.updDie e fun x => { x with hw := true }) e
  exact ⟨_, q, hq⟩

/-- Hardware control begins on every die of a list, and nothing but the dies and the squares changes. -/
theorem hardwareControl_fold (ds : List Nat) (s : State) :
    apartFromDies s (ds.foldl (fun s d => (s.updDie d fun x => { x with hw := true }).retargetDie d) s) ∧
    ∀ d, d ∈ ds ∨ (s.die d).hw = true →
      ((ds.foldl (fun s d => (s.updDie d fun x => { x with hw := true }).retargetDie d) s).die d).hw = true := by
  induction ds generalizing s with
  | nil => exact ⟨⟨_, _, rfl⟩, fun d h => h.resolve_left fun h => nomatch h⟩
  | cons e ds ih =>
    rw [List.foldl_cons]
    obtain ⟨q, hq⟩ := retargetDie_squares (s.updDie e fun x => { x with hw := true }) e
    obtain ⟨hapart, hw⟩ := ih ((s.updDie e fun x => { x with hw := true }).retargetDie e)
    refine ⟨apartFromDies_trans (hardwareControlStep_apart s e) hapart, fun d h => hw d ?_⟩
    have hdie : ((s.updDie e fun x => { x with hw := true }).retargetDie e).die d =
        (s.updDie e fun x => { x with hw := true }).die d := by
      rw [hq]
      rfl
    rw [hdie]
    by_cases hd : d = e
    · subst hd
      rw [die_updDie_same]
      exact .inr rfl
    · rw [die_updDie_other _ _ hd]
      exact h.imp_left fun h => (List.mem_cons.1 h).resolve_left hd

theorem hardwareControl_apart (s : State) : apartFromDies s s.hardwareControl :=
  (hardwareControl_fold (List.range 4) s).1

theorem hardwareControl_hw (s : State) {d : Nat} (hd : d < 4) : (s.hardwareControl.die d).hw = true :=
  (hardwareControl_fold (List.range 4) s).2 d (.inl (List.mem_range.2 hd))

/-- A row that the health test fails changes the vaults and the management controller's lists. -/
theorem retireRow_keeps (s : State) (r : RowName) : (s.retireRow r).mem = s.mem ∧
    (s.retireRow r).mgmt.state = s.mgmt.state := by
  rw [State.retireRow]
  split
  · exact ⟨rfl, rfl⟩
  · split <;> exact ⟨rfl, rfl⟩

theorem failRow_keeps (s : State) (r : RowName) (b : Bool) : (s.failRow r b).mem = s.mem ∧
    (s.failRow r b).mgmt.state = s.mgmt.state := by
  rw [State.failRow]
  split
  · split
    · exact retireRow_keeps _ r
    · exact ⟨rfl, rfl⟩
  · exact retireRow_keeps _ r

theorem holdSvcs_apart (s : State) (b : Bool) : ∃ v, holdSvcs s b = { s with svcs := v } := ⟨_, rfl⟩

/-- What begins a turnover (R61-R64): the module quiesced, its service cores held, the controller's registers. -/
theorem beginTurnover_quiesced (s : State) (v : Word) : ∃ m : Mgmt, m.state = 1 ∧ m.tenant = v ∧ m.running = true ∧
    s.beginTurnover v = { holdSvcs s.quiesce true with mgmt := m } := by
  rw [State.beginTurnover]
  exact ⟨_, rfl, rfl, rfl, rfl⟩

theorem quiesce_net (s : State) : s.quiesce.net = [] := by rw [State.quiesce]

theorem svc_withMgmt (s : State) (m : Mgmt) (q : Nat) : ({ s with mgmt := m } : State).svc q = s.svc q := rfl

theorem die_withMgmt (s : State) (m : Mgmt) (d : Nat) : ({ s with mgmt := m } : State).die d = s.die d := rfl

theorem die_withMgmtSvcs (s : State) (m : Mgmt) (v : Tab Svc) (d : Nat) :
    ({ s with mgmt := m, svcs := v } : State).die d = s.die d := rfl

theorem beginTurnover_net (s : State) (v : Word) : (s.beginTurnover v).net = [] := by
  obtain ⟨m, -, -, -, hm⟩ := beginTurnover_quiesced s v
  obtain ⟨w, h⟩ := holdSvcs_apart s.quiesce true
  rw [hm, h]
  exact quiesce_net s

theorem beginTurnover_held (s : State) (v : Word) {q : Nat} (hq : q < 16) : ((s.beginTurnover v).svc q).held = true := by
  obtain ⟨m, -, -, -, hm⟩ := beginTurnover_quiesced s v
  rw [hm, svc_withMgmt]
  exact svc_holdSvcs s.quiesce true hq

/-- What verifying an image changes of the management controller: the counter (R70). -/
theorem load_counter {m m' : Mgmt} {f : FwImage} (h : m.load f = .ok m') : ∃ a r, m' = { m with arcnt := a, raises := r } := by
  rw [Mgmt.load] at h
  split at h
  · exact nomatch h
  · split at h
    · rename_i heq
      obtain rfl := Except.ok.inj h
      rw [Mgmt.roll] at heq
      split at heq
      · exact nomatch heq
      · split at heq
        · exact ⟨_, _, (Option.some.inj heq).symm⟩
        · split at heq
          · exact nomatch heq
          · exact ⟨_, _, (Option.some.inj heq).symm⟩
    · exact nomatch h

/-- An image without a valid signature is refused with 1. -/
theorem load_unsigned (m : Mgmt) {f : FwImage} (h : f.sigOk = false) : m.load f = .error 1 := by
  rw [Mgmt.load, h]
  rfl

/-- Verifying both images: the counter at the end, and the failure, 0 where both pass. -/
def verified (m : Mgmt) (sc pc : FwImage) : Mgmt × Nat :=
  match m.load sc with
  | .error n => (m, n)
  | .ok m' => match m'.load pc with
    | .error n => (m', n)
    | .ok m'' => (m'', 0)

theorem verified_counter (m : Mgmt) (sc pc : FwImage) :
    ∃ a r, (verified m sc pc).1 = { m with arcnt := a, raises := r } := by
  rw [verified]
  split
  · exact ⟨_, _, rfl⟩
  · rename_i hsc
    obtain ⟨a, r, rfl⟩ := load_counter hsc
    split
    · exact ⟨_, _, rfl⟩
    · rename_i hpc
      obtain ⟨a', r', rfl⟩ := load_counter hpc
      exact ⟨_, _, rfl⟩

/-- The management controller once the firmware step is over. -/
def loadedMgmt (m : Mgmt) (sc pc : FwImage) (time : Nat) : Mgmt :=
  { (verified m sc pc).1 with
    phase := .loaded, state := if (verified m sc pc).2 = 0 then 5 else 9, fail := (verified m sc pc).2
    fwok := (verified m sc pc).2 == 0, scfw := sc.digest, pcfw := pc.digest
    config := (verified m sc pc).1.configDue.getD (verified m sc pc).1.config, configDue := none, tend := time }

/-- The firmware step in effect. -/
theorem turnoverFirmware_effect {s u : State} (hu : u = s.hardwareControl) (hph : s.mgmt.phase = .tested)
    (hph' : u.mgmt.phase = .tested) (hst : 5 ≤ u.mgmt.state) (sc pc : FwImage) :
    ∃ v, exec (.turnoverFirmware sc pc) s = .next { u with mgmt := loadedMgmt u.mgmt sc pc u.time, svcs := v } := by
  have hexec : exec (.turnoverFirmware sc pc) s = execTurnoverFirmware sc pc s := rfl
  have heffect : execTurnoverFirmware sc pc s = .next (if (verified u.mgmt sc pc).2 = 0
      then holdSvcs { u with mgmt := loadedMgmt u.mgmt sc pc u.time } false
      else { u with mgmt := loadedMgmt u.mgmt sc pc u.time }) := by
    rw [execTurnoverFirmware, if_pos hph, ← hu, turnStep_effect _ hph' hst]
    rfl
  rw [hexec, heffect]
  split
  · obtain ⟨v, hv⟩ := holdSvcs_apart { u with mgmt := loadedMgmt u.mgmt sc pc u.time } false
    exact ⟨v, by rw [hv]⟩
  · exact ⟨u.svcs, rfl⟩

/-- What the loaded firmware's registers say (R70, R71). -/
theorem loadedMgmt_fields (m : Mgmt) (sc pc : FwImage) (time : Nat) :
    (loadedMgmt m sc pc time).config = m.configDue.getD m.config ∧
    ((loadedMgmt m sc pc time).fail = 0 → (loadedMgmt m sc pc time).state = 5) ∧
    ((loadedMgmt m sc pc time).fail ≠ 0 → (loadedMgmt m sc pc time).state = 9) ∧
    (sc.sigOk = false → (loadedMgmt m sc pc time).fail = 1 ∧ (loadedMgmt m sc pc time).fwok = false) := by
  obtain ⟨a, r, hv⟩ := verified_counter m sc pc
  refine ⟨?_, fun h => if_pos h, fun h => if_neg h, fun h => ?_⟩
  · rw [loadedMgmt, hv]
  · have hfail : (verified m sc pc).2 = 1 := by rw [verified, load_unsigned m h]
    rw [loadedMgmt, hfail]
    exact ⟨rfl, rfl⟩

/-- The rows that fail the march leave memory and STATE. -/
theorem healthRows_keep (spare : List RowName) (rows : List RowName) (again : List RowName) (s : State) :
    let t := rows.foldl (fun s r => s.failRow r (again.contains r)) (spare.foldl (fun s r => s.updVault r.core fun v =>
      { v with badSpares := v.badSpares ++ [(r.bank, r.row)] }) s)
    t.mem = s.mem ∧ t.mgmt.state = s.mgmt.state := by
  have hrows := foldl_keeps (fun t : State => (t.mem, t.mgmt.state)) (f := fun s r => s.failRow r (again.contains r))
    (fun s r => Prod.ext (failRow_keeps s r _).1 (failRow_keeps s r _).2) rows
  have hspare := foldl_keeps (fun t : State => (t.mem, t.mgmt.state)) (f := fun s (r : RowName) => s.updVault r.core fun v =>
      { v with badSpares := v.badSpares ++ [(r.bank, r.row)] }) (fun _ _ => rfl) spare s
  exact Prod.mk.inj ((hrows _).trans hspare)

/-- Settles O53: each step begins with STATE, and then has its effect. -/
theorem turnoverSteps : Obligations.TurnoverSteps := by
  intro s bad again spare sc pc lo hi serial
  refine ⟨fun h => ?cmd, ?start, ?begin, fun hph hst => ?hw,
    fun hph hst => ?scrub, fun hph hst => ?clear, fun hph hst => ?health, fun hph hst => ?firmware,
    fun hph hst => ?attest⟩
  case cmd => exact congrArg Host.Outcome.next (if_pos ⟨rfl, h⟩)
  case start =>
    obtain ⟨m, hstate, htenant, hrun, hm⟩ := beginTurnover_quiesced s serial
    refine ⟨?_, ?_, ?_, beginTurnover_net s serial, fun q hq => beginTurnover_held s serial hq⟩
    · rw [hm]; exact hstate
    · rw [hm]; exact htenant
    · rw [hm]; exact hrun
  case begin =>
    intro i ph n hi hph hst
    simp only [List.mem_cons, List.not_mem_nil, or_false, Prod.mk.injEq] at hi
    obtain ⟨rfl, rfl, rfl⟩ | ⟨rfl, rfl, rfl⟩ | ⟨rfl, rfl, rfl⟩ | ⟨rfl, rfl, rfl⟩ := hi <;>
      exact congrArg Host.Outcome.next (turnStep_begin _ hph hst)
  case hw =>
    obtain ⟨d, q, happ⟩ := hardwareControl_apart s
    have hph' : s.hardwareControl.mgmt.phase = .tested := by rw [happ]; exact hph
    have hst' : s.hardwareControl.mgmt.state < 5 := by rw [happ]; exact hst
    have hexec : exec (.turnoverFirmware sc pc) s =
        .next { s.hardwareControl with mgmt := { s.hardwareControl.mgmt with state := 5 } } := by
      have h : exec (.turnoverFirmware sc pc) s = execTurnoverFirmware sc pc s := rfl
      rw [h, execTurnoverFirmware, if_pos hph, turnStep_begin _ hph' hst']
    refine ⟨_, hexec, ?_, ?_, fun d hd => ?_⟩
    · rw [happ]
    · rw [happ]
    · rw [die_withMgmt]
      exact hardwareControl_hw s hd
  case scrub =>
    have hfold := foldl_keeps (fun t : State => (t.mem, t.mgmt.state)) (f := fun t (r : RowName) => t.updVault r.core fun v =>
      { v with candidates := v.candidates ++ [(r.bank, r.row)] }) (fun _ _ => rfl) bad (s.clearMem 0 (2 ^ 39))
    obtain ⟨hmem, hstate⟩ := Prod.mk.inj hfold
    refine ⟨_, congrArg Host.Outcome.next (turnStep_effect _ hph hst), rfl, hstate, fun a ha => ?_, fun a ha => ?_⟩
    · exact (byte_of_mem hmem a).trans (clearMem_byte_inside s ⟨Nat.zero_le a, ha⟩)
    · exact (byte_of_mem hmem a).trans (clearMem_byte_outside s (.inr ha))
  case clear =>
    refine ⟨_, congrArg Host.Outcome.next (turnStep_effect _ hph hst), rfl, rfl, rfl, rfl, rfl, fun a h1 h2 => ?_, fun a ha => ?_⟩
    · exact clearMem_byte_inside s ⟨h1, h2⟩
    · exact clearMem_byte_outside s (.inl ha)
  case health =>
    obtain ⟨hmem, hstate⟩ := healthRows_keep spare _ again
      { s.clearMem 0 (2 ^ 39) with vaults := s.vaults.map fun (n, v) => (n, { v with retired := [], candidates := [] }) }
    refine ⟨_, congrArg Host.Outcome.next (turnStep_effect _ hph hst), rfl, hstate, fun a ha => ?_, fun a ha => ?_⟩
    · exact (byte_of_mem hmem a).trans (clearMem_byte_inside s ⟨Nat.zero_le a, ha⟩)
    · exact (byte_of_mem hmem a).trans (clearMem_byte_outside s (.inr ha))
  case firmware =>
    obtain ⟨d, q, happ⟩ := hardwareControl_apart s
    have hmgmt : s.hardwareControl.mgmt = s.mgmt := by rw [happ]
    obtain ⟨v, hv⟩ := turnoverFirmware_effect rfl hph (by rw [hmgmt]; exact hph) (by rw [hmgmt]; exact hst) sc pc
    obtain ⟨hconfig, hzero, hfail, hsig⟩ := loadedMgmt_fields s.hardwareControl.mgmt sc pc s.hardwareControl.time
    refine ⟨_, hv, rfl, rfl, rfl, ?_, hzero, hfail, hsig, fun d hd => ?_⟩
    · rw [← hmgmt]
      exact hconfig
    · rw [die_withMgmtSvcs]
      exact hardwareControl_hw s hd
  case attest =>
    exact ⟨_, congrArg Host.Outcome.next (turnStep_effect _ hph hst), rfl, rfl,
      fun h => ⟨if_pos h, if_pos h⟩, fun h => ⟨if_neg h, if_neg h⟩⟩

end Sys2Proof.Proofs

/-! PROOFS. Fault records and their ring (10). -/

namespace Sys2Proof.Proofs

open Sys2Proof.Machine Sys2Proof.Laws

/-! ## The fields of a fault record (Table 10.1) -/

/-- A field of a number of 256 bits: its bits from position p on, w of them. -/
theorem extractLsb'_ofNat (n p w : Nat) (h : p + w ≤ 256) :
    (BitVec.ofNat 256 n).extractLsb' p w = BitVec.ofNat w (n / 2 ^ p) := by
  apply BitVec.eq_of_toNat_eq
  rw [BitVec.extractLsb'_toNat, BitVec.toNat_ofNat, BitVec.toNat_ofNat, Nat.shiftRight_eq_div_pow]
  have h256 : (2 : Nat) ^ 256 = 2 ^ p * 2 ^ (256 - p) := by rw [← Nat.pow_add, Nat.add_sub_cancel' (by omega)]
  have hw : (2 : Nat) ^ w ∣ 2 ^ (256 - p) := Nat.pow_dvd_pow 2 (by omega)
  rw [h256, Nat.mod_mul_right_div_self, Nat.mod_mod_of_dvd _ hw]

/-- Each field of a record is the part of the number that its width and place in Table 10.1 say. -/
theorem mkRecord_fields (detail addr pc cause lid src eng index lsid slot core time : Nat) (iv : Bool) (r : BitVec 256)
    (hr : r = mkRecord detail addr pc cause lid src eng iv index lsid slot core time) :
    r.extractLsb' 248 8 = BitVec.ofNat 8 detail ∧ r.extractLsb' 192 56 = BitVec.ofNat 56 addr ∧
    r.extractLsb' 128 56 = BitVec.ofNat 56 pc ∧ r.extractLsb' 120 8 = BitVec.ofNat 8 cause ∧
    r.extractLsb' 104 16 = BitVec.ofNat 16 lid ∧ r.extractLsb' 101 3 = BitVec.ofNat 3 src ∧
    r.extractLsb' 98 3 = BitVec.ofNat 3 eng ∧ r.getLsbD 97 = iv ∧ r.extractLsb' 90 7 = BitVec.ofNat 7 index ∧
    r.extractLsb' 85 5 = BitVec.ofNat 5 lsid ∧ r.extractLsb' 83 2 = BitVec.ofNat 2 slot ∧
    r.extractLsb' 64 13 = BitVec.ofNat 13 core ∧ r.extractLsb' 0 64 = BitVec.ofNat 64 time := by
  have hiv : iv.toNat < 2 := Bool.toNat_lt iv
  subst hr
  rw [mkRecord]
  refine ⟨?_, ?_, ?_, ?_, ?_, ?_, ?_, ?_, ?_, ?_, ?_, ?_, ?_⟩
  case refine_8 =>
    have hbit : decide (97 < 256) = true := rfl
    rw [BitVec.getLsbD_ofNat, hbit, Bool.true_and, Nat.testBit_eq_decide_div_mod_eq]
    cases iv with
    | false => exact decide_eq_false (by simp only [Bool.toNat_false]; omega)
    | true => exact decide_eq_true (by simp only [Bool.toNat_true]; omega)
  all_goals
    rw [extractLsb'_ofNat _ _ _ (by omega)]
    apply BitVec.eq_of_toNat_eq
    rw [BitVec.toNat_ofNat, BitVec.toNat_ofNat]
    omega

/-- CAUSE of a record that is made for a thread. -/
theorem recCause_threadRecord (s : State) (c k src pc : Nat) (f : FaultD) (h : f.cause < 256) :
    recCause (threadRecord s c k src pc f) = f.cause := by
  obtain ⟨-, -, -, hcause, -⟩ := mkRecord_fields 0 (if causeHasAddr f.cause then f.addr else 0) pc f.cause
    (tswLid (s.slot c k).ctx.tsw) src 0 (if f.iv then f.index else 0) (if f.iv then f.lsid else 0) k c s.time f.iv _ rfl
  have htoNat := congrArg BitVec.toNat hcause
  rw [BitVec.extractLsb'_toNat, Nat.shiftRight_eq_div_pow, BitVec.toNat_ofNat, Nat.mod_eq_of_lt h] at htoNat
  exact htoNat

/-! ## The fault ring (R206-R208) -/

theorem byte_wrWord_outside (s : State) {loc a : Nat} (v : Word) (h : a < loc ∨ loc + 8 ≤ a) :
    (s.wrWord loc v).byte a = s.byte a := byte_write_outside s.mem loc 8 v.toNat h

theorem rdWord_wrWord_other (s : State) {loc l : Nat} (v : Word) (h : l + 8 ≤ loc ∨ loc + 8 ≤ l) :
    (s.wrWord loc v).rdWord l = s.rdWord l := by
  have hread : (s.mem.write loc 8 v.toNat).read l 8 = s.mem.read l 8 := read_write_outside s.mem v.toNat h
  rw [State.rdWord, State.rdWord, ← hread]
  rfl

theorem byte_storeFull_outside (s : State) {loc a : Nat} (v : Word) (h : a < loc ∨ loc + 8 ≤ a) :
    (s.storeFull loc v).byte a = s.byte a := byte_write_outside _ _ _ _ h

theorem rdWord_storeFull {s : State} (loc : Nat) (v : Word) (h : Safe s) : (s.storeFull loc v).rdWord loc = v :=
  rdWord_wrWord loc v h

theorem rdWord_storeFull_other (s : State) {loc l : Nat} (v : Word) (h : l + 8 ≤ loc ∨ loc + 8 ≤ l) :
    (s.storeFull loc v).rdWord l = s.rdWord l := rdWord_wrWord_other s v h

theorem isFull_storeFull {s : State} (loc : Nat) (v : Word) (h : Safe s) : (s.storeFull loc v).mem.isFull loc = true := by
  have hfull : Tab.canon false (s.mem.write loc 8 v.toNat).full = true := by
    rw [write_full]
    exact (wf_iff.1 h).2.1
  exact rd_set_same (loc / 8) true hfull

theorem tcmLoc_add (c o d : Nat) : tcmLoc c (o + d) = tcmLoc c o + d := by
  unfold tcmLoc
  omega

/-- The four words of a record are written from its entry on. -/
def recordWords (s : State) (at_ : Nat) (r : BitVec 256) : State :=
  (List.range 4).foldl (fun s i => s.wrWord (at_ + 8 * i) (word (r.toNat / 2 ^ (64 * i)))) s

theorem recordWords_eq (s : State) (at_ : Nat) (r : BitVec 256) : recordWords s at_ r =
    (((s.wrWord (at_ + 8 * 0) (word (r.toNat / 2 ^ (64 * 0)))).wrWord (at_ + 8 * 1) (word (r.toNat / 2 ^ (64 * 1)))).wrWord
      (at_ + 8 * 2) (word (r.toNat / 2 ^ (64 * 2)))).wrWord (at_ + 8 * 3) (word (r.toNat / 2 ^ (64 * 3))) := rfl

theorem recordWord_eq (r : BitVec 256) (i : Nat) : word (r.toNat / 2 ^ (64 * i)) = (r >>> (64 * i)).setWidth 64 := by
  apply BitVec.eq_of_toNat_eq
  rw [word, BitVec.toNat_ofNat, BitVec.toNat_setWidth, BitVec.toNat_ushiftRight, Nat.shiftRight_eq_div_pow]

theorem safe_recordWords {s : State} (at_ : Nat) (r : BitVec 256) (h : Safe s) : Safe (recordWords s at_ r) := by
  rw [recordWords_eq]
  exact safe_wrWord _ _ (safe_wrWord _ _ (safe_wrWord _ _ (safe_wrWord _ _ h)))

theorem recordWords_word {s : State} (at_ : Nat) (r : BitVec 256) (h : Safe s) {i : Nat} (hi : i < 4) :
    (recordWords s at_ r).rdWord (at_ + 8 * i) = (r >>> (64 * i)).setWidth 64 := by
  have h1 := safe_wrWord (at_ + 8 * 0) (word (r.toNat / 2 ^ (64 * 0))) h
  have h2 := safe_wrWord (at_ + 8 * 1) (word (r.toNat / 2 ^ (64 * 1))) h1
  have h3 := safe_wrWord (at_ + 8 * 2) (word (r.toNat / 2 ^ (64 * 2))) h2
  rw [recordWords_eq, ← recordWord_eq]
  interval_cases i
  · rw [rdWord_wrWord_other _ _ (by omega), rdWord_wrWord_other _ _ (by omega), rdWord_wrWord_other _ _ (by omega),
      rdWord_wrWord _ _ h]
  · rw [rdWord_wrWord_other _ _ (by omega), rdWord_wrWord_other _ _ (by omega), rdWord_wrWord _ _ h1]
  · rw [rdWord_wrWord_other _ _ (by omega), rdWord_wrWord _ _ h2]
  · rw [rdWord_wrWord _ _ h3]

theorem recordWords_outside (s : State) {at_ a : Nat} (r : BitVec 256) (h : a < at_ ∨ at_ + 32 ≤ a) :
    (recordWords s at_ r).byte a = s.byte a := by
  rw [recordWords_eq, byte_wrWord_outside _ _ (by omega), byte_wrWord_outside _ _ (by omega),
    byte_wrWord_outside _ _ (by omega), byte_wrWord_outside _ _ (by omega)]

section
variable {s : State} {q : Nat} {r : BitVec 256}

/-- A ring with 1,024 records waiting counts one more as lost. -/
theorem ringRecord_full (h : s.rdWord (tcmLoc (4096 + q) 0x7FE0) - s.rdWord (tcmLoc (4096 + q) 0x7FE8) = 1024) :
    s.ringRecord q r = s.wrWord (tcmLoc (4096 + q) 0x7FF0) (s.rdWord (tcmLoc (4096 + q) 0x7FF0) + 1) := by
  rw [State.ringRecord]
  exact if_pos h

/-- A ring with room takes a record at FRTAIL. -/
theorem ringRecord_room (h : s.rdWord (tcmLoc (4096 + q) 0x7FE0) - s.rdWord (tcmLoc (4096 + q) 0x7FE8) ≠ 1024) :
    s.ringRecord q r = (recordWords s (tcmLoc (4096 + q)
      (0x8000 + (s.rdWord (tcmLoc (4096 + q) 0x7FE0)).toNat % 1024 * 32)) r).storeFull (tcmLoc (4096 + q) 0x7FE0)
        (s.rdWord (tcmLoc (4096 + q) 0x7FE0) + 1) := by
  rw [State.ringRecord, if_neg h]
  simp only [recordWords, tcmLoc_add]

end

/-- The launch entry of an id after a change of it. -/
theorem entry_updLaunch (s : State) (lid : Nat) (f : Entry → Entry) : (s.updLaunch lid f).entry lid = f (s.entry lid) := by
  rw [State.entry, State.updLaunch, State.updEntry, State.entryAt, die_updDie_same]
  exact rd_upd_same _ _ _ _

/-- A launch that shares its area with no other counts a record, and keeps the first cause (R97, R206). -/
theorem countFault_alone {s : State} {r : BitVec 256} (h0 : recLid r ≠ 0) (hl : s.lidLive (recLid r) = true)
    (hs : s.sharers (recLid r) = [recLid r]) (ha : (s.entry (recLid r)).lrec.abortOnFault = false) :
    s.countFault r = s.updLaunch (recLid r) fun e =>
      { e with faults := min (2 ^ 32 - 1) (e.faults + 1), cause := if e.cause = 0 then recCause r else e.cause } := by
  have hn : ¬(recLid r = 0 ∨ (!s.lidLive (recLid r)) = true) := by rw [hl]; exact fun h => h.elim h0 (fun h => nomatch h)
  have hcount : s.countFault r = s.countFor r (recLid r) := by
    rw [State.countFault, if_neg hn, hs]
    rfl
  rw [hcount, State.countFor, entry_updLaunch]
  exact if_neg (by rw [ha]; exact Bool.false_ne_true)

/-- Settles O37: the record's way to its ring, a ring with room and a full one, the fields of a record. -/
theorem faultRingRule : Obligations.FaultRingRule := by
  refine ⟨fun s q n r hn hp => ?arrives, fun s r => ⟨fun h => ?uncounted, countFault_alone⟩,
    fun s t q r tail head ring hs ht hring htail hhead => ?ring, mkRecord_fields⟩
  case arrives =>
    refine congrArg Host.Outcome.next (?_ : _ = _)
    split
    · rename_i m heq
      obtain rfl : n = m := Option.some.inj (hn.symm.trans heq)
      rw [hp]
    · rename_i heq
      exact nomatch hn.symm.trans heq
  case uncounted =>
    rw [State.countFault]
    exact if_pos (h.imp_right fun h => by rw [h]; rfl)
  case ring =>
    obtain rfl : ring = tcmLoc (4096 + q) := funext hring
    rw [htail, hhead, ht]
    refine ⟨fun hroom => ?_, fun hfull => ?_⟩
    · rw [ringRecord_room hroom]
      refine ⟨fun i hi => ?_, ?_, ?_, fun a ha hb => ?_⟩
      · rw [tcmLoc_add _ _ (8 * i), rdWord_storeFull_other _ _ (by simp only [tcmLoc]; omega), recordWords_word _ _ hs hi]
      · exact rdWord_storeFull _ _ (safe_recordWords _ _ hs)
      · exact isFull_storeFull _ _ (safe_recordWords _ _ hs)
      · rw [byte_storeFull_outside _ _ (by omega), recordWords_outside _ _ (by omega)]
    · rw [ringRecord_full hfull]
      refine ⟨rdWord_wrWord _ _ hs, rdWord_wrWord_other _ _ (by simp only [tcmLoc]; omega), fun a ha => ?_⟩
      exact byte_wrWord_outside _ _ (by omega)

end Sys2Proof.Proofs

/-! PROOFS. Faults taken and slot commands (10). -/

namespace Sys2Proof.Proofs

open Sys2Proof.Machine Sys2Proof.Laws

/-! ## Taking a fault (R118, R170, R204-R206) -/

/-- A fault that does not scrub registers: the slot that it leaves. -/
theorem takeFault_slot {s : State} {c k pc : Nat} {f : FaultD} (hf : ¬(0x60 ≤ f.cause ∧ f.cause ≤ 0x63)) :
    ∃ x : Slot, (s.takeFault c k pc f).slot c k = x ∧
      x.st = (if 0x30 ≤ f.cause ∧ f.cause ≤ 0x3F then .park else .frozen) ∧
      x.ctx = { (s.slot c k).ctx with
        pc := word pc, wait := if 0x30 ≤ f.cause ∧ f.cause ≤ 0x3F then waitOf 6 f.addr else waitOf 9 0 } ∧
      x.frame = {} ∧ x.next = {} ∧
      x.frec = threadRecord s c k (if 0x30 ≤ f.cause ∧ f.cause ≤ 0x3F then 1 else 0) pc f := by
  have hscrub : (decide (0x60 ≤ f.cause) && decide (f.cause ≤ 0x63)) = false := by
    rw [← Bool.not_eq_true, Bool.and_eq_true, decide_eq_true_eq, decide_eq_true_eq]
    exact hf
  have hpark : parksThread f.cause = true ↔ 0x30 ≤ f.cause ∧ f.cause ≤ 0x3F := by
    rw [parksThread, Bool.and_eq_true, decide_eq_true_eq, decide_eq_true_eq]
  refine ⟨_, slot_updSlot_same (s.abandon c k) c k _, ?_⟩
  simp only [hscrub, hpark, abandon_slot, Bool.false_and, Bool.false_eq_true, if_false]
  exact ⟨trivial, rfl, rfl, rfl, trivial⟩

theorem takeFault_mem (s : State) (c k pc : Nat) (f : FaultD) : (s.takeFault c k pc f).mem = s.mem := by
  obtain ⟨n, p, cs, h⟩ := abandon_apart s c k
  have hmem : (s.takeFault c k pc f).mem = (s.abandon c k).mem := rfl
  rw [hmem, h]

/-- The record of a fault that does not scrub registers goes to the ring of its quarter. -/
theorem takeFault_net {s : State} {c k pc : Nat} {f : FaultD} (hf : ¬(0x60 ≤ f.cause ∧ f.cause ≤ 0x63)) :
    Packet.fault (quarterOf c) ((s.takeFault c k pc f).slot c k).frec ∈ (s.takeFault c k pc f).net := by
  have hscrub : (decide (0x60 ≤ f.cause) && decide (f.cause ≤ 0x63)) = false := by
    rw [← Bool.not_eq_true, Bool.and_eq_true, decide_eq_true_eq, decide_eq_true_eq]
    exact hf
  have hpark : parksThread f.cause = true ↔ 0x30 ≤ f.cause ∧ f.cause ≤ 0x3F := by
    rw [parksThread, Bool.and_eq_true, decide_eq_true_eq, decide_eq_true_eq]
  obtain ⟨x, hx, -, -, -, -, hrec⟩ := takeFault_slot (s := s) (c := c) (k := k) (pc := pc) hf
  rw [hx, hrec]
  refine List.mem_append_right _ (List.mem_singleton.2 ?_)
  simp only [hscrub, hpark, Bool.false_and, Bool.false_eq_true, if_false]

/-- A copy of no pair, without a stop that waits, has not reached an end. -/
theorem atEnd_alone {x : Slot} (ht : x.twin = none) (hstop : x.stop = 0) : x.atEnd = false := by
  rw [Slot.atEnd, ht, hstop]
  rfl

/-- No stop is due at a running thread. -/
theorem stopDue_running {x : Slot} (h : x.st = .run) : x.stopDue = false := by
  rw [Slot.stopDue, h]
  rfl

/-- Settles O36: the slot and the record that a fault leaves; which fault of a block is raised, and when. -/
theorem faultEntryRule : Obligations.FaultEntryRule := by
  refine ⟨fun s t c k pc f hf ht => ?taken, fun s c k d hk hrun ht hexec hstop hlow hmig => ⟨fun hstay hcomp hown => ?commit,
    fun hready => ?timeout⟩, fun s c k hk hrun ht hstop hexec hready hnone => ?progress⟩
  case taken =>
    obtain ⟨x, hx, hst, hctx, hframe, hnext, hrec⟩ := takeFault_slot (s := s) (c := c) (k := k) (pc := pc) hf
    have hnet := takeFault_net (s := s) (c := c) (k := k) (pc := pc) hf
    rw [ht]
    rw [hx] at hnet ⊢
    exact ⟨hst, hctx, hframe, hnext, takeFault_mem _ _ _ _ _, hrec, hnet⟩
  case commit =>
    have hnone : (if (s.slot c k).frame.lock then [] else s.ownFaults c k (s.slot c k).frame) = [] := by rw [hown, ite_self]
    have hgo : ¬((s.slot c k).st ≠ .run ∨ ((s.slot c k).frame.st ≠ .exec ∧ (s.slot c k).frame.st ≠ .commit) ∨
        (s.slot c k).atEnd = true ∨ (!(s.slot c k).frame.complete) = true ∨
        (s.stays c k = true ∧ (s.slot c k).frame.st = .exec)) := by
      simp only [hrun, hexec, atEnd_alone ht hstop, hcomp, hstay, ne_eq, not_true, false_and, or_self, Bool.false_eq_true,
        Bool.not_true, not_false_iff]
    refine congrArg Host.Outcome.next (?_ : _ = _)
    rw [Nat.mod_eq_of_lt hk]
    simp only [stopDue_running hrun, Bool.false_eq_true, if_false, hgo, hnone, List.append_nil, hlow]
    exact raise_alone ht hmig
  case timeout =>
    refine congrArg Host.Outcome.next (?_ : _ = _)
    rw [Nat.mod_eq_of_lt hk]
    simp only [hrun, hexec, hready, atEnd_alone ht hstop, Bool.not_false, and_self, if_true, hlow]
    exact raise_alone ht hmig
  case progress =>
    refine congrArg Host.Outcome.next (?_ : _ = _)
    rw [Nat.mod_eq_of_lt hk]
    simp only [hrun, hexec, hready, hnone, atEnd_alone ht hstop, Bool.not_false, and_self, if_true]
    exact raise_alone ht rfl

/-! ## Slot commands (R213, Table 10.8) -/

@[simp] theorem askExit_slot (s : State) (e c k : Nat) : (s.askExit e).slot c k = s.slot c k := by
  rw [State.askExit]
  split <;> rfl

@[simp] theorem askExit_mem (s : State) (e : Nat) : (s.askExit e).mem = s.mem := by
  rw [State.askExit]
  split <;> rfl

@[simp] theorem dropWaiters_slot (s : State) (c k d j : Nat) : (s.dropWaiters c k).slot d j = s.slot d j :=
  slot_updCore_slots _ _ _ _ fun _ => rfl

theorem dropWaiters_mem (s : State) (c k : Nat) : (s.dropWaiters c k).mem = s.mem := rfl

theorem apartFromCores_mem {s t : State} (h : apartFromCores s t) : t.mem = s.mem := by
  obtain ⟨_, _, _, rfl⟩ := h
  rfl

/-- A thread that is no shadow is acted on where it is named. -/
theorem leadSlot_alone {s : State} {c k : Nat} (h : tswShadow (s.slot c k).ctx.tsw = false) : s.leadSlot c k = (c, k) := by
  rw [State.leadSlot, h]
  rfl

theorem uncompared_alone {x : Slot} (h : x.twin = none) : x.uncompared = false := by
  rw [Slot.uncompared, h]

/-- What makeRunnable does to a slot. -/
def runnableAgain (x : Slot) : Slot :=
  if waitHt x.ctx.wait then { x with st := .park, ctx := { x.ctx with wait := word (2 ^ 59) } }
  else { x with st := .run, frame := {}, next := {}, spilling := false, ctx := { x.ctx with wait := 0 } }

theorem makeRunnable_slot (s : State) (c k : Nat) : (s.makeRunnable c k).slot c k = runnableAgain (s.slot c k) :=
  both_slot s c k runnableAgain

theorem makeRunnable_apart (s : State) (c k : Nat) : apartFromCores s (s.makeRunnable c k) := both_apart s c k _

/-- What RESUME notes of a slot before its thread runs again (R214, R227). -/
def resumeMarks (x : Slot) : Slot :=
  { x with
    skipBrk := x.st == .frozen && x.frozenBy == 0xD1
    twin := x.twin.map fun t => if x.frozenBy = 0xC0 then { t with mism := 0 } else t }

theorem resumeSlot_slot (s : State) (c k : Nat) :
    (s.resumeSlot c k).slot c k = runnableAgain (resumeMarks (s.slot c k)) := by
  have h : s.resumeSlot c k = (s.both c k resumeMarks).makeRunnable c k := rfl
  rw [h, makeRunnable_slot, both_slot]

theorem resumeSlot_apart (s : State) (c k : Nat) : apartFromCores s (s.resumeSlot c k) :=
  apartFromCores_trans (both_apart s c k resumeMarks) (makeRunnable_apart _ c k)

/-- A slot that runs again: its context but for WAIT is as before; under HT it stays parked. -/
theorem runnableAgain_marks (x : Slot) :
    (waitHt x.ctx.wait = false → (runnableAgain (resumeMarks x)).st = .run ∧ (runnableAgain (resumeMarks x)).frame = {} ∧
      (runnableAgain (resumeMarks x)).ctx = { x.ctx with wait := 0 }) ∧
    (waitHt x.ctx.wait = true → (runnableAgain (resumeMarks x)).st = .park ∧
      (runnableAgain (resumeMarks x)).ctx = { x.ctx with wait := word (2 ^ 59) }) := by
  have hwait : (resumeMarks x).ctx.wait = x.ctx.wait := rfl
  refine ⟨fun h => ?_, fun h => ?_⟩
  · rw [runnableAgain, hwait, h]
    exact ⟨rfl, rfl, rfl⟩
  · rw [runnableAgain, hwait, h]
    exact ⟨rfl, rfl⟩

theorem freezeFor_slot (s : State) (c k pc : Nat) (f : FaultD) : (s.freezeFor c k pc f).slot c k =
    { (s.slot c k).noFrames with
      st := .frozen
      ctx := { (s.slot c k).ctx with pc := word pc, wait := keepHt (s.slot c k).ctx.wait (waitOf 9 0) }
      frec := threadRecord s c k 0 pc f, frozenBy := f.cause, stop := 0, htStop := false, stepping := false
      spilling := false } := by
  have h : (s.freezeFor c k pc f).slot c k = (((s.abandon c k).dropWaiters c k).both c k fun x =>
    { x with st := .frozen, ctx := { x.ctx with pc := word pc, wait := keepHt x.ctx.wait (waitOf 9 0) }
             frec := threadRecord s c k 0 pc f, frozenBy := f.cause, stop := 0, htStop := false, stepping := false
             spilling := false }).slot c k := rfl
  rw [h, both_slot, dropWaiters_slot, abandon_slot]
  rfl

theorem freezeFor_mem (s : State) (c k pc : Nat) (f : FaultD) : (s.freezeFor c k pc f).mem = s.mem := by
  have h : (s.freezeFor c k pc f).mem = (((s.abandon c k).dropWaiters c k).both c k _).mem := rfl
  rw [h, apartFromCores_mem (both_apart _ _ _ _), dropWaiters_mem, apartFromCores_mem (abandon_apart _ _ _)]

/-- The states RESUME is allowed in (Table 10.8). -/
theorem mayResume_eq (x : Slot) : mayResume x = decide (x.st = .frozen ∨ x.st = .park ∧
    (waitKind x.ctx.wait = 6 ∨ waitKind x.ctx.wait = 8)) := by
  rw [Bool.eq_iff_iff, decide_eq_true_eq, mayResume, Bool.or_eq_true, Bool.and_eq_true, Bool.or_eq_true, beq_iff_eq,
    beq_iff_eq, beq_iff_eq, beq_iff_eq]

section
variable {s : State} {c k : Nat} (hsh : tswShadow (s.slot c k).ctx.tsw = false)
include hsh

theorem cmdResume_allowed (h : mayResume (s.slot c k) = true) : s.cmdResume c k = some (s.resumeSlot c k) := by
  simp only [State.cmdResume, leadSlot_alone hsh, h, if_true]

theorem cmdResume_refused (h : mayResume (s.slot c k) = false) : s.cmdResume c k = none := by
  simp only [State.cmdResume, leadSlot_alone hsh, h, Bool.false_eq_true, if_false]

theorem cmdStep_eq : s.cmdStep c k = if (s.slot c k).st = .frozen then
    some ((s.resumeSlot c k).both c k fun x => { x with stepping := true }) else none := by
  simp only [State.cmdStep, leadSlot_alone hsh, beq_iff_eq]

theorem cmdFreeze_eq : s.cmdFreeze c k = if (s.slot c k).st = .run ∨ (s.slot c k).st = .park then
    some (s.doFreeze c k) else none := by
  simp only [State.cmdFreeze, leadSlot_alone hsh, Bool.or_eq_true, beq_iff_eq]

theorem cmdRetire_eq : s.cmdRetire c k = if (s.slot c k).st = .frozen ∨ (s.slot c k).st = .park ∧
    waitKind (s.slot c k).ctx.wait = 6 then some (s.endThread c k true) else none := by
  simp only [State.cmdRetire, leadSlot_alone hsh, Bool.or_eq_true, Bool.and_eq_true, beq_iff_eq]

theorem cmdKill_eq : s.cmdKill c k = if (s.slot c k).st = .free ∨ (s.slot c k).st = .out then none
    else some (s.doKill c k) := by
  simp only [State.cmdKill, leadSlot_alone hsh, Bool.or_eq_true, beq_iff_eq]

end

section
variable {s : State} {c k : Nat} (hc : (s.slot c k).committing = false) (ht : (s.slot c k).twin = none)
include hc ht

theorem doFreeze_now : s.doFreeze c k = s.freezeWith c k 0xD4 (s.slot c k).ctx.pc.toNat := by
  simp only [State.doFreeze, hc, uncompared_alone ht, Bool.or_self, Bool.false_eq_true, if_false]

theorem doKill_now : s.doKill c k = s.endThread c k false := by
  simp only [State.doKill, hc, uncompared_alone ht, Bool.or_self, Bool.false_eq_true, if_false]

end

/-- Settles O38: each command where the slot's state allows it, and where it does not. -/
theorem slotCommandResults : Obligations.SlotCommandResults := by
  intro s c k hk ht hsh hc
  have hmod : k % 4 = k := Nat.mod_eq_of_lt hk
  have hexec : ∀ (i : Instr) (g : State → Nat → Nat → Option State),
      exec i s = .next ((orSame s (g s c (k % 4))).askExit c) → ∀ r, g s c k = r →
        exec i s = .next ((r.getD s).askExit c) := by
    intro i g h r hr
    rw [h, hmod, hr, orSame]
  have hresume := hexec (.scmdResume c k) State.cmdResume rfl
  have hstep := hexec (.step c k) State.cmdStep rfl
  have hfreeze := hexec (.freeze c k) State.cmdFreeze rfl
  have hretire := hexec (.retire c k) State.cmdRetire rfl
  have hkill := hexec (.kill c k) State.cmdKill rfl
  refine ⟨fun b i hi => ?again, mayResume_eq _, fun h => hresume _ (cmdResume_refused hsh h), fun h => ?frozen, fun hr hp => ?stays,
    fun h => hstep _ ((cmdStep_eq hsh).trans (if_neg h)), fun h => hretire _ ((cmdRetire_eq hsh).trans (if_pos h)),
    fun hf hp => hretire _ ((cmdRetire_eq hsh).trans (if_neg ?retired)), fun hf ho => hkill (some (s.endThread c k false)) ?killed,
    fun h => hkill _ ((cmdKill_eq hsh).trans (if_pos h))⟩
  case again =>
    obtain ⟨hrun, hpark⟩ := runnableAgain_marks (s.slot c k)
    obtain ⟨rfl, rfl, hmay⟩ | ⟨rfl, rfl, hfr⟩ := hi
    · refine ⟨_, hresume _ (cmdResume_allowed hsh hmay), ?_, fun h => Bool.noConfusion h, ?_⟩
      · rw [askExit_mem]
        exact apartFromCores_mem (resumeSlot_apart s c k)
      · rw [askExit_slot, Option.getD_some, resumeSlot_slot]
        exact ⟨hrun, hpark⟩
    · refine ⟨_, hstep _ ((cmdStep_eq hsh).trans (if_pos hfr)), ?_, fun _ => ?_, ?_⟩
      · rw [askExit_mem]
        exact apartFromCores_mem (apartFromCores_trans (resumeSlot_apart s c k) (both_apart _ _ _ _))
      · rw [askExit_slot, Option.getD_some, both_slot]
      · rw [askExit_slot, Option.getD_some, both_slot, resumeSlot_slot]
        exact ⟨hrun, hpark⟩
  case frozen =>
    refine ⟨_, hfreeze _ ((cmdFreeze_eq hsh).trans (if_pos h)), ?_⟩
    rw [askExit_slot, askExit_mem, Option.getD_some, doFreeze_now hc ht, State.freezeWith, freezeFor_slot, freezeFor_mem]
    refine ⟨rfl, ?_, recCause_threadRecord _ _ _ _ _ _ (by decide), rfl⟩
    rw [word_toNat_self]
  case stays =>
    exact hfreeze _ ((cmdFreeze_eq hsh).trans (if_neg (not_or.2 ⟨hr, hp⟩)))
  case retired => exact fun h => h.elim hf fun h => hp h.1 h.2
  case killed => rw [cmdKill_eq hsh, if_neg (not_or.2 ⟨hf, ho⟩), doKill_now hc ht]

end Sys2Proof.Proofs

/-! PROOFS. Slots that load and leave, wakes (07). -/

namespace Sys2Proof.Proofs

open Sys2Proof.Machine Sys2Proof.Laws

/-! ## Slots that load and leave, and wakes (R116, R122, R123, R135, R153) -/

@[simp] theorem updSlot_levelOf (s : State) (c k d : Nat) (f : Slot → Slot) : (s.updSlot c k f).levelOf d = s.levelOf d := rfl

/-- A loaded context that nothing holds runs. -/
theorem slotLoaded_runs {s : State} {c k : Nat} (hst : (s.slot c k).st = .load) (hlost : (s.slot c k).lost = false)
    (h9 : waitKind (s.slot c k).ctx.wait ≠ 9) (h8 : waitKind (s.slot c k).ctx.wait ≠ 8) (hl : s.levelOf c ≠ 2) :
    ((s.slotLoaded c k).slot c k).st = .run ∧
      ((s.slotLoaded c k).slot c k).ctx = { wokenCtx (s.slot c k).ctx with wait := 0 } ∧ (s.slotLoaded c k).mem = s.mem := by
  have hload : ¬(s.slot c k).st ≠ .load := not_not.2 hst
  simp only [State.slotLoaded, if_neg hload, hlost, Bool.false_eq_true, if_false, updSlot_levelOf, hl, slot_updSlot_same]
  exact ⟨trivial, trivial, rfl⟩

/-- HT is what a wake leaves of WAIT (R111, R122). -/
theorem waitHt_woken (x : Ctx) : waitHt (wokenCtx x).wait = waitHt x.wait := by
  have hbit : (word (2 ^ 59)).getLsbD 59 = true := rfl
  change (x.wait &&& word (2 ^ 59)).getLsbD 59 = x.wait.getLsbD 59
  rw [BitVec.getLsbD_and, hbit, Bool.and_true]

/-- A wake of a thread parked in its slot for what it waits for. -/
theorem deliverWake_parked {s : State} {w : Waiter} (he : w.entry = none) (hst : (s.slot w.core w.slot).st = .park)
    (hkind : waitKind (s.slot w.core w.slot).ctx.wait = w.kind) : s.deliverWake w =
      (s.both w.core w.slot fun x => { x with ctx := wokenCtx x.ctx }).makeRunnable w.core w.slot := by
  rw [State.deliverWake, he]
  exact if_pos ⟨hst, hkind⟩

/-- Settles O39: loading, leaving, the wakes and their effect, a spill's reserve entry. -/
theorem slotAndWakeEvents : Obligations.SlotAndWakeEvents := by
  intro s c k n d hk
  have hmod : k % 4 = k := Nat.mod_eq_of_lt hk
  refine ⟨fun hst hlost h9 h8 hl => ?load, fun hst => ⟨fun hto hd hu => ?out, fun e hto he hsh => ?spilled⟩, fun w hw => ?wake,
    fun w due hw hdue => ?retry, fun w he hst ht hkind h4 hht => ?wakes, fun hst => ?reserve⟩
  case load =>
    refine ⟨_, rfl, ?_⟩
    rw [hmod]
    exact slotLoaded_runs hst hlost h9 h8 hl
  case out =>
    refine congrArg Host.Outcome.next (?_ : _ = _)
    simp only [hmod, hst, hto, hd, hu, ne_eq, not_true, if_false, Bool.not_true, Bool.false_eq_true, or_self, and_false]
  case spilled =>
    refine congrArg Host.Outcome.next (?_ : _ = _)
    simp only [hmod, hst, hto, he, hsh, ne_eq, not_true, if_false, Option.isSome_none, Bool.false_eq_true, false_and]
  case wake =>
    refine congrArg Host.Outcome.next (?_ : _ = _)
    simp only [hw]
  case retry =>
    refine congrArg Host.Outcome.next (?_ : _ = _)
    simp only [hw, hdue, if_true]
  case wakes =>
    have hslot : (s.both w.core w.slot fun x => { x with ctx := wokenCtx x.ctx }).slot w.core w.slot =
        { s.slot w.core w.slot with ctx := wokenCtx (s.slot w.core w.slot).ctx } := both_slot _ _ _ _
    have hht' : waitHt (wokenCtx (s.slot w.core w.slot).ctx).wait = false := (waitHt_woken _).trans hht
    have h4' : ¬waitKind (s.slot w.core w.slot).ctx.wait = 4 := fun h => h4 (hkind.symm.trans h)
    rw [deliverWake_parked he hst hkind, makeRunnable_slot, hslot, runnableAgain, hht']
    refine ⟨rfl, ?_, ?_⟩
    · simp only [wokenCtx, if_neg h4', Bool.false_eq_true, if_false]
    · exact apartFromCores_mem (apartFromCores_trans (both_apart _ _ _ _) (makeRunnable_apart _ _ _))
  case reserve =>
    refine congrArg Host.Outcome.next (?_ : _ = _)
    rw [hmod, if_pos hst]

end Sys2Proof.Proofs

/-! PROOFS. The commit of a block (12). -/

namespace Sys2Proof.Proofs

open Sys2Proof.Machine Sys2Proof.Laws

/-! ## The registers that a commit writes (R274 step 2) -/

/-- What register r of a slot becomes. -/
def newReg (x : Slot) (f : Frame) (r : Nat) : Word :=
  match if (hdrWrmask f.header).testBit r then f.regs.find? r else none with
  | some t => if t.isNull || t.isPoison then x.ctx.reg r else t.w
  | none => x.ctx.reg r

/-- One register of the commit. -/
def regStep (f : Frame) (x : Slot) (k : Nat) : Slot :=
  match if (hdrWrmask f.header).testBit k then f.regs.find? k else none with
  | some t => if t.isNull || t.isPoison then x else { x.whole k with ctx := x.ctx.setReg k t.w }
  | none => x

theorem regStep_same (f : Frame) (x : Slot) (k : Nat) : (regStep f x k).ctx.reg k = newReg x f k := by
  rw [regStep, newReg]
  split
  · split
    · rfl
    · exact reg_setReg_same _ _ _
  · rfl

theorem regStep_other (f : Frame) (x : Slot) {k r : Nat} (h : r ≠ k) : (regStep f x k).ctx.reg r = x.ctx.reg r := by
  rw [regStep]
  split
  · split
    · rfl
    · exact reg_setReg_other _ _ h
  · rfl

/-- A register's write changes the registers, PMASK and what cannot be corrected, and no more. -/
theorem regStep_keeps (f : Frame) (x : Slot) (k : Nat) : ∃ g p b,
    regStep f x k = { x with ctx := { x.ctx with g := g }, pmask := p, badRegs := b } := by
  rw [regStep]
  split
  · split <;> exact ⟨_, _, _, rfl⟩
  · exact ⟨_, _, _, rfl⟩

/-- The registers of a commit. -/
def regSteps (f : Frame) (ks : List Nat) (x : Slot) : Slot := ks.foldl (regStep f) x

theorem regSteps_keeps (f : Frame) (ks : List Nat) (x : Slot) : ∃ g p b,
    regSteps f ks x = { x with ctx := { x.ctx with g := g }, pmask := p, badRegs := b } := by
  induction ks generalizing x with
  | nil => exact ⟨_, _, _, rfl⟩
  | cons k ks ih =>
    obtain ⟨g, p, b, h⟩ := regStep_keeps f x k
    obtain ⟨g', p', b', h'⟩ := ih (regStep f x k)
    have hcons : regSteps f (k :: ks) x = regSteps f ks (regStep f x k) := rfl
    exact ⟨g', p', b', by rw [hcons, h', h]⟩

theorem newReg_step (f : Frame) (x : Slot) {k r : Nat} (h : r ≠ k) : newReg (regStep f x k) f r = newReg x f r := by
  rw [newReg, newReg, regStep_other f x h]

theorem regSteps_reg (f : Frame) {r : Nat} (n : Nat) (x : Slot) :
    (regSteps f (List.range n) x).ctx.reg r = if r < n then newReg x f r else x.ctx.reg r := by
  induction n with
  | zero => rfl
  | succ n ih =>
    have hsucc : regSteps f (List.range (n + 1)) x = regStep f (regSteps f (List.range n) x) n := by
      rw [regSteps, List.range_succ, List.foldl_append]
      rfl
    rw [hsucc]
    by_cases hr : r = n
    · subst hr
      rw [regStep_same, if_pos (Nat.lt_succ_self r)]
      have hbefore : (regSteps f (List.range r) x).ctx.reg r = x.ctx.reg r := ih.trans (if_neg (Nat.lt_irrefl r))
      rw [newReg, newReg, hbefore]
    · rw [regStep_other f _ hr, ih]
      by_cases hlt : r < n
      · rw [if_pos hlt, if_pos (by omega)]
      · rw [if_neg hlt, if_neg (by omega)]

/-- TSW after a commit, before the exit and the FP flags. -/
def newTsw (x : Slot) (f : Frame) : Word :=
  let tsw := match f.tswNew with
    | some v => tswWritten x.ctx.tsw v
    | none => x.ctx.tsw
  match f.gph with
  | some b => wput tsw 32 32 b.toNat
  | none => tsw

/-- The segments after a commit. -/
def newSegs (x : Slot) (f : Frame) : Tab (BitVec 128) := f.segNew.foldl (fun t e => t.put e.1 e.2) x.ctx.seg

theorem segFold_eq (es : List (Nat × BitVec 128)) (y : Ctx) : es.foldl (fun y e => y.setSeg e.1 e.2) y =
    { y with seg := es.foldl (fun t e => t.put e.1 e.2) y.seg } := by
  induction es generalizing y with
  | nil => rfl
  | cons e es ih => exact ih (y.setSeg e.1 e.2)

/-- A commit's step 2: the general registers, the segments, TSW. -/
theorem written_eq (x : Slot) (f : Frame) : ∃ g p b,
    x.written f = { x with ctx := { x.ctx with g := g, seg := newSegs x f, tsw := newTsw x f }, pmask := p, badRegs := b } ∧
    ∀ r, r < 16 → Tab.rd 0 g r = newReg x f r := by
  obtain ⟨g, p, b, h⟩ := regSteps_keeps f (List.range 16) x
  have hw : x.written f = { regSteps f (List.range 16) x with
      ctx := { f.segNew.foldl (fun y e => y.setSeg e.1 e.2) (regSteps f (List.range 16) x).ctx with
        tsw := newTsw { x with ctx := f.segNew.foldl (fun y e => y.setSeg e.1 e.2) (regSteps f (List.range 16) x).ctx } f } } :=
    rfl
  refine ⟨g, p, b, ?_, fun r hr => ?_⟩
  · rw [hw, segFold_eq, h]
    rfl
  · have hreg := regSteps_reg f (r := r) 16 x
    rw [h, if_pos hr] at hreg
    exact hreg

/-! ## The entries that a commit leaves (R274 steps 3 and 4) -/

/-- Two states between which a commit has put n stores into the buffer of core c: the slot's thread but for the count of its
operations, memory and the core's commands are as before. -/
def leftStores (c k n : Nat) (s t : State) : Prop :=
  t.mem = s.mem ∧ (∃ o, t.slot c k = { s.slot c k with ordinal := o }) ∧ (t.core c).cmds = (s.core c).cmds ∧
    (t.core c).sb.length = (s.core c).sb.length + n

section
variable {c k : Nat}

theorem leftStores_refl (s : State) : leftStores c k 0 s s := ⟨rfl, ⟨_, rfl⟩, rfl, rfl⟩

theorem leftStores_trans {s t u : State} {m n : Nat} (h : leftStores c k m s t) (h' : leftStores c k n t u) :
    leftStores c k (m + n) s u := by
  obtain ⟨hmem, ⟨o, hslot⟩, hcmds, hsb⟩ := h
  obtain ⟨hmem', ⟨o', hslot'⟩, hcmds', hsb'⟩ := h'
  refine ⟨hmem'.trans hmem, ⟨o', ?_⟩, hcmds'.trans hcmds, by omega⟩
  rw [hslot', hslot]

theorem leftStores_countOp (s : State) : leftStores c k 0 s (s.countOp c k) := by
  exact ⟨rfl, ⟨_, slot_updSlot_same s c k _⟩, by rw [State.countOp, core_updSlot], by rw [State.countOp, core_updSlot]; rfl⟩

/-- A change of core c that keeps its slots and its commands and puts n stores into its buffer. -/
theorem leftStores_updCore (s : State) {n : Nat} {f : Core → Core} (hslots : ∀ x, (f x).slots = x.slots)
    (hcmds : ∀ x, (f x).cmds = x.cmds) (hsb : ∀ x, (f x).sb.length = x.sb.length + n) :
    leftStores c k n s (s.updCore c f) := by
  refine ⟨rfl, ⟨_, slot_updCore_slots s c c k hslots⟩, ?_, ?_⟩
  · rw [core_updCore_same, hcmds]
  · rw [core_updCore_same, hsb]

theorem leftStores_stamp (s : State) (e : SbEntry) : leftStores c k 0 s (s.stampEntry c k e).2 := by
  rw [State.stampEntry]
  by_cases hc : e.op.counted = true
  · rw [if_pos hc]
    exact leftStores_trans (leftStores_countOp s) (leftStores_refl _)
  · rw [if_neg hc]
    exact leftStores_refl s

theorem leftStores_post (s : State) (e : SbEntry) : leftStores c k 0 s (s.post c e) := by
  rw [State.post]
  split
  · have hawait : leftStores c k 0 s (s.await c e) := by
      rw [State.await]
      split <;> exact ⟨rfl, ⟨_, rfl⟩, rfl, rfl⟩
    dsimp only
    split
    · exact leftStores_trans (n := 0) hawait (leftStores_updCore _ (fun _ => rfl) (fun _ => rfl) fun _ => rfl)
    · exact leftStores_trans (n := 0) hawait (leftStores_refl _)
  · exact leftStores_refl s

theorem leftStores_outMsg (s : State) (o : Outgoing) : leftStores c k 0 s (s.outMsg c o) := by
  have hbox : leftStores c k 0 s (s.updCore c fun x => { x with outbox := x.outbox ++ [o] }) :=
    leftStores_updCore s (fun _ => rfl) (fun _ => rfl) fun _ => rfl
  have hcount : ∀ t : State, leftStores c k 0 t (t.countSent c o.msg.lid) := by
    intro t
    rw [State.countSent]
    split
    · exact leftStores_refl t
    · exact leftStores_updCore t (fun _ => rfl) (fun _ => rfl) fun _ => rfl
  exact leftStores_trans (leftStores_trans hbox (hcount _)) (leftStores_refl _)

/-- The stores among the pending entries of a list. -/
def storesIn (ps : Tab Pend) : Nat := ({ pend := ps } : Frame).storeCount false

theorem storesIn_cons (p : Nat × Pend) (ps : Tab Pend) : storesIn (p :: ps) = storesIn [p] + storesIn ps := by
  rw [storesIn, storesIn, storesIn, Frame.storeCount, Frame.storeCount, Frame.storeCount, ← List.length_append,
    ← List.filter_append]
  rfl

theorem leftStores_commitPend {s : State} (ht : (s.slot c k).twin = none) (p : Nat × Pend) :
    leftStores c k (storesIn [p]) s (s.commitPend c k p.2) := by
  obtain ⟨n, p⟩ := p
  cases p with
  | store e =>
    simp only [State.commitPend, ht, Option.isSome_none, Bool.false_eq_true, if_false]
    exact leftStores_trans (m := 0) (n := 1) (leftStores_stamp s e)
      (leftStores_updCore _ (fun _ => rfl) (fun _ => rfl) fun _ => List.length_append)
  | post op =>
    simp only [State.commitPend, ht, Option.isSome_none, Bool.false_eq_true, if_false]
    exact leftStores_trans (leftStores_stamp s _) (leftStores_post _ _)
  | message m h b =>
    cases b with
    | true => exact leftStores_refl s
    | false =>
      simp only [State.commitPend, ht, Option.isSome_none, Bool.false_eq_true, if_false]
      refine leftStores_trans (n := 0) ?_ (leftStores_outMsg _ _)
      rw [State.stampMsg]
      split
      · exact leftStores_countOp s
      · exact leftStores_refl s
  | command _ => exact leftStores_refl s
  | nulled => exact leftStores_refl s
  | done => exact leftStores_refl s

theorem leftStores_fold (ps : Tab Pend) {s : State} (ht : (s.slot c k).twin = none) :
    leftStores c k (storesIn ps) s (ps.foldl (fun s p => s.commitPend c k p.2) s) := by
  induction ps generalizing s with
  | nil => exact leftStores_refl s
  | cons p ps ih =>
    have hp := leftStores_commitPend ht p
    obtain ⟨-, ⟨o, hslot⟩, -, -⟩ := hp
    have ht' : ((s.commitPend c k p.2).slot c k).twin = none := by rw [hslot]; exact ht
    rw [storesIn_cons, List.foldl_cons]
    exact leftStores_trans (leftStores_commitPend ht p) (ih ht')

/-- Two states between which n commands have been released at core c. -/
def releasedCmds (c k n : Nat) (s t : State) : Prop :=
  t.slot c k = s.slot c k ∧ (t.core c).sb = (s.core c).sb ∧ (t.core c).cmds.length = (s.core c).cmds.length + n ∧
    (n = 0 → t.mem = s.mem)

theorem nextSerial_core (s : State) (c : Nat) : s.nextSerial.core c = s.core c := rfl

theorem statusWritten_core (s : State) (l c : Nat) :
    (((s.wrWord l 0).dropReadBufs [l]).setFull l false).core c = s.core c := by
  simp only [State.core, setFull_cores, dropReadBufs_cores, wrWord_cores]

/-- A command is released: its status word is written zero and set empty, and it enters its queue (R362). -/
theorem releaseCmd_queued (s : State) (c : Nat) (y : Cmd) : ∃ b : List Ranges, s.releaseCmd c y =
    ((((s.wrWord (statusLoc c y.ticket) 0).dropReadBufs [statusLoc c y.ticket]).setFull (statusLoc c y.ticket) false).updCore
      c fun x => { x with cmds := x.cmds ++ [{ y with stamp := s.serial }], board := x.board ++ b }).nextSerial := by
  simp only [State.releaseCmd, List.append_assoc]
  exact ⟨_, rfl⟩

theorem releaseCmd_one (s : State) (y : Cmd) : releasedCmds c k 1 s (s.releaseCmd c y) := by
  obtain ⟨b, h⟩ := releaseCmd_queued s c y
  have hcore : (s.releaseCmd c y).core c =
      { s.core c with cmds := (s.core c).cmds ++ [{ y with stamp := s.serial }], board := (s.core c).board ++ b } := by
    rw [h, nextSerial_core, core_updCore_same, statusWritten_core]
  refine ⟨?_, ?_, ?_, fun h => nomatch h⟩
  · rw [State.slot, State.slot, hcore]
  · rw [hcore]
  · rw [hcore]
    exact List.length_append

/-- The status word of a command that has just been released reads zero and empty. -/
theorem releaseCmd_status {s : State} (y : Cmd) (hs : Safe s) : (s.releaseCmd c y).rdWord (statusLoc c y.ticket) = 0 ∧
    (s.releaseCmd c y).mem.isFull (statusLoc c y.ticket) = false := by
  obtain ⟨b, h⟩ := releaseCmd_queued s c y
  have hmem : (s.releaseCmd c y).mem = (s.wrWord (statusLoc c y.ticket) 0).mem.setFull (statusLoc c y.ticket) false := by
    rw [h]
    rfl
  refine ⟨?_, ?_⟩
  · rw [State.rdWord, hmem]
    exact rdWord_wrWord (statusLoc c y.ticket) 0 hs
  · rw [hmem]
    exact rd_set_same _ false (wf_iff.1 (safe_wrWord (statusLoc c y.ticket) 0 hs)).2.1

theorem releasedCmds_fold (ys : List Cmd) (s : State) :
    releasedCmds c k ys.length s (ys.foldl (fun s y => s.releaseCmd c y) s) := by
  induction ys generalizing s with
  | nil => exact ⟨rfl, rfl, rfl, fun _ => rfl⟩
  | cons y ys ih =>
    obtain ⟨hslot, hsb, hcmds, -⟩ := releaseCmd_one (c := c) (k := k) s y
    obtain ⟨hslot', hsb', hcmds', -⟩ := ih (s.releaseCmd c y)
    rw [List.foldl_cons]
    exact ⟨hslot'.trans hslot, hsb'.trans hsb, by rw [hcmds', hcmds, List.length_cons]; omega, fun h => nomatch h⟩

end

/-! ## What follows a commit (R276) -/

/-- YIELD of a thread that is no twin: it spills where work waits, no slot is free and its launch has an entry. -/
theorem yieldSpill_alone {s : State} {c k : Nat} (ht : (s.slot c k).twin = none) : s.yieldSpill c k =
    if ((s.core c).inbox.isEmpty && (s.core c).runnable.isEmpty) || s.anyFree c then none
    else (s.allocEntry (tswLid (s.slot c k).ctx.tsw)).map fun a => a.2.spillOut c k a.1 none := by
  rw [State.yieldSpill]
  split
  · rfl
  · split
    · rename_i heq
      rw [heq, Option.map_none]
    · rename_i heq
      rw [heq, Option.map_some, ht]
      rfl

theorem allocEntry_none_iff (s : State) (lid : Nat) : s.allocEntry lid = none ↔
    lid = 0 ∨ (s.entry lid).lrec.ctxres ≤ lowestFree (s.entry lid).reserve := by
  simp only [State.allocEntry, ite_eq_left_iff, reduceCtorEq, imp_false, not_not]

/-- A thread that does not spill does not spill without its frames either. -/
theorem yieldSpill_noFrames {s : State} {c k : Nat} (ht : (s.slot c k).twin = none) (h : s.yieldSpill c k = none) :
    (s.updSlot c k Slot.noFrames).yieldSpill c k = none := by
  have hslot : (s.updSlot c k Slot.noFrames).slot c k = (s.slot c k).noFrames := slot_updSlot_same _ _ _ _
  have hst : ∀ j, ((s.updSlot c k Slot.noFrames).slot c j).st = (s.slot c j).st := by
    intro j
    by_cases hj : j = k
    · subst hj
      rw [hslot]
      rfl
    · rw [slot_updSlot_slot _ _ hj]
  have hfree : (s.updSlot c k Slot.noFrames).anyFree c = s.anyFree c := by simp only [State.anyFree, hst]
  rw [yieldSpill_alone ht] at h
  rw [yieldSpill_alone (by rw [hslot]; exact ht), hslot, core_updSlot, hfree]
  split at h
  · rename_i hif
    exact if_pos hif
  · rename_i hif
    refine (if_neg hif).trans ?_
    rw [Option.map_eq_none_iff, allocEntry_none_iff] at h ⊢
    exact h

section
variable {s : State} {c k : Nat} {e : ExitFired} {keep : Bool}

theorem nextFrame_none (hnext : (s.slot c k).next = {}) : s.nextFrame c k keep = s.updSlot c k Slot.noFrames := by
  simp only [State.nextFrame, hnext]
  exact if_neg (by simp only [Bool.and_eq_true]; exact fun h => nomatch h.1.2)

/-- Nothing is pending at a slot's block boundary. -/
def nothingPends (x : Slot) : Prop := x.stop = 0 ∧ x.htStop = false ∧ x.stepping = false ∧ x.next = {}

theorem afterCommit_fault (hp : nothingPends (s.slot c k)) {d : FaultD} (h : exitFault e = some d) : s.afterCommit c k e keep =
    (s.updSlot c k Slot.noFrames).freezeFor c k (s.slot c k).ctx.pc.toNat d := by
  obtain ⟨hstop, -, -, -⟩ := hp
  have hno : ¬((s.slot c k).stop = 2 ∧ e.kind ≠ .done) := fun h => absurd (hstop.symm.trans h.1) (by decide)
  simp only [State.afterCommit, if_neg hno, h]
  rfl

/-- Only TRAP and BREAK commit under a fault. -/
theorem exitFault_none (ht : ∀ n, e.kind ≠ .trap n) (hb : e.kind ≠ .breakX) : exitFault e = none := by
  rw [exitFault]
  split
  · rename_i n h
    exact absurd h (ht n)
  · rename_i h
    exact absurd h hb
  · rfl

theorem afterCommit_done (h : e.kind = .done) : s.afterCommit c k e keep =
    (s.updSlot c k Slot.noFrames).endThread c k true := by
  have hf : exitFault e = none := by rw [exitFault, h]
  simp only [State.afterCommit, hf, h, ne_eq, not_true, and_false, if_false]
  rfl

theorem afterCommit_migrate (hp : nothingPends (s.slot c k)) {o : Nat} (h : e.kind = .migrate o) : s.afterCommit c k e keep =
    (s.updSlot c k Slot.noFrames).leaveFor c k o 0 := by
  obtain ⟨hstop, -, hstep, -⟩ := hp
  have hf : exitFault e = none := by rw [exitFault, h]
  have hno : ¬((s.slot c k).stop = 2 ∧ ExitKind.migrate o ≠ .done) := fun h => absurd (hstop.symm.trans h.1) (by decide)
  have hslot : (s.updSlot c k Slot.noFrames).slot c k = (s.slot c k).noFrames := slot_updSlot_same _ _ _ _
  have haway : (s.updSlot c k Slot.noFrames).migrateAway c k o = (s.updSlot c k Slot.noFrames).leaveFor c k o 0 := by
    simp only [State.migrateAway, hslot, Slot.noFrames, hstop, hstep, Nat.reduceEqDiff, Nat.zero_ne_one, if_false,
      Bool.false_eq_true, ne_eq, not_true]
  simp only [State.afterCommit, hf, h, if_neg hno]
  exact haway

/-- A commit with nothing pending whose exit is a branch. -/
theorem afterCommit_branch (hp : nothingPends (s.slot c k))
    (h : e.kind = .br ∨ (∃ v, e.kind = .bri v ∨ e.kind = .ret v) ∨ e.kind = .call ∨ ∃ r, e.kind = .loop r) :
    s.afterCommit c k e keep = s.updSlot c k Slot.noFrames := by
  obtain ⟨hstop, hht, hstep, hnext⟩ := hp
  have hno : ∀ x : ExitKind, ¬((s.slot c k).stop = 2 ∧ x ≠ .done) := fun x h => absurd (hstop.symm.trans h.1) (by decide)
  have hgo : ¬((s.slot c k).stop ≠ 0 ∨ (s.slot c k).htStop = true) := by
    rw [hstop, hht]
    exact fun h => h.elim (fun h => h rfl) (fun h => nomatch h)
  rcases h with h | ⟨v, h | h⟩ | h | ⟨r, h⟩ <;>
    simp only [State.afterCommit, exitFault, h, if_neg (hno _), if_neg hgo, hstep, Bool.false_eq_true, if_false,
      reduceCtorEq] <;>
    exact nextFrame_none hnext

/-- A commit with nothing pending whose exit is YIELD. -/
theorem afterCommit_yield (ht : (s.slot c k).twin = none) (hp : nothingPends (s.slot c k)) (h : e.kind = .yieldX) :
    s.afterCommit c k e keep =
      ((s.updSlot c k Slot.noFrames).yieldSpill c k).getD (s.updSlot c k Slot.noFrames) := by
  obtain ⟨hstop, hht, hstep, hnext⟩ := hp
  have hno : ∀ x : ExitKind, ¬((s.slot c k).stop = 2 ∧ x ≠ .done) := fun x h => absurd (hstop.symm.trans h.1) (by decide)
  have hgo : ¬((s.slot c k).stop ≠ 0 ∨ (s.slot c k).htStop = true) := by
    rw [hstop, hht]
    exact fun h => h.elim (fun h => h rfl) (fun h => nomatch h)
  simp only [State.afterCommit, exitFault, h, if_neg (hno _), if_neg hgo, hstep, Bool.false_eq_true, if_false, if_true]
  split
  · rfl
  · rename_i hnone
    rw [yieldSpill_noFrames ht hnone]
    exact nextFrame_none hnext

end

/-! ## The commit of a complete block (R114, R274, R276) -/

section
variable {s : State} {c k : Nat} {f : Frame} {e : ExitFired} {cmds : List Cmd}

/-- The context that a commit leaves: the registers of step 2, the exit's, PC, TSW with the FP flags. -/
def committedCtx (x : Slot) (f : Frame) (e : ExitFired) : Ctx :=
  { (exitTo (x.written f).ctx f e).2 with
    pc := (exitTo (x.written f).ctx f e).1, tsw := (x.written f).ctx.tsw ||| f.flags.setWidth 64 }

theorem exitTo_tsw (x : Ctx) (f : Frame) (e : ExitFired) : (exitTo x f e).2.tsw = x.tsw := by
  rw [exitTo]
  split
  case h_9 =>
    dsimp only
    split <;> rfl
  all_goals rfl

end

/-- A write of TSW as words: what it keeps of the old one, and what it takes. -/
theorem tswWritten_eq (old v : Word) : tswWritten old v =
    (old &&& word (2 ^ 62 + 2 ^ 61 + 0xFFFF * 2 ^ 40)) ||| (v &&& word (2 ^ 63 + 2 ^ 60 + 7 * 2 ^ 34 + 2 ^ 33 + 2 ^ 32 + 31)) := by
  have hdisjoint : (old &&& word (2 ^ 62 + 2 ^ 61 + 0xFFFF * 2 ^ 40)) &&&
      (v &&& word (2 ^ 63 + 2 ^ 60 + 7 * 2 ^ 34 + 2 ^ 33 + 2 ^ 32 + 31)) = 0#64 := by
    have hmasks : word (2 ^ 62 + 2 ^ 61 + 0xFFFF * 2 ^ 40) &&& word (2 ^ 63 + 2 ^ 60 + 7 * 2 ^ 34 + 2 ^ 33 + 2 ^ 32 + 31) = 0#64 := by
      decide
    rw [BitVec.and_assoc, BitVec.and_comm v, ← BitVec.and_assoc (word _), hmasks, BitVec.zero_and, BitVec.and_zero]
  rw [← BitVec.add_eq_or_of_and_eq_zero _ _ hdisjoint]
  apply BitVec.eq_of_toNat_eq
  rw [tswWritten, BitVec.toNat_add, BitVec.toNat_and, BitVec.toNat_and, word, BitVec.toNat_ofNat]
  rfl

/-- SHADOW is no field that a write of TSW changes (R114). -/
theorem tswShadow_tswWritten (old v : Word) : tswShadow (tswWritten old v) = tswShadow old := by
  have hkept : (word (2 ^ 62 + 2 ^ 61 + 0xFFFF * 2 ^ 40)).getLsbD 61 = true := by decide
  have htaken : (word (2 ^ 63 + 2 ^ 60 + 7 * 2 ^ 34 + 2 ^ 33 + 2 ^ 32 + 31)).getLsbD 61 = false := by decide
  change (tswWritten old v).getLsbD 61 = old.getLsbD 61
  rw [tswWritten_eq, BitVec.getLsbD_or, BitVec.getLsbD_and, BitVec.getLsbD_and, hkept, htaken, Bool.and_true, Bool.and_false,
    Bool.or_false]

theorem testBit_wput (w : Word) (hi lo v i : Nat) (h : lo ≤ hi) (hhi : hi < 64) :
    (wput w hi lo v).toNat.testBit i = if lo ≤ i ∧ i ≤ hi then v.testBit (i - lo) else w.toNat.testBit i := by
  rw [wput, word, BitVec.toNat_ofNat, Nat.testBit_mod_two_pow, testBit_putBits _ _ _ _ _ (by omega)]
  by_cases hi' : i < 64
  · rw [decide_eq_true hi', Bool.true_and]
  · have hw : w.toNat.testBit i = false := Nat.testBit_lt_two_pow (Nat.lt_of_lt_of_le w.isLt (Nat.pow_le_pow_right (by decide) (by omega)))
    rw [decide_eq_false hi', Bool.false_and, if_neg (by omega), hw]

theorem newTsw_shadow (x : Slot) (f : Frame) : tswShadow (newTsw x f) = tswShadow x.ctx.tsw := by
  have htsw : ∀ t : Word, ∀ b : Bool, tswShadow (wput t 32 32 b.toNat) = tswShadow t := fun t b =>
    (testBit_wput t 32 32 _ 61 (by decide) (by decide)).trans (if_neg (by decide))
  rw [newTsw]
  split
  · rw [htsw]
    split
    · exact tswShadow_tswWritten _ _
    · rfl
  · split
    · exact tswShadow_tswWritten _ _
    · rfl

/-- What the entries of a commit leave, before its exit. -/
def leftEntries (s : State) (c k : Nat) (f : Frame) (cmds : List Cmd) : State :=
  (f.pend.foldl (fun s p => s.commitPend c k p.2) (s.updSlot c k fun x => x.written f)).commitCmds c k cmds

theorem commitCmds_alone {s : State} {c k : Nat} (ht : (s.slot c k).twin = none) (hsh : (s.slot c k).shadow = false)
    (cmds : List Cmd) : s.commitCmds c k cmds = cmds.foldl (fun s y => s.releaseCmd c y) s := by
  simp only [State.commitCmds, hsh, ht, Bool.false_eq_true, if_false, Option.isSome_none]

section
variable {s : State} {c k : Nat} {f : Frame} {e : ExitFired} {cmds : List Cmd}

/-- A thread that is no twin: its slot is written, its operations are counted, its stores and commands have entered, and
memory changes by status words only. -/
theorem leftEntries_effect (ht : (s.slot c k).twin = none) (hsh : (s.slot c k).shadow = false) :
    (∃ o, (leftEntries s c k f cmds).slot c k = { (s.slot c k).written f with ordinal := o }) ∧
      ((leftEntries s c k f cmds).core c).sb.length = (s.core c).sb.length + f.storeCount false ∧
      ((leftEntries s c k f cmds).core c).cmds.length = (s.core c).cmds.length + cmds.length ∧
      (cmds = [] → (leftEntries s c k f cmds).mem = s.mem) ∧
      (∀ y, Safe s → cmds = [y] → (leftEntries s c k f cmds).rdWord (statusLoc c y.ticket) = 0 ∧
        (leftEntries s c k f cmds).mem.isFull (statusLoc c y.ticket) = false) := by
  obtain ⟨g, p, b, hw, -⟩ := written_eq (s.slot c k) f
  have hslot : (s.updSlot c k fun x => x.written f).slot c k = (s.slot c k).written f := slot_updSlot_same _ _ _ _
  have ht1 : ((s.updSlot c k fun x => x.written f).slot c k).twin = none := by rw [hslot, hw]; exact ht
  obtain ⟨hmem, ⟨o, hslot'⟩, hcmds, hsb⟩ := leftStores_fold (c := c) (k := k) f.pend ht1
  rw [hslot] at hslot'
  rw [core_updSlot] at hcmds hsb
  rw [leftEntries]
  generalize f.pend.foldl (fun s p => s.commitPend c k p.2) (s.updSlot c k fun x => x.written f) = u at *
  have ht2 : (u.slot c k).twin = none := by rw [hslot', hw]; exact ht
  have hsh2 : (u.slot c k).shadow = false := by
    rw [hslot', hw]
    exact (newTsw_shadow _ _).trans hsh
  obtain ⟨hslot3, hsb3, hcmds3, hmem3⟩ := releasedCmds_fold (c := c) (k := k) cmds u
  rw [commitCmds_alone ht2 hsh2]
  refine ⟨⟨o, hslot3.trans hslot'⟩, ?_, ?_, fun h => ?_, fun y hs h => ?_⟩
  · rw [hsb3]
    exact hsb
  · rw [hcmds3, hcmds]
  · exact (hmem3 (by rw [h]; rfl)).trans hmem
  · rw [h]
    exact releaseCmd_status y (safe_of_mem hmem hs)

/-- The slot once its block's exit has taken effect. -/
def exitSlot (f : Frame) (e : ExitFired) (x : Slot) : Slot :=
  let (pc, ctx) := exitTo x.ctx f e
  { (match exitReg x.ctx e with
      | some r => x.whole r
      | none => x) with ctx := { ctx with pc := pc, tsw := ctx.tsw ||| word f.flags.toNat }, migr := 0, skipBrk := false }

theorem exitSlot_ctx (f : Frame) (e : ExitFired) (x : Slot) : (exitSlot f e x).ctx =
    { (exitTo x.ctx f e).2 with pc := (exitTo x.ctx f e).1, tsw := x.ctx.tsw ||| f.flags.setWidth 64 } := by
  have hflags : word f.flags.toNat = f.flags.setWidth 64 := by
    apply BitVec.eq_of_toNat_eq
    rw [word, BitVec.toNat_ofNat, BitVec.toNat_setWidth]
  have h : (exitSlot f e x).ctx =
      { (exitTo x.ctx f e).2 with pc := (exitTo x.ctx f e).1, tsw := (exitTo x.ctx f e).2.tsw ||| word f.flags.toNat } := rfl
  rw [h, exitTo_tsw, hflags]

/-- What an exit leaves of a slot. -/
theorem exitSlot_keeps (f : Frame) (e : ExitFired) (x : Slot) : (exitSlot f e x).st = x.st ∧ (exitSlot f e x).twin = x.twin ∧
    (exitSlot f e x).stop = x.stop ∧ (exitSlot f e x).htStop = x.htStop ∧ (exitSlot f e x).stepping = x.stepping ∧
    (exitSlot f e x).next = x.next := by
  rw [exitSlot]
  cases exitReg x.ctx e with
  | none => exact ⟨rfl, rfl, rfl, rfl, rfl, rfl⟩
  | some r => exact ⟨rfl, rfl, rfl, rfl, rfl, rfl⟩

/-- The state of a commit whose exit has taken effect, its frame still there. -/
def exited (s : State) (c k : Nat) (f : Frame) (e : ExitFired) (cmds : List Cmd) : State :=
  (leftEntries s c k f cmds).updSlot c k (exitSlot f e)

theorem exited_slot (ht : (s.slot c k).twin = none) (hsh : (s.slot c k).shadow = false) : ∃ o,
    (exited s c k f e cmds).slot c k = exitSlot f e { (s.slot c k).written f with ordinal := o } := by
  obtain ⟨⟨o, hslot⟩, -⟩ := leftEntries_effect (f := f) (cmds := cmds) ht hsh
  exact ⟨o, by rw [exited, slot_updSlot_same, hslot]⟩

theorem exited_nothingPends (ht : (s.slot c k).twin = none) (hsh : (s.slot c k).shadow = false)
    (hp : nothingPends (s.slot c k)) : nothingPends ((exited s c k f e cmds).slot c k) ∧
      ((exited s c k f e cmds).slot c k).twin = none ∧
      ((exited s c k f e cmds).slot c k).st = (s.slot c k).st := by
  obtain ⟨o, hslot⟩ := exited_slot (f := f) (e := e) (cmds := cmds) ht hsh
  obtain ⟨hst, htw, hstop, hht, hstep, hnext⟩ := exitSlot_keeps f e { (s.slot c k).written f with ordinal := o }
  obtain ⟨g, p, b, hw, -⟩ := written_eq (s.slot c k) f
  rw [hslot, nothingPends, hst, htw, hstop, hht, hstep, hnext, hw]
  exact ⟨hp, ht, rfl⟩

theorem commitBlock_alone (ht : (s.slot c k).twin = none) (hsh : (s.slot c k).shadow = false) : ∃ keep,
    s.commitBlock c k f e cmds = (exited s c k f e (cmds.map fun y =>
      { y with seg := ((s.slot c k).written f).ctx.seg })).afterCommit c k e keep := by
  obtain ⟨o, hslot⟩ := exited_slot (f := f) (e := e)
    (cmds := cmds.map fun y => { y with seg := ((s.slot c k).written f).ctx.seg }) ht hsh
  obtain ⟨-, htw, -⟩ := exitSlot_keeps f e { (s.slot c k).written f with ordinal := o }
  obtain ⟨g, p, b, hw, -⟩ := written_eq (s.slot c k) f
  have hnone : (((exited s c k f e (cmds.map fun y =>
      { y with seg := ((s.slot c k).written f).ctx.seg })).slot c k).twin.isSome) = false := by
    rw [hslot, htw, hw]
    exact congrArg Option.isSome ht
  have hseg : (s.updSlot c k fun x => x.written f).slot c k = (s.slot c k).written f := slot_updSlot_same _ _ _ _
  refine ⟨f.segNew.isEmpty && f.tswNew.isNone, ?_⟩
  have hcommit : s.commitBlock c k f e cmds = (let t := exited s c k f e (cmds.map fun y =>
        { y with seg := ((s.updSlot c k fun x => x.written f).slot c k).ctx.seg })
      if (t.slot c k).twin.isSome then t.afterTwin c k f (cmds.map fun y =>
        { y with seg := ((s.updSlot c k fun x => x.written f).slot c k).ctx.seg }) e (f.segNew.isEmpty && f.tswNew.isNone)
      else t.afterCommit c k e (f.segNew.isEmpty && f.tswNew.isNone)) := rfl
  rw [hcommit, hseg]
  exact if_neg (by rw [hnone]; exact Bool.false_ne_true)

end

/-- The commands of a block with the segments of its commit. -/
def withSegs (x : Slot) (f : Frame) (ys : List Cmd) : List Cmd := ys.map fun y => { y with seg := (x.written f).ctx.seg }

/-- BLOCK_COMMIT of a complete block without a fault, of a thread that is no twin, for which there is room. -/
theorem blockCommit_commits {s : State} {c k : Nat} {e : ExitFired} {x : Slot} {f : Frame} (hx : x = s.slot c k)
    (hf : f = x.frame) (hk : k < 4) (hrun : x.st = .run) (ht : x.twin = none)
    (hexec : f.st = .exec ∧ s.stays c k = false ∨ f.st = .commit) (hstop : x.stop = 0) (hcomp : f.complete = true)
    (hfaults : f.faults = []) (hlock : f.lock = true ∨ s.ownFaults c k f = []) (he : f.exits = [e])
    (hroom : s.roomFor c k f (withSegs x f f.commands) = true) :
    exec (.blockCommit c k) s = .next (s.commitBlock c k f e (withSegs x f f.commands)) := by
  have hdecides : lowestFault (f.faults ++ if f.lock then [] else s.ownFaults c k f) = none := by
    rcases hlock with h | h
    · rw [hfaults, h]
      rfl
    · rw [hfaults, h, ite_self]
      rfl
  have hgo : ¬(x.st ≠ .run ∨ (f.st ≠ .exec ∧ f.st ≠ .commit) ∨ x.atEnd = true ∨ (!f.complete) = true ∨
      (s.stays c k = true ∧ f.st = .exec)) := by
    rw [hrun, atEnd_alone ht hstop, hcomp]
    rcases hexec with ⟨hst, hstay⟩ | hst
    · simp only [hst, hstay, ne_eq, reduceCtorEq, not_true, not_false_eq_true, and_true, or_self, Bool.not_true,
        Bool.false_eq_true]
    · simp only [hst, ne_eq, reduceCtorEq, not_true, not_false_eq_true, and_false, or_self, Bool.not_true, Bool.false_eq_true]
  have hpair : s.pairMayCommit c k = true := by
    rw [State.pairMayCommit, ← hx, ht]
  refine congrArg Host.Outcome.next (?_ : _ = _)
  rw [Nat.mod_eq_of_lt hk]
  subst hf hx
  simp only [stopDue_running hrun, Bool.false_eq_true, if_false, hgo, hdecides, he, hpair, Bool.not_true]
  exact if_neg (by rw [withSegs] at hroom; rw [hroom]; exact Bool.false_ne_true)

/-- Settles O35: what a commit leaves, where its exit takes the thread, the registers that it writes. -/
theorem blockCommitRule : Obligations.BlockCommitRule := by
  refine ⟨fun s c k e hk hrun ht hexec hstop hht hstep hsh hnext hcomp hfaults hlock he hroom => ?commit,
    fun x f r hr => ?written⟩
  case commit =>
    have hgo := blockCommit_commits rfl rfl hk hrun ht hexec hstop hcomp hfaults hlock he hroom
    generalize hf : (s.slot c k).frame = f at *
    obtain ⟨keep, hafter⟩ := commitBlock_alone (f := f) (e := e) (cmds := withSegs (s.slot c k) f f.commands) ht hsh
    set cmds := (withSegs (s.slot c k) f f.commands).map fun y => { y with seg := ((s.slot c k).written f).ctx.seg } with hcmds
    obtain ⟨hp, ht', hst'⟩ := exited_nothingPends (f := f) (e := e) (cmds := cmds) ht hsh ⟨hstop, hht, hstep, hnext⟩
    obtain ⟨o, hslot⟩ := exited_slot (f := f) (e := e) (cmds := cmds) ht hsh
    obtain ⟨-, hsb, hlen, hmem, hstatus⟩ := leftEntries_effect (f := f) (cmds := cmds) ht hsh
    set t := exited s c k f e cmds with htdef
    rw [hafter] at hgo
    have hu : (t.updSlot c k Slot.noFrames).slot c k = (t.slot c k).noFrames := slot_updSlot_same _ _ _ _
    have hctx : ((t.updSlot c k Slot.noFrames).slot c k).ctx = (t.slot c k).ctx := by rw [hu]; rfl
    refine ⟨t.updSlot c k Slot.noFrames, ⟨?ctx, ?st, ?frame, ?sb, ?cmds, ?mem⟩, ?status, fun h => ?branch, fun d h => ?fault,
      fun h => ?done, fun o h => ?migrate, fun h => ?yield⟩
    case ctx =>
      rw [hctx, hslot, exitSlot_ctx]
    case st => rw [hu]; exact hst'.trans hrun
    case frame => rw [hu]; rfl
    case sb => rw [core_updSlot, htdef, exited, core_updSlot]; exact hsb
    case cmds =>
      rw [core_updSlot, htdef, exited, core_updSlot]
      refine hlen.trans ?_
      rw [hcmds, withSegs, List.length_map, List.length_map]
    case mem => exact fun h => hmem (by rw [hcmds, h]; rfl)
    case status =>
      exact fun y hs h => hstatus { y with seg := ((s.slot c k).written f).ctx.seg } hs (by rw [hcmds, h]; rfl)
    case branch => rw [hgo, afterCommit_branch hp h]
    case fault => rw [hgo, afterCommit_fault hp h, hctx]
    case done => rw [hgo, afterCommit_done h]
    case migrate => rw [hgo, afterCommit_migrate hp h]
    case yield => rw [hgo, afterCommit_yield ht' hp h]
  case written =>
    obtain ⟨g, p, b, hw, hreg⟩ := written_eq x f
    refine ⟨?reg, fun h => ?segs, fun n v h => ?seg, fun h => ?tsw, fun b h => ?gph⟩
    case reg =>
      rw [hw]
      exact hreg r hr
    case segs =>
      rw [hw, newSegs, h]
      rfl
    case seg =>
      simp only [Slot.written, h, List.foldl_cons, List.foldl_nil] <;> rfl
    case tsw =>
      rw [hw]
      simp only [newTsw, h] <;> (cases f.tswNew <;> rfl)
    case gph =>
      rw [hw]
      simp only [newTsw, h]
      rw [tswGph, testBit_wput _ _ _ _ _ (by decide) (by decide)]
      cases b <;> rfl

end Sys2Proof.Proofs

/-! PROOFS. Ordered additions (14). -/

namespace Sys2Proof.Proofs
open Sys2Proof.Machine Sys2Proof.Laws

/-! ## Events that no mould records or replays (R228, R231) -/

/-- A launch that neither records nor replays a mould, or no launch. -/
def unmoulded (s : State) (lid : Nat) : Prop :=
  lid = 0 ∨ ((s.entry lid).enforcing = false ∧ (s.entry lid).recording = false)

theorem unmoulded_of_dies {s u : State} {lid : Nat} (h : unmoulded s lid) (hdies : u.dies = s.dies) : unmoulded u lid := by
  rw [unmoulded, State.entry, State.entryAt, State.die, hdies]
  exact h

theorem tally_unmoulded {s : State} {lid : Nat} (h : unmoulded s lid) (key : Nat) (m : MouldEntry) :
    s.tally lid key m = some s := by
  rw [State.tally]
  split
  · rfl
  · rename_i hlid
    obtain ⟨henf, hrec⟩ := h.resolve_left hlid
    simp only [henf, hrec, State.mouldWaits, Bool.false_and, Bool.false_eq_true, if_false]

theorem tallyAgent_unmoulded {s : State} {lid : Nat} (h : unmoulded s lid) (loc ident : Nat) :
    s.tallyAgent lid loc ident = some s := by
  rw [State.tallyAgent]
  split
  · exact tally_unmoulded h _ _
  · rw [State.tallyBank]
    split
    · rfl
    · exact tally_unmoulded h _ _

/-! ## Ordered additions (R328) -/

theorem roNext_none {low : Nat} {cs : List RemOp} (h : ∀ c ∈ cs, low < c.slice) : roNext low cs = none := by
  induction cs with
  | nil => rfl
  | cons c cs ih =>
    rw [roNext, ih fun d hd => h d (List.mem_cons_of_mem _ hd)]
    exact if_neg (Nat.not_le.2 (h c List.mem_cons_self))

/-- A word whose held contributions all wait for F has nothing due. -/
theorem roDue_none {s : State} {key lid : Nat} (h : ∀ c ∈ (Tab.rd {} s.ro key).held, s.roLow lid < c.slice) :
    s.roDue key lid = s := by
  rw [State.roDue, State.roDrain, roNext_none h]

@[simp] theorem touchRow_ro (s : State) (loc : Nat) : (s.touchRow loc).ro = s.ro := by
  rw [State.touchRow]; split <;> rfl

@[simp] theorem putBytes_ro (s : State) (loc n v : Nat) : (s.putBytes loc n v).ro = s.ro := rfl

theorem roWrite_puts (s : State) (y : RoTy) (loc : Nat) (r : Word) :
    ∃ v, s.roWrite y loc r = (s.putBytes loc (roBytes y) v).touchRow loc := ⟨_, rfl⟩

@[simp] theorem roWrite_ro (s : State) (y : RoTy) (loc : Nat) (r : Word) : (s.roWrite y loc r).ro = s.ro := by
  obtain ⟨v, hv⟩ := roWrite_puts s y loc r
  rw [hv, touchRow_ro, putBytes_ro]

@[simp] theorem roWrite_dies (s : State) (y : RoTy) (loc : Nat) (r : Word) : (s.roWrite y loc r).dies = s.dies := by
  obtain ⟨v, hv⟩ := roWrite_puts s y loc r
  rw [hv, touchRow_dies, putBytes_dies]

theorem byte_roWrite_outside (s : State) (y : RoTy) (loc : Nat) (r : Word) {a : Nat} (h : a < loc ∨ loc + roBytes y ≤ a) :
    (s.roWrite y loc r).byte a = s.byte a := by
  obtain ⟨v, hv⟩ := roWrite_puts s y loc r
  rw [hv, State.byte, touchRow_mem]
  exact byte_write_outside _ _ _ _ h

/-- The sum of 64-bit integers is theirs modulo 2^64. -/
theorem rdWord_roWrite_i64 {s : State} (hs : Safe s) (loc : Nat) (r : Word) :
    (s.roWrite .i64 loc r).rdWord loc = s.rdWord loc + r := by
  rw [State.roWrite, State.rdWord, touchRow_mem, ← State.rdWord]
  refine ((putBytes_word hs loc _).2).trans ?_
  rw [word_mod]
  apply BitVec.eq_of_toNat_eq
  simp only [word, State.rdWord, State.rdMem, BitVec.toNat_add, BitVec.toNat_ofNat, Nat.add_mod, Nat.mod_mod]

/-- A contribution that is applied adds to its word, and its slice counts as applied. -/
theorem roApply_unmoulded {s : State} {op : RemOp} {loc : Nat} {y : RoTy} (hk : op.kind = .roadd y) (hp : op.place = .mem loc)
    (hpois : s.mem.isPois loc = false) (hm : unmoulded s op.lid) (key : Nat) :
    s.roApply key op = some { s.roWrite y loc op.a with
      ro := Tab.upd {} s.ro key fun w => { w with maxApplied := max w.maxApplied op.slice } } := by
  have hro := roWrite_ro s y loc op.a
  have hdies := roWrite_dies s y loc op.a
  simp only [State.roApply, hp, hk, hpois, Bool.false_eq_true, if_false]
  generalize s.roWrite y loc op.a = t at hro hdies ⊢
  rw [hro]
  generalize (Tab.upd {} s.ro key fun w : RoWord => { w with maxApplied := max w.maxApplied op.slice }) = r
  have h : unmoulded ({ t with ro := r } : State) op.lid := unmoulded_of_dies hm hdies
  rw [tallyAgent_unmoulded h]

section
variable {s : State} {op : RemOp} {loc : Nat}

theorem roAccept_early (hdue : s.roDue (roKey op loc) op.lid = s) (hpois : s.mem.isPois loc = false)
    (hlow : op.slice < (Tab.rd {} s.ro (roKey op loc)).maxApplied) : s.roAccept op loc = (.bad 0x76, s) := by
  simp only [State.roAccept, hdue, hpois, hlow, Bool.false_eq_true, if_false, if_true]

theorem roAccept_applied (hdue : s.roDue (roKey op loc) op.lid = s) (hpois : s.mem.isPois loc = false)
    (hmax : (Tab.rd {} s.ro (roKey op loc)).maxApplied ≤ op.slice) (hlow : op.slice ≤ s.roLow op.lid) {t : State}
    (ht : s.roApply (roKey op loc) op = some t) : s.roAccept op loc = (.done (.val 0), t) := by
  simp only [State.roAccept, hdue, hpois, Nat.not_lt.2 hmax, hlow, ht, Bool.false_eq_true, if_false, if_true]

theorem roAccept_later (hdue : s.roDue (roKey op loc) op.lid = s) (hpois : s.mem.isPois loc = false)
    (hmax : (Tab.rd {} s.ro (roKey op loc)).maxApplied ≤ op.slice) (hlow : s.roLow op.lid < op.slice) :
    s.roAccept op loc = if 64 ≤ s.roHeld loc then (.bad 0x77, s) else
      (.done (.val 0), { s with ro := Tab.upd {} s.ro (roKey op loc) fun w => { w with held := w.held ++ [op] } }) := by
  simp only [State.roAccept, hdue, hpois, Nat.not_lt.2 hmax, Nat.not_le.2 hlow, Bool.false_eq_true, if_false]
  rfl

end

/-- Settles O27: where nothing held is due, the slice of a contribution decides between refusal, application and holding. -/
theorem orderedAdditions : Obligations.OrderedAdditions := by
  intro s op loc y hs hk hp hpois hm
  refine ⟨fun hheld => ?_, fun key => rfl⟩
  have hdue := roDue_none hheld
  refine ⟨roAccept_early hdue hpois, fun hmax hlow => ?_, fun hmax hlow => ⟨fun hfull => ?_, fun hroom => ?_⟩⟩
  · refine ⟨_, roAccept_applied hdue hpois hmax hlow (roApply_unmoulded hk hp hpois hm _), fun hy => ?_, fun a ha => ?_, ?_⟩
    · rw [hy]
      exact rdWord_roWrite_i64 hs loc op.a
    · exact byte_roWrite_outside s y loc op.a ha
    · rw [rd_upd_same]
      exact Nat.max_eq_right hmax
  · rw [roAccept_later hdue hpois hmax hlow, if_pos hfull]
  · refine ⟨_, (roAccept_later hdue hpois hmax hlow).trans (if_neg (Nat.not_le.2 hroom)), rfl, ?_⟩
    rw [rd_upd_same]

end Sys2Proof.Proofs

/-! PROOFS. Remote operations (02, 14). -/

namespace Sys2Proof.Proofs
open Sys2Proof.Machine Sys2Proof.Laws

/-! ## Remote operations at their issuer (R273, R326-R329) -/

theorem sameButTlb_remAccess (s : State) (a : Who) (t : Word) (n u : Nat) (kind : AKind) (dbg : Bool) :
    s.sameButTlb (remAccess s a t n u kind dbg).2 := by
  unfold remAccess
  split
  · exact sameButTlb_refl s
  · rename_i ea hea
    dsimp only
    split
    case h_5 =>
      have htr := sameButTlb_translate s a ea kind
      split <;> rename_i heq <;> rw [heq] at htr
      · exact htr
      · exact htr
      · split <;> exact htr
    case h_6 =>
      split
      · exact sameButTlb_refl s
      · split
        · split
          · exact sameButTlb_refl s
          · split <;> exact sameButTlb_refl s
        · split <;> exact sameButTlb_refl s
    all_goals exact sameButTlb_refl s

section
variable {s s1 u : State} {n l ea : Nat} {place : Place} {x y z : Tok}

/-- A performing remote operation that its block has not sent yet goes out and waits. -/
theorem performOp_sends {i : Instr} {nulled : Tok → Bool} {kind : RemKind} {f : State → Tok → Tok → RemOp → RemOp}
    (hm : s.mayPerform i true (nulled y) x y z) (hask : s.cur.frame.asked.find? s.ci = none)
    (hacc : remAccess s s.me x.w n n .ratomic false = (.ok (ea, place), s1))
    (chk : State → Who → Tok → Tok → Except FaultD (Option (Nat × Nat)) × State) :
    performOp i l true nulled chk (fun s a t y z => remSend n l (f s y z) kind s a t) s =
      s1.issue (f s y z (s1.remOf kind l place ea)) := by
  rw [performOp_may hm]
  simp only [remSend, hask, hacc, Option.isSome_none, Bool.false_eq_true, if_false]

/-- What a remote load finds once its access has passed its checks (R181, R326). -/
theorem remoteLoad_reaches (hacc : remAccess s s.me x.w 8 8 .rload true = (.ok (ea, place), s1))
    (hask : s.cur.frame.asked.find? s.ci = none) :
    (∀ v, s1.pendingLoad s.me l (locRange (placeLoc place) 8) = some (.ok v) →
      remoteLoad l s s.me x y = (.tok (.val (word v)) (locRange (placeLoc place) 8), s1.watch ea 8 l true false)) ∧
    (s1.pendingLoad s.me l (locRange (placeLoc place) 8) = none → s1.onItsWay place = false →
      ∀ u, u = (s1.watch ea 8 l true false).updF (fun f =>
          { f with loads := f.loads.put l { remote := true, reads := locRange (placeLoc place) 8 } }) →
        remoteLoad l s s.me x y = (.wait, u.issue (u.remOf .rld l place ea))) := by
  have hsame : s.sameButTlb s1 := of_snd hacc (sameButTlb_remAccess _ _ _ _ _ _ _)
  have hask1 : (s1.cur.frame.asked.find? s1.ci).isSome = false := by
    rw [sameButTlb_cur hsame, sameButTlb_ci hsame, hask]
    rfl
  refine ⟨fun v hv => ?_, fun hnone hway u hu => ?_⟩
  · simp only [remoteLoad, hacc, hask1, hv, Bool.false_eq_true, if_false]
  · simp only [remoteLoad, hacc, hask1, hnone, hway, ← hu, Bool.false_eq_true, if_false]

end

/-! ## Remote operations at their agent (R41, R325-R329) -/

@[simp] theorem wakeFull_dies (s : State) (loc : Nat) : (s.wakeFull loc).dies = s.dies := rfl

@[simp] theorem storeWords_dies (s : State) (t : Nat) (ls : List Nat) : (s.storeWords t ls).dies = s.dies := rfl

@[simp] theorem carriedTo_dies (s : State) (id loc : Nat) : (s.carriedTo id loc).dies = s.dies := rfl

section
variable {s u u' : State} {n loc : Nat} {op : RemOp} {t : Tok}

/-- What an operation does at its word goes into effect where no mould records or replays it. -/
theorem remPlace_done (hp : op.place = .mem loc) (hm : unmoulded u op.lid) (hat : u.remAt op loc = (.done t, u'))
    (hdies : u'.dies = u.dies) : u.remPlace op = (.done t, u') := by
  simp only [State.remPlace, hp, hat]
  split
  · rw [tallyAgent_unmoulded (unmoulded_of_dies hm hdies)]
  · rfl

/-- An operation at its word that does not wait concludes. -/
theorem exec_remoteOperation_mem (hpk : s.packet? n = some (.remote op)) (hp : op.place = .mem loc) {r : RemOut}
    (hr : (s.dropPacket n).remPlace op = (r, u')) (hw : r ≠ .wait) :
    exec (.remoteOperation n) s = .next (u'.opPerformed op r) := by
  refine congrArg Host.Outcome.next (?_ : _ = _)
  simp only [hpk, hp, hr]

/-- What a performed operation leaves at its word: it concludes at its issuer. -/
theorem exec_remoteOperation_done (hpk : s.packet? n = some (.remote op)) (hp : op.place = .mem loc)
    (hm : unmoulded s op.lid) (hat : (s.dropPacket n).remAt op loc = (.done t, u'))
    (hdies : u'.dies = (s.dropPacket n).dies) :
    exec (.remoteOperation n) s = .next (u'.opPerformed op (.done t)) :=
  exec_remoteOperation_mem hpk hp (remPlace_done hp (unmoulded_of_dies hm rfl) hat hdies) (fun h => nomatch h)

theorem opPerformed_other (hk : op.kind ≠ .rpost) (r : RemOut) : s.opPerformed op r = s.conclude op r := by
  unfold State.opPerformed
  split
  · exact absurd ‹_› hk
  · rfl

theorem opPerformed_post (hk : op.kind = .rpost) (hp : op.place = .mem loc) :
    s.opPerformed op (.done t) = s.gatherPost (ownerOf loc) (8 * 8192 + op.core % 8192) op := by
  simp only [State.opPerformed, hk, hp]

/-- An operation at a word whose layer is on. -/
theorem remAt_on (hoff : u.layerOff loc = false) (hbusy : u.layerBusy loc = false) :
    (op.kind = .rst ∨ op.kind = .rpost → u.remAt op loc =
      (.done (.val 0), (((u.wrWord loc op.a).dropReadBufs [loc]).storeWords op.tid [loc]).touchRow loc)) ∧
    (op.kind = .rstf → u.remAt op loc =
      (.done (.val 0), (((u.dropReadBufs [loc]).storeFull loc op.a).carriedTo op.ident loc).touchRow loc)) ∧
    (op.kind = .rld → u.mem.isPois loc = false → u.remAt op loc =
      (.done (.val (u.rdWord loc)), (u.touchRow loc).noteRead none op.tid loc)) ∧
    (∀ x b, ((op.kind = .ramo x ∧ b = 0) ∨ (op.kind = .rcas ∧ x = .cas ∧ b = op.b)) → op.place = .mem loc →
      u.mem.isPois loc = false → u.remAt op loc = (.done (.val (u.rdWord loc)),
        (((u.putBytes loc 8 (amoCalc x 64 (u.rdWord loc).toNat op.a.toNat b.toNat).1).wakeLine loc).touchRow
          loc).noteRead none op.tid loc)) := by
  refine ⟨fun hk => ?_, fun hk => ?_, fun hk hpois => ?_, fun x b hk hp hpois => ?_⟩
  · rcases hk with hk | hk <;> simp only [State.remAt, hoff, hbusy, hk, Bool.false_eq_true, if_false]
  · simp only [State.remAt, hoff, hbusy, hk, Bool.false_eq_true, if_false]
  · have hword : (u.touchRow loc).rdWord loc = u.rdWord loc := by rw [State.rdWord, touchRow_mem, State.rdWord]
    simp only [State.remAt, hoff, hbusy, hk, touchRow_mem, hpois, hword, Bool.false_eq_true, if_false]
  · rcases hk with ⟨hk, rfl⟩ | ⟨hk, rfl, rfl⟩ <;>
      simp only [State.remAt, hoff, hbusy, hk, State.amoAt, hpois, amoOut, hp, Bool.false_eq_true, if_false]

theorem conclude_mem_rst (hk : op.kind = .rst) : (s.conclude op (.done t)).mem = s.mem := by
  simp only [State.conclude, hk]
  split <;> rfl

end

/-! ## Answers (R41) -/

section
variable {s : State} {c k n i : Nat} {x : Instr} {tok : Tok}

theorem forward_cur (s : State) (x : Tok) : (s.forward x).cur = s.cur := by
  rw [State.forward]
  split
  · split
    · exact slot_updSlot_core _ _ (twinCore_ne _)
    · rfl
  · rfl

theorem forward_cursor (s : State) (x : Tok) : (s.forward x).cursor = s.cursor := by
  rw [State.forward]
  split
  · split <;> rfl
  · rfl

theorem forward_mem (s : State) (x : Tok) : (s.forward x).mem = s.mem := by
  rw [State.forward]
  split
  · split <;> rfl
  · rfl

theorem performed_cursor (s : State) (x : Instr) (l : Nat) (t : Tok) (fl : Nat) :
    (s.performed x l t fl).cursor = s.cursor := forward_cursor s t

/-- An instruction that fires is marked so, and its LSID resolves. -/
theorem performed_frame (s : State) (x : Instr) (l : Nat) (t : Tok) (fl : Nat) :
    ((s.performed x l t fl).slot s.cc s.ck).frame.fired.find? s.ci = some true ∧
      ((s.performed x l t fl).slot s.cc s.ck).frame.pend.find? l = some .done := by
  have hslot : (s.performed x l t fl).slot s.cc s.ck = (s.performed x l t fl).cur := by
    rw [State.cur, State.cc, State.ck, State.cc, State.ck, performed_cursor]
  have hci : (s.forward t).ci = s.ci := congrArg Cursor.word (forward_cursor s t)
  obtain ⟨⟨o, g, ds, heq⟩, -, -⟩ := deliver_effect s.ci t x.shape.targets (s.cur.frame.mark s.ci true)
  have hcur : (s.performed x l t fl).cur.frame =
      { ({ s.cur.frame.mark s.ci true with ops := o, regs := g, faults := ds } : Frame).orFlags fl with
        pend := s.cur.frame.pend.put l .done } := by
    rw [State.performed, State.resolve, cur_updF, frame_fireWith, forward_cur, hci, heq]
    rfl
  rw [hslot, hcur]
  exact ⟨find_put_same _ _ _, find_put_same _ _ _⟩

theorem performed_mem (s : State) (x : Instr) (l : Nat) (t : Tok) (fl : Nat) : (s.performed x l t fl).mem = s.mem :=
  forward_mem s t

/-- The state in which word i of slot k of core c has its answer: the cursor there, and nothing asked for. -/
def answered (s : State) (c k i : Nat) : State :=
  ({ s with cursor := { s.cursor with core := c, slot := k, word := i } } : State).updF
    fun f => { f with asked := f.asked.del i }

/-- The answer of a performing instruction that waits for it. -/
theorem answerAt_perform (hw : s.awaitsAt c k n i = true) (hx : (s.slot c k).frame.instrAt i = some x)
    (hc : x.shape.cls = .perform) : s.answerAt c k n i tok =
      { (answered s c k i).performed x (x.shape.lsid.getD 0) tok 0 with cursor := s.cursor } := by
  have hinstr : (answered s c k i).cur.frame.instrAt i = some x := by
    rw [answered, cur_updF]
    exact hx
  unfold State.answerAt
  rw [if_neg (by rw [hw]; exact Bool.false_ne_true)]
  unfold State.atWordOf
  refine congrArg (fun u : State => ({ u with cursor := s.cursor } : State)) ?_
  rw [answered] at hinstr ⊢
  simp only [hinstr, hc]
  rfl

/-- The answer of a load that waits for it. -/
theorem answerAt_load (hw : s.awaitsAt c k n i = true) (hx : (s.slot c k).frame.instrAt i = some x)
    (hc : x.shape.cls = .load) {r : LoadRec} (hr : (s.slot c k).frame.loads.find? (x.shape.lsid.getD 0) = some r) :
    s.answerAt c k n i tok =
      { (answered s c k i).loadDone x (x.shape.lsid.getD 0) true tok r.reads with cursor := s.cursor } := by
  have hframe : (answered s c k i).cur.frame = { (s.slot c k).frame with asked := (s.slot c k).frame.asked.del i } := by
    rw [answered, cur_updF]
    rfl
  have hinstr : (answered s c k i).cur.frame.instrAt i = some x := by
    rw [hframe]
    exact hx
  have hreads : (answered s c k i).cur.frame.loads.find? (x.shape.lsid.getD 0) = some r := by
    rw [hframe]
    exact hr
  unfold State.answerAt
  rw [if_neg (by rw [hw]; exact Bool.false_ne_true)]
  unfold State.atWordOf
  refine congrArg (fun u : State => ({ u with cursor := s.cursor } : State)) ?_
  rw [answered] at hinstr hreads ⊢
  simp only [hinstr, hc, hreads]
  rfl

end

/-- Settles O26: sent at the lock, performed at the word that the agent finds, concluded at the issuer. -/
theorem remoteOperations : Obligations.RemoteOperations := by
  refine ⟨fun s s1 p l t ea place o y w x r z hask => ⟨fun hm hacc => ?ramo, fun hm hacc => ?rcas, fun hm hacc => ?roadd,
    fun hm hacc => ?rvamo, fun hv hx hmay hacc => ?rld⟩,
    fun s n loc op hpk hp hm hoff hbusy => ⟨fun u hu => ?agent, fun hs hk => ?store,
      fun u tok i haw hi hc => ?answer, fun u v tok p l t r haw hi hr hv => ?answerLoad⟩⟩
  case ramo => exact congrArg _ (performOp_sends (f := fun _ y _ o => { o with a := y.w }) hm hask hacc _)
  case rcas => exact congrArg _ (performOp_sends (f := fun _ y z o => { o with a := y.w, b := z.w }) hm hask hacc _)
  case roadd =>
    exact congrArg _ (performOp_sends (f := fun s y _ o => { o with a := y.w, slice := s.roSlice }) hm hask hacc _)
  case rvamo => exact congrArg _ (performOp_sends (f := fun _ y _ q => { q with v := y.v, nulls := y.nulls }) hm hask hacc _)
  case rld =>
    obtain ⟨htaken, hsent⟩ := remoteLoad_reaches (y := r) hacc hask
    refine ⟨fun hnone hway u hu => congrArg Host.Outcome.next (?_ : _ = _), fun v hpend =>
      congrArg Host.Outcome.next (?_ : _ = _)⟩
    · rw [loadOp_may hv hx hmay, hsent hnone hway u hu]
    · exact loadOp_fires hv hx hmay (htaken v hpend) rfl
  case agent =>
    subst hu
    obtain ⟨hst, hstf, hld, hamo⟩ := remAt_on (u := s.dropPacket n) (op := op) hoff hbusy
    refine ⟨fun hk => ?_, fun hk => ?_, fun hk => ?_, fun hk hpois => ?_, fun x b hk hpois => ?_,
      fun r u' hr hw => exec_remoteOperation_mem hpk hp hr hw⟩
    · refine (exec_remoteOperation_done hpk hp hm (hst (.inl hk)) (by rw [touchRow_dies]; rfl)).trans ?_
      rw [opPerformed_other (by rw [hk]; exact fun h => nomatch h)]
    · refine (exec_remoteOperation_done hpk hp hm (hst (.inr hk)) (by rw [touchRow_dies]; rfl)).trans ?_
      rw [opPerformed_post hk hp]
    · refine (exec_remoteOperation_done hpk hp hm (hstf hk) (by rw [touchRow_dies]; rfl)).trans ?_
      rw [opPerformed_other (by rw [hk]; exact fun h => nomatch h)]
    · refine (exec_remoteOperation_done hpk hp hm (hld hk hpois) (by rw [noteRead_dies, touchRow_dies])).trans ?_
      rw [opPerformed_other (by rw [hk]; exact fun h => nomatch h)]
      rfl
    · refine (exec_remoteOperation_done hpk hp hm (hamo x b hk hp hpois)
        (by rw [noteRead_dies, touchRow_dies]; rfl)).trans ?_
      rw [opPerformed_other (by rcases hk with ⟨hk, -⟩ | ⟨hk, -⟩ <;> rw [hk] <;> exact fun h => nomatch h)]
      rfl
  case store =>
    have hmem : ((((s.dropPacket n).wrWord loc op.a).dropReadBufs [loc]).storeWords op.tid [loc]).mem =
        (s.wrWord loc op.a).mem := rfl
    obtain ⟨hst, -, -, -⟩ := remAt_on (u := s.dropPacket n) (op := op) hoff hbusy
    refine ⟨_, (exec_remoteOperation_done hpk hp hm (hst (.inl hk)) (by rw [touchRow_dies]; rfl)).trans
      (congrArg _ (opPerformed_other (by rw [hk]; exact fun h => nomatch h) _)), ?_, fun a ha => ?_⟩
    · rw [State.rdWord, conclude_mem_rst hk, touchRow_mem, hmem]
      exact rdWord_wrWord loc op.a hs
    · rw [State.byte, conclude_mem_rst hk, touchRow_mem, hmem]
      exact byte_wrWord_outside s op.a ha
  case answer =>
    have hans := answerAt_perform (tok := tok) haw hi hc
    obtain ⟨hfired, hpend⟩ := performed_frame (answered u op.core op.slot op.idx) i (i.shape.lsid.getD 0) tok 0
    rw [State.answer, hans]
    exact ⟨hfired, hpend, performed_mem (answered u op.core op.slot op.idx) i (i.shape.lsid.getD 0) tok 0⟩
  case answerLoad =>
    subst hv
    exact answerAt_load haw hi rfl hr

end Sys2Proof.Proofs

/-! PROOFS. The store buffer drains (09). -/

namespace Sys2Proof.Proofs
open Sys2Proof.Machine Sys2Proof.Laws

/-! ## Bytes written word by word (R152) -/

/-- The byte that cells give a location, the first listed holding. -/
def cellValue (cs : Cells) (a : Nat) : Byte := ((cs.find? (·.1 == a)).map (·.2.1)).getD 0

/-- Cells cover the word of a location with whole bytes. -/
def wholeWord (cs : Cells) (l : Nat) : Bool := (List.range 8).all fun i => cs.any fun c => c.1 == wordLoc l + i && c.2.2

theorem byWord_ne_nil {ls g : List Nat} (hg : g ∈ byWord ls) : g ≠ [] := by
  induction ls generalizing g with
  | nil => exact nomatch hg
  | cons l ls ih =>
    rw [byWord] at hg
    split at hg
    · rename_i x xs gs heq
      rw [heq] at ih
      split at hg
      · rcases List.mem_cons.1 hg with rfl | hg
        · exact List.cons_ne_nil _ _
        · exact ih (List.mem_cons_of_mem _ hg)
      · rcases List.mem_cons.1 hg with rfl | hg
        · exact List.cons_ne_nil _ _
        · exact ih hg
    · rcases List.mem_cons.1 hg with rfl | hg
      · exact List.cons_ne_nil _ _
      · exact ih hg

/-- The memory in which some locations have the bytes that cells give them. -/
def setBytes (cs : Cells) (ls : List Nat) (m : Memory) : Memory := ls.foldl (fun m x => m.setByte x (cellValue cs x)) m

theorem setBytes_cons (cs : Cells) (l : Nat) (ls : List Nat) (m : Memory) :
    setBytes cs (l :: ls) m = setBytes cs ls (m.setByte l (cellValue cs l)) := rfl

theorem setBytes_wf (cs : Cells) (ls : List Nat) {m : Memory} (h : m.wf = true) : (setBytes cs ls m).wf = true := by
  induction ls generalizing m with
  | nil => exact h
  | cons l ls ih => exact ih (wf_setByte _ _ h)

theorem setBytes_isFull (cs : Cells) (ls : List Nat) (m : Memory) (a : Nat) : (setBytes cs ls m).isFull a = m.isFull a := by
  induction ls generalizing m with
  | nil => rfl
  | cons l ls ih => rw [setBytes_cons, ih]; rfl

theorem setBytes_isPois (cs : Cells) (ls : List Nat) (m : Memory) (a : Nat) : (setBytes cs ls m).isPois a = m.isPois a := by
  induction ls generalizing m with
  | nil => rfl
  | cons l ls ih => rw [setBytes_cons, ih]; rfl

theorem setBytes_byte (cs : Cells) (ls : List Nat) {m : Memory} (h : m.wf = true) (a : Nat) :
    (setBytes cs ls m).byte a = if a ∈ ls then cellValue cs a else m.byte a := by
  induction ls generalizing m with
  | nil => rfl
  | cons l ls ih =>
    rw [setBytes_cons, ih (wf_setByte _ _ h)]
    by_cases ha : a = l
    · subst ha
      rw [byte_setByte_same _ _ h, ite_self, if_pos List.mem_cons_self]
    · rw [byte_setByte_other _ _ ha]
      simp only [List.mem_cons, ha, false_or]

theorem isPois_setPois_false {m : Memory} (h : m.wf = true) (l : Nat) {a : Nat} (ha : m.isPois a = false) :
    (m.setPois l false).isPois a = false := by
  obtain ⟨-, -, hpois⟩ := wf_iff.1 h
  by_cases hal : a / 8 = l / 8
  · rw [Memory.isPois, hal]
    exact rd_set_same (l / 8) false hpois
  · exact (rd_set_other m.pois false hal).trans ha

/-- One word's part of a write of cells. -/
def writeWordCells (cs : Cells) (r : List Nat × State) (ls : List Nat) : List Nat × State :=
  let s := r.2
  let l := wordLoc (ls.headD 0)
  let whole := (List.range 8).all fun i => cs.any fun c => c.1 == l + i && c.2.2
  if s.mem.isPois l && !whole then (r.1 ++ [l], s)
  else
    let m := ls.foldl (fun (m : Memory) x => m.setByte x (((cs.find? (·.1 == x)).map (·.2.1)).getD 0)) s.mem
    (r.1, { s with mem := if whole then m.setPois l false else m })

theorem writeCells_words (s : State) (cs : Cells) :
    s.writeCells cs = (byWord (cs.map (·.1))).foldl (writeWordCells cs) ([], s) := rfl

/-- A word that is not poisoned, or that the cells cover, takes their bytes. -/
theorem writeWordCells_writes {cs : Cells} {bad : List Nat} {s : State} {ls : List Nat}
    (h : s.mem.isPois (wordLoc (ls.headD 0)) = false ∨ wholeWord cs (ls.headD 0) = true) :
    writeWordCells cs (bad, s) ls = (bad, { s with
      mem := if wholeWord cs (ls.headD 0) then (setBytes cs ls s.mem).setPois (wordLoc (ls.headD 0)) false
        else setBytes cs ls s.mem }) := by
  have hcond : (s.mem.isPois (wordLoc (ls.headD 0)) && !wholeWord cs (ls.headD 0)) = false := by
    rcases h with h | h <;> rw [h]
    · rfl
    · exact Bool.and_false _
  exact if_neg (by rw [← wholeWord, hcond]; exact Bool.false_ne_true)

theorem wordLoc_div (l : Nat) : wordLoc l / 8 = l / 8 := by
  rw [wordLoc]
  omega

theorem isPois_wordLoc (m : Memory) (l : Nat) : m.isPois (wordLoc l) = m.isPois l := by
  rw [Memory.isPois, wordLoc_div, Memory.isPois]

/-- Every byte of a list of words is written, where none is poisoned and in part written. -/
theorem writeWords_write {cs : Cells} (gs : List (List Nat)) {s : State} (hs : Safe s) (hne : ∀ g ∈ gs, g ≠ [])
    (hok : ∀ l ∈ gs.flatten, s.mem.isPois l = false ∨ wholeWord cs l = true) :
    ∃ m, gs.foldl (writeWordCells cs) ([], s) = ([], { s with mem := m }) ∧ m.wf = true ∧
      (∀ a, m.byte a = if a ∈ gs.flatten then cellValue cs a else s.mem.byte a) ∧
      (∀ a, m.isFull a = s.mem.isFull a) ∧ (∀ a, s.mem.isPois a = false → m.isPois a = false) ∧
      ∀ a, (∀ l ∈ gs.flatten, l / 8 ≠ a / 8) → m.isPois a = s.mem.isPois a := by
  induction gs generalizing s with
  | nil => exact ⟨s.mem, rfl, hs, fun _ => rfl, fun _ => rfl, fun _ h => h, fun _ _ => rfl⟩
  | cons g gs ih =>
    obtain ⟨l, g', rfl⟩ := List.exists_cons_of_ne_nil (hne g List.mem_cons_self)
    have hl := hok l (by rw [List.flatten_cons]; exact List.mem_append_left _ List.mem_cons_self)
    have hwf := setBytes_wf cs (l :: g') hs
    rw [List.foldl_cons, writeWordCells_writes (by rw [isPois_wordLoc]; exact hl), List.headD_cons]
    generalize hm1 : (if wholeWord cs l then (setBytes cs (l :: g') s.mem).setPois (wordLoc l) false
      else setBytes cs (l :: g') s.mem) = m1
    have hwf1 : m1.wf = true := by
      rw [← hm1]
      split
      · exact wf_setPois _ _ hwf
      · exact hwf
    have hbyte1 : ∀ a, m1.byte a = if a ∈ l :: g' then cellValue cs a else s.mem.byte a := fun a => by
      rw [← setBytes_byte cs (l :: g') hs, ← hm1]
      split <;> rfl
    have hfull1 : ∀ a, m1.isFull a = s.mem.isFull a := fun a => by
      rw [← setBytes_isFull cs (l :: g') s.mem, ← hm1]
      split <;> rfl
    have hpois1 : ∀ a, s.mem.isPois a = false → m1.isPois a = false := fun a ha => by
      have hset : (setBytes cs (l :: g') s.mem).isPois a = false := by rw [setBytes_isPois, ha]
      rw [← hm1]
      split
      · exact isPois_setPois_false hwf _ hset
      · exact hset
    have hother1 : ∀ a, l / 8 ≠ a / 8 → m1.isPois a = s.mem.isPois a := fun a ha => by
      rw [← setBytes_isPois cs (l :: g') s.mem, ← hm1]
      split
      · have hne : a / 8 ≠ wordLoc l / 8 := by rw [wordLoc_div]; exact Ne.symm ha
        exact rd_set_other (setBytes cs (l :: g') s.mem).pois false hne
      · rfl
    obtain ⟨m, hfold, hwf', hbyte, hfull, hpois, hother⟩ := ih (s := { s with mem := m1 }) hwf1
      (fun g hg => hne g (List.mem_cons_of_mem _ hg)) (fun x hx =>
        (hok x (by rw [List.flatten_cons]; exact List.mem_append_right _ hx)).imp_left (hpois1 x))
    refine ⟨m, hfold, hwf', fun a => ?_, fun a => (hfull a).trans (hfull1 a), fun a ha => hpois a (hpois1 a ha),
      fun a ha => ?_⟩
    · rw [hbyte a, List.flatten_cons]
      by_cases hin : a ∈ gs.flatten
      · rw [if_pos hin, if_pos (List.mem_append_right _ hin)]
      · rw [if_neg hin]
        refine (hbyte1 a).trans ?_
        simp only [List.mem_append, hin, or_false]
    · refine (hother a fun x hx => ha x ?_).trans (hother1 a (ha l ?_))
      · rw [List.flatten_cons]
        exact List.mem_append_right _ hx
      · rw [List.flatten_cons]
        exact List.mem_append_left _ List.mem_cons_self

/-- A write of cells, where no word is poisoned and in part written. -/
theorem writeCells_write {cs : Cells} {s : State} (hs : Safe s)
    (hok : ∀ l ∈ cs.map (·.1), s.mem.isPois l = false ∨ wholeWord cs l = true) :
    ∃ m, s.writeCells cs = ([], { s with mem := m }) ∧ m.wf = true ∧
      (∀ a, m.byte a = if a ∈ cs.map (·.1) then cellValue cs a else s.mem.byte a) ∧
      (∀ a, m.isFull a = s.mem.isFull a) ∧ (∀ a, s.mem.isPois a = false → m.isPois a = false) ∧
      ∀ a, (∀ l ∈ cs.map (·.1), l / 8 ≠ a / 8) → m.isPois a = s.mem.isPois a := by
  have h := writeWords_write (byWord (cs.map (·.1))) hs (fun g hg => byWord_ne_nil hg)
    (fun l hl => hok l (by rwa [byWord_flatten] at hl))
  simpa only [byWord_flatten, ← writeCells_words] using h

/-! ## The head of a store buffer drains (R181) -/

section
variable {s t : State} {c loc : Nat} {e : SbEntry} {es : List SbEntry}

/-- The head that is written at its home leaves the buffer. -/
theorem exec_drain_local (hsb : (s.core c).sb = e :: es) (hmay : s.mayDrain c e = true) (hop : e.op.isRemote = false)
    (hper : s.perform c e = some t) : exec (.storeBufferDrain c) s = .next (t.updCore c fun x => { x with sb := es }) := by
  refine congrArg Host.Outcome.next (?_ : _ = _)
  have hdrain : s.drainHead c = some (t.updCore c fun x => { x with sb := es }) := by
    simp only [State.drainHead, hsb, hmay, Bool.not_true, Bool.false_eq_true, if_false]
    split
    · rename_i heq
      rw [heq] at hop
      exact nomatch hop
    · rw [hper]
      rfl
  simp only [hdrain]

/-- The head that is sent stays at the head until acknowledged on its die. -/
theorem exec_drain_remote (hsb : (s.core c).sb = e :: es) (hmay : s.mayDrain c e = true) {op : RemOp} {x : Scope}
    (hop : e.op = .remote op x) {u : State} (hu : u = (if e.rel then s.carry c e.tid x op.ident else s).send (.remote op)) :
    exec (.storeBufferDrain c) s = .next (if onDie c op.place then u.updCore c fun x => { x with sb := { e with sent := true } :: es }
      else (u.updCore c fun x => { x with sb := es }).await c e) := by
  refine congrArg Host.Outcome.next (?_ : _ = _)
  have hdrain : s.drainHead c = some (if onDie c op.place then u.updCore c fun x => { x with sb := { e with sent := true } :: es }
      else (u.updCore c fun x => { x with sb := es }).await c e) := by
    simp only [State.drainHead, hsb, hmay, hop, ← hu, Bool.not_true, Bool.false_eq_true, if_false]
  simp only [hdrain]

/-- A bank records nothing of a vault's words, and nothing of no launch. -/
theorem tallyBank_elsewhere {lid ident : Nat} (h : loc < 2 ^ 39 ∨ lid = 0) : s.tallyBank lid loc ident = some s := by
  rw [State.tallyBank]
  split
  · rfl
  · rw [State.tally, if_pos (h.resolve_left ‹_›)]

/-! ## Stores of plain bytes -/

theorem partsCells_raw (m : Memory) (lp : Bool) (cs : List Host.Cell) :
    partsCells m [.raw lp cs] [] = cs.map fun x => (x.1, x.2, true) := rfl

/-- A store of plain bytes is one store, whatever lanes it has. -/
theorem narrow_raw {lp : Bool} {cs : List Host.Cell} (hop : e.op = .data [.raw lp cs]) :
    ∃ e', e.narrow = [e'] ∧ e'.op = .data [.raw lp cs] := by
  rw [SbEntry.narrow, hop]
  dsimp only
  split
  · exact ⟨e, rfl, hop⟩
  · rename_i hne
    cases hl : e.lanes with
    | nil => rw [hl] at hne; exact absurd rfl hne
    | cons x xs => exact ⟨_, rfl, rfl⟩

/-- A store's trace for those who acquire its words lies outside memory and the cores. -/
theorem publish_same (s : State) (c : Nat) (e : SbEntry) (ls : List Nat) :
    (s.publish c e ls).mem = s.mem ∧ (s.publish c e ls).cores = s.cores := by
  rw [State.publish]
  split
  · rename_i x _
    have hf : ∀ (u : State) (l : Nat), (u.releaseWord c e.tid x false l).mem = u.mem ∧
        (u.releaseWord c e.tid x false l).cores = u.cores := fun _ _ => ⟨rfl, rfl⟩
    exact ⟨foldl_keeps State.mem (fun u l => (hf u l).1) _ _, foldl_keeps State.cores (fun u l => (hf u l).2) _ _⟩
  · exact ⟨rfl, rfl⟩

/-- What is left of plain bytes once they are written: memory with them, every core as before. -/
theorem writeData_raw {lp : Bool} {cs : List Host.Cell} (hs : Safe s) (hop : e.op = .data [.raw lp cs])
    (hok : ∀ x ∈ cs, s.layerOff x.1 = false ∧ s.mem.isPois x.1 = false) :
    (∀ a, (s.writeData c e).mem.byte a = ((cs.find? (·.1 == a)).map (·.2)).getD (s.byte a)) ∧
    (∀ a, (s.writeData c e).mem.isFull a = s.mem.isFull a ∧ (s.writeData c e).mem.isPois a = s.mem.isPois a) ∧
    (s.writeData c e).cores = s.cores := by
  have hcells : e.op.cellsOn s.mem = cs.map fun x => (x.1, x.2, true) := by rw [hop, SbOp.cellsOn, partsCells_raw]
  have hon : ((cs.map fun x => (x.1, x.2, true)).filter fun x => !s.layerOff x.1) = cs.map fun x => (x.1, x.2, true) := by
    refine List.filter_eq_self.2 fun y hy => ?_
    obtain ⟨x, hx, rfl⟩ := List.mem_map.1 hy
    rw [(hok x hx).1]
    rfl
  have hlocs : ∀ l, l ∈ (cs.map fun x => (x.1, x.2, true)).map (·.1) ↔ ∃ x ∈ cs, x.1 = l := fun l => by
    simp only [List.map_map, List.mem_map, Function.comp_apply]
  obtain ⟨m, hwrite, -, hbyte, hfull, hpois, hother⟩ := writeCells_write (cs := cs.map fun x => (x.1, x.2, true)) hs
    fun l hl => by
      obtain ⟨x, hx, rfl⟩ := (hlocs l).1 hl
      exact .inl (hok x hx).2
  have hdone : ∃ ls : List Nat, s.writeData c e =
      (ls.foldl State.touchRow (({ s with mem := m } : State).dropReadBufs ls)).publish c e ls := by
    refine ⟨((cs.map fun x => (x.1, x.2, true)).map fun x => wordLoc x.1).eraseDups, ?_⟩
    unfold State.writeData
    simp only [hcells, hon, hwrite, List.foldl_nil, if_true]
  obtain ⟨ls, hdone⟩ := hdone
  obtain ⟨hmem, hcores⟩ := publish_same (ls.foldl State.touchRow (({ s with mem := m } : State).dropReadBufs ls)) c e ls
  rw [foldl_keeps State.mem touchRow_mem] at hmem
  rw [foldl_keeps State.cores touchRow_cores] at hcores
  rw [hdone, hmem]
  refine ⟨fun a => (hbyte a).trans ?_, fun a => ⟨hfull a, ?_⟩, hcores⟩
  · rw [cellValue, List.find?_map]
    cases hfind : cs.find? (·.1 == a) with
    | none =>
      refine if_neg fun h => ?_
      obtain ⟨x, hx, hxa⟩ := (hlocs a).1 h
      have := List.find?_eq_none.1 hfind x hx
      exact this (by rw [hxa]; exact beq_self_eq_true a)
    | some x =>
      rw [if_pos ((hlocs a).2 ⟨x, List.mem_of_find?_eq_some hfind, by simpa using List.find?_some hfind⟩)]
      simp only [Function.comp_def, hfind, Option.map_some, Option.getD_some]
  · by_cases ha : ∃ x ∈ cs, x.1 / 8 = a / 8
    · obtain ⟨x, hx, hxa⟩ := ha
      have hsa : s.mem.isPois a = false := by rw [Memory.isPois, ← hxa]; exact (hok x hx).2
      rw [hsa]
      exact hpois a hsa
    · refine hother a fun l hl hla => ha ?_
      obtain ⟨x, hx, rfl⟩ := (hlocs l).1 hl
      exact ⟨x, hx, hla⟩

/-! ## BINIT (R321) -/

/-- The cells of n bytes of a number from a location on. -/
def imageCells (loc n v : Nat) : Cells := (leBytes n v).zipIdx.map fun (x, i) => (loc + i, x, true)

theorem length_leBytes (n v : Nat) : (leBytes n v).length = n := by
  induction n generalizing v with
  | zero => rfl
  | succ n ih => rw [leBytes, List.length_cons, ih]

theorem getElem?_leBytes {n v i : Nat} (h : i < n) : (leBytes n v)[i]? = some (BitVec.ofNat 8 (v / 256 ^ i)) := by
  induction n generalizing v i with
  | zero => exact absurd h (Nat.not_lt_zero i)
  | succ n ih =>
    cases i with
    | zero => rw [leBytes, List.getElem?_cons_zero, pow_zero, Nat.div_one]
    | succ i => rw [leBytes, List.getElem?_cons_succ, ih (by omega), Nat.div_div_eq_div_mul, pow_succ, Nat.mul_comm]

theorem mem_imageCells {loc n v : Nat} {x : Nat × Byte × Bool} :
    x ∈ imageCells loc n v ↔ ∃ i < n, x = (loc + i, BitVec.ofNat 8 (v / 256 ^ i), true) := by
  rw [imageCells, List.mem_map]
  constructor
  · rintro ⟨⟨b, i⟩, hb, rfl⟩
    rw [List.mem_zipIdx_iff_getElem?] at hb
    have hi : i < n := by
      have := (List.getElem?_eq_some_iff.1 hb).1
      rwa [length_leBytes] at this
    rw [getElem?_leBytes hi] at hb
    exact ⟨i, hi, by rw [Option.some.inj hb]⟩
  · rintro ⟨i, hi, rfl⟩
    exact ⟨(_, i), List.mem_zipIdx_iff_getElem?.2 (getElem?_leBytes hi), rfl⟩

theorem mem_imageCells_locs {loc n v a : Nat} : a ∈ (imageCells loc n v).map (·.1) ↔ loc ≤ a ∧ a < loc + n := by
  rw [List.mem_map]
  constructor
  · rintro ⟨x, hx, rfl⟩
    obtain ⟨i, hi, rfl⟩ := mem_imageCells.1 hx
    dsimp only
    omega
  · rintro ⟨hlo, hhi⟩
    exact ⟨_, mem_imageCells.2 ⟨a - loc, by omega, rfl⟩, by dsimp only; omega⟩

theorem cellValue_imageCells {loc n v i : Nat} (h : i < n) :
    cellValue (imageCells loc n v) (loc + i) = BitVec.ofNat 8 (v / 256 ^ i) := by
  rw [cellValue]
  cases hfind : (imageCells loc n v).find? (·.1 == loc + i) with
  | none =>
    have := List.find?_eq_none.1 hfind _ (mem_imageCells.2 ⟨i, h, rfl⟩)
    exact absurd (beq_self_eq_true _) this
  | some x =>
    obtain ⟨j, hj, rfl⟩ := mem_imageCells.1 (List.mem_of_find?_eq_some hfind)
    have hji : loc + j = loc + i := by simpa using List.find?_some hfind
    rw [Nat.add_left_cancel hji]
    rfl

/-- Words that lie in an aligned image are covered by its cells. -/
theorem wholeWord_imageCells {loc v l : Nat} (hal : loc % 32 = 0) (hlo : loc ≤ l) (hhi : l < loc + 32) :
    wholeWord (imageCells loc 32 v) l = true := by
  refine List.all_eq_true.2 fun i hi => List.any_eq_true.2 ?_
  have hi8 : i < 8 := List.mem_range.1 hi
  have hw : loc ≤ wordLoc l ∧ wordLoc l + 8 ≤ loc + 32 := by
    rw [wordLoc]
    omega
  obtain ⟨hw1, hw2⟩ := hw
  refine ⟨_, mem_imageCells.2 ⟨wordLoc l + i - loc, by omega, rfl⟩, ?_⟩
  have : loc + (wordLoc l + i - loc) = wordLoc l + i := by omega
  rw [Bool.and_true, this]
  exact beq_self_eq_true _

theorem binitImage_lt (a b : Nat) : binitImage a b < 256 ^ 32 := by
  have h1 := Nat.mod_lt a (show 2 ^ 32 > 0 by decide)
  have h2 := Nat.mod_lt b (show 2 ^ 32 > 0 by decide)
  rw [binitImage]
  generalize a % 2 ^ 32 = x at h1 ⊢
  generalize b % 2 ^ 32 = y at h2 ⊢
  omega

/-- BINIT writes its object, whatever the words held, and nothing else. -/
theorem writeCells_image {loc v : Nat} (hs : Safe s) (hal : loc % 32 = 0) (hv : v < 256 ^ 32) :
    ∃ m, s.writeCells (imageCells loc 32 v) = ([], { s with mem := m }) ∧ m.read loc 32 = v ∧
      ∀ x, (x < loc ∨ loc + 32 ≤ x) → m.byte x = s.byte x := by
  obtain ⟨m, hwrite, -, hbyte, -, -, -⟩ := writeCells_write (cs := imageCells loc 32 v) hs fun l hl => by
    obtain ⟨hlo, hhi⟩ := mem_imageCells_locs.1 hl
    exact .inr (wholeWord_imageCells hal hlo hhi)
  refine ⟨m, hwrite, ?_, fun x hx => (hbyte x).trans (if_neg fun h => ?_)⟩
  · have hread : m.read loc 32 = (s.mem.write loc 32 v).read loc 32 := read_congr fun a hlo hhi => by
      obtain ⟨i, rfl⟩ := Nat.exists_eq_add_of_le hlo
      rw [hbyte, if_pos (mem_imageCells_locs.2 ⟨hlo, hhi⟩), cellValue_imageCells (by omega),
        byte_write_inside _ _ _ _ hs (by omega)]
    rw [hread, read_write_same _ _ _ hs, Nat.mod_eq_of_lt hv]
  · obtain ⟨hlo, hhi⟩ := mem_imageCells_locs.1 h
    omega

theorem perform_binit {a b : Nat} (hop : e.op = .binit loc a b) (hoff : s.layerOff loc = false) {m : Memory}
    (hwrite : s.writeCells (imageCells loc 32 (binitImage a b)) = ([], { s with mem := m })) :
    ∃ t, s.perform c e = some t ∧ t.mem = m := by
  rw [imageCells] at hwrite
  refine ⟨(((((({ s with mem := m } : State).dropReadBufs [loc, loc + 8, loc + 16, loc + 24]).publish c e
    [loc, loc + 8, loc + 16, loc + 24]).newObj loc).wakeObject loc).touchRow loc), ?_, ?_⟩
  · simp only [State.perform, hop, hoff, hwrite, Bool.false_eq_true, if_false]
  · rw [touchRow_mem]
    exact (publish_same _ c e _).1

end

/-- Settles O20: the head leaves with what its operation writes; a store's bytes are those of its cells. -/
theorem storeBufferDrain : Obligations.StoreBufferDrain := by
  refine ⟨fun s c e es lp cs hs hsb hmay hop hok => ?plain, fun s c loc e es v hsb hmay hoff hrec =>
    ⟨fun pop hpop => ⟨fun hop => ?stf, fun hop hpois => ?feempty, fun x hop => ?notify, fun n k hop => ?semset,
      fun k x hop => ?fence, fun o hop => ?row, fun op x u hop hu => ⟨fun hd => ?away, fun hd => ?onDie⟩⟩,
      fun a b hs hop hal => ?binit⟩⟩
  case plain =>
    obtain ⟨e', hnarrow, hop'⟩ := narrow_raw hop
    obtain ⟨hbyte, hbits, hcores⟩ := writeData_raw (c := c) hs hop' hok
    refine ⟨_, exec_drain_local hsb hmay (by rw [hop]; rfl) (t := s.writeData c e') ?_, hbyte, hbits, ?_, fun d k => ?_⟩
    · simp only [State.perform, hop, hnarrow, List.foldl_cons, List.foldl_nil]
    · rw [core_updCore_same]
    · refine (slot_updCore_slots _ c d k (f := fun x => { x with sb := es }) fun _ => rfl).trans ?_
      rw [State.slot, State.core, hcores, State.slot, State.core]
  case stf =>
    subst hpop
    refine exec_drain_local hsb hmay (by rw [hop]; rfl) ?_
    simp only [State.perform, hop, hoff, Bool.false_eq_true, if_false]
    exact tallyBank_elsewhere hrec
  case feempty =>
    subst hpop
    refine exec_drain_local hsb hmay (by rw [hop]; rfl) ?_
    simp only [State.perform, hop, hoff, hpois, Bool.false_eq_true, if_false]
    exact tallyBank_elsewhere hrec
  case notify =>
    subst hpop
    refine exec_drain_local hsb hmay (by rw [hop]; rfl) ?_
    simp only [State.perform, hop, hoff, Bool.false_eq_true, if_false]
  case semset =>
    subst hpop
    refine exec_drain_local hsb hmay (by rw [hop]; rfl) ?_
    simp only [State.perform, hop]
  case fence =>
    subst hpop
    refine exec_drain_local hsb hmay (by rw [hop]; rfl) ?_
    simp only [State.perform, hop]
  case row =>
    subst hpop
    refine exec_drain_local hsb hmay (by rw [hop]; rfl) ?_
    simp only [State.perform, hop, hoff, Bool.false_eq_true, if_false]
  case away =>
    subst hpop
    rw [exec_drain_remote hsb hmay hop hu, hd, if_neg Bool.false_ne_true]
  case onDie => rw [exec_drain_remote hsb hmay hop hu, if_pos hd]
  case binit =>
    obtain ⟨m, hwrite, hread, hout⟩ := writeCells_image hs hal (binitImage_lt a b)
    obtain ⟨t, hper, hmem⟩ := perform_binit (c := c) hop hoff hwrite
    refine ⟨_, exec_drain_local hsb hmay (by rw [hop]; rfl) hper, ?_, fun x hx => ?_, ?_⟩
    · rw [State.barrier, State.rdMem, updCore_mem, hmem, hread]
    · rw [State.byte, updCore_mem, hmem, hout x hx]
    · rw [core_updCore_same]

end Sys2Proof.Proofs

/-! PROOFS. Launches end (05, 07). -/

namespace Sys2Proof.Proofs
open Sys2Proof.Machine Sys2Proof.Laws

/-! ## Quiescence waves (R143) -/

theorem entryAt_updEntry (s : State) (d e : Nat) (f : Entry → Entry) (d' e' : Nat) :
    (s.updEntry d e f).entryAt d' e' = if d' = d ∧ e' = e then f (s.entryAt d e) else s.entryAt d' e' := by
  rw [State.entryAt, State.updEntry]
  by_cases hd : d' = d
  · subst hd
    rw [die_updDie_same]
    by_cases he : e' = e
    · subst he
      rw [if_pos ⟨rfl, rfl⟩]
      exact rd_upd_same _ _ _ _
    · rw [if_neg fun h => he h.2]
      exact rd_upd_other _ _ _ he
  · rw [if_neg fun h => hd h.1, die_updDie_other _ _ hd, State.entryAt]

/-- What a wave adds to an entry as it passes a unit with the counts p. -/
def passed (unit : Nat) (p : Nat × Nat) (x : Entry) : Entry :=
  match x.wave with
  | none => x
  | some (a, b, t) =>
    if x.waveSeen.contains unit then x
    else { x with wave := some ((a + p.1) % 2 ^ 32, (b + p.2) % 2 ^ 32, t), waveSeen := x.waveSeen ++ [unit] }

/-- The pair of a launch in the counts of a core or, from 8192 on, of a port. -/
def unitPair (s : State) (lid unit : Nat) : Nat × Nat :=
  pairOf (if 8192 ≤ unit then (s.port (unit - 8192)).counts else (s.core unit).counts) lid

theorem wavePass_passed (s : State) (lid unit : Nat) :
    s.wavePass lid unit = s.updLaunch lid (passed unit (unitPair s lid unit)) := rfl

theorem passed_seen {unit : Nat} {x : Entry} (h : x.waveSeen.contains unit = true) (p : Nat × Nat) : passed unit p x = x := by
  unfold passed
  split
  · rfl
  · exact if_pos h

theorem passed_new {unit a b t : Nat} {x : Entry} (hw : x.wave = some (a, b, t)) (h : x.waveSeen.contains unit = false)
    (p : Nat × Nat) : passed unit p x =
      { x with wave := some ((a + p.1) % 2 ^ 32, (b + p.2) % 2 ^ 32, t), waveSeen := x.waveSeen ++ [unit] } := by
  unfold passed
  rw [hw]
  exact if_neg (by rw [h]; exact Bool.false_ne_true)

/-- Entries that differ in nothing but how far a wave of theirs has come. -/
def sameButWave (x y : Entry) : Prop :=
  { y with wave := none, waveSeen := [] } = { x with wave := none, waveSeen := [] } ∧ y.wave.isSome = x.wave.isSome

theorem sameButWave_fields {x y : Entry} (h : sameButWave x y) : y.st = x.st ∧ y.gen = x.gen ∧ y.lastWave = x.lastWave ∧
    y.ended = x.ended ∧ y.lrec = x.lrec ∧ y.reserve = x.reserve :=
  ⟨(congrArg Entry.st h.1 :), (congrArg Entry.gen h.1 :), (congrArg Entry.lastWave h.1 :), (congrArg Entry.ended h.1 :),
    (congrArg Entry.lrec h.1 :), (congrArg Entry.reserve h.1 :)⟩

theorem sameButWave_passed (unit : Nat) (p : Nat × Nat) (x : Entry) : sameButWave x (passed unit p x) := by
  unfold passed
  split
  · exact ⟨rfl, rfl⟩
  · rename_i hw
    split
    · exact ⟨rfl, rfl⟩
    · exact ⟨rfl, by rw [hw]; rfl⟩

/-- States that differ in nothing but how far the waves of launches have come. -/
def onlyWaves (s u : State) : Prop := (∃ ds, u = { s with dies := ds }) ∧ ∀ d e, sameButWave (s.entryAt d e) (u.entryAt d e)

theorem onlyWaves_refl (s : State) : onlyWaves s s := ⟨⟨s.dies, rfl⟩, fun _ _ => ⟨rfl, rfl⟩⟩

theorem onlyWaves_wavePass {s u : State} (h : onlyWaves s u) (lid unit : Nat) : onlyWaves s (u.wavePass lid unit) := by
  obtain ⟨⟨ds, hu⟩, he⟩ := h
  rw [wavePass_passed]
  refine ⟨⟨(u.updLaunch lid (passed unit (unitPair u lid unit))).dies, ?_⟩, fun d e => ?_⟩
  · rw [hu]
    rfl
  · rw [State.updLaunch, entryAt_updEntry]
    split
    · rename_i hde
      obtain ⟨rfl, rfl⟩ := hde
      obtain ⟨heq, hsome⟩ := sameButWave_passed unit (unitPair u lid unit) (u.entryAt (lidDie lid) (lidEntry lid))
      exact ⟨heq.trans (he _ _).1, hsome.trans (he _ _).2⟩
    · exact he d e

/-- The return of a wave takes in the units that it has not passed. -/
def waveAll (d e : Nat) (units : List Nat) (s : State) : State :=
  units.foldl (fun (s : State) u => s.wavePass (s.lidAt d e) u) s

theorem onlyWaves_waveAll (d e : Nat) (units : List Nat) {s u : State} (h : onlyWaves s u) :
    onlyWaves s (waveAll d e units u) := by
  induction units generalizing u with
  | nil => exact h
  | cons x xs ih => exact ih (onlyWaves_wavePass h _ _)

theorem entryAt_waveAll_seen {d e : Nat} {units : List Nat} {s : State}
    (h : ∀ u ∈ units, (s.entryAt d e).waveSeen.contains u = true) : (waveAll d e units s).entryAt d e = s.entryAt d e := by
  induction units generalizing s with
  | nil => rfl
  | cons u us ih =>
    have hpass : (s.wavePass (s.lidAt d e) u).entryAt d e = s.entryAt d e := by
      rw [wavePass_passed, State.updLaunch, entryAt_updEntry]
      split
      · rename_i hde
        rw [← hde.1, ← hde.2]
        exact passed_seen (h u List.mem_cons_self) _
      · rfl
    refine (ih fun x hx => ?_).trans hpass
    rw [hpass]
    exact h x (List.mem_cons_of_mem _ hx)

theorem allEnded_iff (s : State) (lid : Nat) : s.allEnded lid = true ↔
    (s.entry lid).ended = [(0, (s.entry lid).lrec.slices)] ∧ s.launchEmpty lid = true ∧ s.holdsSums lid = false := by
  simp only [State.allEnded, Bool.and_eq_true, beq_iff_eq, Bool.not_eq_true', and_assoc]

/-- How far waves have come says nothing of whether a launch has ended. -/
theorem allEnded_onlyWaves {s u : State} (h : onlyWaves s u) (lid : Nat) : u.allEnded lid = s.allEnded lid := by
  obtain ⟨⟨ds, hu⟩, he⟩ := h
  have hx : sameButWave (s.entry lid) (u.entry lid) := he _ _
  obtain ⟨-, -, -, hended, hlrec, hreserve⟩ := sameButWave_fields hx
  have hslots : u.allSlotsOf lid = s.allSlotsOf lid := by rw [hu]; rfl
  have hcores : u.cores = s.cores := by rw [hu]
  have hro : u.ro = s.ro := by rw [hu]
  rw [State.allEnded, State.allEnded, State.launchEmpty, State.launchEmpty, State.holdsSums, State.holdsSums, hended, hlrec,
    hreserve, hslots, hcores, hro]

theorem lidAt_onlyWaves {s u : State} (h : onlyWaves s u) (d e : Nat) : u.lidAt d e = s.lidAt d e := by
  obtain ⟨-, hgen, -⟩ := sameButWave_fields (h.2 d e)
  rw [State.lidAt, State.lidAt, hgen]

/-- What the return of a wave leaves of its entry, in the state in which it has passed every unit. -/
def waveReturned (s : State) (d e : Nat) (y : Entry) : Entry :=
  match y.wave with
  | none => y
  | some (a, b, _) =>
    { y with
      wave := none, waveSeen := [], lastWave := some (a, b), waveDue := s.time + 1000
      quiescent := y.st == .draining && a == b && y.lastWave == some (a, b) && s.allEnded (s.lidAt d e) }

/-- The units that a wave passes: every core, and every port from 8192 on. -/
def waveUnits (s : State) : List Nat := s.cores.map (fun x => x.1) ++ s.ports.map fun x => 8192 + x.1

theorem exec_quiescenceWaveReturn {s : State} {d e : Nat} (hd : d < 4) (hw : (s.entryAt d e).wave.isNone = false) :
    exec (.quiescenceWaveReturn d e) s =
      .next ((waveAll d e (waveUnits s) s).updEntry d e (waveReturned (waveAll d e (waveUnits s) s) d e)) := by
  refine congrArg Host.Outcome.next (?_ : _ = _)
  rw [Nat.mod_eq_of_lt hd, hw]
  rfl

theorem waveReturned_some {s : State} {d e a b t : Nat} {y : Entry} (hw : y.wave = some (a, b, t)) :
    waveReturned s d e y = { y with
      wave := none, waveSeen := [], lastWave := some (a, b), waveDue := s.time + 1000
      quiescent := y.st == .draining && a == b && y.lastWave == some (a, b) && s.allEnded (s.lidAt d e) } := by
  rw [waveReturned, hw]

/-- Settles O43: how far waves have come is all that their passes change, so that the return decides on the entry's own
total. -/
theorem launchesEnd : Obligations.LaunchesEnd := by
  intro s d e n hd
  have hmod : d % 4 = d := Nat.mod_eq_of_lt hd
  refine ⟨fun lid hst hheld hq => ⟨fun hnone hdue => ?starts, fun hwave => ?goesOn⟩, fun lid a b w hw p hp => ⟨fun hseen => ?seen,
    fun hnew => ?new⟩, fun a b w hw => ?returns, fun lid => allEnded_iff s lid, fun hst hheld hq hend => ?ends,
    fun hst hstatus hww hdw => ?completes, fun hst hkill hbusy => ?killed, fun hst hkill hww hdw hcmds => ?forced⟩
  case starts =>
    refine congrArg Host.Outcome.next (?_ : _ = _)
    simp only [hst, hheld, hq, hnone, Nat.not_lt.2 hdue, Option.isNone_none, Option.isSome_none, ne_eq, not_true_eq_false,
      and_false, or_false, if_false, Bool.false_eq_true]
  case goesOn =>
    obtain ⟨w, hw⟩ := Option.ne_none_iff_exists'.1 hwave
    refine congrArg Host.Outcome.next (?_ : _ = _)
    simp only [hst, hheld, hq, hw, Option.isNone_some, Option.isSome_some, ne_eq, not_true_eq_false, false_and, or_false,
      if_false, if_true, Bool.false_eq_true]
  case seen => rw [wavePass_passed, entry_updLaunch, passed_seen hseen]
  case new =>
    subst hp
    rw [wavePass_passed, entry_updLaunch, passed_new hw hnew]
    exact ⟨rfl, rfl⟩
  case returns =>
    have hsame := onlyWaves_waveAll d e (waveUnits s) (onlyWaves_refl s)
    have hunits := entryAt_waveAll_seen (d := d) (e := e) (units := waveUnits s) (s := s)
    rw [exec_quiescenceWaveReturn hd (by rw [hw]; rfl)]
    generalize waveAll d e (waveUnits s) s = u at hsame hunits ⊢
    obtain ⟨hst, -, hlast, -, -, -⟩ := sameButWave_fields (hsame.2 d e)
    obtain ⟨⟨x, y, w'⟩, hxy⟩ : ∃ v, (u.entryAt d e).wave = some v :=
      Option.isSome_iff_exists.1 (by rw [(hsame.2 d e).2, hw]; rfl)
    have htime : u.time = s.time := by
      obtain ⟨⟨ds, hds⟩, -⟩ := hsame
      rw [hds]
    refine ⟨_, x, y, rfl, ?_⟩
    rw [entryAt_updEntry, if_pos ⟨rfl, rfl⟩, waveReturned_some hxy, hst, hlast, allEnded_onlyWaves hsame,
      lidAt_onlyWaves hsame, htime]
    refine ⟨rfl, rfl, rfl, ?_, fun hcores hports => ?_⟩
    · simp only [Bool.and_eq_true, beq_iff_eq, and_assoc]
    · have hkept := hunits fun v hv => ?_
      · rw [hkept, hw] at hxy
        obtain ⟨rfl, rfl, -⟩ := hxy
        exact ⟨rfl, rfl⟩
      · rcases List.mem_append.1 hv with hv | hv
        · obtain ⟨c, hc, rfl⟩ := List.mem_map.1 hv
          exact hcores c hc
        · obtain ⟨p, hp, rfl⟩ := List.mem_map.1 hv
          exact hports p hp
  case ends =>
    refine congrArg Host.Outcome.next (?_ : _ = _)
    simp only [hmod, hst, hheld, hq, hend, Bool.not_false, and_self, if_true]
  case completes =>
    refine congrArg Host.Outcome.next (?_ : _ = _)
    simp only [hmod, hst, hstatus, hww, hdw, Bool.false_eq_true, or_self, if_false, ne_eq, not_false_eq_true, and_self, if_true]
  case killed =>
    refine congrArg Host.Outcome.next (?_ : _ = _)
    simp only [hmod, hst, hkill, hbusy, ne_eq, not_true_eq_false, Bool.not_true, Bool.false_eq_true, or_self, if_false,
      List.isEmpty_nil, if_true]
  case forced =>
    refine congrArg Host.Outcome.next (?_ : _ = _)
    simp only [hmod, hst, hkill, hww, hdw, hcmds, Bool.false_eq_true, or_self, if_false, reduceCtorEq, false_and, Bool.not_false,
      and_self, if_true]

end Sys2Proof.Proofs

/-! PROOFS. Cuts, comparisons of twins, replays that diverge (10). -/

namespace Sys2Proof.Proofs
open Sys2Proof.Machine Sys2Proof.Laws

/-! ## The steps of a cut (R220, R222) -/

section
variable {s s1 : State} {n sq a net lid lack : Nat}

theorem exec_cutOrder (hp : s.packet? n = some (.cutOrder sq lid)) (hr : s.cutRuns lid = true) :
    exec (.cutOrder n) s = .next
      (if (routerCores sq).all ((s.reached sq lid).drainedAt lid) && !(s.reached sq lid).cutWaits sq lid then
        ((((s.reached sq lid).dropPacket n).sweepAt sq lid).sendMarkers sq lid).cutWrite sq lid
      else s.reached sq lid) := by
  refine congrArg Host.Outcome.next (?_ : _ = _)
  simp only [hp, hr, Bool.not_true, Bool.false_eq_true, if_false]

theorem exec_cutMarker (hp : s.net[n]? = some (.cutMarker a sq net lid)) (hr : s.cutRuns lid = true) :
    exec (.cutMarker n) s = .next (if (net = 2 ∧ s.linkTraffic n a sq lid = true) ∨ s.cutWaits sq lid = true then s
      else (((s.dropPacket n).updLaunch lid fun x => { x with cutIn := x.cutIn ++ [(a, sq, net)] }).reached sq lid).cutWrite
        sq lid) := by
  refine congrArg Host.Outcome.next (?_ : _ = _)
  simp only [hp, hr, Bool.not_true, Bool.false_eq_true, if_false]

/-- A router that has sent its markers and has one from every input on every network. -/
def routerDone (s : State) (sq lid : Nat) : Bool :=
  (s.entry lid).cutSent.contains sq &&
    (routerInputs sq).all fun a => markerNets.all fun n => (s.entry lid).cutIn.contains (a, sq, n)

theorem cutWrite_done (hd : routerDone s sq lid = true) (hw : s.writeItems (s.cutItems sq lid) lid = (s1, lack)) :
    s.cutWrite sq lid = (s1.updLaunch lid fun x => { x with cutSent := x.cutSent.filter (· != sq) }).send
      (.cutReport sq lid lack) := by
  rw [routerDone] at hd
  simp only [State.cutWrite, hd, hw, if_true]

theorem cutWrite_open (hd : routerDone s sq lid = false) : s.cutWrite sq lid = s := by
  rw [routerDone] at hd
  simp only [State.cutWrite, hd, Bool.false_eq_true, if_false]

theorem exec_routerReport (hp : s.packet? n = some (.cutReport sq lid lack)) (hr : s.cutRuns lid = true)
    (h1 : s1 = (s.dropPacket n).updLaunch lid fun x =>
      { x with cutWait := x.cutWait.filter (· != sq), cutLack := x.cutLack + lack }) :
    exec (.routerReport n) s = .next (if !(s1.entry lid).cutWait.isEmpty then s1
      else if (s1.entry lid).cutLack = 0 then (s1.cutDone lid).answerCut lid 0
      else (s1.cutAbandoned lid).answerCut lid (s1.entry lid).cutLack) := by
  refine congrArg Host.Outcome.next (?_ : _ = _)
  simp only [hp, hr, Bool.not_true, Bool.false_eq_true, if_false]
  rw [← h1]

end

/-! ## What a pair holds back (R198, R225) -/

theorem insert_perm (g : Gated) (l : List Gated) : (g.insert l).Perm (g :: l) := by
  induction l with
  | nil => exact List.Perm.refl _
  | cons h hs ih =>
    rw [Gated.insert]
    split
    · exact List.Perm.refl _
    · exact (ih.cons h).trans (List.Perm.swap g h hs)

theorem insert_sorted {g : Gated} {l : List Gated} (h : l.Pairwise fun a b => a.stamp ≤ b.stamp) :
    (g.insert l).Pairwise fun a b => a.stamp ≤ b.stamp := by
  induction l with
  | nil => exact List.pairwise_singleton _ _
  | cons x xs ih =>
    obtain ⟨hx, hxs⟩ := List.pairwise_cons.1 h
    rw [Gated.insert]
    split
    · rename_i hlt
      refine List.pairwise_cons.2 ⟨fun y hy => ?_, h⟩
      rcases List.mem_cons.1 hy with rfl | hy
      · exact Nat.le_of_lt hlt
      · exact (Nat.le_of_lt hlt).trans (hx y hy)
    · rename_i hge
      refine List.pairwise_cons.2 ⟨fun y hy => ?_, ih hxs⟩
      rcases List.mem_cons.1 ((insert_perm g xs).mem_iff.1 hy) with rfl | hy
      · exact Nat.not_lt.1 hge
      · exact hx y hy

theorem insertAll_sorted (gs : List Gated) {l : List Gated} (h : l.Pairwise fun a b => a.stamp ≤ b.stamp) :
    (gs.foldl (fun l (g : Gated) => g.insert l) l).Pairwise (fun a b => a.stamp ≤ b.stamp) ∧
      (gs.foldl (fun l (g : Gated) => g.insert l) l).Perm (gs ++ l) := by
  induction gs generalizing l with
  | nil => exact ⟨h, List.Perm.refl _⟩
  | cons g gs ih =>
    obtain ⟨hsorted, hperm⟩ := ih (insert_sorted (g := g) h)
    exact ⟨hsorted, hperm.trans (((insert_perm g l).append_left gs).trans List.perm_middle)⟩

theorem items_perm (t : TwinState) :
    t.items.Perm (t.gated.map Gated.store ++ t.gatedCmds.map Gated.cmd ++ t.gatedMsgs.map Gated.msg) := by
  have h := (insertAll_sorted (t.gated.map Gated.store ++ t.gatedCmds.map Gated.cmd ++ t.gatedMsgs.map Gated.msg)
    List.Pairwise.nil).2
  rwa [List.append_nil] at h

/-- Items leave in order until one has no room. -/
theorem releaseGated_splits {c : Nat} (gs : List Gated) {s s1 : State} {rest : List Gated}
    (h : s.releaseGated c gs = (s1, rest)) : (∃ out, gs = out ++ rest) ∧ ∀ g l, rest = g :: l → s1.ungate c g = none := by
  induction gs generalizing s with
  | nil =>
    obtain ⟨rfl, rfl⟩ := Prod.mk.inj h
    exact ⟨⟨[], rfl⟩, fun g l hl => nomatch hl⟩
  | cons x xs ih =>
    rw [State.releaseGated] at h
    split at h
    · obtain ⟨⟨out, hout⟩, hfirst⟩ := ih h
      exact ⟨⟨x :: out, by rw [hout]; rfl⟩, hfirst⟩
    · rename_i hnone
      obtain ⟨rfl, rfl⟩ := Prod.mk.inj h
      refine ⟨⟨[], rfl⟩, fun g l hl => ?_⟩
      obtain ⟨rfl, -⟩ := List.cons.inj hl
      exact hnone

theorem core_nextSerial (s : State) (c : Nat) : s.nextSerial.core c = s.core c := rfl

/-- A store that leaves joins the store buffer, and memory is as before. -/
theorem ungate_store {s t : State} {c : Nat} {e : SbEntry} (he : e.isPost = false) (h : s.ungate c (.store e) = some t) :
    t.mem = s.mem ∧ (t.core c).sb.length = (s.core c).sb.length + 1 := by
  have hpost : ({ e with stamp := s.serial } : SbEntry).isPost = false := he
  simp only [State.ungate, hpost, Bool.false_eq_true, if_false] at h
  split at h
  · obtain rfl := Option.some.inj h
    refine ⟨rfl, ?_⟩
    rw [core_nextSerial, core_updCore_same]
    exact List.length_append
  · exact nomatch h

theorem releaseGated_stores {c : Nat} (gs : List Gated) {s s1 : State} {rest : List Gated}
    (h : s.releaseGated c gs = (s1, rest)) (hst : ∀ g ∈ gs, ∃ e, g = .store e ∧ e.isPost = false) :
    s1.mem = s.mem ∧ (s1.core c).sb.length + rest.length = (s.core c).sb.length + gs.length := by
  induction gs generalizing s with
  | nil =>
    obtain ⟨rfl, rfl⟩ := Prod.mk.inj h
    exact ⟨rfl, rfl⟩
  | cons x xs ih =>
    rw [State.releaseGated] at h
    split at h
    · rename_i t ht
      obtain ⟨e, rfl, he⟩ := hst x List.mem_cons_self
      obtain ⟨hmem, hlen⟩ := ungate_store he ht
      obtain ⟨hmem', hlen'⟩ := ih h fun g hg => hst g (List.mem_cons_of_mem _ hg)
      refine ⟨hmem'.trans hmem, ?_⟩
      rw [List.length_cons]
      omega
    · obtain ⟨rfl, rfl⟩ := Prod.mk.inj h
      exact ⟨rfl, rfl⟩

/-! ## The comparison of a pair (R225-R227) -/

section
variable {s s1 : State} {c k j : Nat} {t u : TwinState}

theorem compareTwin_passes
    (h : t.passing = true ∨ t.chkLost = false ∧ u.chkLost = false ∧ t.fp = u.fp ∧ faultsAgree t.faultRec u.faultRec = true) :
    s.compareTwin c k t u = s.twinPass c k t u := by
  rw [State.compareTwin]
  rcases h with h | ⟨ht, hu, hfp, hf⟩
  · rw [if_pos h]
  · split
    · rfl
    · simp only [ht, hu, hfp, hf, Bool.or_self, Bool.false_eq_true, if_false, beq_self_eq_true, Bool.and_self, if_true]

theorem twinPass_waits {rest : List Gated} (h : s.releaseGated c t.items = (s1, rest)) (hr : rest ≠ []) :
    s.twinPass c k t u = s1.updSlot c k fun x => { x with twin := x.twin.map fun y => y.hold rest } := by
  have hne : rest.isEmpty = false := by
    cases rest with
    | nil => exact absurd rfl hr
    | cons x xs => rfl
  simp only [State.twinPass, h, hne, Bool.not_false, if_true]

theorem twinPass_ends (h : s.releaseGated c t.items = (s1, [])) :
    (t.faultRec = none → u.faultRec = none →
      s.twinPass c k t u = ((s1.both c k Slot.checkpoint).answerTwin t.asks 0).applyStop c k) ∧
    (∀ f, t.faultRec = some f → faultsAgree t.faultRec u.faultRec = true →
      s.twinPass c k t u = ((s1.both c k Slot.checkpoint).answerTwin t.asks 0).pairFault c k 0 f) := by
  refine ⟨fun ht hu => ?_, fun f ht hf => ?_⟩
  · simp only [State.twinPass, h, ht, hu, List.isEmpty_nil, Bool.not_true, Bool.false_eq_true, if_false, Option.isNone_none,
      if_true]
  · rw [ht] at hf
    simp only [State.twinPass, h, ht, hf, List.isEmpty_nil, Bool.not_true, Bool.false_eq_true, if_false, if_true]

theorem compareTwin_differs (hp : t.passing = false) (ht : t.chkLost = false) (hu : u.chkLost = false) (hfp : t.fp ≠ u.fp) :
    s.compareTwin c k t u = if 2 ≤ t.mism then
      ((s.twinReload c k t.mism).pairFault c k 3 { cause := 0xC0, iv := false }).answerTwin t.asks 3
    else ((s.twinReload c k (t.mism + 1)).answerTwin t.asks 2).applyStop c k := by
  simp only [State.compareTwin, hp, ht, hu, Bool.or_self, Bool.false_eq_true, if_false, beq_false_of_ne hfp, Bool.false_and]

/-- What of a slot decides which other slot is its copy. -/
def pairKey (x : Slot) : Bool × Nat × Option Nat × Word × SlotState :=
  (x.twin.isSome, x.pair, x.slice, x.ctx.tsw, x.st)

theorem twinSlot_congr {v : State} (h : ∀ d i, pairKey (v.slot d i) = pairKey (s.slot d i)) :
    v.twinSlot c k = s.twinSlot c k := by
  obtain ⟨htwin, hpair, hslice, htsw, -⟩ : _ ∧ _ ∧ _ ∧ _ ∧ _ := by simpa only [pairKey, Prod.mk.injEq] using h c k
  unfold State.twinSlot
  refine congrArg (fun f => List.find? f [0, 1, 2, 3]) (funext fun i => ?_)
  obtain ⟨htwin', hpair', hslice', htsw', hst'⟩ : _ ∧ _ ∧ _ ∧ _ ∧ _ := by
    simpa only [pairKey, Prod.mk.injEq] using h (twinCore c) i
  simp only [htwin, hpair, hslice, htsw, htwin', hpair', hslice', htsw', hst']

theorem updSlot_pairKey {f : Slot → Slot} (hf : ∀ x, pairKey (f x) = pairKey x) (d i : Nat) :
    pairKey ((s.updSlot c k f).slot d i) = pairKey (s.slot d i) := by
  by_cases hd : d = c
  · subst hd
    by_cases hi : i = k
    · subst hi
      rw [slot_updSlot_same, hf]
    · rw [slot_updSlot_slot _ _ hi]
  · rw [slot_updSlot_core _ _ hd]

/-- What abandoning a block discards of its copy: the values forwarded since. -/
def dropFwd (y : Slot) : Slot :=
  { y.noFrames with twin := y.twin.map fun t => { t with fwd := t.fwd.filter fun e => decide (e.1 < t.seq * 128) } }

theorem dropFwd_pairKey (y : Slot) : pairKey (dropFwd y) = pairKey y := by
  simp only [pairKey, dropFwd, Option.isSome_map]
  rfl

theorem abandon_pairKey (s : State) (c k d i : Nat) : pairKey ((s.abandon c k).slot d i) = pairKey (s.slot d i) := by
  have h : ∀ d i, pairKey (((s.releaseResv c k).updSlot c k Slot.noFrames).slot d i) = pairKey (s.slot d i) := fun d i => by
    rw [updSlot_pairKey (f := Slot.noFrames) fun _ => rfl, releaseResv_slot]
  rw [State.abandon]
  dsimp only
  split
  · exact (updSlot_pairKey dropFwd_pairKey d i).trans (h d i)
  · exact h d i

/-- The copy of a pair whose block is abandoned keeps its checkpoint. -/
theorem abandon_copy (hj : s.twinSlot c k = some j) (hu : (s.slot (twinCore c) j).twin = some u) :
    ∃ v, ((s.abandon c k).slot (twinCore c) j).twin = some v ∧ v.chk = u.chk := by
  have hslot : ((s.releaseResv c k).updSlot c k Slot.noFrames).slot (twinCore c) j = s.slot (twinCore c) j := by
    rw [slot_updSlot_core _ _ (twinCore_ne c).symm, releaseResv_slot]
  rw [State.abandon]
  dsimp only
  split
  · rename_i i hi
    have hij : i = j := by
      split at hi
      · exact nomatch hi
      · exact Option.some.inj (hi.symm.trans hj)
    subst hij
    rw [slot_updSlot_same, hslot, hu]
    exact ⟨_, rfl, rfl⟩
  · rw [hslot]
    exact ⟨u, hu, rfl⟩

theorem both_copy (hj : s.twinSlot c k = some j) (f : Slot → Slot) :
    (s.both c k f).slot (twinCore c) j = f (s.slot (twinCore c) j) := by
  rw [State.both, hj]
  dsimp only
  rw [slot_updSlot_same, slot_updSlot_core _ _ (twinCore_ne c).symm]

theorem reload_twin {x : Slot} (h : x.twin = some t) (m : Nat) :
    (x.reload m).twin = some (t.fresh m) ∧ (x.reload m).ctx = t.chk ∧ (x.reload m).pmask = t.chkPmask ∧
      (x.stop = 0 → (x.reload m).stop = 0) ∧ (x.reload m).htStop = x.htStop := by
  rw [Slot.reload, h]
  exact ⟨rfl, rfl, rfl, fun hs => by rw [hs]; rfl, rfl⟩

/-- The reservation of a message that will not leave is given back. -/
def giveBackMsg (c : Nat) (s : State) (o : Outgoing) : State :=
  match o.handle with
  | some h => s.unreserve c o.msg h
  | none => s

/-- The messages that the primary of a pair holds back. -/
def heldMsgs (x : Slot) : List Outgoing :=
  match x.twin with
  | some t => t.gatedMsgs
  | none => []

theorem twinReload_eq (s : State) (c k m : Nat) :
    s.twinReload c k m = (((heldMsgs (s.slot c k)).foldl (giveBackMsg c) s).abandon c k).both c k (Slot.reload m) := rfl

theorem giveBackAll_links (c : Nat) (os : List Outgoing) (s : State) :
    ∃ n p, os.foldl (giveBackMsg c) s = { s with net := n, ports := p } := by
  induction os generalizing s with
  | nil => exact ⟨_, _, rfl⟩
  | cons o os ih =>
    have hone : ∃ n p, giveBackMsg c s o = { s with net := n, ports := p } := by
      unfold giveBackMsg
      split
      · exact unreserve_links _ _ _ _
      · exact ⟨_, _, rfl⟩
    obtain ⟨n, p, hone⟩ := hone
    obtain ⟨n', p', hrest⟩ := ih (giveBackMsg c s o)
    exact ⟨n', p', by rw [List.foldl_cons, hrest, hone]⟩

/-- Both copies of a pair reload the checkpoint. -/
theorem twinReload_pair (ht : (s.slot c k).twin = some t) (hj : s.twinSlot c k = some j)
    (hu : (s.slot (twinCore c) j).twin = some u) (m : Nat) : ∃ (v : State) (w : TwinState), s.twinReload c k m = v ∧ v.mem = s.mem ∧
      (v.slot c k).twin = some (t.fresh m) ∧ (v.slot c k).ctx = t.chk ∧
      ((s.slot c k).stop = 0 → (v.slot c k).stop = 0) ∧ (v.slot c k).htStop = (s.slot c k).htStop ∧
      (v.slot (twinCore c) j).twin = some (w.fresh m) ∧ (v.slot (twinCore c) j).ctx = u.chk := by
  have h := twinReload_eq s c k m
  obtain ⟨n, p, hlinks⟩ := giveBackAll_links c (heldMsgs (s.slot c k)) s
  rw [hlinks] at h
  generalize hs' : ({ s with net := n, ports := p } : State) = s' at h
  have hslot : ∀ d i, s'.slot d i = s.slot d i := fun d i => by rw [← hs']; rfl
  have hj' : s'.twinSlot c k = some j := (twinSlot_congr fun d i => by rw [hslot]).trans hj
  obtain ⟨w, hw, hchk⟩ := abandon_copy hj' (by rw [hslot]; exact hu)
  have hj2 : (s'.abandon c k).twinSlot c k = some j := (twinSlot_congr (abandon_pairKey s' c k)).trans hj'
  have hself : ((s'.abandon c k).slot c k).twin = some t := by rw [abandon_slot, hslot]; exact ht
  obtain ⟨h1, h2, -, h4, h5⟩ := reload_twin hself m
  obtain ⟨c1, c2, -, -, -⟩ := reload_twin hw m
  rw [abandon_slot, hslot] at h1 h2 h4 h5
  refine ⟨_, w, h, ?_, ?_⟩
  · rw [apartFromCores_mem (both_apart _ _ _ _), apartFromCores_mem (abandon_apart _ _ _), ← hs']
  · rw [both_slot, abandon_slot, hslot, both_copy hj2]
    exact ⟨h1, h2, h4, h5, c1, c2.trans hchk⟩

theorem applyStop_none (hs : (s.slot c k).stop = 0) (hh : (s.slot c k).htStop = false) : s.applyStop c k = s := by
  simp only [State.applyStop, hs, hh, Bool.false_eq_true, if_false]

/-- The fault of a pair that parks no thread freezes the primary with its record. -/
theorem pairFault_slot {d : FaultD} {detail : Nat} (hpark : parksThread d.cause = false)
    (hscrub : (decide (0x60 ≤ d.cause) && decide (d.cause ≤ 0x63)) = false) (hs : (s.slot c k).stop = 0) :
    ((s.pairFault c k detail d).slot c k).st = .frozen ∧
      ((s.pairFault c k detail d).slot c k).frec = s.pairRecord c k (s.slot c k).ctx.pc.toNat detail 5 d := by
  simp only [State.pairFault, hpark, hscrub, hs, Bool.false_eq_true, if_false, Bool.false_and, false_and, ne_eq, or_self,
    not_true_eq_false, OfNat.zero_ne_ofNat]
  have hsent : ∀ (v : State) (r : BitVec 256), (v.nextSerial.sendRecord c r).slot c k = v.slot c k := fun _ _ => rfl
  rw [hsent, both_slot]
  exact ⟨rfl, rfl⟩

theorem recCause_pairRecord (s : State) (c k pc detail src : Nat) {d : FaultD} (h : d.cause < 256) :
    recCause (s.pairRecord c k pc detail src d) = d.cause := by
  obtain ⟨-, -, -, hcause, -⟩ := mkRecord_fields detail (if causeHasAddr d.cause then d.addr else 0) pc d.cause
    (tswLid (s.slot c k).ctx.tsw) src 0 (if d.iv then d.index else 0) (if d.iv then d.lsid else 0) k c s.time d.iv _ rfl
  have htoNat := congrArg BitVec.toNat hcause
  rw [BitVec.extractLsb'_toNat, Nat.shiftRight_eq_div_pow, BitVec.toNat_ofNat, Nat.mod_eq_of_lt h] at htoNat
  exact htoNat

end

/-! ## Replays that diverge (R232) -/

section
variable {s : State} {d e unit : Nat}

/-- The events held for a unit of a replay are many, and none of them is its next. -/
def replayStuck (s : State) (d e unit : Nat) : Bool :=
  decide (64 ≤ (s.heldEvents (s.lidAt d e) unit).length) && (match s.expects (s.lidAt d e) unit with
    | some m => !(s.heldEvents (s.lidAt d e) unit).any m.isOf
    | none => !(s.entryAt d e).trunc)

/-- A unit of a replay has waited long for its next event with nothing runnable. -/
def replayUnmet (s : State) (d e unit : Nat) : Bool :=
  (s.expects (s.lidAt d e) unit).isSome && !s.anyRunnable (s.lidAt d e) &&
    decide (Tab.rd 0 (s.entryAt d e).unmetSince unit + 10000000 ≤ s.time)

theorem exec_replayDivergence (hd : d < 4) (hlive : s.lidLive (s.lidAt d e) = true) (henf : (s.entryAt d e).enforcing = true) :
    exec (.replayDivergence d e unit) s = .next (if replayStuck s d e unit || replayUnmet s d e unit then
      ((s.markMould (s.lidAt d e) 1).dieRecord d 0xD5 (s.lidAt d e)).updLaunch (s.lidAt d e) fun y => { y with freeRun := true }
    else s) := by
  refine congrArg Host.Outcome.next (?_ : _ = _)
  rw [Nat.mod_eq_of_lt hd, hlive, henf]
  rfl

theorem replayStuck_iff : replayStuck s d e unit = true ↔ 64 ≤ (s.heldEvents (s.lidAt d e) unit).length ∧
    (∀ m, s.expects (s.lidAt d e) unit = some m → ∀ x ∈ s.heldEvents (s.lidAt d e) unit, m.isOf x = false) ∧
    (s.expects (s.lidAt d e) unit = none → (s.entryAt d e).trunc = false) := by
  rw [replayStuck, Bool.and_eq_true, decide_eq_true_eq]
  refine and_congr_right fun _ => ?_
  cases s.expects (s.lidAt d e) unit with
  | none => simp only [Bool.not_eq_true', reduceCtorEq, false_implies, implies_true, true_and, forall_const]
  | some m =>
    simp only [Bool.not_eq_true', List.any_eq_false, Bool.not_eq_true, Option.some.injEq, forall_eq', reduceCtorEq,
      false_implies, and_true]

theorem replayUnmet_iff : replayUnmet s d e unit = true ↔ s.expects (s.lidAt d e) unit ≠ none ∧
    s.anyRunnable (s.lidAt d e) = false ∧ Tab.rd 0 (s.entryAt d e).unmetSince unit + 10000000 ≤ s.time := by
  simp only [replayUnmet, Bool.and_eq_true, Bool.not_eq_true', decide_eq_true_eq, ← Option.ne_none_iff_isSome, and_assoc]

end

/-- Settles O44: the order of a cut's steps, what a pair holds back and in which order, and the checkpoint that both copies
reload. -/
theorem cutTwinAndReplayEvents : Obligations.CutTwinAndReplayEvents := by
  refine ⟨fun s s1 n sq a net lid lack c k j d e unit t u hk hd => ⟨fun hp hr => ?order, fun hp hr => ?marker,
    fun hsent hin hw => ?writes, fun x hx y hy hnot => ?unready, fun hp hr h1 => ?report, fun hsh ht hj hu => ?comparison,
    fun hlive henf stuck unmet hstuck hunmet => ?divergence⟩,
    fun s s1 c k j t u rest ht hj hu hrel hpass => ?passes, fun s s1 c gs rest hrel => ?released,
    fun t => ?items, fun x t m hx => ?checkpoint, fun s c k j t u ht hj hu hp hlt hlu hasks hstop hht hfp => ?mismatch⟩
  case order => exact ⟨fun h => by rw [exec_cutOrder hp hr, if_pos h],
    fun h => by rw [exec_cutOrder hp hr, if_neg (by rw [h]; exact Bool.false_ne_true)]⟩
  case marker => exact ⟨fun h => by rw [exec_cutMarker hp hr, if_pos h], fun hnet hwait => by
    rw [exec_cutMarker hp hr, if_neg ?_]
    rintro (⟨h2, htr⟩ | h)
    · rcases hnet with hnet | hnet
      · exact hnet h2
      · exact Bool.noConfusion (hnet.symm.trans htr)
    · exact Bool.noConfusion (hwait.symm.trans h)⟩
  case writes =>
    refine cutWrite_done ?_ hw
    rw [routerDone, hsent, Bool.true_and]
    exact List.all_eq_true.2 fun x hx => List.all_eq_true.2 fun y hy => hin x hx y hy
  case unready =>
    refine cutWrite_open ?_
    rw [routerDone, Bool.and_eq_false_iff]
    exact .inr (List.all_eq_false.2 ⟨x, hx, fun h => Bool.noConfusion (hnot.symm.trans (List.all_eq_true.1 h y hy))⟩)
  case report =>
    rw [exec_routerReport hp hr h1]
    refine ⟨fun hw => ?_, fun hw hl => ?_, fun hw hl => ?_⟩
    · rw [if_pos (by rw [List.isEmpty_eq_false_iff.2 hw]; rfl)]
    · rw [hw, if_neg (fun h => nomatch h), if_pos hl]
    · rw [hw, if_neg (fun h => nomatch h), if_neg hl]
  case comparison =>
    have hexec : exec (.twinComparison c k) s =
        .next (if t.passing || s.comparable c k j t u then s.compareTwin c k t u else s) := by
      refine congrArg Host.Outcome.next (?_ : _ = _)
      simp only [Nat.mod_eq_of_lt hk, hsh, ht, hj, hu, Bool.false_eq_true, if_false]
    rw [hexec]
    refine ⟨fun h => by rw [if_pos (Bool.or_eq_true_iff.2 h)], fun hp hc => ?_⟩
    · rw [hp, hc, if_neg (fun h => nomatch h)]
  case divergence =>
    rw [exec_replayDivergence hd hlive henf]
    have hboth : (replayStuck s d e unit || replayUnmet s d e unit) = true ↔ stuck ∨ unmet := by
      rw [Bool.or_eq_true, replayStuck_iff, replayUnmet_iff, hstuck, hunmet]
    exact ⟨fun h => by rw [if_pos (hboth.2 h)], fun h => by rw [if_neg (mt hboth.1 h)]⟩
  case passes =>
    rw [compareTwin_passes hpass]
    refine ⟨twinPass_waits hrel, fun hrest => ?_, fun f hrest hf hag => ?_⟩
    · subst hrest
      exact (twinPass_ends hrel).1
    · subst hrest
      exact (twinPass_ends hrel).2 f hf hag
  case released =>
    obtain ⟨hsplit, hfirst⟩ := releaseGated_splits gs hrel
    exact ⟨hsplit, hfirst, releaseGated_stores gs hrel⟩
  case items =>
    have hperm := items_perm t
    refine ⟨?_, (insertAll_sorted _ List.Pairwise.nil).1, fun e => ?_, fun x => ?_, fun o => ?_⟩
    · rw [hperm.length_eq, List.length_append, List.length_append, List.length_map, List.length_map, List.length_map]
    all_goals
      rw [hperm.mem_iff]
      simp only [List.mem_append, List.mem_map, Gated.store.injEq, Gated.cmd.injEq, Gated.msg.injEq, reduceCtorEq, and_false,
        exists_false, or_false, false_or, exists_eq_right]
  case checkpoint =>
    obtain ⟨h1, h2, h3, -⟩ := reload_twin hx m
    refine ⟨?_, _, h1, h2, h3, rfl, rfl, rfl, rfl, rfl, rfl⟩
    rw [Slot.checkpoint, hx]
    exact ⟨_, rfl, rfl, rfl, rfl, rfl, rfl, rfl, rfl, rfl⟩
  case mismatch =>
    rw [compareTwin_differs hp hlt hlu hfp, hasks]
    refine ⟨fun hm => ?_, fun hm => ?_⟩
    · obtain ⟨v, w, hv, hmem, htwin, hctx, hstop', hht', hcopy, hcctx⟩ := twinReload_pair ht hj hu (t.mism + 1)
      rw [if_neg (Nat.not_le.2 hm), hv]
      have hans : (v.answerTwin [] 2).applyStop c k = v := applyStop_none (hstop' hstop) (hht'.trans hht)
      rw [hans]
      exact ⟨hmem, ⟨_, htwin, hctx, rfl, rfl⟩, _, hcopy, hcctx, rfl, rfl⟩
    · obtain ⟨v, w, hv, hmem, htwin, hctx, hstop', hht', hcopy, hcctx⟩ := twinReload_pair ht hj hu t.mism
      rw [if_pos hm, hv]
      obtain ⟨hst, hrec⟩ := pairFault_slot (s := v) (c := c) (k := k) (d := { cause := 0xC0, iv := false }) (detail := 3)
        (by decide) (by decide) (hstop' hstop)
      refine ⟨hst, ?_⟩
      have hans : ((v.pairFault c k 3 { cause := 0xC0, iv := false }).answerTwin [] 3) =
        v.pairFault c k 3 { cause := 0xC0, iv := false } := rfl
      rw [hans, hrec]
      exact recCause_pairRecord _ _ _ _ _ _ (by decide)

end Sys2Proof.Proofs

/-! PROOFS. Rows, layers and remaps of a vault (08, 10). -/

namespace Sys2Proof.Proofs
open Sys2Proof.Machine Sys2Proof.Laws

/-! ## Layers, rows and remaps of a vault (R158-R162, R215) -/

/-- A change of a vault is what it does to the vault as it stands. -/
theorem updVault_congr {s : State} {c : Nat} {f g : Vault → Vault} (h : f (s.vault c) = g (s.vault c)) :
    s.updVault c f = s.updVault c g := by
  have hupd : Tab.upd {} s.vaults c f = Tab.upd {} s.vaults c g := congrArg (fun v => Tab.put s.vaults c v) h
  rw [State.updVault, hupd, State.updVault]

theorem bit8_set (m : BitVec 8) {n : Nat} (hn : n < 8) : (bit8 m n true).getLsbD n = true := by
  rw [bit8, if_pos rfl, BitVec.getLsbD_or, BitVec.getLsbD_ofNat, Nat.testBit_two_pow_self]
  simp only [hn, decide_true, Bool.and_self, Bool.or_true]

theorem bit8_clear (m : BitVec 8) {n : Nat} (hn : n < 8) : (bit8 m n false).getLsbD n = false := by
  rw [bit8, if_neg Bool.false_ne_true, BitVec.getLsbD_and, BitVec.getLsbD_not, BitVec.getLsbD_ofNat, Nat.testBit_two_pow_self]
  simp only [hn, decide_true, Bool.and_self, Bool.not_true, Bool.and_false]

theorem testBit_toNat (m : BitVec 8) (n : Nat) : m.toNat.testBit n = m.getLsbD n := rfl

/-- The bits of words that a cleared range of whole words holds. -/
theorem bit_clear (t : Tab Bool) {lo hi a : Nat} (hlo : lo % 8 = 0) (hhi : hi % 8 = 0) :
    Tab.rd false (t.filter fun e => !(decide (lo ≤ 8 * e.1) && decide (8 * e.1 < hi))) (a / 8) =
      if lo ≤ a ∧ a < hi then false else Tab.rd false t (a / 8) := by
  refine (rd_filter_key false t (fun k => !(decide (lo ≤ 8 * k) && decide (8 * k < hi))) (a / 8)).trans ?_
  have hiff : (lo ≤ 8 * (a / 8) ∧ 8 * (a / 8) < hi) ↔ (lo ≤ a ∧ a < hi) := by omega
  by_cases h : lo ≤ a ∧ a < hi
  · have h' := hiff.2 h
    simp only [h', decide_true, Bool.and_self, Bool.not_true, Bool.false_eq_true, if_false, h, and_self, if_true]
  · rw [if_neg h, if_pos]
    rw [Bool.not_eq_true', ← Bool.not_eq_true, Bool.and_eq_true, decide_eq_true_eq, decide_eq_true_eq, hiff]
    exact h

/-- A cleared range of whole words is zero, empty and unpoisoned; every other location is as before. -/
theorem clearMem_range (s : State) {lo hi : Nat} (hlo : lo % 8 = 0) (hhi : hi % 8 = 0) :
    (∀ a, lo ≤ a → a < hi → (s.clearMem lo hi).byte a = 0 ∧ (s.clearMem lo hi).mem.isFull a = false ∧
      (s.clearMem lo hi).mem.isPois a = false) ∧
    ∀ a, (a < lo ∨ hi ≤ a) → (s.clearMem lo hi).byte a = s.byte a ∧ (s.clearMem lo hi).mem.isFull a = s.mem.isFull a ∧
      (s.clearMem lo hi).mem.isPois a = s.mem.isPois a := by
  have hfull : ∀ a, (s.clearMem lo hi).mem.isFull a = if lo ≤ a ∧ a < hi then false else s.mem.isFull a :=
    fun a => bit_clear s.mem.full hlo hhi
  have hpois : ∀ a, (s.clearMem lo hi).mem.isPois a = if lo ≤ a ∧ a < hi then false else s.mem.isPois a :=
    fun a => bit_clear s.mem.pois hlo hhi
  refine ⟨fun a h1 h2 => ⟨clearMem_byte_inside s ⟨h1, h2⟩, ?_, ?_⟩, fun a h => ⟨clearMem_byte_outside s h, ?_, ?_⟩⟩
  · rw [hfull, if_pos ⟨h1, h2⟩]
  · rw [hpois, if_pos ⟨h1, h2⟩]
  · rw [hfull, if_neg (by omega)]
  · rw [hpois, if_neg (by omega)]

/-- What the end of a layer's transition leaves. -/
theorem clearLayer_layer (s : State) (c n : Nat) :
    (∀ a, c * 2 ^ 27 + n * 2 ^ 24 ≤ a → a < c * 2 ^ 27 + (n + 1) * 2 ^ 24 →
      (s.clearLayer c n).byte a = 0 ∧ (s.clearLayer c n).mem.isFull a = false ∧ (s.clearLayer c n).mem.isPois a = false) ∧
    (∀ a, (a < c * 2 ^ 27 + n * 2 ^ 24 ∨ c * 2 ^ 27 + (n + 1) * 2 ^ 24 ≤ a) → (s.clearLayer c n).byte a = s.byte a ∧
      (s.clearLayer c n).mem.isFull a = s.mem.isFull a ∧ (s.clearLayer c n).mem.isPois a = s.mem.isPois a) :=
  clearMem_range s (lo := vaultLoc c (n * 2 ^ 24)) (hi := vaultLoc c ((n + 1) * 2 ^ 24)) (by rw [vaultLoc]; omega)
    (by rw [vaultLoc]; omega)

theorem vault_clearLayer (s : State) (c n d : Nat) : (s.clearLayer c n).vault d = s.vault d := rfl

/-- Settles O46: each event changes its vault alone, and the end of a transition clears the range of its layer. -/
theorem vaultEvents : Obligations.VaultEvents := by
  intro s c b n t
  refine ⟨?refresh, fun r a hr ha => ?timeout, fun hn => ?throttle, fun hn hbusy i hi => ?layer,
    fun hres => ⟨fun p hp => ?spare, fun hp => ?noSpare⟩⟩
  case refresh => exact ⟨_, rfl, by rw [vault_updVault_same], by rw [vault_updVault_same]; exact rd_put_same _ _ _ _, rfl⟩
  case timeout =>
    refine congrArg Host.Outcome.next (?_ : _ = _)
    simp only [hr, ha, if_true]
  case throttle =>
    refine ⟨_, rfl, fun h => ?_, fun h => ?_, fun h1 h2 => ?_⟩ <;> rw [vault_updVault_same]
    · rw [if_pos h, bit8_set _ hn]
    · rw [if_neg (by omega), if_pos h, bit8_clear _ hn]
    · rw [if_neg (by omega), if_neg (by omega)]
  case layer =>
    have hdone : ∃ f : Vault → Vault, exec i s = .next ((s.updVault c f).clearLayer c n) ∧
        (f (s.vault c)).busy = bit8 (s.vault c).busy n false := by
      rcases hi with ⟨rfl, hon⟩ | ⟨rfl, hon, hflight⟩
      · refine ⟨fun v => { v with busy := bit8 v.busy n false }, congrArg Host.Outcome.next (?_ : _ = _), rfl⟩
        simp only [testBit_toNat, hn, hbusy, hon, and_self, if_true]
      · refine ⟨fun v => { v with busy := bit8 v.busy n false, openRows := v.openRows.filter fun r => r.1 / 4 != n },
          congrArg Host.Outcome.next (?_ : _ = _), rfl⟩
        simp only [testBit_toNat, hn, hbusy, hon, hflight, Bool.false_eq_true, not_false_eq_true, Bool.not_false, and_self,
          if_true]
    obtain ⟨f, hexec, hf⟩ := hdone
    obtain ⟨hin, hout⟩ := clearLayer_layer (s.updVault c f) c n
    refine ⟨_, hexec, ?_, hin, hout⟩
    rw [vault_clearLayer, vault_updVault_same, hf, bit8_clear _ hn]
  case spare =>
    refine congrArg Host.Outcome.next (updVault_congr ?_)
    simp only [hres, hp, if_true]
  case noSpare =>
    refine congrArg Host.Outcome.next (updVault_congr ?_)
    simp only [hres, hp, if_true]

end Sys2Proof.Proofs

/-! PROOFS. Issue, routes between dies, read buffers (01, 07, 09, 15). -/

namespace Sys2Proof.Proofs
open Sys2Proof.Machine Sys2Proof.Laws

/-! ## Issue (R119, R120, R342) -/

section
variable {s : State} {g : Option (Nat × Nat)} {c : Nat} {w : Nat × Nat}

theorem issues_cases (s : State) (g : Option (Nat × Nat)) (c : Nat) :
    (∃ v, ((s.readyUnder g c).drop 4).find? (s.isVector c) = some v ∧ s.issues g c = (s.readyUnder g c).take 3 ++ [v]) ∨
      (((s.readyUnder g c).drop 4).find? (s.isVector c) = none ∧ s.issues g c = (s.readyUnder g c).take 4) := by
  unfold State.issues
  dsimp only
  split
  · exact .inl ⟨_, ‹_›, rfl⟩
  · exact .inr ⟨‹_›, rfl⟩

theorem issues_length (s : State) (g : Option (Nat × Nat)) (c : Nat) : (s.issues g c).length ≤ 4 := by
  rcases issues_cases s g c with ⟨v, -, h⟩ | ⟨-, h⟩ <;> rw [h]
  · rw [List.length_append, List.length_take, List.length_singleton]
    omega
  · rw [List.length_take]
    omega

theorem readyUnder_of_issues (h : w ∈ s.issues g c) : w ∈ s.readyUnder g c := by
  rcases issues_cases s g c with ⟨v, hv, hi⟩ | ⟨-, hi⟩ <;> rw [hi] at h
  · rcases List.mem_append.1 h with h | h
    · exact List.mem_of_mem_take h
    · rw [List.mem_singleton.1 h]
      exact List.mem_of_mem_drop (List.mem_of_find?_eq_some hv)
  · exact List.mem_of_mem_take h

theorem issues_few (h : (s.readyUnder g c).length ≤ 4) : s.issues g c = s.readyUnder g c := by
  rcases issues_cases s g c with ⟨v, hv, -⟩ | ⟨-, hi⟩
  · rw [List.drop_eq_nil_of_le h] at hv
    exact nomatch hv
  · rw [hi, List.take_of_length_le h]

/-- The vector instruction that a core may issue: the first of the granted core. -/
def granteeVector (s : State) (g : Option (Nat × Nat)) (c : Nat) : Option (Nat × Nat) :=
  if g.map (·.1) = some c then (s.readyList c).find? (s.isVector c) else none

theorem mem_readyUnder : w ∈ s.readyUnder g c ↔
    w ∈ s.readyList c ∧ (s.isVector c w = false ∨ granteeVector s g c = some w) := by
  have h : s.readyUnder g c = (s.readyList c).filter fun w => !s.isVector c w || granteeVector s g c == some w := rfl
  rw [h, List.mem_filter, Bool.or_eq_true, Bool.not_eq_true', beq_iff_eq]

/-- A vector instruction that issues is that of the granted core. -/
theorem granteeVector_of_issues (h : w ∈ s.issues g c) (hv : s.isVector c w = true) :
    granteeVector s g c = some w ∧ g.map (·.1) = some c := by
  have hg := (mem_readyUnder.1 (readyUnder_of_issues h)).2.resolve_left fun hn => Bool.noConfusion (hn.symm.trans hv)
  refine ⟨hg, ?_⟩
  rw [granteeVector] at hg
  split at hg
  · assumption
  · exact nomatch hg

/-- The granted core issues its vector instruction, however many are ready before it. -/
theorem issues_vector (hg : granteeVector s g c = some w) (hv : s.isVector c w = true) :
    ∃ v ∈ s.issues g c, s.isVector c v = true := by
  have hready : w ∈ s.readyList c := by
    rw [granteeVector] at hg
    split at hg
    · exact List.mem_of_find?_eq_some hg
    · exact nomatch hg
  have hmem : w ∈ s.readyUnder g c := mem_readyUnder.2 ⟨hready, .inr hg⟩
  rcases issues_cases s g c with ⟨v, hfound, hi⟩ | ⟨hnone, hi⟩ <;> rw [hi]
  · exact ⟨v, List.mem_append_right _ List.mem_cons_self, by simpa using List.find?_some hfound⟩
  · rw [← List.take_append_drop 4 (s.readyUnder g c)] at hmem
    rcases List.mem_append.1 hmem with hmem | hmem
    · exact ⟨w, hmem, hv⟩
    · exact absurd hv (by simpa using List.find?_eq_none.1 hnone w hmem)

theorem not_issued_of_ready (h : w ∈ s.readyList c) : w.2 ∉ (s.slot c w.1).frame.issued := by
  obtain ⟨k, -, hk⟩ := List.mem_flatMap.1 h
  obtain ⟨i, hi, rfl⟩ := List.mem_map.1 hk
  rw [State.readyWords] at hi
  split at hi
  · exact nomatch hi
  · obtain ⟨e, he, rfl⟩ := List.mem_map.1 hi
    obtain ⟨-, hcond⟩ := List.mem_filter.1 he
    obtain ⟨hnot, -⟩ := (Bool.and_eq_true_iff).1 hcond
    exact fun hin => absurd (List.contains_iff_mem.2 hin) (by rw [Bool.not_eq_true'] at hnot; rw [hnot]; exact Bool.false_ne_true)

theorem mem_unitOrder {q : Nat} {e : Nat × Nat} : e ∈ s.unitOrder q ↔ e ∈ (routerCores q).zipIdx := by
  unfold State.unitOrder
  rw [List.mem_append, or_comm, ← List.mem_append, List.take_append_drop]

theorem zipIdx_fst {l : List Nat} {e : Nat × Nat} (h : e ∈ l.zipIdx) : e.1 ∈ l :=
  List.fst_mem_of_mem_zipIdx h

/-- A vector unit grants a core wherever one has a vector instruction ready. -/
theorem granted_some {q : Nat} (hc : c ∈ routerCores q) (hw : w ∈ s.readyList c) (hv : s.isVector c w = true) :
    ∃ e, s.granted q = some e ∧ e.1 ∈ routerCores q ∧ ∃ v ∈ s.issues (some e) e.1, s.isVector e.1 v = true := by
  obtain ⟨i, hi⟩ : ∃ i, (c, i) ∈ (routerCores q).zipIdx := by
    obtain ⟨i, hlt, heq⟩ := List.mem_iff_getElem.1 hc
    exact ⟨i, List.mem_zipIdx_iff_getElem?.2 (List.getElem?_eq_some_iff.2 ⟨hlt, heq⟩)⟩
  cases hg : s.granted q with
  | none =>
    have hno := List.find?_eq_none.1 hg (c, i) (mem_unitOrder.2 hi)
    exact absurd (List.any_eq_true.2 ⟨w, hw, hv⟩) hno
  | some e =>
    have hany : (s.readyList e.1).any (s.isVector e.1) = true := by simpa using List.find?_some hg
    obtain ⟨x, hx⟩ : ∃ x, (s.readyList e.1).find? (s.isVector e.1) = some x :=
      Option.isSome_iff_exists.1 (by rw [List.find?_isSome]; exact List.any_eq_true.1 hany)
    have hgrant : granteeVector s (some e) e.1 = some x := (if_pos rfl).trans hx
    exact ⟨e, rfl, zipIdx_fst (mem_unitOrder.1 (List.mem_of_find?_eq_some hg)), issues_vector hgrant (List.find?_some hx)⟩

end

/-! ## Routes between dies (R13) -/

theorem dieRoute_cases (a b : Nat) :
    dieRoute a b = (if a % 2 = b % 2 then [] else [b % 2 + 2 * (a / 2)]) ++ (if a / 2 = b / 2 then [] else [b]) := rfl

/-! ## Who observes a write (R179, R187, R192) -/

theorem mem_addOnce {x y : Nat} {l : List Nat} : y ∈ addOnce x l ↔ y = x ∨ y ∈ l := by
  rw [addOnce]
  split
  · rename_i h
    have hx : x ∈ l := List.contains_iff_mem.1 h
    exact ⟨.inr, fun h => h.elim (fun h => h ▸ hx) id⟩
  · rw [List.mem_append, List.mem_singleton, or_comm]

/-- A port that may answer a thread from a buffer has missed no write that the thread observes. -/
theorem mayAnswer_iff {s : State} {t : Nat} {b : ReadBuf} :
    s.mayAnswer t b = true ↔ ∀ w ∈ s.async, w.n ∈ b.after → t ∉ w.acq := by
  simp only [State.mayAnswer, Bool.not_eq_true', List.any_eq_false, Bool.and_eq_true, List.contains_iff_mem, not_and]

theorem bufFor_some {s : State} {c t loc : Nat} {b : ReadBuf} (h : s.bufFor c t loc = some b) :
    b ∈ s.readBufs ∧ b.core = c ∧ b.loc = wordLoc loc ∧ s.mayAnswer t b = true := by
  have hcond := List.find?_some h
  simp only [Bool.and_eq_true, beq_iff_eq, and_assoc] at hcond
  exact ⟨List.mem_of_find?_eq_some h, hcond⟩

/-- What a thread that reads a word at its home leaves of a write. -/
def readBy (t loc : Nat) (w : AsyncWrite) : AsyncWrite :=
  let w := if w.loc = wordLoc loc ∧ !([] : List Nat).contains w.n then w.observe t false else w
  if w.words.contains (wordLoc loc) then { w with near := addOnce t w.near } else w

theorem noteRead_async (s : State) (t loc : Nat) : (s.noteRead none t loc).async = s.async.map (readBy t loc) := rfl

theorem readBy_loc (t loc : Nat) (w : AsyncWrite) : (readBy t loc w).loc = w.loc := by
  unfold readBy
  dsimp only
  split_ifs <;> rfl

theorem readBy_observes {t loc : Nat} {w : AsyncWrite} (h : w.loc = wordLoc loc) : t ∈ (readBy t loc w).acq := by
  have hcond : w.loc = wordLoc loc ∧ (!([] : List Nat).contains w.n) = true := ⟨h, rfl⟩
  unfold readBy
  dsimp only
  rw [if_pos hcond]
  split_ifs <;> exact mem_addOnce.2 (.inl rfl)

/-- Settles O58: a place at Issue comes from the ready list, and an answer from a buffer from what its thread observes. -/
theorem issueAndReadBuffers : Obligations.IssueAndReadBuffers := by
  refine ⟨fun s q c c' w w' g hg => ⟨issues_length s g c, fun h => ?_, issues_few, fun h hv => mem_readyUnder.2 ⟨h, .inl hv⟩,
    not_issued_of_ready, fun h h' hv hv' => ?one, fun hc hw hv => ?some⟩, fun a b ha hb => ⟨fun h => ?same, fun h hab => ?edge,
      fun h h' => ?diagonal⟩, fun s c t loc b w ls => ⟨fun h => ?buffer, fun h => ?home, fun h hw => ?fence, fun h hl => ?read,
      ?dropped⟩⟩
  · exact ⟨readyUnder_of_issues h, (mem_readyUnder.1 (readyUnder_of_issues h)).1⟩
  case one =>
    obtain ⟨hvec, hcore⟩ := granteeVector_of_issues h hv
    obtain ⟨hvec', hcore'⟩ := granteeVector_of_issues h' hv'
    have hcc : c = c' := Option.some.inj (hcore.symm.trans hcore')
    subst hcc
    exact ⟨rfl, Option.some.inj (hvec.symm.trans hvec')⟩
  case some =>
    obtain ⟨e, he, hin, hissue⟩ := granted_some hc hw hv
    rw [hg, he]
    exact ⟨e, rfl, hin, hissue⟩
  case same => rw [dieRoute_cases, h, if_pos rfl, if_pos rfl, List.nil_append]
  case edge =>
    rw [dieRoute_cases]
    rcases hab with hab | hab
    · rw [if_pos hab, if_neg (by omega), List.nil_append]
    · rw [if_neg (by omega), if_pos hab, List.append_nil]
      exact congrArg (fun n => [n]) (by omega)
  case diagonal =>
    rw [dieRoute_cases, if_neg h, if_neg h']
    rfl
  case buffer =>
    obtain ⟨hin, hcore, hloc, hmay⟩ := bufFor_some h
    refine ⟨hin, hcore, hloc, fun hw hn => mayAnswer_iff.1 hmay w hw hn, ?_⟩
    rw [State.portByte, h]
  case home =>
    rw [State.portByte, h]
    rfl
  case fence =>
    obtain ⟨-, -, -, hmay⟩ := bufFor_some h
    have hseen : w.observe t (w.tid == t) ∈ (s.fenceXp t).async := List.mem_map.2 ⟨w, hw, rfl⟩
    exact fun hn => mayAnswer_iff.1 hmay _ hseen hn (mem_addOnce.2 (.inl rfl))
  case read =>
    rw [noteRead_async] at h
    obtain ⟨v, hv, rfl⟩ := List.mem_map.1 h
    exact readBy_observes ((readBy_loc t loc v).symm.trans hl)
  case dropped =>
    have hfilter : (s.dropReadBufs ls).readBufs = s.readBufs.filter fun b => !ls.any fun l => wordLoc l == b.loc := rfl
    rw [hfilter, List.mem_filter]
    refine and_congr_right fun _ => ?_
    simp only [Bool.not_eq_true', List.any_eq_false, beq_iff_eq, ne_eq]

end Sys2Proof.Proofs

/-! PROOFS. Blocks enter execution (07, 12). -/

namespace Sys2Proof.Proofs
open Sys2Proof.Machine Sys2Proof.Laws

/-! ## Fetch, header checks and the lock (R117, R264, R273) -/

section
variable {s s1 : State} {c k : Nat}

/-- A frame that holds no fault executes, where no breakpoint is set. -/
theorem enterExec_runs {f : Frame} (hheld : f.held = none) (hbrk : (s.core c).ibrk.getLsbD 63 = false) :
    s.enterExec c k f = (s.updSlot c k fun x =>
      { x with frame := { f with st := .exec, age := s.serial }, next := {}, fseq := x.fseq + 1 }).nextSerial := by
  have hcore : ∀ g : Slot → Slot, (((s.updSlot c k g).nextSerial).core c).ibrk = (s.core c).ibrk := fun g => by
    rw [core_nextSerial, core_updSlot]
  have hbit : (s.core c).ibrk.toNat.testBit 63 = false := hbrk
  unfold State.enterExec
  dsimp only
  rw [hheld, hcore, hbit]
  rfl

/-- A fault that a frame holds is raised as it executes. -/
theorem enterExec_faults {f : Frame} {d : FaultD} (hheld : f.held = some d) :
    s.enterExec c k f = ((s.updSlot c k fun x =>
      { x with frame := { f with st := .exec, age := s.serial }, next := {}, fseq := x.fseq + 1 }).nextSerial).raise c k d := by
  unfold State.enterExec
  dsimp only
  rw [hheld]

theorem buildFrame_ok {pc : Word} {h : BitVec 128} {b : List (BitVec 32)}
    (hf : s.fetchBlock (s.who c k) pc = (.ok h b, s1)) :
    s.buildFrame c k pc = (some { st := .spec, pc := pc, header := h, body := b }, s1) := by
  rw [State.buildFrame, hf]

theorem buildFrame_bad {pc : Word} {d : FaultD} (hf : s.fetchBlock (s.who c k) pc = (.bad d, s1)) :
    s.buildFrame c k pc = (some { st := .spec, pc := pc, held := some d }, s1) := by
  rw [State.buildFrame, hf]

/-- The fetch of a running thread without a block. -/
theorem exec_blockFetch (hk : k < 4) (hrun : (s.slot c k).st = .run) (hst : s.stays c k = false)
    (hend : (s.slot c k).atEnd = false) (hidle : (s.slot c k).frame.st = .idle) {f : Frame}
    (hb : s.buildFrame c k (s.slot c k).ctx.pc = (some f, s1)) :
    exec (.blockFetch c k) s = .next (s1.enterExec c k f) := by
  refine congrArg Host.Outcome.next (?_ : _ = _)
  simp only [Nat.mod_eq_of_lt hk, hrun, hst, hend, hidle, hb, ne_eq, not_true_eq_false, Bool.false_eq_true, or_self, if_false]

theorem headerFault_magic (h : BitVec 128) (hm : h.extractLsb' 124 4 ≠ 0xB#4) :
    headerFault h = some { cause := 0x01, iv := false } := by
  rw [headerFault, if_pos fun heq => hm (BitVec.eq_of_toNat_eq ?_)]
  rw [BitVec.extractLsb'_toNat, Nat.shiftRight_eq_div_pow]
  exact heq

theorem headerFault_reserved (h : BitVec 128) (hm : h.extractLsb' 124 4 = 0xB#4) (hr : h.extractLsb' 0 64 ≠ 0#64) :
    headerFault h = some { cause := 0x02, iv := false } := by
  have hmagic : bits h.toNat 127 124 = 0xB := by
    have htoNat := congrArg BitVec.toNat hm
    rw [BitVec.extractLsb'_toNat, Nat.shiftRight_eq_div_pow] at htoNat
    exact htoNat
  rw [headerFault, if_neg (fun hn => hn hmagic), if_pos fun heq => hr (BitVec.eq_of_toNat_eq ?_)]
  rw [BitVec.extractLsb'_toNat, Nat.shiftRight_eq_div_pow]
  exact heq

/-- A block at the conditions of the lock, but for a comparison of its pair and its thread's stores. -/
theorem exec_blockLock {n : Nat} {i : Instr} (hk : k < 4) (hrun : (s.slot c k).st = .run) (hst : s.stays c k = false)
    (hend : (s.slot c k).atEnd = false) (hp : (s.slot c k).frame.performing = some (n, i)) (hi : i.shape.cls = .perform)
    (hexec : (s.slot c k).frame.st = .exec) (hlock : (s.slot c k).frame.lock = false)
    (hchk : (s.slot c k).frame.checked = true) (hf : (s.slot c k).frame.faults = [])
    (hout : (s.slot c k).frame.outsideReady = true) (hsh : tswShadow (s.slot c k).ctx.tsw = false) :
    (s.earlyFaults c k (s.slot c k).frame ≠ [] → exec (.blockLock c k) s =
      .next (s.updFrame c k fun f => { f with faults := s.earlyFaults c k (s.slot c k).frame })) ∧
    (s.earlyFaults c k (s.slot c k).frame = [] → (s.slot c k).uncompared = false → s.drained c k = true →
      (s.slot c k).frame.sinks = [] → exec (.blockLock c k) s =
        .next (s.updFrame c k fun f => { f with st := .commit, lock := true })) := by
  refine ⟨fun he => congrArg Host.Outcome.next (?_ : _ = _), fun he hcmp hdr hsinks => congrArg Host.Outcome.next (?_ : _ = _)⟩
  · simp only [Nat.mod_eq_of_lt hk, hp, hrun, hexec, hlock, hst, hend, hchk, hf, hout, hi, hsh, ne_eq, not_true_eq_false,
      Bool.false_eq_true, Bool.not_true, or_self, if_false, he, not_false_eq_true, if_true]
  · simp only [Nat.mod_eq_of_lt hk, hp, hrun, hexec, hlock, hst, hend, hchk, hf, hout, hi, hsh, ne_eq, not_true_eq_false,
      Bool.false_eq_true, Bool.not_true, or_self, if_false, he, hcmp, hdr, hsinks, State.sinksReady, if_true]

end

/-- Settles O34: a fetch hands its frame to EXEC; header and lock by their conditions. -/
theorem blocksEnterExecution : Obligations.BlocksEnterExecution := by
  intro s s1 c k hk hrun hst hend
  refine ⟨fun h b hidle hf hbrk => ?_, fun d hidle hf => ?_, fun h => ⟨headerFault_magic h, headerFault_reserved h⟩,
    fun n i hp hi hexec hlock hchk hf hout hsh => exec_blockLock hk hrun hst hend hp hi hexec hlock hchk hf hout hsh⟩
  · rw [exec_blockFetch hk hrun hst hend hidle (buildFrame_ok hf), enterExec_runs rfl hbrk]
  · rw [exec_blockFetch hk hrun hst hend hidle (buildFrame_bad hf), enterExec_faults rfl]

end Sys2Proof.Proofs

/-! PROOFS. Messages, migrations and reservations arrive (07). -/

namespace Sys2Proof.Proofs
open Sys2Proof.Machine Sys2Proof.Laws

/-! ## Messages, migrations and reservations arrive (R128, R132, R136) -/

section
variable {s s1 : State} {n src c k h : Nat} {m : Msg} {handle slot : Option Nat}

theorem countRecv_none (s : State) (c : Nat) : s.countRecv c 0 = s := if_pos rfl

theorem cutTakes_none (s : State) (src dst : Nat) : s.cutTakes src dst 0 = none := by
  rw [State.cutTakes, if_pos]
  rw [State.cuts]
  rfl

theorem tallyClaim_none (s : State) (c ident : Nat) : s.tallyClaim 0 c ident = some s := by
  rw [State.tallyClaim, State.tally, if_pos rfl, Option.map_some, State.countOrd, if_pos rfl]

theorem msgFate_none (s : State) : s.msgFate 0 = .deliver := by
  rw [State.msgFate, if_pos rfl]

theorem exec_messageArrival (hp : s.packet? n = some (.msg src m handle)) (hidle : s.isIdle m.dcore = false) (hl : m.lid = 0)
    (hb : s.behind n src m.dcore = false) (ha : (s.dropPacket n).acceptMsg m.dcore m handle = some s1) :
    exec (.messageArrival n) s = .next s1 := by
  refine congrArg Host.Outcome.next (?_ : _ = _)
  simp only [hp, hidle, hl, hb, ha, msgFate_none, cutTakes_none, tallyClaim_none, countRecv_none, Option.bind_some,
    Bool.false_eq_true, if_false]

theorem exec_migrationArrival {f : CtxFrame} {migr : Nat} {stepping : Bool}
    (hp : s.net[n]? = some (.migr src c f migr stepping)) (hidle : s.isIdle c = false) (hl : f.lid = 0)
    (hw : s.migrWaits n src c 0 = false) (h1 : s1 = s.dropPacket n) (hk : s1.openSlot c = some k) :
    exec (.migrationArrival n) s = .next (s1.loadFrame c k f migr stepping) := by
  subst h1
  refine congrArg Host.Outcome.next (?_ : _ = _)
  simp only [hp, hidle, hl, hw, hk, cutTakes_none, tallyClaim_none, countRecv_none, Bool.false_eq_true, if_false]

theorem exec_reservationRelease (hp : s.packet? n = some (.resvRel src c h))
    (hr : (s.core c).resv.find? (·.handle == h) = some ⟨h, slot, false⟩) :
    exec (.reservationRelease n) s = .next (((s.dropPacket n).dropResv c h false).servePair c) := by
  refine congrArg Host.Outcome.next (?_ : _ = _)
  simp only [hp, hr]

/-! ## The context that a message starts (R128) -/

theorem rd_set {t : Tab Word} (ht : Tab.canon 0 t = true) (k : Nat) (v : Word) (j : Nat) :
    Tab.rd 0 (Tab.set 0 t k v) j = if j = k then v else Tab.rd 0 t j := by
  by_cases hj : j = k
  · rw [if_pos hj, hj, rd_set_same k v ht]
  · rw [if_neg hj, rd_set_other t v hj]

/-- A register after one of a list of writes from register 2 on. -/
theorem rd_payload (v : Nat → Word) (is : List Nat) {t : Tab Word} (ht : Tab.canon 0 t = true) (j : Nat) :
    Tab.canon 0 (is.foldl (fun g i => Tab.set 0 g (2 + i) (v i)) t) = true ∧
      Tab.rd 0 (is.foldl (fun g i => Tab.set 0 g (2 + i) (v i)) t) j =
        if 2 ≤ j ∧ j - 2 ∈ is then v (j - 2) else Tab.rd 0 t j := by
  induction is generalizing t with
  | nil => exact ⟨ht, (if_neg fun hin => nomatch hin.2).symm⟩
  | cons i is ih =>
    obtain ⟨hcanon, hrd⟩ := ih (canon_set (2 + i) (v i) ht)
    refine ⟨hcanon, ?_⟩
    rw [List.foldl_cons, hrd, rd_set ht]
    by_cases hin : 2 ≤ j ∧ j - 2 ∈ is
    · rw [if_pos hin, if_pos ⟨hin.1, List.mem_cons_of_mem _ hin.2⟩]
    · rw [if_neg hin]
      by_cases hj : j = 2 + i
      · rw [if_pos hj, if_pos ⟨by omega, by rw [hj, Nat.add_sub_cancel_left]; exact List.mem_cons_self⟩, hj,
          Nat.add_sub_cancel_left]
      · rw [if_neg hj, if_neg]
        rintro ⟨h2, hmem⟩
        rcases List.mem_cons.1 hmem with hmem | hmem
        · omega
        · exact hin ⟨h2, hmem⟩

theorem msgCtx_reg (s : State) (c : Nat) (m : Msg) (j : Nat) : (s.msgCtx c m).reg j =
    if j = 15 then m.retw else if 2 ≤ j ∧ j - 2 < 4 then m.pay.getD (j - 2) 0 else
      if j = 1 then m.origin else if j = 0 then word m.kind else 0 := by
  have h0 : Tab.canon (0 : Word) [] = true := rfl
  have h1 := canon_set 0 (word m.kind) h0
  have h2 := canon_set 1 m.origin h1
  obtain ⟨h3, hrd⟩ := rd_payload (fun i => m.pay.getD i 0) (List.range 4) h2 j
  have hreg : (s.msgCtx c m).reg j = Tab.rd 0 (Tab.set 0 ((List.range 4).foldl
      (fun g i => Tab.set 0 g (2 + i) (m.pay.getD i 0)) (Tab.set 0 (Tab.set 0 [] 0 (word m.kind)) 1 m.origin)) 15 m.retw) j := rfl
  rw [hreg, rd_set h3, hrd, rd_set h1, rd_set h0]
  simp only [List.mem_range]
  rfl

end

/-- Settles O40: what of no launch arrives meets neither a cut nor a mould; the registers of a message's thread. -/
theorem messagesArrive : Obligations.MessagesArrive := by
  intro s s1 n src c k h migr m handle slot f stepping
  refine ⟨exec_messageArrival, exec_migrationArrival, exec_reservationRelease, ?_, ?_, fun i hi => ?_, ?_, fun r h6 h15 => ?_,
    rfl, rfl, rfl⟩ <;> rw [msgCtx_reg]
  · rfl
  · rfl
  · rw [if_neg (by omega), if_pos (by omega), Nat.add_sub_cancel_left]
  · rfl
  · rw [if_neg (by omega), if_neg (by omega), if_neg (by omega), if_neg (by omega)]

end Sys2Proof.Proofs

/-! PROOFS. Launch records are taken (03, 05). -/

namespace Sys2Proof.Proofs
open Sys2Proof.Machine Sys2Proof.Laws

/-! ## How a launch comes to run (R56, R75-R82, R93) -/

section
variable {s : State} {d q e g n loc k : Nat} {x : Desc} {y : Guest}

@[simp] theorem touchRow_rdMem (s : State) (loc a n : Nat) : (s.touchRow loc).rdMem a n = s.rdMem a n := by
  rw [State.rdMem, touchRow_mem, State.rdMem]

/-- An enabled queue of a well-formed descriptor reads its next record, which is full, into a free entry. -/
theorem exec_readRecord (hd : d < 4) (hdesc : s.desc d q = some x) (hen : x.en = true) (hok : x.ok = true)
    (hseen : (s.queue d q).lastSeen = true) (hroom : ((List.range 512).all fun e => (s.entryAt d e).st == .waiting) = false)
    {u : State} (hu : u = s.updDie d fun y => { y with f3 := false }) (hfree : u.freeEntryOf d = some e)
    (hload : u.queueLoad d q < 32) (hfull : u.slotFull x x.consumed = true) (hwait : u.slotWaits x x.consumed = false) :
    exec (.dispenserReadRecord d q 0) s = .next (u.readRecord d q e x.consumed x) := by
  refine congrArg Host.Outcome.next (?_ : _ = _)
  simp only [Nat.mod_eq_of_lt hd, hdesc, hen, hseen, hok, hroom, ← hu, hfree, Nat.not_le.2 hload, hfull, hwait, Nat.add_zero,
    Bool.not_true, Bool.false_eq_true, or_self, if_false, if_true]

theorem readRecord_waits (h : s.prepareWaits x.root (recOf (s.slotRecord x n)) = true) : s.readRecord d q e n x = s :=
  if_pos h

theorem readRecord_reads (h : s.prepareWaits x.root (recOf (s.slotRecord x n)) = false) : s.readRecord d q e n x =
    ((((((s.touchRow x.loc).touchVa x.root (x.ring + 64 * (n % 2 ^ x.log2n)) .store).touchPrepare x.root
      (recOf (s.slotRecord x n))).prepare d q e n (s.slotRecord x n) x).updQueue d q fun y =>
        { y with early := y.early ++ [n] }).freeSlots 16 d q) := by
  simp only [State.readRecord, h, Bool.false_eq_true, if_false]

/-- A waiting record whose words can be read is decided by its dependences. -/
theorem exec_recordTake (hd : d < 4) (hst : (s.entryAt d e).st = .waiting) (hheld : (s.entryAt d e).held = false)
    (hind : (s.entryAt d e).lrec.indep = true) (hdeps : s.depsWait (s.entryAt d e).root (s.entryAt d e).lrec = false)
    (hdone : s.doneWaits (s.entryAt d e).root (s.entryAt d e).lrec = false) :
    (s.depsOf (s.entryAt d e) = .met → exec (.recordTake d e) s = .next (s.activate (s.lidAt d e))) ∧
    (s.depsOf (s.entryAt d e) = .failed → exec (.recordTake d e) s = .next (s.complete (s.lidAt d e) 7)) ∧
    (s.depsOf (s.entryAt d e) = .wait → exec (.recordTake d e) s = .next s) := by
  refine ⟨fun h => ?_, fun h => ?_, fun h => ?_⟩ <;> refine congrArg Host.Outcome.next (?_ : _ = _) <;>
    simp only [Nat.mod_eq_of_lt hd, hst, hheld, hind, hdeps, hdone, h, ne_eq, not_true_eq_false, Bool.not_true,
      Bool.false_eq_true, false_and, or_self, if_false]

/-- A change of a queue leaves the entries and the guests of every die. -/
theorem updQueue_keeps (s : State) (d q : Nat) (f : QueueSt → QueueSt) (d' : Nat) :
    ((s.updQueue d q f).die d').table = (s.die d').table ∧ ((s.updQueue d q f).die d').guests = (s.die d').guests := by
  rw [State.updQueue]
  by_cases h : d' = d
  · subst h
    rw [die_updDie_same]
    exact ⟨rfl, rfl⟩
  · rw [die_updDie_other _ _ h]
    exact ⟨rfl, rfl⟩

theorem entryAt_of_table {t : State} {d e : Nat} (h : (t.die d).table = (s.die d).table) : t.entryAt d e = s.entryAt d e := by
  rw [State.entryAt, h, State.entryAt]

theorem guestsAdded_table (s : State) (d d' : Nat) (y : Guest) :
    ((s.updDie d fun x => { x with guests := x.guests ++ [y] }).die d').table = (s.die d').table := by
  by_cases h : d' = d
  · subst h
    rw [die_updDie_same]
  · rw [die_updDie_other _ _ h]

/-- A launch is offered to a die that its mask allows and that has a free entry. -/
theorem exec_guestOffer (hd : d < 4) (hg : g < 4) (hst : (s.entryAt d e).st = .active) (hgd : g ≠ d)
    (hnot : (s.entryAt d e).guests.contains g = false) (hmask : maskOf (s.entryAt d e).lrec.dmask g ≠ 0)
    (hfree : s.freeEntryOf g = some n) : ∃ t, exec (.guestOffer d e g) s = .next t ∧ (t.entryAt g n).st = .guest ∧
      (t.entryAt d e).guests = (s.entryAt d e).guests ++ [g] ∧
      (t.die g).guests = (s.die g).guests ++ [{ home := d, homeEntry := e, shadow := n }] := by
  have hexec : ∃ w : QueueSt, exec (.guestOffer d e g) s =
      .next (((((s.updEntry g n fun y => { y with st := .guest }).updDie g fun y =>
        { y with guests := y.guests ++ [{ home := d, homeEntry := e, shadow := n }] }).updQueue g
          ({ home := d, homeEntry := e, shadow := n } : Guest).queue fun _ => w).updEntry d e fun y =>
            { y with guests := y.guests ++ [g] })) := by
    refine ⟨?queue, congrArg Host.Outcome.next (?same : _ = _)⟩
    case same =>
      simp only [Nat.mod_eq_of_lt hd, Nat.mod_eq_of_lt hg, hst, hgd, hnot, hmask, hfree, ne_eq, not_true_eq_false,
        Bool.false_eq_true, or_self, if_false]
      rfl
  obtain ⟨w, hexec⟩ := hexec
  refine ⟨_, hexec, ?_, ?_, ?_⟩
  · rw [entryAt_updEntry, if_neg (fun h => hgd h.1), entryAt_of_table (updQueue_keeps _ _ _ _ _).1,
      entryAt_of_table (guestsAdded_table _ _ _ _), entryAt_updEntry, if_pos ⟨rfl, rfl⟩]
  · rw [entryAt_updEntry, if_pos ⟨rfl, rfl⟩, entryAt_of_table (updQueue_keeps _ _ _ _ _).1,
      entryAt_of_table (guestsAdded_table _ _ _ _), entryAt_updEntry, if_neg (fun h => hgd h.1.symm)]
  · rw [State.updEntry, die_updDie_other _ _ hgd, (updQueue_keeps _ _ _ _ _).2, die_updDie_same, State.updEntry,
      die_updDie_same]

end

/-- Settles O41: each event by its own conditions; an offer touches a die's guests and queues beside two entries. -/
theorem launchRecordsAreTaken : Obligations.LaunchRecordsAreTaken := by
  intro s d q e g n loc x y hd hg
  refine ⟨fun hdesc hen hok hseen hroom u hu hfree hload hfull hwait =>
      exec_readRecord hd hdesc hen hok hseen hroom hu hfree hload hfull hwait,
    fun v hv => ⟨fun h => readRecord_waits (hv ▸ h), fun h => ?prepared⟩,
    fun hst hheld hind hdeps hdone => exec_recordTake hd hst hheld hind hdeps hdone, fun hst hage => ?reuse,
    fun hst hgd hnot hmask hfree => exec_guestOffer hd hg hst hgd hnot hmask hfree, fun k hy hk hk0 hst hheld hfew => ?claim,
    fun hbase hloc hfull hbusy hrsvd => ?cdis⟩
  case prepared =>
    subst hv
    exact readRecord_reads h
  case reuse =>
    refine congrArg Host.Outcome.next (?_ : _ = _)
    simp only [Nat.mod_eq_of_lt hd, hst, hage, and_self, if_true]
  case claim =>
    refine congrArg Host.Outcome.next (?_ : _ = _)
    simp only [Nat.mod_eq_of_lt hd, hy, ← hk, hk0, hst, hheld, Nat.not_lt.2 hfew, ne_eq, not_true_eq_false, Bool.false_eq_true,
      or_self, if_false]
  case cdis =>
    have hbase' : (s.die d).dqbase.toNat ≠ 0 := fun h => hbase (BitVec.eq_of_toNat_eq h)
    refine congrArg Host.Outcome.next (?_ : _ = _)
    simp only [Nat.mod_eq_of_lt hd, hbase', hloc, hfull, hbusy, touchRow_rdMem, hrsvd, Bool.not_true, Bool.false_eq_true, or_self,
      ne_eq, not_true_eq_false, if_false]

end Sys2Proof.Proofs

/-! PROOFS. Slices are started (05, 07). -/

namespace Sys2Proof.Proofs
open Sys2Proof.Machine Sys2Proof.Laws

/-! ## Mesh cycles of a dispenser (R82, R85) -/

/-- What a mesh cycle of a die goes by: its time, and what a cycle has left. -/
def cycleOf (s : State) (d : Nat) : Nat × Nat × Nat × List Nat :=
  (s.time, (s.die d).cycleAt, (s.die d).cycleGrants, (s.die d).cands)

section
variable {s : State} {d : Nat}

theorem cycleOf_updDie {f : Die → Die} (hf : ∀ x, (f x).cycleAt = x.cycleAt ∧ (f x).cycleGrants = x.cycleGrants ∧
    (f x).cands = x.cands) (d' : Nat) : cycleOf (s.updDie d' f) d = cycleOf s d := by
  rw [cycleOf, cycleOf, updDie_time]
  by_cases h : d = d'
  · subst h
    obtain ⟨h1, h2, h3⟩ := hf (s.die d)
    rw [die_updDie_same, h1, h2, h3]
  · rw [die_updDie_other _ _ h]

theorem cycleOf_updLaunch (lid : Nat) (f : Entry → Entry) : cycleOf (s.updLaunch lid f) d = cycleOf s d := by
  rw [State.updLaunch, State.updEntry]
  refine cycleOf_updDie ?_ _
  exact fun _ => ⟨rfl, rfl, rfl⟩

theorem cycleOf_updQueue (d' q : Nat) (f : QueueSt → QueueSt) : cycleOf (s.updQueue d' q f) d = cycleOf s d := by
  rw [State.updQueue]
  refine cycleOf_updDie ?_ _
  exact fun _ => ⟨rfl, rfl, rfl⟩

theorem cycleOf_countWithheld (s : State) (d d' : Nat) : cycleOf (s.countWithheld d') d = cycleOf s d := by
  unfold State.countWithheld
  dsimp only
  split
  · rfl
  · exact foldl_keeps (fun s => cycleOf s d) (fun u (x : Served) => cycleOf_updLaunch x.lid _) _ _

theorem cycleOf_spillRequests (s : State) (d d' : Nat) : cycleOf (s.spillRequests d') d = cycleOf s d := by
  refine foldl_keeps (fun s => cycleOf s d) (fun u c => ?_) _ _
  refine foldl_keeps (fun s => cycleOf s d) (fun v x => ?_) _ _
  split <;> rfl

theorem cycleOf_wrrPick (s : State) (d d' cls c : Nat) : cycleOf (s.wrrPick d' cls c).2 d = cycleOf s d := by
  unfold State.wrrPick
  dsimp only
  split
  · rfl
  · split
    · exact foldl_keeps (fun s => cycleOf s d) (fun u q => cycleOf_updQueue d' q _) _ _
    · rfl

theorem cycleOf_pickFrom (d d' c : Nat) (classes : List Nat) :
    ∀ s : State, cycleOf (s.pickFrom d' c classes).2 d = cycleOf s d := by
  induction classes with
  | nil => exact fun _ => rfl
  | cons cls rest ih =>
    intro s
    have hpick := cycleOf_wrrPick s d d' cls c
    rw [State.pickFrom]
    split <;> rename_i heq <;> rw [heq] at hpick
    · exact hpick
    · exact (ih _).trans hpick

theorem mem_sampled {n : Nat} : n ∈ s.sampled d ↔ n < 1024 ∧ s.candidate (1024 * d + n) = true := by
  rw [State.sampled, List.mem_flatMap]
  constructor
  · rintro ⟨m, hm, hn⟩
    split at hn
    · obtain ⟨-, rfl⟩ := List.mem_replicate.1 hn
      exact ⟨List.mem_range.1 hm, ‹_›⟩
    · exact nomatch hn
  · rintro ⟨hn, hc⟩
    refine ⟨n, List.mem_range.2 hn, ?_⟩
    have hfree : s.freeSlotsOf (1024 * d + n) ≠ 0 := by
      simp only [State.candidate, State.hasSlot, Bool.and_eq_true, decide_eq_true_eq] at hc
      omega
    rw [if_pos hc]
    exact List.mem_replicate.2 ⟨hfree, rfl⟩

/-- A mesh cycle begins with no grant and the candidates sampled. -/
theorem cycleOf_meshCycle (s : State) (d : Nat) : cycleOf (s.meshCycle d) d = (s.time, s.time, 0,
    (s.updDie d fun y => { y with cdisUsed := y.cdis, cycleAt := s.time, cycleGrants := 0 }).sampled d) := by
  unfold State.meshCycle
  dsimp only
  rw [cycleOf_spillRequests, cycleOf_countWithheld, cycleOf, updDie_time, updDie_time, die_updDie_same, die_updDie_same]

theorem nextCore_mem {n : Nat} (h : s.nextCore d = some n) : n ∈ (s.die d).cands :=
  List.contains_iff_mem.1 (List.find?_some h)

theorem nextCore_none (h : (s.die d).cands = []) : s.nextCore d = none := by
  rw [State.nextCore, h]
  exact List.find?_eq_none.2 fun _ _ h => nomatch h

/-- The grant of a cycle passes over core n, for which no queue offers a launch. -/
def passOver (s : State) (d n : Nat) : State := s.updDie d fun y => { y with cands := y.cands.filter (· != n) }

/-- A candidate is taken up: the next grant begins after it. -/
def atCore (s : State) (d n : Nat) : State := s.updDie d fun y => { y with corePtr := (n + 1) % 1024 }

theorem cycleOf_atCore (s : State) (d n : Nat) : cycleOf (atCore s d n) d = cycleOf s d := by
  unfold atCore
  refine cycleOf_updDie ?_ _
  exact fun _ => ⟨rfl, rfl, rfl⟩

/-- What picking for a candidate and passing it over leave of a cycle. -/
theorem cycleOf_passOver {s1 : State} {n c : Nat} {classes : List Nat} {r : Option (Nat × Nat)}
    (h : (atCore s d n).pickFrom d c classes = (r, s1)) : cycleOf (passOver s1 d n) d =
      (s.time, (s.die d).cycleAt, (s.die d).cycleGrants, (s.die d).cands.filter (· != n)) := by
  have hpick := cycleOf_pickFrom d d c classes (atCore s d n)
  rw [h, cycleOf_atCore] at hpick
  obtain ⟨htime, hat, hgrants, hcands⟩ : _ ∧ _ ∧ _ ∧ _ := by simpa only [cycleOf, Prod.mk.injEq] using hpick
  rw [cycleOf, passOver, updDie_time, die_updDie_same, htime, hat, hgrants, hcands]

/-- One try of a grant for the next candidate, if any; rest: those after it. -/
def grantTry (next : Option Nat) (rest : State → State) (s : State) (d : Nat) : State :=
  match next with
  | none => s.noGrant d
  | some n =>
    match (atCore s d n).pickFrom d (1024 * d + n) [7, 6, 5, 4, 3, 2, 1, 0] with
    | (none, s) => rest (passOver s d n)
    | (some (cls, q), s) =>
      match s.offer d (1024 * d + n) q with
      | none => s
      | some x => s.grantTo d n cls q x

/-- The next candidate is a search of 1,024 cores, which must not be evaluated here. -/
theorem grantNext_succ (s : State) (d f : Nat) :
    s.grantNext d (f + 1) = grantTry (s.nextCore d) (fun u => u.grantNext d f) s d := by
  delta State.grantNext
  dsimp only [State.grantNext._f]
  generalize s.nextCore d = next
  cases next <;> rfl

theorem grantNext_none (h : s.nextCore d = none) (f : Nat) : s.grantNext d f = s.noGrant d := by
  cases f with
  | zero => rfl
  | succ f =>
    rw [grantNext_succ, h]
    rfl

theorem grantNext_pass {s1 : State} {n : Nat} (hn : s.nextCore d = some n)
    (hp : (atCore s d n).pickFrom d (1024 * d + n) [7, 6, 5, 4, 3, 2, 1, 0] = (none, s1)) (f : Nat) :
    s.grantNext d (f + 1) = (passOver s1 d n).grantNext d f := by
  rw [grantNext_succ, hn]
  simp only [grantTry, hp]

theorem grantNext_grants {s1 : State} {n cls q : Nat} {x : Served} (hn : s.nextCore d = some n)
    (hp : (atCore s d n).pickFrom d (1024 * d + n) [7, 6, 5, 4, 3, 2, 1, 0] = (some (cls, q), s1))
    (hx : s1.offer d (1024 * d + n) q = some x) (f : Nat) : s.grantNext d (f + 1) = s1.grantTo d n cls q x := by
  rw [grantNext_succ, hn]
  simp only [grantTry, hp, hx]

theorem grantNext_unoffered {s1 : State} {n cls q : Nat} (hn : s.nextCore d = some n)
    (hp : (atCore s d n).pickFrom d (1024 * d + n) [7, 6, 5, 4, 3, 2, 1, 0] = (some (cls, q), s1))
    (hx : s1.offer d (1024 * d + n) q = none) (f : Nat) : s.grantNext d (f + 1) = s1 := by
  rw [grantNext_succ, hn]
  simp only [grantTry, hp, hx]

theorem passOver_cands {s1 : State} {n c : Nat} {classes : List Nat} {r : Option (Nat × Nat)}
    (h : (atCore s d n).pickFrom d c classes = (r, s1)) :
    ((passOver s1 d n).die d).cands = (s.die d).cands.filter (· != n) :=
  congrArg (fun x => x.2.2.2) (cycleOf_passOver h)

theorem filter_ne_length {n : Nat} {l : List Nat} (h : n ∈ l) : (l.filter (· != n)).length < l.length :=
  List.length_filter_lt_length_iff_exists.2 ⟨n, h, by rw [bne_self_eq_false]; exact Bool.false_ne_true⟩

/-- As many tries as there are candidates are enough. -/
theorem grantNext_fuel (n : Nat) : ∀ (s : State) (f g : Nat), (s.die d).cands.length ≤ n → (s.die d).cands.length ≤ f →
    (s.die d).cands.length ≤ g → s.grantNext d f = s.grantNext d g := by
  induction n with
  | zero =>
    intro s f g hn _ _
    have hnone := nextCore_none (s := s) (d := d) (List.length_eq_zero_iff.1 (Nat.le_zero.1 hn))
    rw [grantNext_none hnone, grantNext_none hnone]
  | succ n ih =>
    intro s f g hn hf hg
    cases hnext : s.nextCore d with
    | none => rw [grantNext_none hnext, grantNext_none hnext]
    | some m =>
      have hlen := filter_ne_length (nextCore_mem hnext)
      obtain ⟨f, rfl⟩ : ∃ k, f = k + 1 := ⟨f - 1, by omega⟩
      obtain ⟨g, rfl⟩ : ∃ k, g = k + 1 := ⟨g - 1, by omega⟩
      rcases hpick : (atCore s d m).pickFrom d (1024 * d + m) [7, 6, 5, 4, 3, 2, 1, 0] with ⟨_ | ⟨cls, q⟩, s1⟩
      · have hcands := passOver_cands hpick
        rw [grantNext_pass hnext hpick, grantNext_pass hnext hpick]
        exact ih _ f g (by rw [hcands]; omega) (by rw [hcands]; omega) (by rw [hcands]; omega)
      · cases hx : s1.offer d (1024 * d + m) q with
        | none => rw [grantNext_unoffered hnext hpick hx, grantNext_unoffered hnext hpick hx]
        | some x => rw [grantNext_grants hnext hpick hx, grantNext_grants hnext hpick hx]

theorem exec_grant_within (hd : d < 4) (h : (s.die d).cycleAt = s.time ∧ (s.die d).cycleGrants < 4) :
    exec (.grant d) s = .next (s.grantNext d ((s.die d).cands.length + 1)) := by
  refine congrArg Host.Outcome.next (?_ : _ = _)
  simp only [Nat.mod_eq_of_lt hd, h, and_self, if_true]

theorem exec_grant_begins (hd : d < 4) (h : ¬((s.die d).cycleAt = s.time ∧ (s.die d).cycleGrants < 4)) :
    exec (.grant d) s = .next ((s.meshCycle d).grantNext d (((s.meshCycle d).die d).cands.length + 1)) := by
  refine congrArg Host.Outcome.next (?_ : _ = _)
  simp only [Nat.mod_eq_of_lt hd, h, if_false]

theorem meshCycle_cycle (s : State) (d : Nat) : (s.meshCycle d).time = s.time ∧ ((s.meshCycle d).die d).cycleAt = s.time ∧
    ((s.meshCycle d).die d).cycleGrants = 0 ∧ ((s.meshCycle d).die d).cands =
      (s.updDie d fun y => { y with cdisUsed := y.cdis, cycleAt := s.time, cycleGrants := 0 }).sampled d := by
  simpa only [cycleOf, Prod.mk.injEq] using cycleOf_meshCycle s d

/-- A grant that leaves its queue credit. -/
theorem grantTo_credit {n cls q : Nat} {x : Served} {u : State} (hu : u = (s.updDie d fun y => { y with
      cycleGrants := y.cycleGrants + 1
      cands := if x.lrec.twin then (y.cands.erase n).erase (twinCore n) else y.cands.erase n }).startSlice d (1024 * d + n) x)
    (hc : 1 < (u.queue d q).credit) : s.grantTo d n cls q x =
      (u.updQueue d q fun y => { y with credit := (u.queue d q).credit - 1, ageFrom := some u.time }).noteAges d := by
  have hleft : (u.queue d q).credit - 1 ≠ 0 := by omega
  rw [State.grantTo, ← hu, if_neg hleft]

/-! ## Starts, ends and spills of slices (R86, R94, R98) -/

theorem startCtx_reg (s : State) (m : Msg) (j : Nat) :
    (s.startCtx m).reg j = if j = 0 then m.retw else if j = 1 then m.origin else 0 := by
  have h0 : Tab.canon (0 : Word) [] = true := rfl
  have hreg : (s.startCtx m).reg j = Tab.rd 0 (Tab.set 0 (Tab.set 0 [] 1 m.origin) 0 m.retw) j := rfl
  rw [hreg, rd_set (canon_set 1 m.origin h0), rd_set h0]
  rfl

theorem exec_startMessage {n lid i c k k' : Nat} {twin : Bool} {m : Msg} (hp : s.packet? n = some (.start d lid i c twin m))
    (hlive : s.lidLive lid = true) (hst : (s.entry lid).st = .active) (hheld : (s.entry lid).held = false)
    (hidle : s.isIdle c = false) (hstuck : s.stuckAt n c = false)
    (hslots : (s.dropPacket n).startSlots d lid c twin = some (k, k')) {u : State}
    (hu : u = ((s.dropPacket n).tallyStart d lid i c k).updLaunch lid fun e => { e with
      started := true, tstart := if e.started then min e.tstart m.granted else m.granted }) :
    exec (.startMessage n) s = .next ((u.loadThread c k k' (u.startCtx m) (some i) 0 0 false).checkDraining lid) := by
  refine congrArg Host.Outcome.next (?_ : _ = _)
  simp only [hp, hlive, hst, hheld, hidle, hstuck, hslots, ← hu, Bool.not_true, Bool.false_eq_true, ne_eq, not_true_eq_false,
    or_self, if_false]

theorem exec_sliceEndReport {n lid i : Nat} {twin : Bool} (hp : s.packet? n = some (.sliceEnd lid i twin))
    (hlive : (s.dropPacket n).lidLive lid = true) : exec (.sliceEndReport n) s = .next ((s.dropPacket n).endSlice lid i
      (twin && ((s.entry lid).st != .ending || (s.entry lid).killWave))) := by
  refine congrArg Host.Outcome.next (?_ : _ = _)
  simp only [hp, hlive, if_true]
  rfl

theorem exec_spillRequest {n c lid k : Nat} (hn : s.net.findIdx? (· == .spill c lid) = some n)
    (hlive : s.lidLive lid = true) (hst : (s.entry lid).st = .active) (hfree : (s.dropPacket n).anyFree c = false)
    (hk : (s.longestParked c fun y => (spillable y && s.reserveRoom y) &&
      decide (s.lidClass (tswLid y.ctx.tsw) ≤ s.lidClass lid)) = some k) {u : State} (hu : u = (s.dropPacket n).askSpill c k) :
    exec (.spillRequest c lid) s = .next (u.answerSpill (u.leadSlot c k).1 (u.leadSlot c k).2) := by
  refine congrArg Host.Outcome.next (?_ : _ = _)
  simp only [hn, hlive, hst, hfree, hk, ← hu, beq_self_eq_true, Bool.and_self, Bool.not_true, Bool.false_eq_true, or_self,
    if_false]

end

/-- Settles O42: a mesh cycle begins with the candidates sampled, and passing a candidate over only shortens their list. -/
theorem slicesAreStarted : Obligations.SlicesAreStarted := by
  intro s s1 d n c q cls lid i k k' twin m x hd
  obtain ⟨htime, hat, hgrants, hcands⟩ := meshCycle_cycle s d
  refine ⟨fun h => ?begins, ⟨hat, hgrants, fun j => ?cands⟩, fun hin hn => ⟨fun hp hx => ⟨?grant, fun u hu hc => grantTo_credit hu hc⟩,
    fun hp => ?pass⟩, fun hin hn => ?nothing, fun hp hlive hst hheld hidle hstuck hslots u hu =>
      exec_startMessage hp hlive hst hheld hidle hstuck hslots hu,
    ⟨startCtx_reg s m 0, startCtx_reg s m 1, fun r hr => ?rest, rfl, rfl⟩, exec_sliceEndReport,
    fun hn hlive hst hfree hk u hu => exec_spillRequest hn hlive hst hfree hk hu⟩
  case begins => rw [exec_grant_begins hd h, exec_grant_within hd ⟨hat.trans htime.symm, by rw [hgrants]; decide⟩]
  case cands =>
    rw [Bool.eq_iff_iff, List.contains_iff_mem, hcands, mem_sampled, Bool.and_eq_true, decide_eq_true_eq]
  case grant => rw [exec_grant_within hd hin, grantNext_grants hn hp hx]
  case pass =>
    obtain ⟨htime', hat', hgrants', hcands'⟩ : (passOver s1 d n).time = s.time ∧ _ ∧ _ ∧ _ := by
      simpa only [cycleOf, Prod.mk.injEq] using cycleOf_passOver hp
    have hlen := filter_ne_length (nextCore_mem hn)
    rw [exec_grant_within hd hin, grantNext_pass hn hp, ← passOver,
      exec_grant_within hd ⟨hat'.trans (hin.1.trans htime'.symm), by rw [hgrants']; exact hin.2⟩]
    exact congrArg _ (grantNext_fuel _ _ _ _ le_rfl (by rw [hcands']; omega) (by omega))
  case nothing => rw [exec_grant_within hd hin, grantNext_none hn]
  case rest => rw [startCtx_reg, if_neg (by omega), if_neg (by omega)]

end Sys2Proof.Proofs

/-! PROOFS. Power events (06). -/

namespace Sys2Proof.Proofs
open Sys2Proof.Machine Sys2Proof.Laws

/-! ## Power events (R104, R106-R112) -/

section
variable {s : State}

/-- A change of a square is what it does to the square as it stands. -/
theorem updSquare_congr {sq : Nat} {f g : Square → Square} (h : f (s.square sq) = g (s.square sq)) :
    s.updSquare sq f = s.updSquare sq g := by
  have hupd : Tab.upd {} s.squares sq f = Tab.upd {} s.squares sq g := congrArg (fun v => Tab.put s.squares sq v) h
  rw [State.updSquare, hupd, State.updSquare]

/-- A square over its current budget stretches by one more, and one within it by one less. -/
theorem currentEstimate_square (s : State) (sq ma : Nat) : ∃ t, exec (.currentEstimate sq ma) s = .next t ∧
    ((s.square sq).ibud ≠ 0xFFFF → (s.square sq).ibud < ma → (t.square sq).overB = true ∧
      (t.square sq).stretch = min 15 ((s.square sq).stretch + 1)) ∧
    (((s.square sq).ibud = 0xFFFF ∨ ma ≤ (s.square sq).ibud) → (t.square sq).overB = false ∧
      (t.square sq).stretch = (s.square sq).stretch - 1) := by
  refine ⟨_, rfl, fun h1 h2 => ?_, fun h => ?_⟩ <;> rw [square_updSquare_same]
  · have hover : ((s.square sq).ibud != 0xFFFF && decide ((s.square sq).ibud < ma)) = true := by
      rw [Bool.and_eq_true, bne_iff_ne, decide_eq_true_eq]
      exact ⟨h1, h2⟩
    exact ⟨hover, if_pos hover⟩
  · have hunder : ((s.square sq).ibud != 0xFFFF && decide ((s.square sq).ibud < ma)) = false := by
      rw [Bool.and_eq_false_iff, bne_eq_false_iff_eq, decide_eq_false_iff_not, Nat.not_lt]
      exact h
    exact ⟨hunder, if_neg (by rw [hunder]; exact Bool.false_ne_true)⟩

theorem powerMeasurement_power (s : State) (mw : Nat) : ∃ t, exec (.powerMeasurement mw) s = .next t ∧ t.power.mw = mw ∧
    t.power.e = s.power.e + mw * 10 - 24000000 ∧
    (s.powerLimit t.power.e < mw → t.power.extra = min 15 (s.power.extra + 1)) ∧
    (mw * 100 ≤ s.powerLimit t.power.e * 95 → t.power.extra = s.power.extra - 1) := by
  refine ⟨_, rfl, rfl, rfl, fun h => if_pos h, fun h => ?_⟩
  have hlim : ¬ s.powerLimit (s.power.e + mw * 10 - 2400000 * 10) < mw := by
    change mw * 100 ≤ s.powerLimit (s.power.e + mw * 10 - 2400000 * 10) * 95 at h
    omega
  exact (if_neg hlim).trans (if_pos h)

/-- A window of damage that does not release threads. -/
theorem damageWindow_district {d sum level : Nat}
    (hsum : sum = (((s.district d).bucket :: (s.district d).window).take 100).foldl (· + ·) 0)
    (hlevel : level = nextLevel (s.district d).level sum (s.die (d / 16)).hard (s.die (d / 16)).soft)
    (h : level ≠ 0 ∨ (s.district d).level = 0) : ∃ t, exec (.damageWindow d) s = .next t ∧ (t.district d).bucket = 0 ∧
      (t.district d).d = sum ∧ (t.district d).level = level := by
  have hexec : exec (.damageWindow d) s = .next (s.updDistrict d fun y =>
      { y with window := ((s.district d).bucket :: (s.district d).window).take 100, d := sum, bucket := 0, level := level }) := by
    subst hlevel hsum
    refine congrArg Host.Outcome.next (if_neg fun hn => ?_)
    exact h.elim (fun h => h hn.1) hn.2
  refine ⟨_, hexec, ?_, ?_, ?_⟩ <;> rw [district_updDistrict_same]

end

/-- Settles O47: each event by its own conditions. -/
theorem powerEvents : Obligations.PowerEvents := by
  intro s sq ma mw d h die core v
  refine ⟨fun ht => ?transition, currentEstimate_square s sq ma, powerMeasurement_power s mw, ?sample,
    fun hl => ?window, fun c k hl hf => ?park, fun t hq hi hs ht => ?idle, fun hu => ?exit, fun hp hw => ?heartbeat, rfl,
    fun hv => ?sign, fun hv => ?unsigned, fun hc => ?layers, fun hc => ?remap⟩
  case transition =>
    refine congrArg Host.Outcome.next (updSquare_congr ?_)
    rw [if_pos ht]
  case sample => exact ⟨_, rfl, by rw [district_updDistrict_same], by rw [district_updDistrict_same]⟩
  case window =>
    obtain ⟨t, ht, hb, hd, hlev⟩ := damageWindow_district rfl rfl hl
    exact ⟨t, ht, hb, hd, by rw [hlev, hd]⟩
  case park =>
    refine congrArg Host.Outcome.next (?_ : _ = _)
    simp only [hl, hf, ne_eq, not_true_eq_false, if_false]
  case idle =>
    refine congrArg Host.Outcome.next (?_ : _ = _)
    simp only [hq, hi, hs, ht, Option.any_some, decide_true, Bool.not_false, Bool.and_self, if_true]
  case exit =>
    refine congrArg Host.Outcome.next (?_ : _ = _)
    simp only [hu, if_false, Nat.sub_zero, Nat.zero_add]
  case heartbeat =>
    refine congrArg Host.Outcome.next (?_ : _ = _)
    simp only [hp, hw, Bool.false_eq_true, not_false_eq_true, and_self, if_true]
  case sign => exact congrArg Host.Outcome.next (if_pos hv)
  case unsigned => exact congrArg Host.Outcome.next (if_neg hv)
  case layers => exact congrArg Host.Outcome.next (if_neg (by rw [isSvc, decide_eq_true_eq]; omega))
  case remap => exact congrArg Host.Outcome.next (if_neg (by rw [isSvc, decide_eq_true_eq]; omega))

end Sys2Proof.Proofs

/-! PROOFS. The Burmir link: training, control flits, timers, replays (02). -/

namespace Sys2Proof.Proofs
open Sys2Proof.Machine Sys2Proof.Laws

section
variable {s : State} {p : Nat}

/-- An update of a port counts only by what it makes of the port that is there. -/
theorem updPort_congr {f g : Port → Port} (h : f (s.port p) = g (s.port p)) : s.updPort p f = s.updPort p g := by
  have hupd : Tab.upd {} s.ports p f = Tab.upd {} s.ports p g := congrArg (fun v => Tab.put s.ports p v) h
  rw [State.updPort, hupd, State.updPort]

/-! ## Training (R29) -/

theorem linkTraining_eq (lanes : BitVec 16) (hdown : (s.port p).up = false) (htrain : s.mayTrain p = true) :
    exec (.linkTraining p lanes) s = .next (if s.time < (s.port p).retryAt then s
      else match trainedLanes lanes with
        | some l =>
          let s := s.updPort p fun t =>
            { t with up := true, lanes := l, retryAt := 0, tx := [], rx := [], outq := [], held := [], wire := [] }
          if l = 0xFFFF then s else s.logEvent 9 p
        | none => (s.updPort p fun t =>
            { t with attempts := t.attempts + 1, retryAt := s.time + 1000000000 }).logEvent 8 p) := by
  refine congrArg Host.Outcome.next (?_ : _ = _)
  simp only [hdown, htrain, Bool.false_eq_true, Bool.not_true, false_or]
  <;> rfl

theorem trainedLanes_low {lanes : BitVec 16} (hall : lanes ≠ 0xFFFF) (hlow : lanes.toNat % 256 = 255) :
    trainedLanes lanes = some 0x00FF := by
  rw [trainedLanes, if_neg hall, if_pos hlow]

/-- Lanes whose lower half has not trained whole are not all lanes. -/
theorem lanes_ne_all {lanes : BitVec 16} (hlow : lanes.toNat % 256 ≠ 255) : lanes ≠ 0xFFFF :=
  fun h => hlow (congrArg (fun l : BitVec 16 => l.toNat % 256) h)

theorem trainedLanes_high {lanes : BitVec 16} (hlow : lanes.toNat % 256 ≠ 255) (hhigh : lanes.toNat / 256 = 255) :
    trainedLanes lanes = some 0xFF00 := by
  rw [trainedLanes, if_neg (lanes_ne_all hlow), if_neg hlow, if_pos hhigh]

theorem trainedLanes_none {lanes : BitVec 16} (hlow : lanes.toNat % 256 ≠ 255) (hhigh : lanes.toNat / 256 ≠ 255) :
    trainedLanes lanes = none := by
  rw [trainedLanes, if_neg (lanes_ne_all hlow), if_neg hlow, if_neg hhigh]

/-! ## A port that goes down with nothing outstanding (R35) -/

theorem portDown_idle (hup : (s.port p).up = true) (hheld : (s.port p).held = []) (hresv : (s.port p).resv = [])
    (hpending : (s.port p).pending = []) (hmsgs : (s.port p).msgsOut = [])
    (hgathers : (s.gathers.filter fun g => g.src / 8192 != p) = s.gathers) (hadapter : s.adapter.portLost p = s.adapter)
    (hwaiting : s.adapter.waiting = []) (hlost : s.lostReleases p = []) :
    s.portDown p = (s.updPort p fun t =>
      { t with
        up := false, lanes := 0, tx := [], rx := [], outq := [], wire := [], retryAt := s.time }).logEvent 10 p := by
  have hport : (s.updPort p fun t =>
      { t with
        up := false, lanes := 0, tx := [], rx := [], outq := [], held := [], wire := [], resv := []
        pending := t.pending.filter s.mouldAnswers, msgsOut := [], retryAt := s.time }) = s.updPort p fun t =>
      { t with
        up := false, lanes := 0, tx := [], rx := [], outq := [], wire := [], retryAt := s.time } := by
    refine updPort_congr ?_
    simp only [hheld, hresv, hpending, hmsgs, List.filter_nil]
  have hpump : ∀ u : State, u.adapter.waiting = [] → u.adapterPump = u := by
    intro u hu
    rw [State.adapterPump, hu, List.foldl_nil, ← hu]
  simp only [State.portDown, hup, Bool.not_true, Bool.false_eq_true, if_false, hlost, hport, hheld, hresv, hpending, hmsgs,
    List.filter_nil, List.map_nil, List.append_nil, List.foldl_nil]
  have hgath : ((s.updPort p fun t =>
      { t with
        up := false, lanes := 0, tx := [], rx := [], outq := [], wire := [], retryAt := s.time }).gathers.filter
          fun g => g.src / 8192 != p) = s.gathers := hgathers
  rw [hgath, hpump]
  · exact congrArg (State.logEvent · 10 p) (congrArg (fun a => { (s.updPort p fun t =>
      { t with
        up := false, lanes := 0, tx := [], rx := [], outq := [], wire := [], retryAt := s.time }) with adapter := a }) hadapter)
  · exact (congrArg Adapter.waiting hadapter).trans hwaiting

/-! ## The control flits and timers (R34, R35) -/

theorem control_negative (cls : FlitClass) (seq : Nat) (hup : (s.port p).up = true) :
    exec (.linkControlFlit p cls 1 seq) s =
      .next (if (((s.updPort p fun t => t.replay (clsNo cls) seq true).port p).txSide (clsNo cls)).buf.any
          fun f => decide (16 ≤ f.replays) then
        (s.updPort p fun t => t.replay (clsNo cls) seq true).portDown p
      else s.updPort p fun t => t.replay (clsNo cls) seq true) := by
  refine congrArg Host.Outcome.next (?_ : _ = _)
  simp only [hup, Bool.not_true, Bool.false_eq_true, if_false, Nat.one_ne_zero, if_true]

theorem flitDiscard_refused (hdr : BitVec 64) (lo hi : BitVec 256) (space : Bool) {b : RxSide} (hup : (s.port p).up = true)
    (hb : b = (s.port p).rxSide (flitClass hdr)) (hcls : flitClass hdr ≠ 3)
    (hbad : lcrcOk hdr (leBytes 32 lo.toNat ++ leBytes 32 hi.toNat) = false ∨ flitSeq hdr ≠ b.expect) :
    exec (.flitDiscard p hdr lo hi space) s = .next (s.updPort p fun t =>
      { t with rx := t.rx.put (flitClass hdr) { b with out := b.out ++ [(1, b.expect)] } }) := by
  subst hb
  refine congrArg Host.Outcome.next (?_ : _ = _)
  simp only [hup, hcls, Bool.not_true, Bool.false_eq_true, false_or, if_false, Bool.not_eq_true']
  rw [if_pos hbad]

theorem flitDiscard_inTurn (hdr : BitVec 64) (lo hi : BitVec 256) (space : Bool) {b : RxSide} (hup : (s.port p).up = true)
    (hb : b = (s.port p).rxSide (flitClass hdr)) (hcls : flitClass hdr ≠ 3)
    (hcrc : lcrcOk hdr (leBytes 32 lo.toNat ++ leBytes 32 hi.toNat) = true) (hseq : flitSeq hdr = b.expect) :
    exec (.flitDiscard p hdr lo hi space) s = .next (s.updPort p fun t =>
      { t with
        rx := t.rx.put (flitClass hdr) (if space = true ∨ flitClass hdr = 1 then
          { b with
            full := none, expect := (b.expect + 1) % 4096, part := b.part + 1
            out := b.out ++ [(0, b.expect)] }
        else { b with full := some s.time, out := b.out ++ [(2, b.expect)] }) }) := by
  subst hb
  refine congrArg Host.Outcome.next (?_ : _ = _)
  simp only [hup, hcls, hcrc, hseq, Bool.not_true, Bool.false_eq_true, false_or, if_false, ne_eq, not_true_eq_false]
  by_cases hroom : space = true ∨ flitClass hdr = 1
  · simp only [if_pos hroom]
  · simp only [if_neg hroom]

theorem busyReplay_due (cls : FlitClass) {t : Nat} (hbusy : ((s.port p).txSide (clsNo cls)).busySince = some t)
    (hdue : t + 1000 ≤ s.time) : exec (.busyReplay p cls) s =
      .next (s.updPort p fun y => y.replay (clsNo cls) ((s.port p).txSide (clsNo cls)).replayFrom false) := by
  refine congrArg Host.Outcome.next (?_ : _ = _)
  simp only [hbusy, if_pos hdue]

theorem ackTimeout_due (cls : FlitClass) (hbuf : ((s.port p).txSide (clsNo cls)).buf ≠ [])
    (hdue : ((s.port p).txSide (clsNo cls)).lastAck + 100000 ≤ s.time) :
    exec (.linkAckTimeout p cls) s = .next (s.portDown p) := by
  have hempty : ((s.port p).txSide (clsNo cls)).buf.isEmpty = false := List.isEmpty_eq_false_iff.2 hbuf
  refine congrArg Host.Outcome.next (?_ : _ = _)
  simp only [hempty, hdue, Bool.not_false, and_self, if_true]

theorem busyRepeat_due (cls : FlitClass) {t : Nat} (hfull : ((s.port p).rxSide (clsNo cls)).full = some t)
    (hdue : t + 10000 ≤ s.time) : exec (.busyRepeatTimer p cls) s = .next (s.updPort p fun y =>
      { y with
        rx := y.rx.put (clsNo cls)
          { (s.port p).rxSide (clsNo cls) with
            full := some s.time
            out := ((s.port p).rxSide (clsNo cls)).out ++ [(2, ((s.port p).rxSide (clsNo cls)).expect)] } }) := by
  refine congrArg Host.Outcome.next (?_ : _ = _)
  simp only [hfull, if_pos hdue]

theorem requestTimeout_due {tag : Nat} {x : Outstanding} (hx : s.pendingAt p tag = some x)
    (hdue : x.sentAt + Config.requestLimit ≤ s.time) (hmould : s.mouldAnswers x = false) :
    exec (.requestTimeout p tag) s = .next ((s.settle p x).endRequest x) := by
  refine congrArg Host.Outcome.next (?_ : _ = _)
  simp only [hx, hdue, hmould, Bool.not_false, and_self, if_true]

end

/-! ## A replay of a class (R34) -/

section
variable (t : Port) (k seq : Nat) (counted : Bool) {l r : List HeldFlit} {f : HeldFlit}

theorem txSide_replay_same : (t.replay k seq counted).txSide k =
    { t.txSide k with
      busySince := none
      buf := (t.txSide k).buf.take ((t.txSide k).buf.length - ((t.txSide k).since seq).length) ++
        ((t.txSide k).since seq).map fun f => if counted then { f with replays := f.replays + 1 } else f } :=
  rd_put_same _ _ _ _

theorem txSide_replay_other {k' : Nat} (h : k' ≠ k) : (t.replay k seq counted).txSide k' = t.txSide k' :=
  rd_put_other _ _ _ h

/-- The flits of a class from the first that has the SEQ on. -/
theorem since_append (a : TxSide) (hbuf : a.buf = l ++ f :: r) (hl : ∀ g ∈ l, g.seq ≠ seq) (hf : f.seq = seq) :
    a.since seq = f :: r := by
  have hhead : (f.seq != seq) = false := by rw [hf, bne_self_eq_false]
  rw [TxSide.since, hbuf, List.dropWhile_append_of_pos fun g hg => bne_iff_ne.2 (hl g hg), List.dropWhile_cons, hhead]
  rfl

theorem since_absent (a : TxSide) (hbuf : a.buf = l) (hl : ∀ g ∈ l, g.seq ≠ seq) : a.since seq = [] := by
  rw [TxSide.since, hbuf, List.dropWhile_eq_nil_iff]
  exact fun g hg => bne_iff_ne.2 (hl g hg)

theorem replay_from (hl : ∀ g ∈ l, g.seq ≠ seq) (hbuf : (t.txSide k).buf = l ++ f :: r) (hf : f.seq = seq) :
    (t.replay k seq counted).wire = t.wire ++ (f :: r).map (·.flit) ∧
    ((t.replay k seq counted).txSide k).buf = l ++ (f :: r).map fun g =>
      if counted then { g with replays := g.replays + 1 } else g := by
  have hsince := since_append seq _ hbuf hl hf
  have hkept : (l ++ f :: r).length - (f :: r).length = l.length := by rw [List.length_append, Nat.add_sub_cancel]
  constructor
  · exact congrArg (fun x : List HeldFlit => t.wire ++ x.map (·.flit)) hsince
  · rw [txSide_replay_same, hsince, hbuf, hkept, List.take_left]

theorem replay_absent (hl : ∀ g ∈ l, g.seq ≠ seq) (hbuf : (t.txSide k).buf = l) :
    (t.replay k seq counted).wire = t.wire ∧ ((t.replay k seq counted).txSide k).buf = l := by
  have hsince := since_absent seq _ hbuf hl
  constructor
  · exact (congrArg (fun x : List HeldFlit => t.wire ++ x.map (·.flit)) hsince).trans (List.append_nil _)
  · rw [txSide_replay_same, hsince, hbuf, List.length_nil, Nat.sub_zero, List.take_length, List.map_nil, List.append_nil]

end

/-- Settles O48: training by the halves that trained, each control flit and timer in the branch its condition opens, and a
replay from the first flit with the SEQ. -/
theorem linkEvents : Obligations.LinkEvents := by
  unfold Obligations.LinkEvents
  refine ⟨fun s u p tag seq cls lanes hdr lo hi space x a b ha hb => ⟨fun hdown htrain => ?_, fun hup =>
    ⟨?_, ?_, ?_, fun hcls => ⟨?_, ?_⟩, ?_⟩, ?_, ?_, ?_, requestTimeout_due⟩,
    fun t k seq counted l r f hl => ⟨replay_from t k seq counted hl, replay_absent t k seq counted hl, ?_,
      fun k' => txSide_replay_other t k seq counted⟩⟩
  · refine ⟨fun hearly => ?_, fun hdue => ?_⟩ <;> rw [linkTraining_eq lanes hdown htrain]
    · rw [if_pos hearly]
    · rw [if_neg (Nat.not_lt.2 hdue)]
      refine ⟨fun hall => ?_, fun hall hlow => ?_, fun hlow hhigh => ?_, fun hlow hhigh => ?_⟩
      · subst hall
        rfl
      · rw [trainedLanes_low hall hlow]
        rfl
      · rw [trainedLanes_high hlow hhigh]
        rfl
      · rw [trainedLanes_none hlow hhigh]
  · refine congrArg Host.Outcome.next (?_ : _ = _)
    simp only [hup, Bool.not_true, Bool.false_eq_true, if_false, if_true]
  · intro hu
    subst hu
    rw [control_negative cls seq hup]
    refine ⟨fun hfew => ?_, fun f hf hmany => ?_⟩
    · rw [if_neg]
      exact fun hany => (List.any_eq_true.1 hany).elim fun f hf =>
        Nat.not_le.2 (hfew f hf.1) (of_decide_eq_true hf.2)
    · rw [if_pos (List.any_eq_true.2 ⟨f, hf, decide_eq_true hmany⟩)]
  · subst ha
    refine congrArg Host.Outcome.next (?_ : _ = _)
    simp only [hup, Bool.not_true, Bool.false_eq_true, if_false, OfNat.ofNat_ne_zero, OfNat.ofNat_ne_one]
  · exact flitDiscard_refused hdr lo hi space hup hb hcls
  · refine fun hcrc hseq => ⟨fun hroom => ?_, fun hrsp => ?_⟩ <;>
      rw [flitDiscard_inTurn hdr lo hi _ hup hb hcls hcrc hseq]
    · rw [if_pos hroom]
    · rw [if_neg (not_or.2 ⟨Bool.false_ne_true, hrsp⟩)]
  · exact fun hheld hresv hpending hmsgs hgathers hadapter hwaiting hlost => congrArg Host.Outcome.next
      (portDown_idle hup hheld hresv hpending hmsgs hgathers hadapter hwaiting hlost)
  · subst ha
    exact fun _ => busyReplay_due cls
  · subst ha
    exact ackTimeout_due cls
  · intro t hcls hfull hdue
    rw [hb, hcls] at hfull ⊢
    exact busyRepeat_due cls hfull hdue
  · rw [txSide_replay_same]

end Sys2Proof.Proofs

/-! PROOFS. Requests of peers and their answers (02). -/

namespace Sys2Proof.Proofs
open Sys2Proof.Machine Sys2Proof.Laws

/-! ## Bytes of a number, read again -/

theorem leNat_leBytes (n v : Nat) : leNat (leBytes n v) = v % 2 ^ (8 * n) := by
  induction n generalizing v with
  | zero => exact (Nat.mod_one v).symm
  | succ n ih =>
    have hpow : 2 ^ (8 * (n + 1)) = 256 * 2 ^ (8 * n) := by rw [Nat.mul_succ, Nat.add_comm, Nat.pow_add]
    rw [leBytes, leNat, ih, BitVec.toNat_ofNat, hpow, Nat.mod_mul]

/-! ## Recording a transaction leaves the ports but their arrival counts -/

section
variable (s : State) (lid key : Nat)

theorem touchRow_ports (loc : Nat) : (s.touchRow loc).ports = s.ports := by
  rw [State.touchRow]
  split <;> rfl

theorem dispWrite_ports (loc : Nat) (w : Word) : (s.dispWrite loc w).ports = s.ports :=
  (touchRow_ports _ loc).trans (wrWord_ports _ loc w)

theorem setMouldWord_ports (off v : Nat) : (s.setMouldWord lid off v).ports = s.ports := by
  rw [State.setMouldWord]
  split
  · exact dispWrite_ports s _ _
  · rfl

theorem putEntry_ports (off : Nat) (m : MouldEntry) : (s.putEntry lid off m).ports = s.ports := by
  rw [State.putEntry, setMouldWord_ports, setMouldWord_ports, setMouldWord_ports]

theorem updLaunch_ports (f : Entry → Entry) : (s.updLaunch lid f).ports = s.ports := rfl

theorem dieRecord_ports (d cause : Nat) : (s.dieRecord d cause lid).ports = s.ports := send_ports s _

theorem claimChunk_ports (unit : Nat) : (s.claimChunk lid key unit).ports = s.ports := by
  rw [State.claimChunk]
  split
  · rw [dieRecord_ports, updLaunch_ports, State.markMould, setMouldWord_ports]
  · rw [updLaunch_ports, putEntry_ports, setMouldWord_ports]

theorem claimChunk_ports_of (b : Prop) [Decidable b] (unit : Nat) :
    (if b then s.claimChunk lid key unit else s).ports = s.ports := by
  split
  · exact claimChunk_ports s lid key unit
  · rfl

theorem claimChunk_ports_unless (b : Prop) [Decidable b] (unit : Nat) :
    (if b then s else s.claimChunk lid key unit).ports = s.ports := by
  split
  · rfl
  · exact claimChunk_ports s lid key unit

/-- The part of a record that writes the entry, once the unit has a chunk with room. -/
theorem record_ports (m : MouldEntry) : (s.record lid key m).ports = s.ports := by
  have hwrite : ∀ t : State, t.ports = s.ports →
      (if (!(t.entry lid).recording) = true then t
      else match (t.entry lid).chunks.find? key with
        | some (off, n) =>
          (t.putEntry lid (off + 16 * n) m).updLaunch lid fun e => { e with chunks := e.chunks.put key (off, n + 1) }
        | none => t).ports = s.ports := by
    intro t ht
    split
    · exact ht
    · split
      · rw [updLaunch_ports, putEntry_ports, ht]
      · exact ht
  exact hwrite _ (claimChunk_ports_of s lid key _ m.unit)

theorem recordAll_ports (l : List MouldEntry) : (l.foldl (fun s m => s.record lid key m) s).ports = s.ports := by
  induction l generalizing s with
  | nil => rfl
  | cons m l ih => exact (ih _).trans (record_ports s lid key m)

theorem pending_updPort (p : Nat) (f : Port → Port) (hf : (f (s.port p)).pending = (s.port p).pending) :
    ((s.updPort p f).port p).pending = (s.port p).pending := by
  rw [port_updPort_same, hf]

theorem pending_of_ports {s t : State} (h : t.ports = s.ports) (p : Nat) :
    (t.port p).pending = (s.port p).pending := by
  rw [State.port, h, State.port]

theorem recordTxn_pending (p : Nat) (x : Txn) : ((s.recordTxn lid p x).port p).pending = (s.port p).pending := by
  rw [State.recordTxn]
  split
  · rfl
  · refine (pending_of_ports (recordAll_ports _ lid _ _) p).trans ((pending_updPort _ p _ rfl).trans
      (pending_of_ports (claimChunk_ports_unless s lid _ _ p) p))

end

theorem accept_pending (s : State) (p : Nat) (x : Txn) : ((s.accept p x).port p).pending = (s.port p).pending :=
  pending_updPort s p _ rfl

/-- The posted writes that a PACK acknowledges are those under way on its port. -/
theorem posted_congr {s t : State} {p : Nat} (h : (t.port p).pending = (s.port p).pending) (core n : Nat) :
    t.posted p core n = s.posted p core n := by
  rw [State.posted, h, State.posted]

/-- The bytes of the answer that gives a token. -/
def answerBytes : Tok → List Byte
  | .vec v _ => leBytes 64 v.toNat
  | t => leBytes 8 t.w.toNat

/-! ## Requests of peers -/

section
variable {s : State} {p : Nat} {x : Txn} (hup : (s.port p).up = true) (hrole : s.role p = 1)
  (hform : malformedTxn x false = false)
include hup hrole hform

/-- What a peer's RMT comes to once it is well-formed: the answer of its agent, or a posted write that is gathered. -/
theorem exec_rmt_nowhere (op : RemOp) (hop : x.op = 0x20) (hloc : linkLoc x.addr = none) :
    exec (.rmt p x op) s = .next (if (op.kind == .rpost) = true then
      (s.accept p x).gatherPost (8192 + p) (p * 8192 + op.core % 8192) op
    else (s.accept p x).reply p 0x83 x.tag 1 [0]) := by
  refine congrArg Host.Outcome.next (?_ : _ = _)
  simp only [hup, hrole, hform, hop, hloc, Bool.not_true, Bool.false_eq_true, Nat.reduceEqDiff,
    or_self, ne_eq, not_true_eq_false, if_false, one_ne_zero]

theorem exec_rmt_unaligned (op : RemOp) {loc : Nat} (hop : x.op = 0x20) (hloc : linkLoc x.addr = some loc)
    (halign : loc % remAlign op.kind ≠ 0) : exec (.rmt p x op) s = .next (if (op.kind == .rpost) = true then
      (s.accept p x).gatherPost (ownerOf loc) (p * 8192 + op.core % 8192) op
    else (s.accept p x).reply p 0x83 x.tag 2 [0]) := by
  refine congrArg Host.Outcome.next (?_ : _ = _)
  simp only [hup, hrole, hform, hop, hloc, Bool.not_true, Bool.false_eq_true, Nat.reduceEqDiff,
    or_self, ne_eq, not_true_eq_false, if_false, one_ne_zero]
  rw [if_pos halign]

theorem exec_rmt_performed (op : RemOp) {loc : Nat} {tok : Tok} {u' : State} (hop : x.op = 0x20)
    (hloc : linkLoc x.addr = some loc) (halign : loc % remAlign op.kind = 0)
    (hat : (s.accept p x).remAt { op with place := .mem loc, lid := 0 } loc = (.done tok, u')) :
    exec (.rmt p x op) s = .next (if (op.kind == .rpost) = true then
      u'.gatherPost (ownerOf loc) (p * 8192 + op.core % 8192) op
    else u'.reply p 0x83 x.tag 0 (answerBytes tok)) := by
  refine congrArg Host.Outcome.next (?_ : _ = _)
  simp only [hup, hrole, hform, hop, hloc, halign, hat, Bool.not_true, Bool.false_eq_true, Nat.reduceEqDiff,
    or_self, ne_eq, not_true_eq_false, if_false, one_ne_zero] <;> rfl

theorem exec_rsv_granted {m : Msg} {ch : Nat} {u' : State} (hop : x.op = 0x21)
    (hm : m = { kind := bits (leNat (x.data.take 8)) 63 60, p := (leNat (x.data.take 8)).testBit 59
                t := (leNat (x.data.take 8)).testBit 58, lid := bits (leNat (x.data.take 8)) 55 40
                dpkg := bits (leNat (x.data.take 8)) 39 32, dcore := bits (leNat (x.data.take 8)) 28 16
                origin := word (leNat ((x.data.drop 8).take 8)) })
    (hgood : (s.accept p x).badMsg m = false) (himp : ((s.accept p x).imported p m).isSome = true)
    (hroom : (s.port p).resv.length < 4096) (hres : (s.accept p x).reserveAt m.dcore m.t = some (ch, u')) :
    exec (.rsv p x) s = .next ((u'.updPort p fun t =>
      { t with resv := t.resv ++ [⟨lowestFree ((s.port p).resv.map (·.handle)),
        if m.t then evenCore m.dcore else m.dcore, ch⟩] }).reply p 0x85 x.tag 0
          (leBytes 8 (lowestFree ((s.port p).resv.map (·.handle)) * 2 ^ 16))) := by
  have hrole' : (s.accept p x).role p = 1 := hrole
  have himp' : ((s.accept p x).imported p m).isNone = false := by rw [← Option.not_isSome, himp, Bool.not_true]
  subst hm
  dsimp only at hres
  refine congrArg Host.Outcome.next (?_ : _ = _)
  simp only [hup, hrole, hrole', hform, hop, hgood, himp', hres, Nat.not_le.2 hroom, Bool.not_true, Bool.false_eq_true,
    Nat.reduceEqDiff, or_self, ne_eq, not_true_eq_false, if_false, one_ne_zero]

theorem exec_unrsv_found {r : PortResv} (hop : x.op = 0x22)
    (hr : ((s.accept p x).port p).resv.find? (·.handle == leNat (x.data.take 8) % 2 ^ 12) = some r) :
    exec (.unrsv p x) s = .next (((s.accept p x).updPort p fun t =>
      { t with resv := t.resv.filter (·.handle != leNat (x.data.take 8) % 2 ^ 12) }).send
        (.resvRel (8192 + p) r.core r.coreHandle)) := by
  have hrole' : (s.accept p x).role p = 1 := hrole
  refine congrArg Host.Outcome.next (?_ : _ = _)
  simp only [hup, hrole, hrole', hform, hop, hr, Bool.not_true, Bool.false_eq_true,
    Nat.reduceEqDiff, or_self, ne_eq, not_true_eq_false, if_false, one_ne_zero]

theorem exec_msg_imported {m m' : Msg} (hop : x.op = 0x40) (hm : m = msgOfBits (leNat x.data)) (hgood : s.badMsg m = false)
    (himp : s.imported p m = some m') (hlive : s.peerHeld m'.lid = false) (hplace : s.hasPlace p m' x.rhnd = true) :
    exec (.msg p x false) s = .next (((s.accept p x).recordTxn m'.lid p x).importMsg p m' x.rhnd) := by
  subst hm
  refine congrArg Host.Outcome.next (?_ : _ = _)
  simp only [hup, hrole, hform, hop, hgood, himp, hlive, hplace, Bool.not_true, Bool.false_eq_true,
    Nat.reduceEqDiff, or_self, ne_eq, not_true_eq_false, if_false, Nat.reduceBEq]

end

/-! ## Answers of peers -/

/-- A response of a launch that no replay holds is accepted, recorded and taken as it came. -/
theorem response_live {s : State} {lid : Nat} (h : s.peerHeld lid = false) (p : Nat) (y : Txn)
    (f : State → Nat → Nat → State) :
    s.response lid p y f = some (f ((s.accept p y).recordTxn lid p y) y.status (leNat y.data)) := by
  rw [State.response, h, if_neg Bool.false_ne_true]

section
variable {s : State} {p : Nat}

theorem exec_rmtrsp_live {tag status st : Nat} (v : BitVec 512) {x : Outstanding} {op : RemOp} {y : Txn} {u : State}
    (hx : s.pendingAt p tag = some x) (hop : x.op = some op)
    (hst : (if s.role p = 0 then s.adapterStatus p tag op else some status) = some st)
    (hy : y = { op := 0x83, len := resultBytes op.kind, status := st, tag := tag
                data := leBytes (resultBytes op.kind) v.toNat })
    (hu : u = { s with adapter := { s.adapter with
      answers := s.adapter.answers.filter fun a => !(a.1 == p && a.2.1 == tag) } })
    (hlive : u.peerHeld op.lid = false) :
    exec (.rmtrsp p tag status v) s = .next (((((u.accept p { y with flits := txnFlits y }).recordTxn op.lid p
      { y with flits := txnFlits y }).settle p x).conclude op (match statusCause op.kind st with
        | some b => .bad b
        | none => .done (resultTok op.kind (v.toNat % 2 ^ (8 * resultBytes op.kind)))))) := by
  subst hy
  refine congrArg Host.Outcome.next (?_ : _ = _)
  simp only [hx, hop, hst, ← hu, response_live hlive, Option.getD_some, leNat_leBytes] <;> rfl

/-- The words of a PACK's count are read back as they were sent. -/
theorem pack_words {core count : Nat} (hcore : core < 2 ^ 12) (hcount : count < 2 ^ 12) :
    bits (leNat (leBytes 8 (count * 2 ^ 16 + core))) 11 0 = core ∧
    bits (leNat (leBytes 8 (count * 2 ^ 16 + core))) 27 16 = count := by
  rw [leNat_leBytes, bits, bits]
  omega

theorem exec_pack_live {core count : Nat} {x : Outstanding} {op : RemOp} {y : Txn} (hcore : core < 2 ^ 12)
    (hcount : count < 2 ^ 12) (hhead : (s.posted p core count).head? = some x) (hop : x.op = some op)
    (hy : y = { op := 0x84, len := 8, data := leBytes 8 (count * 2 ^ 16 + core), flits := 1 })
    (hlive : s.peerHeld op.lid = false) : exec (.pack p core count) s =
      .next ((s.posted p core count).foldl (fun t z => match z.op with
        | some o => (t.settle p z).conclude o (.done (.val 0))
        | none => t.settle p z) ((s.accept p y).recordTxn op.lid p y)) := by
  have hsome : (s.posted p core count).isEmpty = false := by
    cases hl : s.posted p core count with
    | nil =>
      rw [hl] at hhead
      exact nomatch hhead
    | cons z l => rfl
  obtain ⟨hc, hn⟩ := pack_words hcore hcount
  have hposted : ((s.accept p y).recordTxn op.lid p y).posted p core count = s.posted p core count :=
    posted_congr ((recordTxn_pending _ op.lid p y).trans (accept_pending s p y)) core count
  subst hy
  refine congrArg Host.Outcome.next (?_ : _ = _)
  simp only [hsome, hhead, hop, Option.map_some, Option.getD_some, Nat.mod_eq_of_lt hcore, Nat.mod_eq_of_lt hcount,
    response_live hlive, Bool.false_eq_true, if_false, hc, hn]
  rw [hposted]
  <;> rfl

theorem exec_rsvrsp_live {tag c k n i : Nat} {d : Word} {x : Outstanding} {y : Txn} {w : State}
    (hx : s.pendingAt p tag = some x) (hfor : x.msgFor = some (c, k, n, i))
    (hy : y = { op := 0x85, len := 8, tag := tag, data := leBytes 8 d.toNat, flits := 1 })
    (hlive : s.peerHeld (tswLid (s.slot c k).ctx.tsw) = false)
    (hans : ((s.accept p y).recordTxn (tswLid (s.slot c k).ctx.tsw) p y).resvAnswer p c k n i d.toNat = some w)
    (hgone : ((w.settle p x).port p).pending.contains x = false) :
    exec (.rsvrsp p tag d) s = .next (w.settle p x) := by
  have hword : leNat (leBytes 8 d.toNat) = d.toNat := by rw [leNat_leBytes, Nat.mod_eq_of_lt d.isLt]
  subst hy
  refine congrArg Host.Outcome.next (?_ : _ = _)
  simp only [hx, hfor, response_live hlive, hword, hans, Option.map_some, Option.getD_some, hgone, Bool.false_eq_true,
    if_false]

end

/-- Settles O49: each request of a peer in the case that its address, alignment, reservation or launch opens, and each
answer through the response that no replay holds. -/
theorem peerTransactions : Obligations.PeerTransactions := by
  unfold Obligations.PeerTransactions
  refine ⟨fun s u u' p loc ch agent src x op m m' tok r g hu hup hrole hform => ?_,
    fun s u w p tag status st core count c k n i v d x op y => ⟨?_, ?_, ?_⟩⟩
  · subst hu
    have hkind : op.kind ≠ .rpost → ¬ (op.kind == .rpost) = true := fun h hb => h (eq_of_beq hb)
    have hpost : op.kind = .rpost → (op.kind == .rpost) = true := fun h => beq_iff_eq.2 h
    refine ⟨fun hop hloc => ?_, fun hop hloc => ⟨fun halign => ?_, fun halign hat => ?_⟩, fun hop hm hgood himp hroom hres =>
      exec_rsv_granted hup hrole hform hop hm hgood himp hroom hres, fun hop hr => exec_unrsv_found hup hrole hform hop hr,
      fun hop hm hgood himp hlive hplace => exec_msg_imported hup hrole hform hop hm hgood himp hlive hplace,
      fun hg hdue => ?_⟩
    · rw [exec_rmt_nowhere hup hrole hform op hop hloc]
      exact ⟨fun h => by rw [if_neg (hkind h)], fun h => by rw [if_pos (hpost h)]⟩
    · rw [exec_rmt_unaligned hup hrole hform op hop hloc halign]
      exact ⟨fun h => by rw [if_neg (hkind h)], fun h => by rw [if_pos (hpost h)]⟩
    · rw [exec_rmt_performed hup hrole hform op hop hloc halign hat]
      exact ⟨fun h => by rw [if_neg (hkind h)] <;> rfl, fun h => by rw [if_pos (hpost h)]⟩
    · refine congrArg Host.Outcome.next (?_ : _ = _)
      simp only [hg, if_pos hdue]
  · intro hx hop hst hy hu hlive hw
    subst hw
    exact exec_rmtrsp_live v hx hop hst hy hu hlive
  · intro hcore hcount hhead hop hy hu hlive
    subst hu
    exact exec_pack_live hcore hcount hhead hop hy hlive
  · intro hx _ hfor hy hu hlive hans hgone
    subst hu
    exact exec_rsvrsp_live hx hfor hy hlive hans hgone

end Sys2Proof.Proofs

/-! PROOFS. The supervisor's requests (03). -/

namespace Sys2Proof.Proofs
open Sys2Proof.Machine Sys2Proof.Laws

section
variable {s u : State} {code q n : Nat} {ws : List Word}

/-- What an answered request comes to, or nothing more where it is answered later. -/
def answerWith (r : Option (Nat × Nat) × State) (q n : Nat) (w0 : Word) : State :=
  match r with
  | (some (r, w2), s) => s.respond q n w0 r w2
  | (none, s) => s

variable (f : State → Nat → List Word → Option (Nat × Nat) × State) (waits : List Word → Bool)
  (hnext : s.nextRequest q = some (n, ws)) (hu : u = s.updSvc q (fun x => { x with taken := (n + 1) % 2 ^ 64 }))
  (hcode : wbits (ws.headD 0) 14 0 = code) (hknown : 1 ≤ code ∧ code ≤ 7)
include hnext hu hcode hknown

/-- A request of a known code with a reserved bit set is answered 1, whatever it asks. -/
theorem serve_reserved (hrsvd : wbits (ws.headD 0) 31 16 ≠ 0) :
    serve code q f s waits = u.respond q n (ws.headD 0) 1 0 := by
  subst hu
  rw [serve, hnext]
  dsimp only
  rw [hcode, if_neg (by omega), if_neg (not_not_intro rfl), if_pos hrsvd]

/-- A request that is in order is taken and answered with the result of its code. -/
theorem serve_taken (hrsvd : wbits (ws.headD 0) 31 16 = 0) (hwaits : waits ws = false) :
    serve code q f s waits = answerWith (f u n ws) q n (ws.headD 0) := by
  subst hu
  rw [serve, hnext]
  dsimp only
  rw [hcode, if_neg (by omega), if_neg (not_not_intro rfl), if_neg (not_not_intro hrsvd), hwaits,
    if_neg Bool.false_ne_true]
  rfl

end

/-! ## The results of the codes -/

section
variable {u : State} {q n k : Nat} {ws : List Word}

theorem doQsetup_done (hk : (ws.getD 1 0).toNat = k) (hrange : k < 8192) (hloc : (u.queueLoc (q / 4) k 0).isSome = true) :
    doQsetup q u n ws = (some (0, 0), ([0, 1, 2].foldl (fun t i => t.setQueueWord (q / 4) k i (ws.getD (2 + i) 0))
      (u.queueOff (q / 4) k)).setQueueWord (q / 4) k 3 (wput (ws.getD 5 0) 12 12 1)) := by
  subst hk
  rw [doQsetup]
  exact if_neg (not_or.2 ⟨Nat.not_le.2 hrange, Option.isSome_iff_ne_none.1 hloc ∘ Option.isNone_iff_eq_none.1⟩)

theorem doQdisable_done (hk : (ws.getD 1 0).toNat = k) (hrange : k < 8192)
    (hloc : (u.queueLoc (q / 4) k 0).isSome = true) :
    doQdisable q u n ws = (some (0, 0), u.queueOff (q / 4) k) := by
  subst hk
  rw [doQdisable]
  exact if_neg (not_or.2 ⟨Nat.not_le.2 hrange, Option.isSome_iff_ne_none.1 hloc ∘ Option.isNone_iff_eq_none.1⟩)

theorem doFramemap_done {u' : State} (hk : (ws.getD 1 0).toNat = k) (hrange : k < 2 ^ 24)
    (hhigh : wbits (ws.getD 2 0) 57 56 = 0) (hlow : wbits (ws.getD 2 0) 11 0 = 0) (hreach : u.reachesAdapter = true)
    (hu' : u' = (List.range 16).foldl (fun t j => t.updSvc j fun x =>
        { x with frames := Tab.set 0 x.frames k (ws.getD 2 0) }) u) :
    doFramemap u n ws = (some (0, 0), { u' with adapter := { u'.adapter with
        frames := Tab.set 0 u'.adapter.frames k (ws.getD 2 0) } }) := by
  subst hu' hk
  rw [doFramemap]
  dsimp only
  rw [if_neg (not_or.2 ⟨Nat.not_le.2 hrange, not_or.2 ⟨not_not_intro hhigh, not_not_intro hlow⟩⟩), hreach, Bool.not_true,
    if_neg Bool.false_ne_true]

theorem doAbort_done {lid r : Nat} {u' : State} (hat : u.launchAt q (ws.getD 1 0).toNat = some lid)
    (habort : u.abortLaunch lid = (r, u')) : doAbort q u n ws = (some (r, 0), u') := by
  rw [doAbort, hat]
  dsimp only
  rw [habort]

theorem doSuspend_cut {lid : Nat} (hat : u.launchAt q (ws.getD 1 0).toNat = some lid) (hst : (u.entry lid).st = .active)
    (hsusp : (u.entry lid).suspended = false) (hcut : (u.entry lid).mayCut = true) :
    doSuspend q u n ws =
      (none, (u.updLaunch lid fun x => { x with cutReq := some (q, n, ws.headD 0) }).beginCut lid) := by
  rw [doSuspend, hat]
  dsimp only
  rw [hst, if_neg (fun h => nomatch h), hsusp, if_neg Bool.false_ne_true, hcut, Bool.not_true, if_neg Bool.false_ne_true,
    if_neg (fun h => nomatch h)]

theorem doResume_suspended {lid : Nat} (hat : u.launchAt q (ws.getD 1 0).toNat = some lid)
    (hsusp : (u.entry lid).suspended = true) : doResume q u n ws = (some (0, 0), u.resumeLaunch lid) := by
  rw [doResume, hat]
  dsimp only
  rw [hsusp, if_pos rfl]

end

theorem exec_turnover_reserved {s : State} {q n : Nat} {ws : List Word} (hq : q < 16)
    (hnext : s.nextRequest q = some (n, ws)) (hrsvd : wbits (ws.headD 0) 31 16 ≠ 0) :
    exec (.turnover q) s = .next (serve 7 q (fun s _ _ => (some (2, 0), s)) s) := by
  refine congrArg Host.Outcome.next (?_ : _ = _)
  rw [Nat.mod_eq_of_lt hq, hnext]
  dsimp only
  rw [if_neg fun h => hrsvd h.2.1]

theorem exec_turnover_allowed {s : State} {q n : Nat} {ws : List Word} (hq : q < 16)
    (hnext : s.nextRequest q = some (n, ws)) (hcode : wbits (ws.headD 0) 14 0 = 7)
    (hrsvd : wbits (ws.headD 0) 31 16 = 0) (hmay : s.mayTurnover = true) : exec (.turnover q) s =
      .next ((serve 7 q (fun s _ _ => (some (0, 0), s)) s).beginTurnover (ws.getD 1 0)) := by
  refine congrArg Host.Outcome.next (?_ : _ = _)
  rw [Nat.mod_eq_of_lt hq, hnext]
  dsimp only
  rw [if_pos ⟨hcode, hrsvd, hmay⟩]

/-- Settles O51: each code is served with its own result once its request is in order, and with 1 where it is not. -/
theorem supervisorRequests : Obligations.SupervisorRequests := by
  unfold Obligations.SupervisorRequests
  intro s u u' q n k lid r ws hq hnext hu hk
  have hmod : q % 16 = q := Nat.mod_eq_of_lt hq
  refine ⟨fun hrsvd i code hi hcode => ?_, fun hrsvd => ⟨fun hcode hrange hloc hwaits => ?_,
    fun hcode hrange hloc hwaits => ?_, fun hcode hrange hhigh hlow hreach hu' => ?_,
    fun hat => ⟨fun hcode hwaits habort => ?_, fun hcode hst hsusp hcut => ?_, fun hcode hsusp => ?_⟩,
    fun hcode hmay => ?_⟩⟩
  · have hserved : ∀ {code : Nat} f waits, wbits (ws.headD 0) 14 0 = code → 1 ≤ code ∧ code ≤ 7 →
        serve code (q % 16) f s waits = u.respond q n (ws.headD 0) 1 0 := fun f waits hcode hknown =>
      hmod.symm ▸ serve_reserved f waits hnext hu hcode hknown hrsvd
    simp only [List.mem_cons, Prod.mk.injEq, List.not_mem_nil, or_false] at hi
    obtain ⟨rfl, rfl⟩ | ⟨rfl, rfl⟩ | ⟨rfl, rfl⟩ | ⟨rfl, rfl⟩ | ⟨rfl, rfl⟩ | ⟨rfl, rfl⟩ | ⟨rfl, rfl⟩ := hi
    · exact congrArg Host.Outcome.next (hserved _ _ hcode (by decide))
    · exact congrArg Host.Outcome.next (hserved _ _ hcode (by decide))
    · exact congrArg Host.Outcome.next (hserved _ _ hcode (by decide))
    · exact congrArg Host.Outcome.next (hserved _ _ hcode (by decide))
    · exact congrArg Host.Outcome.next (hserved _ _ hcode (by decide))
    · exact congrArg Host.Outcome.next (hserved _ _ hcode (by decide))
    · rw [exec_turnover_reserved hq hnext hrsvd, serve_reserved _ _ hnext hu hcode (by decide) hrsvd]
  · refine congrArg Host.Outcome.next (?_ : serve 1 (q % 16) _ s _ = _)
    rw [hmod, serve_taken _ _ hnext hu hcode (by decide) hrsvd hwaits, doQsetup_done hk.symm hrange hloc]
    rfl
  · refine congrArg Host.Outcome.next (?_ : serve 2 (q % 16) _ s _ = _)
    rw [hmod, serve_taken _ _ hnext hu hcode (by decide) hrsvd hwaits, doQdisable_done hk.symm hrange hloc]
    rfl
  · refine congrArg Host.Outcome.next (?_ : serve 3 (q % 16) _ s = _)
    rw [hmod, serve_taken _ _ hnext hu hcode (by decide) hrsvd rfl, doFramemap_done hk.symm hrange hhigh hlow hreach hu']
    rfl
  · refine congrArg Host.Outcome.next (?_ : serve 4 (q % 16) _ s _ = _)
    rw [hmod, serve_taken _ _ hnext hu hcode (by decide) hrsvd hwaits, doAbort_done (hk ▸ hat) habort]
    rfl
  · refine congrArg Host.Outcome.next (?_ : serve 5 (q % 16) _ s = _)
    rw [hmod, serve_taken _ _ hnext hu hcode (by decide) hrsvd rfl, doSuspend_cut (hk ▸ hat) hst hsusp hcut]
    rfl
  · refine congrArg Host.Outcome.next (?_ : serve 6 (q % 16) _ s = _)
    rw [hmod, serve_taken _ _ hnext hu hcode (by decide) hrsvd rfl, doResume_suspended (hk ▸ hat) hsusp]
    rfl
  · rw [exec_turnover_allowed hq hnext hcode hrsvd hmay, serve_taken _ _ hnext hu hcode (by decide) hrsvd rfl]
    rfl

end Sys2Proof.Proofs

/-! PROOFS. The module comes up; registers written from outside (01, 10). -/

namespace Sys2Proof.Proofs
open Sys2Proof.Machine Sys2Proof.Laws

/-! ## Power-up (R22, R23) -/

/-- The parts of the state that the replay of the repair log leaves alone. -/
theorem comeUp_keeps {β : Type} (part : State → β) (hvault : ∀ s c f, part (State.updVault s c f) = part s) (s : State) :
    part s.comeUp = part (holdSvcs
      { agenda := s.agenda, fresh := s.fresh, serial := s.serial, mgmt := s.mgmt, adapter := s.adapter } true) :=
  foldl_keeps part (fun t _ => hvault t _ _) s.mgmt.repairLog _

theorem exec_moduleResetRelease {s : State} (h : s.mgmt.phase = .held) : exec .moduleResetRelease s =
    .next { s.comeUp with mgmt := { s.comeUp.mgmt with
      phase := .powering 0, state := 0, count := 0, fail := 0, running := false } } := by
  refine congrArg Host.Outcome.next (?_ : _ = _)
  rw [if_pos h]

theorem enableSquare_on (s : State) (sq : Nat) : ((s.enableSquare sq).square sq).on = true :=
  congrArg Square.on (square_updSquare_same s sq _)

theorem enableSquare_keepsOn {s : State} {sq : Nat} (other : Nat) (h : (s.square sq).on = true) :
    ((s.enableSquare other).square sq).on = true := by
  by_cases hsq : sq = other
  · rw [hsq, enableSquare_on]
  · exact (congrArg Square.on (square_updSquare_other s _ hsq)).trans h

/-- Every square of a list that is enabled, or was on before, is on. -/
theorem enableAll_on (l : List Nat) (s : State) (sq : Nat) (h : sq ∈ l ∨ (s.square sq).on = true) :
    ((l.foldl State.enableSquare s).square sq).on = true := by
  induction l generalizing s with
  | nil => exact h.elim (fun hmem => nomatch hmem) id
  | cons x l ih =>
    refine ih _ ?_
    obtain hmem | hon := h
    · obtain rfl | htail := List.mem_cons.1 hmem
      · exact .inr (enableSquare_on s sq)
      · exact .inl htail
    · exact .inr (enableSquare_keepsOn x hon)

/-- The squares that the power-up enables n us after its start (R23). -/
def squaresAt (n : Nat) : List Nat :=
  [0, 1, 2, 3].flatMap fun d => if 4 * d ≤ n ∧ n < 4 * d + 16 then squaresOfStep d (n - 4 * d) else []

theorem mem_squaresAt {d n sq : Nat} (hd : d < 4) (hlow : 4 * d ≤ n) (hhigh : n < 4 * d + 16)
    (hsq : sq ∈ squaresOfStep d (n - 4 * d)) : sq ∈ squaresAt n := by
  have hdie : d ∈ [0, 1, 2, 3] := by
    simp only [List.mem_cons, List.not_mem_nil, or_false]
    omega
  refine List.mem_flatMap.2 ⟨d, hdie, ?_⟩
  rw [if_pos ⟨hlow, hhigh⟩]
  exact hsq

section
variable {s : State} {n : Nat} (hphase : s.mgmt.phase = .powering n)
include hphase

theorem squareEnableStep_early (htime : s.time < 100000 + 1000 * n) : exec .squareEnableStep s = .next s := by
  refine congrArg Host.Outcome.next (?_ : _ = _)
  rw [hphase]
  exact if_pos htime

theorem squareEnableStep_step (htime : 100000 + 1000 * n ≤ s.time) (hn : n < 28) : ∃ t : State,
    t = (squaresAt n).foldl State.enableSquare (if n = 0 then holdSvcs s false else s) ∧
    exec .squareEnableStep s = .next { t with mgmt := { t.mgmt with phase := .powering (n + 1) } } := by
  refine ⟨_, rfl, congrArg Host.Outcome.next (?_ : _ = _)⟩
  rw [hphase]
  exact (if_neg (Nat.not_lt.2 htime)).trans (if_pos hn)

theorem squareEnableStep_last (htime : 100000 + 1000 * n ≤ s.time) (hn : 28 ≤ n) :
    exec .squareEnableStep s = .next (s.beginTurnover 0) := by
  refine congrArg Host.Outcome.next (?_ : _ = _)
  rw [hphase]
  exact (if_neg (Nat.not_lt.2 htime)).trans (if_neg (Nat.not_lt.2 hn))

end

/-! ## Writes from outside the core (R212, R400) -/

/-- Word r of a slot's part of the debug window, below the context's general registers' end. -/
theorem debugWrite_register (s : State) (c : Nat) {k r : Nat} (v : Word) (hk : k < 4) (hr : r < 16) :
    s.debugWrite c (k * 0x400 + 8 * r) v =
      if mayWriteCtx (s.slot c k) then s.updSlot c k fun x => writeCtx x r v else s := by
  have hslot : (k * 0x400 + 8 * r) / 0x400 = k := by omega
  have hword : (k * 0x400 + 8 * r) % 0x400 = 8 * r := by omega
  have hreg : 8 * r / 8 = r := by omega
  rw [State.debugWrite, if_pos (by omega)]
  dsimp only
  rw [hslot, hword, hreg, if_pos (by omega)]

theorem exec_debugContextWrite {s : State} {c k r : Nat} (v : Word) (hk : k < 4) (hr : r < 16) (hc : c ≤ Config.lastCore) :
    exec (.debugContextWrite c (k * 0x400 + 8 * r) v) s =
      .next ((s.debugWrite c (k * 0x400 + 8 * r) v).askExit c) := by
  refine congrArg Host.Outcome.next (?_ : _ = _)
  exact if_pos ⟨by omega, by omega, hc⟩

theorem writeCtx_register (x : Slot) {r : Nat} (v : Word) (hr : r < 16) : writeCtx x r v =
    { x with
      ctx := x.ctx.setReg r v, pmask := x.pmask &&& ~~~BitVec.ofNat 16 (2 ^ r)
      badRegs := x.badRegs &&& ~~~BitVec.ofNat 16 (2 ^ r) } := if_pos hr

/-- A mask without one of its bits. -/
theorem getLsbD_without (m : BitVec 16) {r : Nat} (hr : r < 16) :
    (m &&& ~~~BitVec.ofNat 16 (2 ^ r)).getLsbD r = false := by
  rw [BitVec.getLsbD_and, BitVec.getLsbD_not, BitVec.getLsbD_ofNat, Nat.testBit_two_pow_self]
  simp only [hr, decide_true, Bool.and_self, Bool.not_true, Bool.and_false]

theorem debugContextWrite_written {s : State} {c k r : Nat} (v : Word) (hk : k < 4) (hr : r < 16)
    (hc : c ≤ Config.lastCore) (hmay : mayWriteCtx (s.slot c k) = true) : ∃ t,
    exec (.debugContextWrite c (k * 0x400 + 8 * r) v) s = .next t ∧ t.mem = s.mem ∧
    t.slot c k = { s.slot c k with
      ctx := (s.slot c k).ctx.setReg r v, pmask := (s.slot c k).pmask &&& ~~~BitVec.ofNat 16 (2 ^ r)
      badRegs := (s.slot c k).badRegs &&& ~~~BitVec.ofNat 16 (2 ^ r) } := by
  refine ⟨_, exec_debugContextWrite v hk hr hc, ?_, ?_⟩ <;> rw [debugWrite_register s c v hk hr, if_pos hmay]
  · rw [askExit_mem, updSlot_mem]
  · rw [askExit_slot, slot_updSlot_same, writeCtx_register _ v hr]

theorem exec_scrubPassComplete_clear {s : State} {c c' k' n' i : Nat} (bad : List RowName)
    (hscrub : (s.vault c).scrub = some (2, c', k', n', i)) : exec (.scrubPassComplete c bad) s =
      .next (((s.updVault c fun x => { x with scrub := none }).clearMem (vaultLoc c 0) (vaultLoc c (2 ^ 27))).answerAt c' k'
        n' i (.val 0)) := by
  refine congrArg Host.Outcome.next (?_ : _ = _)
  rw [hscrub]
  dsimp only
  rw [if_neg (by decide), if_neg (by decide)]
  rfl

/-- Settles O52: power-up by its steps, protective shutdowns, and writes from outside a core by the word they name. -/
theorem moduleEvents : Obligations.ModuleEvents := by
  unfold Obligations.ModuleEvents
  refine ⟨fun s n d t ml ms img m => ⟨fun hheld => ?_, squareEnableStep_early, fun hphase htime hn => ?_,
    squareEnableStep_last, fun hpow => ⟨fun ht => ?_, fun hml hms => ?_⟩, ⟨rfl, rfl, rfl⟩, fun hdown => ?_, fun hroll => ?_⟩,
    fun s c k r n v bad hk hr => ⟨fun hc hmay => ?_, fun hc hmay => ?_, fun hn => ?_,
      fun c' k' n' i hscrub => exec_scrubPassComplete_clear bad hscrub⟩⟩
  · refine ⟨_, exec_moduleResetRelease hheld, rfl, ?_, ?_, ?_⟩
    · exact comeUp_keeps State.mem (fun _ _ _ => rfl) s
    · exact comeUp_keeps State.cores (fun _ _ _ => rfl) s
    · exact comeUp_keeps (·.mgmt.events) (fun _ _ _ => rfl) s
  · obtain ⟨u, hu, hexec⟩ := squareEnableStep_step hphase htime hn
    refine ⟨_, hexec, rfl, fun hd hlow hhigh sq hsq => ?_⟩
    subst hu
    exact enableAll_on _ _ sq (.inl (mem_squaresAt hd hlow hhigh hsq))
  · exact congrArg Host.Outcome.next (if_pos ⟨ht, hpow⟩)
  · exact congrArg Host.Outcome.next (if_pos ⟨hml, hms, hpow⟩)
  · exact congrArg Host.Outcome.next (if_pos hdown)
  · refine congrArg Host.Outcome.next (?_ : _ = _)
    rw [if_pos rfl, hroll]
  · obtain ⟨t, hexec, hmem, hslot⟩ := debugContextWrite_written v hk hr hc hmay
    refine ⟨t, hexec, ?_, fun r' hr' => ?_, ?_, ?_, ?_, hmem⟩ <;> rw [hslot]
    · exact reg_setReg_same _ _ _
    · exact reg_setReg_other _ _ hr'
    · exact setReg_pc _ _ _
    · exact getLsbD_without _ hr
  · rw [exec_debugContextWrite v hk hr hc, debugWrite_register s c v hk hr, hmay, if_neg Bool.false_ne_true]
  · exact congrArg Host.Outcome.next (if_pos hn)

end Sys2Proof.Proofs

/-! PROOFS. How an engine's actions run, its reads and writes (16). -/

namespace Sys2Proof.Proofs
open Sys2Proof.Machine Sys2Proof.Laws

/-! ## How an engine's actions run -/

section
variable {α β : Type} {w w1 w2 : Work}

theorem runs_bind {m : Eng α} {f : α → Eng β} {a : α} {r : Except Stop β} (hm : runs m w (.ok a) w1)
    (hf : runs (f a) w1 r w2) : runs (m >>= f) w r w2 := by
  rw [runs, ExceptT.run_bind, StateT.run_bind, show m.run.run w = _ from hm]
  exact hf

theorem runs_bind_error {m : Eng α} {f : α → Eng β} {x : Stop} (hm : runs m w (.error x) w1) :
    runs (m >>= f) w (.error x) w1 := by
  rw [runs, ExceptT.run_bind, StateT.run_bind, show m.run.run w = _ from hm]
  rfl

theorem runs_pure (a : α) (w : Work) : runs (pure a) w (.ok a) w := rfl

theorem runs_throw (x : Stop) (w : Work) : runs (throw x : Eng α) w (.error x) w := rfl

theorem runs_endWith (code cause : Nat) (w : Work) : runs (endWith code cause : Eng α) w (.error (.fin code cause 0)) w := rfl

theorem runs_get (w : Work) : runs get w (.ok w) w := rfl

theorem runs_set (v w : Work) : runs (set v) w (.ok ()) v := rfl

theorem runs_modify (f : Work → Work) (w : Work) : runs (modify f) w (.ok ()) (f w) := rfl

theorem runs_onState (f : State → State) (w : Work) : runs (onState f) w (.ok ()) { w with s := f w.s } := rfl

theorem runs_onOut (f : CmdEnd → CmdEnd) (w : Work) : runs (onOut f) w (.ok ()) { w with out := f w.out } := rfl

theorem runs_count (n : Nat) (w : Work) : runs (count n) w (.ok ()) { w with out := { w.out with cnt := w.out.cnt + n } } :=
  rfl

/-- Every action runs to some answer. -/
theorem runs_self (m : Eng α) (w : Work) : runs m w (m.run.run w).1 (m.run.run w).2 := rfl

/-! ## Reads and writes of an engine (R372, R421) -/

theorem runs_readAt (loc n : Nat) (w : Work) : runs (readAt loc n) w (.ok (w.s.rdMem loc n, w.s.mem.isPois loc))
    { w with s := w.s.touchRow loc, touched := true } := by
  have hread : (w.s.touchRow loc).rdMem loc n = w.s.rdMem loc n := by
    rw [State.rdMem, touchRow_mem, State.rdMem]
  have hpois : (w.s.touchRow loc).mem.isPois loc = w.s.mem.isPois loc := by rw [touchRow_mem]
  refine runs_bind (runs_onState _ w) (runs_bind (runs_get _) (runs_bind (runs_set _ _) ?_))
  dsimp only
  rw [hread, hpois]
  exact runs_pure _ _

/-- What the write of an engine leaves, from the state in which it starts. -/
def engWritten (w : Work) (loc n v : Nat) (pois : Bool) : State :=
  let s := ((w.s.wrMem loc n v).setPois loc pois).touchRow loc
  match w.job with
  | some j => s.asyncWrite j.core j.c loc
  | none => s

theorem asyncWrite_mem (s : State) (c : Nat) (x : Cmd) (loc : Nat) : (s.asyncWrite c x loc).mem = s.mem := by
  rw [State.asyncWrite]
  split <;> rfl

theorem asyncWrite_cores (s : State) (c : Nat) (x : Cmd) (loc : Nat) : (s.asyncWrite c x loc).cores = s.cores := by
  rw [State.asyncWrite]
  split <;> rfl

theorem engWritten_mem (w : Work) (loc n v : Nat) (pois : Bool) :
    (engWritten w loc n v pois).mem = (w.s.mem.write loc n v).setPois loc pois := by
  rw [engWritten]
  split
  · rw [asyncWrite_mem, touchRow_mem]
    rfl
  · rw [touchRow_mem]
    rfl

theorem engWritten_cores (w : Work) (loc n v : Nat) (pois : Bool) : (engWritten w loc n v pois).cores = w.s.cores := by
  rw [engWritten]
  split
  · rw [asyncWrite_cores, touchRow_cores]
    rfl
  · rw [touchRow_cores]
    rfl

theorem engWritten_safe {w : Work} (loc n v : Nat) (pois : Bool) (h : Safe w.s) : Safe (engWritten w loc n v pois) := by
  rw [Safe, engWritten_mem]
  exact wf_setPois _ _ (wf_write _ _ _ h)

theorem engWritten_byte {w : Work} {loc n : Nat} (v : Nat) (pois : Bool) :
    w.s.sameOutside (engWritten w loc n v pois) loc n := by
  intro a ha
  rw [State.byte, engWritten_mem]
  exact byte_write_outside _ _ _ _ ha

theorem engWritten_read {w : Work} (loc n v : Nat) (pois : Bool) (h : Safe w.s) :
    (engWritten w loc n v pois).rdMem loc n = v % 256 ^ n := by
  rw [State.rdMem, engWritten_mem]
  exact (read_congr (m := w.s.mem.write loc n v) (m' := (w.s.mem.write loc n v).setPois loc pois) fun _ _ _ => rfl).trans (read_write_same loc n v h)

theorem engWritten_pois {w : Work} (loc n v : Nat) (pois : Bool) (h : Safe w.s) :
    (engWritten w loc n v pois).mem.isPois loc = pois := by
  have hcanon : Tab.canon false (w.s.mem.write loc n v).pois = true := by
    rw [write_pois]
    exact (wf_iff.1 h).2.2
  rw [engWritten_mem]
  exact rd_set_same (loc / 8) pois hcanon

theorem engWritten_pois_other {w : Work} {loc l : Nat} (n v : Nat) (pois : Bool) (h : l / 8 ≠ loc / 8) :
    (engWritten w loc n v pois).mem.isPois l = w.s.mem.isPois l := by
  rw [engWritten_mem]
  refine (rd_set_other _ pois h).trans ?_
  rw [write_pois]
  rfl

/-- A part of a poisoned word is not written. -/
theorem runs_writeAt_part {loc n : Nat} (v : Nat) (pois : Bool) {w : Work} (hn : n < 8) (hp : w.s.mem.isPois loc = true) :
    runs (writeAt loc n v pois) w (.ok 0) { w with out := { w.out with pois := true } } := by
  refine runs_bind (runs_get w) ?_
  rw [if_pos ⟨hn, hp⟩]
  exact runs_bind (runs_onOut _ w) (runs_pure 0 _)

theorem runs_writeAt {loc n : Nat} (v : Nat) (pois : Bool) {w : Work} (h : ¬ (n < 8 ∧ w.s.mem.isPois loc = true)) :
    runs (writeAt loc n v pois) w (.ok n)
      { w with s := engWritten w loc n v pois, out := { w.out with pois := w.out.pois || pois } } := by
  refine runs_bind (runs_get w) ?_
  rw [if_neg h]
  cases pois
  · dsimp only
    rw [if_neg Bool.false_ne_true, Bool.or_false]
    exact runs_bind (runs_onState _ w) (runs_pure n _)
  · dsimp only
    rw [if_pos rfl, Bool.or_true]
    exact runs_bind (runs_onOut _ w) (runs_bind (runs_onState _ _) (runs_pure n _))

/-- A whole word is always written. -/
theorem runs_writeAt_word (loc v : Nat) (pois : Bool) (w : Work) : runs (writeAt loc 8 v pois) w (.ok 8)
    { w with s := engWritten w loc 8 v pois, out := { w.out with pois := w.out.pois || pois } } :=
  runs_writeAt v pois fun h => Nat.lt_irrefl 8 h.1

theorem runs_ctl {j : Job} {t : Word} {loc : Nat} {w w1 : Work} (h : runs (engPlace j t 8 8 .engRead) w (.ok loc) w1) :
    (w1.s.mem.isPois loc = false → runs (ctl j t) w (.ok (w1.s.rdWord loc))
      { w1 with s := w1.s.touchRow loc, touched := true }) ∧
    (w1.s.mem.isPois loc = true → runs (ctl j t) w (.error (.fin 0x11 0 0))
      { w1 with s := w1.s.touchRow loc, touched := true }) := by
  refine ⟨fun hp => ?_, fun hp => ?_⟩ <;> refine runs_bind h (runs_bind (runs_readAt loc 8 w1) ?_)
  · dsimp only
    rw [hp, if_neg Bool.false_ne_true]
    exact runs_pure _ _
  · dsimp only
    rw [hp, if_pos rfl]
    exact runs_endWith _ _ _

theorem rdWord_engWritten {w : Work} (loc v : Nat) (pois : Bool) (h : Safe w.s) :
    (engWritten w loc 8 v pois).rdWord loc = word v := by
  have hread := engWritten_read loc 8 v pois h
  rw [State.rdMem] at hread
  rw [State.rdWord, hread]
  apply BitVec.eq_of_toNat_eq
  simp only [word, BitVec.toNat_ofNat]
  omega

theorem runs_putCtl {j : Job} {t v : Word} {loc : Nat} {w w1 : Work} (h : runs (engPlace j t 8 8 .engWrite) w (.ok loc) w1)
    (hs : Safe w1.s) : ∃ w2, runs (putCtl j t v) w (.ok ()) w2 ∧ w2.s.rdWord loc = v ∧ w2.s.mem.isPois loc = false ∧
      w1.s.sameOutside w2.s loc 8 ∧ w2.out.cnt = w1.out.cnt + if w1.counting then 8 else 0 := by
  have hword : (engWritten w1 loc 8 v.toNat false).rdWord loc = v := by
    rw [rdWord_engWritten loc _ false hs, word, BitVec.ofNat_toNat, BitVec.setWidth_eq]
  have hpois := engWritten_pois loc 8 v.toNat false hs
  have hout := engWritten_byte (w := w1) (loc := loc) (n := 8) v.toNat false
  have hrun : ∀ {r w2}, runs (if w1.counting then count 8 else pure () : Eng Unit)
      { w1 with s := engWritten w1 loc 8 v.toNat false, out := { w1.out with pois := w1.out.pois || false } } r w2 →
      runs (putCtl j t v) w r w2 := fun hr =>
    runs_bind h (runs_bind (runs_writeAt_word loc v.toNat false w1) (runs_bind (runs_get _) hr))
  cases hc : w1.counting with
  | false =>
    rw [hc, if_neg Bool.false_ne_true] at hrun
    exact ⟨_, hrun (runs_pure _ _), hword, hpois, hout, rfl⟩
  | true =>
    rw [hc, if_pos rfl] at hrun
    exact ⟨_, hrun (runs_count _ _), hword, hpois, hout, rfl⟩

theorem runs_writeAt_spec (w : Work) (loc n v : Nat) (pois : Bool) (h : n = 8 ∨ w.s.mem.isPois loc = false)
    (hs : Safe w.s) : ∃ w', runs (writeAt loc n v pois) w (.ok n) w' ∧ w'.s.rdMem loc n = v % 256 ^ n ∧
      w'.s.mem.isPois loc = pois ∧ w.s.sameOutside w'.s loc n ∧ w'.out.pois = (w.out.pois || pois) := by
  have hwhole : ¬ (n < 8 ∧ w.s.mem.isPois loc = true) := by
    rintro ⟨hn, hp⟩
    obtain rfl | hclean := h
    · exact Nat.lt_irrefl 8 hn
    · exact Bool.false_ne_true (hclean.symm.trans hp)
  exact ⟨_, runs_writeAt v pois hwhole, engWritten_read loc n v pois hs, engWritten_pois loc n v pois hs,
    engWritten_byte v pois, rfl⟩

theorem runs_castWord (w : Work) (loc v : Nat) (hs : Safe w.s) : ∃ w', runs (castWord loc (2 ^ 64 - 1) v) w (.ok ()) w' ∧
    w'.s.rdWord loc = word v ∧ w'.s.mem.isPois loc = false ∧ w.s.sameOutside w'.s loc 8 := by
  refine ⟨{ w with s := engWritten w loc 8 v false, out := { w.out with pois := w.out.pois || false } }, ?_,
    rdWord_engWritten loc v false hs, engWritten_pois loc 8 v false hs, engWritten_byte v false⟩
  rw [castWord, if_pos rfl]
  exact runs_bind (runs_writeAt_word loc v false w) (runs_pure () _)

end

/-! ## Tile commands (R372) -/

section
variable {j : Job} {d e src : Nat} {w w1 : Work}

theorem runs_tileSource_throttled (hsh : j.c.shared = none)
    (hsrc : runs (engPlace j (tdSrc d e) (tdSize d) (tdSize d) .engRead) w (.ok src) w1)
    (hthr : w1.s.throttledAt src = true) : runs (tileSource j d true e) w (.error (.fin 1 0 0)) w1 := by
  rw [tileSource, hsh]
  refine runs_bind hsrc (runs_bind (runs_get w1) ?_)
  dsimp only
  rw [hthr, Bool.and_self, if_pos rfl]
  exact runs_bind_error (runs_endWith _ _ _)

theorem runs_eitherRead (loc n : Nat) (hbefore : w.before = none) : runs (eitherRead loc n) w
    (.ok (w.s.rdMem loc n, w.s.mem.isPois loc)) { w with s := w.s.touchRow loc, touched := true } := by
  refine runs_bind (runs_readAt loc n w) (runs_bind (runs_get _) ?_)
  dsimp only
  rw [hbefore, Option.map_none, Option.getD_none, if_pos rfl]
  exact runs_pure _ _

theorem runs_tileSource {ta : Bool} (hsh : j.c.shared = none)
    (hsrc : runs (engPlace j (tdSrc d e) (tdSize d) (tdSize d) .engRead) w (.ok src) w1)
    (hthr : ta = false ∨ w1.s.throttledAt src = false) (hremap : w1.s.remapping src = false) (hbefore : w1.before = none) :
    runs (tileSource j d ta e) w (.ok (w1.s.rdMem src (tdSize d), w1.s.mem.isPois src))
      { w1 with s := w1.s.touchRow src, touched := true } := by
  have hgoes : (ta && w1.s.throttledAt src) = false := by
    obtain h | h := hthr <;> rw [h]
    · rfl
    · exact Bool.and_false _
  rw [tileSource, hsh]
  refine runs_bind hsrc (runs_bind (runs_get w1) ?_)
  dsimp only
  rw [hgoes, if_neg Bool.false_ne_true, hremap, if_neg Bool.false_ne_true]
  exact runs_eitherRead src (tdSize d) hbefore

theorem runs_tileElem {ta p : Bool} {v k dst : Nat} {w2 w3 : Work} (hsrc : runs (tileSource j d ta e) w (.ok (v, p)) w1)
    (hdst : runs (engPlace j (tdDst d e) (tdSize d) (tdSize d) .engWrite) w1 (.ok dst) w2)
    (hput : runs (writeAt dst (tdSize d) v p) w2 (.ok k) w3) : runs (tileElem j d ta none e) w (.ok ())
      { w3 with out := { w3.out with cnt := w3.out.cnt + k }, done := e + 1 } :=
  runs_bind hsrc (runs_bind hdst (runs_bind hput (runs_bind (runs_bind (runs_count k w3) (runs_pure () _))
    (runs_modify _ _))))

end

end Sys2Proof.Proofs

/-! PROOFS. The tile of an MMA (16). -/

namespace Sys2Proof.Proofs
open Sys2Proof.Machine Sys2Proof.Laws

/-! ## Loops of an engine -/

/-- A loop of actions keeps what its steps carry on. -/
theorem runs_forM_range {n : Nat} {body : Nat → Eng Unit} (inv : Nat → Work → Prop) {w : Work} (hstart : inv 0 w)
    (hstep : ∀ i u, i < n → inv i u → ∃ u', runs (body i) u (.ok ()) u' ∧ inv (i + 1) u') :
    ∃ w', runs ((List.range n).forM body) w (.ok ()) w' ∧ inv n w' := by
  induction n with
  | zero => exact ⟨w, runs_pure () w, hstart⟩
  | succ n ih =>
    obtain ⟨u, hrun, hu⟩ := ih fun i u hi => hstep i u (Nat.lt_succ_of_lt hi)
    obtain ⟨u', hrun', hu'⟩ := hstep n u (Nat.lt_succ_self n) hu
    refine ⟨u', ?_, hu'⟩
    rw [List.range_succ, List.forM_eq_forM, List.forM_append]
    exact runs_bind hrun (runs_bind hrun' (runs_pure () u'))

/-! ## The tile of an MMA (R378, R379) -/

/-- The incoming value of element e of an MMA that takes no kept tile, and whether it is poisoned. -/
def mmaIncoming (m : Memory) (sq : Nat) (o : MmaOp) (e : Nat) : Nat × Bool :=
  if o.z then (0, false)
  else (m.read (sqLoc sq (o.coff + accBytes o.acc * e)) (accBytes o.acc), m.isPois (sqLoc sq (o.coff + accBytes o.acc * e)))

/-- The 1,024 result elements of an MMA, and whether each reads poison. -/
def mmaOuts (m : Memory) (sq : Nat) (o : MmaOp) : List (GroupOut × Bool) :=
  (List.range 1024).map fun e =>
    (mmaElem (sqByte m sq) o (e / 32) (e % 32) (mmaIncoming m sq o e).1,
      (mmaIncoming m sq o e).2 || mmaPois (fun b => m.isPois (sqLoc sq b)) o (e / 32) (e % 32))

/-- The tile that the array keeps of result elements. -/
def tileOf (lid kind : Nat) (outs : List (GroupOut × Bool)) : KeptTile :=
  { lid := lid, kind := kind
    elems := outs.zipIdx.foldl (fun t x => Tab.set 0 t x.2 (word x.1.1.v)) []
    pois := outs.zipIdx.filterMap fun x => if x.1.2 then some x.2 else none }

/-- The elements that word i of a tile holds, in accumulators of n bytes. -/
def wordElems (n i : Nat) : List Nat := (List.range (8 / n)).map fun b => i * (8 / n) + b

/-- Word i of a tile in memory. -/
def tileWord (t : KeptTile) (n i : Nat) : Nat :=
  (wordElems n i).zipIdx.foldl (fun a e => a + (Tab.rd 0 t.elems e.1).toNat * 2 ^ (8 * n * e.2)) 0

/-- The writes of a tile at D (R379). -/
def storeTile (sq : Nat) (o : MmaOp) (t : KeptTile) : Eng Unit :=
  (List.range (128 * accBytes o.acc)).forM fun i => do
    let k ← writeAt (sqLoc sq (o.doff + 8 * i)) 8 (tileWord t (accBytes o.acc) i)
      ((wordElems (accBytes o.acc) i).any t.pois.contains)
    count k

theorem rd_setAll (outs : List (GroupOut × Bool)) (k : Nat) (t : Tab Word) (ht : Tab.canon 0 t = true) {e : Nat} :
    Tab.rd 0 ((outs.zipIdx k).foldl (fun t x => Tab.set 0 t x.2 (word x.1.1.v)) t) e =
      if k ≤ e then ((outs[e - k]?).map fun x => word x.1.v).getD (Tab.rd 0 t e) else Tab.rd 0 t e := by
  induction outs generalizing k t with
  | nil => simp only [List.zipIdx_nil, List.foldl_nil, List.getElem?_nil, Option.map_none, Option.getD_none, ite_self]
  | cons x outs ih =>
    rw [List.zipIdx_cons, List.foldl_cons, ih (k + 1) _ (canon_set k _ ht)]
    by_cases hek : e = k
    · subst hek
      rw [if_neg (Nat.not_succ_le_self e), if_pos (Nat.le_refl e), Nat.sub_self, List.getElem?_cons_zero, rd_set_same _ _ ht]
      rfl
    · rw [rd_set_other t _ hek]
      by_cases hlt : k < e
      · have hpred : e - k = (e - (k + 1)) + 1 := by omega
        rw [if_pos (Nat.succ_le_of_lt hlt), if_pos (Nat.le_of_lt hlt), hpred, List.getElem?_cons_succ]
      · rw [if_neg fun h => hlt (Nat.lt_of_succ_le h), if_neg (by omega)]

theorem rd_tileOf (lid kind : Nat) (outs : List (GroupOut × Bool)) {e : Nat} {x : GroupOut × Bool} (h : outs[e]? = some x) :
    Tab.rd 0 (tileOf lid kind outs).elems e = word x.1.v := by
  refine (rd_setAll outs 0 [] rfl).trans ?_
  rw [if_pos (Nat.zero_le e), Nat.sub_zero, h]
  rfl

theorem getElem?_mmaOuts (m : Memory) (sq : Nat) (o : MmaOp) {e : Nat} (he : e < 1024) : (mmaOuts m sq o)[e]? =
    some (mmaElem (sqByte m sq) o (e / 32) (e % 32) (mmaIncoming m sq o e).1,
      (mmaIncoming m sq o e).2 || mmaPois (fun b => m.isPois (sqLoc sq b)) o (e / 32) (e % 32)) := by
  rw [mmaOuts, List.getElem?_map, List.getElem?_range he]
  rfl

theorem mmaIncoming_value (m : Memory) (sq : Nat) (o : MmaOp) (e : Nat) : (mmaIncoming m sq o e).1 =
    if o.z then 0 else m.read (sqLoc sq (o.coff + accBytes o.acc * e)) (accBytes o.acc) := by
  rw [mmaIncoming]
  split <;> rfl

theorem sqLoc_add (sq a b : Nat) : sqLoc sq (a + b) = sqLoc sq a + b := (Nat.add_assoc _ _ _).symm

theorem runs_mma_bad {j : Job} {w : Work} {code cause : Nat}
    (hbad : mmaBad (mmaOp j.c) j.c.f.toNat (w.s.core j.core).array j.c.lid = some (code, cause)) :
    runs (runMma j) w (.error (.fin code cause 0)) w := by
  refine runs_bind (runs_get w) ?_
  dsimp only
  rw [hbad]
  exact runs_endWith _ _ _

/-- The flags of the elements of an MMA that read no poison. -/
def mmaFlags (outs : List (GroupOut × Bool)) (x : CmdEnd) : CmdEnd :=
  { x with
    sat := (outs.filter fun x => !x.2).any fun x => x.1.sat
    ovf := (outs.filter fun x => !x.2).any fun x => x.1.ovf
    nan := (outs.filter fun x => !x.2).any fun x => x.1.nan }

/-- An MMA that is accepted keeps the tile of its result elements and writes it where W asks it. -/
theorem runs_mma_accepted {j : Job} {w w' : Work} {r : Except Stop Unit} {outs : List (GroupOut × Bool)}
    (houts : mmaOuts w.s.mem (squareOf j.core) (mmaOp j.c) = outs)
    (hbad : mmaBad (mmaOp j.c) j.c.f.toNat (w.s.core j.core).array j.c.lid = none) (hkeep : (mmaOp j.c).keep = false)
    (htrap : (mmaOp j.c).acc ≠ 2 ∨ (mmaOp j.c).trap = false)
    (hrest : runs (if (mmaOp j.c).w then storeTile (squareOf j.core) (mmaOp j.c) (tileOf j.c.lid (mmaOp j.c).acc outs)
        else pure ())
      { w with s := w.s.updCore j.core fun x => { x with array := some (tileOf j.c.lid (mmaOp j.c).acc outs) }
               out := mmaFlags outs w.out } r w') : runs (runMma j) w r w' := by
  subst houts
  refine runs_bind (runs_get w) ?_
  dsimp only
  rw [hbad]
  dsimp only
  simp only [hkeep, Bool.false_eq_true, if_false]
  refine runs_bind (runs_onOut _ w) ?_
  rw [if_neg fun ht => htrap.elim (fun h2 => h2 ht.1) fun h2 => Bool.false_ne_true (h2.symm.trans ht.2.1)]
  refine runs_bind (runs_onState _ _) ?_
  simp only [storeTile, tileOf, mmaOuts, mmaIncoming, mmaFlags, tileWord, wordElems] at hrest
  exact hrest

theorem tileWord_wide (t : KeptTile) (i : Nat) : tileWord t 8 i = (Tab.rd 0 t.elems i).toNat := by
  have helems : wordElems 8 i = [i * 1 + 0] := rfl
  rw [tileWord, helems]
  simp only [List.zipIdx_cons, List.zipIdx_nil, List.foldl_cons, List.foldl_nil, Nat.zero_add,
    Nat.mul_one, Nat.add_zero, Nat.mul_zero, Nat.pow_zero]

theorem tileWord_narrow (t : KeptTile) (i : Nat) : tileWord t 4 i =
    (Tab.rd 0 t.elems (2 * i)).toNat + (Tab.rd 0 t.elems (2 * i + 1)).toNat * 2 ^ 32 := by
  have helems : wordElems 4 i = [i * 2 + 0, i * 2 + 1] := rfl
  have hexp : 8 * 4 * (0 + 1) = 32 := rfl
  rw [tileWord, helems, List.zipIdx_cons, List.zipIdx_cons, List.zipIdx_nil, List.foldl_cons, List.foldl_cons,
    List.foldl_nil]
  dsimp only
  rw [hexp, Nat.zero_add, Nat.mul_zero, Nat.pow_zero, Nat.mul_one, Nat.add_zero, Nat.mul_comm i 2]

/-- The words of a tile as they stand in memory, by the bytes of an accumulator. -/
theorem tileWord_eq (t : KeptTile) (kind i : Nat) : word (tileWord t (accBytes kind) i) =
    if kind = 1 then Tab.rd 0 t.elems i
    else word ((Tab.rd 0 t.elems (2 * i)).toNat + (Tab.rd 0 t.elems (2 * i + 1)).toNat * 2 ^ 32) := by
  by_cases hk : kind = 1
  · rw [accBytes, if_pos hk, if_pos hk, tileWord_wide, word, BitVec.ofNat_toNat, BitVec.setWidth_eq]
  · rw [accBytes, if_neg hk, if_neg hk, tileWord_narrow]

/-- What the first i words of a tile's writes have left at D. -/
structure TileWritten (w : Work) (loc : Nat) (vals : Nat → Word) (i : Nat) (u : Work) : Prop where
  cores : u.s.cores = w.s.cores
  safe : Safe u.s
  outside : w.s.sameOutside u.s loc (8 * i)
  words : ∀ k, k < i → u.s.rdWord (loc + 8 * k) = vals k

theorem tileWritten_zero {w : Work} (loc : Nat) (vals : Nat → Word) (h : Safe w.s) : TileWritten w loc vals 0 w :=
  ⟨rfl, h, fun _ _ => rfl, fun _ hk => absurd hk (Nat.not_lt_zero _)⟩

theorem tileWritten_succ {w u : Work} {loc i v : Nat} {vals : Nat → Word} (out : CmdEnd) (pois : Bool)
    (h : TileWritten w loc vals i u) (hv : word v = vals i) :
    TileWritten w loc vals (i + 1) { u with s := engWritten u (loc + 8 * i) 8 v pois, out := out } := by
  obtain ⟨hcores, hsafe, hout, hwords⟩ := h
  refine ⟨(engWritten_cores u _ _ _ _).trans hcores, engWritten_safe _ _ _ _ hsafe, fun a ha => ?_, fun k hk => ?_⟩
  · have hnew : (engWritten u (loc + 8 * i) 8 v pois).byte a = u.s.byte a := engWritten_byte v pois a (by omega)
    exact hnew.trans (hout a (by omega))
  · obtain hlt | rfl := Nat.lt_succ_iff_lt_or_eq.1 hk
    · have hsame : (engWritten u (loc + 8 * i) 8 v pois).rdWord (loc + 8 * k) = u.s.rdWord (loc + 8 * k) :=
        congrArg word (read_congr fun a _ ha => engWritten_byte v pois a (by omega))
      exact hsame.trans (hwords k hlt)
    · exact (rdWord_engWritten _ v pois hsafe).trans hv

theorem runs_storeTile (sq : Nat) (o : MmaOp) (t : KeptTile) {w : Work} (hs : Safe w.s) :
    ∃ w', runs (storeTile sq o t) w (.ok ()) w' ∧ TileWritten w (sqLoc sq o.doff)
      (fun i => word (tileWord t (accBytes o.acc) i)) (128 * accBytes o.acc) w' := by
  refine runs_forM_range (TileWritten w (sqLoc sq o.doff) fun i => word (tileWord t (accBytes o.acc) i))
    (tileWritten_zero _ _ hs) fun i u hi hu => ?_
  have hnext := tileWritten_succ (v := tileWord t (accBytes o.acc) i)
    { u.out with
      pois := u.out.pois || (wordElems (accBytes o.acc) i).any t.pois.contains, cnt := u.out.cnt + 8 }
    ((wordElems (accBytes o.acc) i).any t.pois.contains) hu rfl
  rw [← sqLoc_add] at hnext
  exact ⟨_, runs_bind (runs_writeAt_word _ _ _ u) (runs_count 8 _), hnext⟩

/-- What an accepted MMA leaves: its tile in the array, and with W at D and nowhere else. -/
theorem runs_mma {j : Job} {w : Work} {o : MmaOp} {m : Memory} {sq : Nat} (ho : o = mmaOp j.c) (hm : m = w.s.mem)
    (hsq : sq = squareOf j.core) (hbad : mmaBad o j.c.f.toNat (w.s.core j.core).array j.c.lid = none)
    (hkeep : o.keep = false) (htrap : o.acc ≠ 2 ∨ o.trap = false) (hs : Safe w.s) :
    ∃ (w' : Work) (t : KeptTile), runs (runMma j) w (.ok ()) w' ∧
      (w'.s.core j.core).array = some t ∧ t.lid = j.c.lid ∧ t.kind = o.acc ∧
      (∀ e, e < 1024 → Tab.rd 0 t.elems e = word (mmaElem (sqByte m sq) o (e / 32) (e % 32)
        (if o.z then 0 else m.read (sqLoc sq (o.coff + accBytes o.acc * e)) (accBytes o.acc))).v) ∧
      (o.w = false → w'.s.mem = m) ∧
      (o.w = true → w.s.sameOutside w'.s (sqLoc sq o.doff) (1024 * accBytes o.acc) ∧
        ∀ i, i < 128 * accBytes o.acc → w'.s.rdWord (sqLoc sq (o.doff + 8 * i)) =
          if o.acc = 1 then Tab.rd 0 t.elems i
          else word ((Tab.rd 0 t.elems (2 * i)).toNat + (Tab.rd 0 t.elems (2 * i + 1)).toNat * 2 ^ 32)) := by
  subst ho hm hsq
  have helems : ∀ e, e < 1024 → Tab.rd 0 (tileOf j.c.lid (mmaOp j.c).acc
      (mmaOuts w.s.mem (squareOf j.core) (mmaOp j.c))).elems e =
        word (mmaElem (sqByte w.s.mem (squareOf j.core)) (mmaOp j.c) (e / 32) (e % 32)
          (if (mmaOp j.c).z then 0 else w.s.mem.read (sqLoc (squareOf j.core) ((mmaOp j.c).coff + accBytes (mmaOp j.c).acc * e))
            (accBytes (mmaOp j.c).acc))).v := by
    intro e he
    rw [rd_tileOf _ _ _ (getElem?_mmaOuts _ _ _ he), mmaIncoming_value]
  generalize houts : mmaOuts w.s.mem (squareOf j.core) (mmaOp j.c) = outs at helems
  have hrun := fun {r w'} => runs_mma_accepted (r := r) (w' := w') houts hbad hkeep htrap
  generalize htile : tileOf j.c.lid (mmaOp j.c).acc outs = t at hrun helems
  have hlid : t.lid = j.c.lid := by rw [← htile, tileOf]
  have hkind : t.kind = (mmaOp j.c).acc := by rw [← htile, tileOf]
  cases hw : (mmaOp j.c).w with
  | false =>
    rw [hw, if_neg Bool.false_ne_true] at hrun
    exact ⟨_, t, hrun (runs_pure () _), congrArg Core.array (core_updCore_same _ _ _), hlid, hkind, helems, fun _ => rfl,
      fun h => absurd h Bool.false_ne_true⟩
  | true =>
    rw [hw, if_pos rfl] at hrun
    obtain ⟨w', hstore, hcores, -, hout, hwords⟩ := runs_storeTile (squareOf j.core) (mmaOp j.c) t
      (w := { w with s := w.s.updCore j.core fun x => { x with array := some t }, out := mmaFlags outs w.out }) hs
    have hcore : w'.s.core j.core = (w.s.updCore j.core fun x => { x with array := some t }).core j.core :=
      congrArg (fun c : Tab Core => Tab.rd ({} : Core) c j.core) hcores
    refine ⟨w', t, hrun hstore, ?_, hlid, hkind, helems, fun h => absurd h.symm Bool.false_ne_true, fun _ =>
      ⟨fun a ha => hout a (by omega), fun i hi => ?_⟩⟩
    · rw [hcore, core_updCore_same]
    · rw [sqLoc_add, hwords i hi, tileWord_eq]

end Sys2Proof.Proofs

/-! PROOFS. Exchanges, KV pages, the tree of prefixes, the end of a command (16). -/

namespace Sys2Proof.Proofs
open Sys2Proof.Machine Sys2Proof.Laws

/-! ## The exchange of two regions (R385) -/

/-- Two words change places, with their poison. -/
def swapWords (s : State) (x y : Nat) : State :=
  let s' := (s.wrMem x 8 (s.rdMem y 8)).setPois x (s.mem.isPois y)
  (s'.wrMem y 8 (s.rdMem x 8)).setPois y (s.mem.isPois x)

theorem exchange_eq (s : State) (a b n : Nat) : s.exchange a b n =
    (List.range (n / 8)).foldl (fun t i => swapWords t (a + 8 * i) (b + 8 * i)) s := rfl

theorem setPois_byte (s : State) (l a : Nat) (p : Bool) : (s.setPois l p).byte a = s.byte a := rfl

theorem wrMem_byte_outside (s : State) {loc a : Nat} (v : Nat) (h : a < loc ∨ loc + 8 ≤ a) :
    (s.wrMem loc 8 v).byte a = s.byte a := byte_write_outside _ _ _ _ h

theorem rdWord_congr {s t : State} {l : Nat} (h : ∀ a, l ≤ a → a < l + 8 → t.byte a = s.byte a) :
    t.rdWord l = s.rdWord l := congrArg word (read_congr h)

theorem word_rdMem (s : State) (l : Nat) : word (s.rdMem l 8) = s.rdWord l := rfl

theorem rdWord_wrMem {s : State} (loc v : Nat) (h : Safe s) : (s.wrMem loc 8 v).rdWord loc = word v := by
  have hread : (s.mem.write loc 8 v).read loc 8 = v % 256 ^ 8 := read_write_same loc 8 v h
  have hword : (s.wrMem loc 8 v).rdWord loc = word (v % 256 ^ 8) := congrArg word hread
  rw [hword]
  apply BitVec.eq_of_toNat_eq
  simp only [word, BitVec.toNat_ofNat]
  omega

theorem isPois_setPois_same {s : State} (l : Nat) (p : Bool) (h : Safe s) : (s.setPois l p).mem.isPois l = p :=
  rd_set_same (l / 8) p (wf_iff.1 h).2.2

theorem isPois_setPois_other (s : State) {l a : Nat} (p : Bool) (h : a / 8 ≠ l / 8) :
    (s.setPois l p).mem.isPois a = s.mem.isPois a := rd_set_other _ p h

theorem isPois_wrMem (s : State) (loc v a : Nat) : (s.wrMem loc 8 v).mem.isPois a = s.mem.isPois a := by
  rw [State.wrMem, Memory.isPois, write_pois, Memory.isPois]

section
variable {s : State} {x y : Nat}

theorem safe_swapWords (h : Safe s) : Safe (swapWords s x y) :=
  safe_setPois _ _ (safe_wrMem _ _ _ (safe_setPois _ _ (safe_wrMem _ _ _ h)))

theorem swapWords_byte {a : Nat} (hx : a < x ∨ x + 8 ≤ a) (hy : a < y ∨ y + 8 ≤ a) : (swapWords s x y).byte a = s.byte a := by
  rw [swapWords, setPois_byte, wrMem_byte_outside _ _ hy, setPois_byte, wrMem_byte_outside _ _ hx]

theorem swapWords_pois_other {a : Nat} (hx : a / 8 ≠ x / 8) (hy : a / 8 ≠ y / 8) :
    (swapWords s x y).mem.isPois a = s.mem.isPois a := by
  rw [swapWords, isPois_setPois_other _ _ hy, isPois_wrMem, isPois_setPois_other _ _ hx, isPois_wrMem]

theorem swapWords_left (h : Safe s) (hd : x + 8 ≤ y ∨ y + 8 ≤ x) : (swapWords s x y).rdWord x = s.rdWord y := by
  have hkeep : (swapWords s x y).rdWord x = (s.wrMem x 8 (s.rdMem y 8)).rdWord x := rdWord_congr fun a ha hlt => by
    rw [swapWords, setPois_byte, wrMem_byte_outside _ _ (by omega), setPois_byte]
  rw [hkeep, rdWord_wrMem x _ h, word_rdMem]

theorem swapWords_right (h : Safe s) : (swapWords s x y).rdWord y = s.rdWord x := by
  have hkeep : (swapWords s x y).rdWord y =
      (((s.wrMem x 8 (s.rdMem y 8)).setPois x (s.mem.isPois y)).wrMem y 8 (s.rdMem x 8)).rdWord y :=
    rdWord_congr fun a _ _ => by rw [swapWords, setPois_byte]
  rw [hkeep, rdWord_wrMem y _ (safe_setPois _ _ (safe_wrMem _ _ _ h)), word_rdMem]

theorem swapWords_pois_left (h : Safe s) (hd : x / 8 ≠ y / 8) : (swapWords s x y).mem.isPois x = s.mem.isPois y := by
  rw [swapWords, isPois_setPois_other _ _ hd, isPois_wrMem, isPois_setPois_same _ _ (safe_wrMem _ _ _ h)]

end

/-- What the first k words of an exchange have left. -/
structure Exchanged (s : State) (a b k : Nat) (t : State) : Prop where
  safe : Safe t
  left : ∀ i, i < k → t.rdWord (a + 8 * i) = s.rdWord (b + 8 * i)
  right : ∀ i, i < k → t.rdWord (b + 8 * i) = s.rdWord (a + 8 * i)
  pois : ∀ i, i < k → t.mem.isPois (a + 8 * i) = s.mem.isPois (b + 8 * i)
  outside : ∀ l, (l < a ∨ a + 8 * k ≤ l) → (l < b ∨ b + 8 * k ≤ l) → t.byte l = s.byte l
  poisOutside : ∀ l, (l < a ∨ a + 8 * k ≤ l) → (l < b ∨ b + 8 * k ≤ l) → t.mem.isPois l = s.mem.isPois l

theorem exchanged_zero {s : State} (a b : Nat) (h : Safe s) : Exchanged s a b 0 s :=
  ⟨h, fun _ hi => absurd hi (Nat.not_lt_zero _), fun _ hi => absurd hi (Nat.not_lt_zero _),
    fun _ hi => absurd hi (Nat.not_lt_zero _), fun _ _ _ => rfl, fun _ _ _ => rfl⟩

theorem exchanged_succ {s t : State} {a b m k : Nat} (ha : a % 8 = 0) (hb : b % 8 = 0)
    (hd : a + 8 * m ≤ b ∨ b + 8 * m ≤ a) (hk : k < m) (h : Exchanged s a b k t) :
    Exchanged s a b (k + 1) (swapWords t (a + 8 * k) (b + 8 * k)) := by
  obtain ⟨hsafe, hleft, hright, hpois, hout, hpout⟩ := h
  have hearlier : ∀ {l}, (∀ i, i < 8 → l + i < a + 8 * k ∨ a + 8 * k + 8 ≤ l + i) →
      (∀ i, i < 8 → l + i < b + 8 * k ∨ b + 8 * k + 8 ≤ l + i) →
      (swapWords t (a + 8 * k) (b + 8 * k)).rdWord l = t.rdWord l := fun {l} h1 h2 => rdWord_congr fun c hc hlt => by
    obtain ⟨i, rfl⟩ := Nat.exists_eq_add_of_le hc
    exact swapWords_byte (h1 i (by omega)) (h2 i (by omega))
  have hfrom : ∀ {l}, l = a + 8 * k ∨ l = b + 8 * k → t.rdWord l = s.rdWord l := fun {l} hl =>
    rdWord_congr fun c hc hlt => hout c (by omega) (by omega)
  refine ⟨safe_swapWords hsafe, fun i hi => ?_, fun i hi => ?_, fun i hi => ?_, fun l hla hlb => ?_, fun l hla hlb => ?_⟩
  · obtain hlt | rfl := Nat.lt_succ_iff_lt_or_eq.1 hi
    · rw [hearlier (by omega) (by omega), hleft i hlt]
    · rw [swapWords_left hsafe (by omega), hfrom (.inr rfl)]
  · obtain hlt | rfl := Nat.lt_succ_iff_lt_or_eq.1 hi
    · rw [hearlier (by omega) (by omega), hright i hlt]
    · rw [swapWords_right hsafe, hfrom (.inl rfl)]
  · obtain hlt | rfl := Nat.lt_succ_iff_lt_or_eq.1 hi
    · rw [swapWords_pois_other (by omega) (by omega), hpois i hlt]
    · rw [swapWords_pois_left hsafe (by omega), hpout _ (by omega) (by omega)]
  · rw [swapWords_byte (by omega) (by omega), hout l (by omega) (by omega)]
  · rw [swapWords_pois_other (by omega) (by omega), hpout l (by omega) (by omega)]

theorem exchange_exchanged {s : State} {a b n : Nat} (hs : Safe s) (ha : a % 8 = 0) (hb : b % 8 = 0) (hn : n % 8 = 0)
    (hd : a + n ≤ b ∨ b + n ≤ a) : Exchanged s a b (n / 8) (s.exchange a b n) := by
  have hall : ∀ k, k ≤ n / 8 → Exchanged s a b k
      ((List.range k).foldl (fun t i => swapWords t (a + 8 * i) (b + 8 * i)) s) := by
    intro k
    induction k with
    | zero => exact fun _ => exchanged_zero a b hs
    | succ k ih =>
      intro hk
      rw [List.range_succ, List.foldl_append]
      exact exchanged_succ ha hb (m := n / 8) (by omega) hk (ih (Nat.le_of_lt hk))
  rw [exchange_eq]
  exact hall (n / 8) (Nat.le_refl _)

/-! ## KV pages and the tree of prefixes (R386-R397) -/

section
variable {j : Job} {w w1 w2 w3 : Work}

/-- A command that stops with DESC or POISON, wherever it does, has changed nothing. -/
theorem runs_wholeOrNone_stop {m : Eng Unit} {code cause addr : Nat} (hcode : code = 5 ∨ code = 0x11)
    (h : runs m w (.error (.fin code cause addr)) w1) : runs (wholeOrNone m) w (.error (.fin code cause addr)) w := by
  refine runs_bind (runs_get w) ?_
  have hrun : m.run.run w = (.error (.fin code cause addr), w1) := h
  obtain rfl | rfl := hcode
  · rw [hrun]
    exact runs_throw _ w
  · rw [hrun]
    exact runs_throw _ w

theorem runs_allocPage_full {h : Chain} {x : Pool} (hfull : h.npg = h.cap) (w : Work) :
    runs (allocPage j h x) w (.error (.fin 9 0xA7 0)) w := by
  rw [allocPage]
  dsimp only
  rw [if_pos hfull]
  exact runs_bind_error (runs_endWith _ _ _)

theorem runs_putFree {x : Pool} {p : Nat} {free : Bool} {v : Word} {u : Unit} (hread : runs (ctl j (freeTok x p)) w (.ok v) w1)
    (hput : runs (putCtl j (freeTok x p) (wput v (p % x.ppv % 64) (p % x.ppv % 64) free.toNat)) w1 (.ok u) w2) :
    runs (putFree j x p free) w (.ok u) w2 := runs_bind hread hput

theorem runs_putRef {x : Pool} {p ref loc : Nat} {v : Word} {u : Unit} (hread : runs (ctl j (x.at p 0)) w (.ok v) w1)
    (hput : runs (putCtl j (x.at p 0) (wput v 31 0 ref)) w1 (.ok u) w2)
    (hloc : runs (engPlace j (x.at p 0) 8 8 .engWrite) w2 (.ok loc) w3) :
    runs (putRef j x p ref) w (.ok u) { w3 with s := (w3.s.dropReadBufs [loc]).wakeLine loc } :=
  runs_bind hread (runs_bind hput (runs_bind hloc (runs_onState _ w3)))

theorem runs_unrefUp_top {root t : Word} (fuel : Nat) (h : t = root ∨ t = 0) (u : Unit) (w : Work) :
    runs (unrefUp j root (fuel + 1) t) w (.ok u) w := by
  rw [unrefUp, if_pos h]
  exact runs_pure u w

section
variable {root t : Word} {n : PfxNode} (fuel : Nat) (hroot : t ≠ root) (hzero : t ≠ 0)
  (hnode : runs (readNode j root t) w (.ok n) w1)
include hroot hzero hnode

theorem runs_unrefUp_unheld (href : n.ref = 0) :
    runs (unrefUp j root (fuel + 1) t) w (.error (.fin 0xA 0xA6 0)) w1 := by
  rw [unrefUp, if_neg (not_or.2 ⟨hroot, hzero⟩)]
  refine runs_bind hnode ?_
  dsimp only
  rw [if_pos href]
  exact runs_bind_error (runs_endWith _ _ _)

theorem runs_unrefUp_held {u : Unit} (href : n.ref ≠ 0) (hput : runs (putNode0 j t n.ntok (n.ref - 1)) w1 (.ok u) w2) :
    runs (unrefUp j root (fuel + 1) t) w ((unrefUp j root fuel n.parent).run.run w2).1
      ((unrefUp j root fuel n.parent).run.run w2).2 := by
  rw [unrefUp, if_neg (not_or.2 ⟨hroot, hzero⟩)]
  refine runs_bind hnode ?_
  dsimp only
  rw [if_neg href]
  exact runs_bind hput (runs_self _ _)

end

end

/-! ## Commands performed whole (R365) -/

section
variable {s : State} {c : Nat} {x : Cmd} {w : Work}

theorem finish_end (e : CmdEnd) (hrows : w.rows = []) (hagain : x.again = []) : w.finish c x e = w.s.endCmd c x e false := by
  rw [Work.finish, hrows, hagain]
  rfl

theorem performCmd_ok (h : runs (runCmd ⟨c, x⟩) { s := s, job := some ⟨c, x⟩ } (.ok ()) w) :
    s.performCmd c x = w.finish c x w.out := by
  have hrun : runEng s (runCmd ⟨c, x⟩) (some ⟨c, x⟩) = (.ok (), w) := h
  rw [State.performCmd, hrun]

theorem performCmd_stop {code cause addr : Nat}
    (h : runs (runCmd ⟨c, x⟩) { s := s, job := some ⟨c, x⟩ } (.error (.fin code cause addr)) w) :
    s.performCmd c x = w.finish c x { w.out with code := code, cause := cause, addr := addr } := by
  have hrun : runEng s (runCmd ⟨c, x⟩) (some ⟨c, x⟩) = (.error (.fin code cause addr), w) := h
  rw [State.performCmd, hrun]
  rfl

theorem runCmd_castTable (heng : x.eng = 2) (hcmd : x.cmd = 2) : runCmd ⟨c, x⟩ = runCastTable ⟨c, x⟩ := by
  simp only [runCmd, heng, hcmd]

section
variable (heng : x.eng = 2) (hcmd : x.cmd = 2) (hagain : x.again = [])
include heng hcmd hagain

theorem castTable_reserved (hr : bits x.f.toNat 159 68 ≠ 0) :
    s.performCmd c x = s.endCmd c x { code := 5, cause := 0xA0 } false := by
  have hrun : runs (runCmd ⟨c, x⟩) { s := s, job := some ⟨c, x⟩ } (.error (.fin 5 0xA0 0)) { s := s, job := some ⟨c, x⟩ } := by
    rw [runCmd_castTable heng hcmd, runCastTable]
    dsimp only
    rw [if_pos hr]
    exact runs_endWith _ _ _
  rw [performCmd_stop hrun, finish_end _ rfl hagain]

theorem castTable_badLengths (hr : bits x.f.toNat 159 68 = 0) (hl : codeLensOk (word (bits x.f.toNat 63 0)) = false) :
    s.performCmd c x = s.endCmd c x { code := 7, cause := 0x94 } false := by
  have hrun : runs (runCmd ⟨c, x⟩) { s := s, job := some ⟨c, x⟩ } (.error (.fin 7 0x94 0)) { s := s, job := some ⟨c, x⟩ } := by
    rw [runCmd_castTable heng hcmd, runCastTable]
    dsimp only
    rw [if_neg (not_not_intro hr), hl, Bool.not_false, if_pos rfl]
    exact runs_endWith _ _ _
  rw [performCmd_stop hrun, finish_end _ rfl hagain]

theorem castTable_set (hr : bits x.f.toNat 159 68 = 0) (hl : codeLensOk (word (bits x.f.toNat 63 0)) = true) :
    s.performCmd c x = ((s.updCore c fun y => { y with
      tables := Tab.set 0 y.tables (bits x.f.toNat 67 64) (word (bits x.f.toNat 63 0)) }).endCmd c x {} false) := by
  have hrun : runs (runCmd ⟨c, x⟩) { s := s, job := some ⟨c, x⟩ } (.ok ())
      { s := s.updCore c fun y => { y with
          tables := Tab.set 0 y.tables (bits x.f.toNat 67 64) (word (bits x.f.toNat 63 0)) }
        job := some ⟨c, x⟩ } := by
    rw [runCmd_castTable heng hcmd, runCastTable]
    dsimp only
    rw [if_neg (not_not_intro hr), hl, Bool.not_true, if_neg Bool.false_ne_true]
    exact runs_onState _ _
  rw [performCmd_ok hrun, finish_end _ rfl hagain]

end

end

/-! ## The end of a command (R362, R365) -/

section
variable (s : State) (c : Nat) (x : Cmd) (e : CmdEnd)

theorem cmdRecord_mem : (s.cmdRecord c x e).mem = s.mem := by
  rw [State.cmdRecord]
  split <;> rfl

theorem core_sendRecord (c' : Nat) (r : BitVec 256) : (s.sendRecord c r).core c' = s.core c' := rfl

theorem core_sendWakes (c' : Nat) (ws : List Waiter) : (s.sendWakes ws).core c' = s.core c' := rfl

theorem cmdRecord_cmds : ((s.cmdRecord c x e).core c).cmds = (s.core c).cmds := by
  rw [State.cmdRecord]
  split
  · rfl
  · dsimp only
    rw [core_sendRecord, core_updSlot]

theorem noteQuiet_mem : (s.noteQuiet c).mem = s.mem := by
  rw [State.noteQuiet]
  split <;> rfl

theorem noteQuiet_core (c' : Nat) : (s.noteQuiet c).core c' = s.core c' := by
  rw [State.noteQuiet]
  split <;> rfl

theorem wakeGuard_mem (t : Nat) : (s.wakeGuard c t).mem = s.mem := rfl

theorem wakeGuard_cmds (t : Nat) : ((s.wakeGuard c t).core c).cmds = (s.core c).cmds := by
  rw [State.wakeGuard]
  dsimp only
  rw [core_sendWakes, core_updCore_same]

theorem core_storeFull (loc : Nat) (v : Word) : (s.storeFull loc v).core c = s.core c := rfl

theorem core_dropReadBufs (ls : List Nat) : (s.dropReadBufs ls).core c = s.core c := rfl

/-- The state in which a command that signals nothing writes its status word. -/
def statusWritten (s : State) (c : Nat) (x : Cmd) (e : CmdEnd) : State :=
  ((s.cmdRecord c x e).dropReadBufs [statusLoc c x.ticket]).storeFull (statusLoc c x.ticket) (statusWord e false)

/-- The core of a command once it has ended. -/
def withoutCmd (x : Cmd) (e : CmdEnd) (y : Core) : Core :=
  { y with
    cmds := y.cmds.filter fun z => z.ticket != x.ticket
    board := y.board.filter fun r => r.ticket != x.ticket
    array := if x.eng = 0 ∧ e.code ≠ 0 then none else y.array }

/-- What remains of a command's end once its status word is written. -/
def cmdRetired (s : State) (c : Nat) (x : Cmd) (e : CmdEnd) : State :=
  let s := (s.updCore c (withoutCmd x e)).retireBufs c x.ticket
  let s : State := { s with vaults := s.vaults.map fun (n, v) =>
    (n, { v with moving := v.moving.filter fun m => !(m.core == c && m.ticket == x.ticket) }) }
  (s.wakeGuard c x.ticket).noteQuiet c

theorem endCmd_unsignalled (hflag : x.flags.testBit 1 = false) :
    s.endCmd c x e false = cmdRetired (statusWritten s c x e) c x e := by
  simp only [State.endCmd, hflag, Bool.false_and, Bool.false_eq_true, if_false]
  rfl

theorem cmdRetired_mem : (cmdRetired s c x e).mem = s.mem := by
  rw [cmdRetired]
  exact (noteQuiet_mem _ c).trans (wakeGuard_mem _ c _)

theorem cmdRetired_cmds : ((cmdRetired s c x e).core c).cmds = (s.core c).cmds.filter fun z => z.ticket != x.ticket := by
  rw [cmdRetired]
  refine (congrArg Core.cmds (noteQuiet_core _ c c)).trans ((wakeGuard_cmds _ c _).trans ?_)
  exact congrArg Core.cmds (core_updCore_same s c (withoutCmd x e))

theorem statusWritten_cmds : ((statusWritten s c x e).core c).cmds = (s.core c).cmds := by
  rw [statusWritten, core_storeFull, core_dropReadBufs, cmdRecord_cmds]

theorem endCmd_status (hs : Safe s) (hflag : x.flags.testBit 1 = false) :
    (s.endCmd c x e false).rdWord (statusLoc c x.ticket) = statusWord e false ∧
    (s.endCmd c x e false).mem.isFull (statusLoc c x.ticket) = true ∧
    s.sameOutside (s.endCmd c x e false) (statusLoc c x.ticket) 8 ∧
    ((s.endCmd c x e false).core c).cmds = (s.core c).cmds.filter fun z => z.ticket != x.ticket := by
  have hsafe : Safe ((s.cmdRecord c x e).dropReadBufs [statusLoc c x.ticket]) := safe_of_mem (cmdRecord_mem s c x e) hs
  have hmem := cmdRetired_mem (statusWritten s c x e) c x e
  rw [endCmd_unsignalled s c x e hflag]
  refine ⟨?_, ?_, fun a ha => ?_, ?_⟩
  · rw [State.rdWord, hmem]
    exact rdWord_storeFull _ _ hsafe
  · rw [hmem]
    exact isFull_storeFull _ _ hsafe
  · rw [State.byte, hmem]
    exact (byte_storeFull_outside _ _ ha).trans (congrArg (·.byte a) (cmdRecord_mem s c x e))
  · rw [cmdRetired_cmds, statusWritten_cmds]

end

end Sys2Proof.Proofs

/-! PROOFS. Engine commands start, run and end (16). -/

namespace Sys2Proof.Proofs
open Sys2Proof.Machine Sys2Proof.Laws

/-! ## The start of a command (R365) -/

section
variable {s s0 : State} {c k eng : Nat} {x : Cmd}

/-- A head that is free to start takes its semaphore count and starts, or waits where its start must. -/
theorem exec_commandStart (hk : k < 4) (hhead : (s.core c).head k eng = some x)
    (hfree : (s.core c).running eng < engWidth eng)
    (hstores : (s.cores.any fun y => y.2.sb.any fun e => e.tid == x.tid && decide (e.stamp < x.stamp)) = false)
    (hunack : (s.unack.any fun u => u.tid == x.tid && !u.posted && decide (u.stamp < x.stamp)) = false)
    (hlevel : eng = 0 → s.levelOf c ≠ 2)
    (hsem : x.flags.testBit 0 = true → x.took = false → x.wthr ≤ s.sem c x.wsem) :
    exec (.engineCommandStart c k eng) s = .next ((s.startCmd c x).getD s) := by
  have hhere : (!(x.flags.testBit 0 && !x.took) || decide (x.wthr ≤ s.sem c x.wsem)) = true := by
    cases hf : x.flags.testBit 0 with
    | false => rfl
    | true =>
      cases ht : x.took with
      | false => rw [decide_eq_true (hsem hf ht), Bool.or_true]
      | true => rfl
  have hgoes : (eng == 0 && s.levelOf c == 2) = false := by
    rw [Bool.and_eq_false_iff]
    by_cases he : eng = 0
    · exact .inr (beq_eq_false_iff_ne.2 (hlevel he))
    · exact .inl (beq_eq_false_iff_ne.2 he)
  refine congrArg Host.Outcome.next (?_ : _ = _)
  rw [Nat.mod_eq_of_lt hk, hhead]
  dsimp only
  rw [decide_eq_true hfree, hstores, hunack, hhere, hgoes]
  rfl

/-- The start of a command once it has taken its semaphore count. -/
theorem startCmd_eq (hs0 : s0 = if x.flags.testBit 0 && !x.took then s.setSem c x.wsem (s.sem c x.wsem - x.wthr) else s) :
    s.startCmd c x = (s0.beginCmd c x).bind fun (s, x) =>
      ((s.updCore c fun y => y.updCmd x.ticket fun _ => x).markRanges c x).map fun s =>
        if x.eng = 1 ∧ x.cmd = 0 ∧ x.flags.testBit 5 ∧ x.early.isNone then s.joinGroup c x else s := by
  subst hs0
  rfl

theorem beginCmd_plain (htile : x.eng ≠ 1 ∨ x.cmd = 3) (hmove : x.eng ≠ 3 ∨ x.cmd = 0) :
    s.beginCmd c x = some (s, { x with started := true, startedAt := s.time, took := true }) := by
  have h1 : ¬ (x.eng = 1 ∧ x.cmd ≠ 3) := fun h => htile.elim (fun h' => h' h.1) fun h' => h.2 h'
  have h2 : ¬ (x.eng = 3 ∧ x.cmd ≠ 0) := fun h => hmove.elim (fun h' => h' h.1) fun h' => h.2 h'
  rw [State.beginCmd]
  dsimp only
  rw [if_neg h1, if_neg h2]

theorem takeSem_time (hs0 : s0 = if x.flags.testBit 0 && !x.took then s.setSem c x.wsem (s.sem c x.wsem - x.wthr) else s) :
    s0.time = s.time := by
  subst hs0
  split <;> rfl

theorem markRanges_none (hrs : cmdRanges s c x = [])
    (hown : ((s.core c).board.any fun r => r.ticket == x.ticket && !r.guard) = false) : s.markRanges c x = some s := by
  rw [State.markRanges]
  dsimp only
  rw [hown, if_neg Bool.false_ne_true, hrs, List.isEmpty_nil, if_pos rfl]

end

/-! ## Completions (R365, R176, R385) -/

section
variable {s : State} {c n : Nat} {x : Cmd} (hx : (s.core c).cmds[n]? = some x)
include hx

theorem exec_commandComplete (hstart : x.started = true) (hgroup : s.inGroup c x = false) :
    exec (.engineCommandComplete c n) s = .next (if x.eng = 3 ∧ x.cmd = 0 then s.completeXswap c x
      else match x.early with
        | some e =>
          if x.eng = 3 ∧ x.matched then s.completeMove c x
          else if x.again.isEmpty then s.endCmd c x e false else s.againAndEnd c x e
        | none => if x.eng = 3 then s.completeMove c x else s.performCmd c x) := by
  refine congrArg Host.Outcome.next (?_ : _ = _)
  rw [hx]
  dsimp only
  rw [hstart, hgroup, if_neg (by decide)]
  <;> rfl

section
variable (hstart : x.started = true) (hgroup : s.inGroup c x = false)
include hstart hgroup

theorem commandComplete_performs (hearly : x.early = none) (heng : x.eng ≠ 3) :
    exec (.engineCommandComplete c n) s = .next (s.performCmd c x) := by
  rw [exec_commandComplete hx hstart hgroup, if_neg fun h => heng h.1, hearly]
  dsimp only
  rw [if_neg heng]

theorem commandComplete_early (hkind : x.eng ≠ 3 ∨ x.cmd ≠ 0 ∧ x.matched = false) {e : CmdEnd} (hearly : x.early = some e) :
    exec (.engineCommandComplete c n) s =
      .next (if x.again.isEmpty then s.endCmd c x e false else s.againAndEnd c x e) := by
  have hswap : ¬ (x.eng = 3 ∧ x.cmd = 0) := fun h => hkind.elim (fun h' => h' h.1) fun h' => h'.1 h.2
  have hmove : ¬ (x.eng = 3 ∧ x.matched = true) := fun h =>
    hkind.elim (fun h' => h' h.1) fun h' => Bool.false_ne_true (h'.2.symm.trans h.2)
  rw [exec_commandComplete hx hstart hgroup, if_neg hswap, hearly]
  dsimp only
  rw [if_neg hmove]

section
variable (heng : x.eng = 3) (hcmd : x.cmd ≠ 0)
include heng hcmd

theorem commandComplete_move (hearly : x.early = none) :
    exec (.engineCommandComplete c n) s = .next (s.completeMove c x) := by
  rw [exec_commandComplete hx hstart hgroup, if_neg fun h => hcmd h.2, hearly]
  dsimp only
  rw [if_pos heng]

theorem commandComplete_moved {e : CmdEnd} (hmatched : x.matched = true) (hearly : x.early = some e) :
    exec (.engineCommandComplete c n) s = .next (if x.wave then s.endCmd c x e false else s) := by
  rw [exec_commandComplete hx hstart hgroup, if_neg fun h => hcmd h.2, hearly]
  dsimp only
  rw [if_pos ⟨heng, hmatched⟩, State.completeMove, if_pos hmatched, hearly]
  rfl

end

theorem commandComplete_xswap (heng : x.eng = 3) (hcmd : x.cmd = 0) :
    exec (.engineCommandComplete c n) s = .next (s.completeXswap c x) := by
  rw [exec_commandComplete hx hstart hgroup, if_pos ⟨heng, hcmd⟩]

end

theorem xswapNoPair_eq (heng : x.eng = 3) (hcmd : x.cmd = 0) (hstart : x.started = true) :
    exec (.xswapNoPair c n) s = .next (if x.matched = false ∧ x.startedAt + 1000000 ≤ s.time ∧
        xswapBad (isSvc c) x.f.toNat = false ∧ s.xswapPeer c x = none then
      s.endCmd c x { code := 0xD, cause := 0xAA } false else s) := by
  refine congrArg Host.Outcome.next (?_ : _ = _)
  rw [hx]
  simp only [heng, hcmd, hstart, true_and, Bool.not_eq_true', Option.isNone_iff_eq_none]

theorem waveReturn_marks (heng : x.eng = 3) (hcmd : x.cmd ≠ 0) (hmatched : x.matched = true) :
    exec (.invalidationWaveReturn c n) s =
      .next (s.updCore c fun y => y.updCmd x.ticket fun d => { d with wave := true }) := by
  refine congrArg Host.Outcome.next (?_ : _ = _)
  rw [hx]
  dsimp only
  rw [if_pos ⟨heng, hcmd, hmatched⟩]

end

/-! ## Multicast groups (R175) -/

theorem exec_windowClose {s : State} {sq n : Nat} {g : List (Nat × Nat) × Nat} (hg : (s.square sq).mcast[n]? = some g) :
    exec (.multicastWindowClose sq n) s = .next (if g.1.length < 4 ∧ s.time < g.2 + 32 then s
      else match s.readGroup g.1 with
        | some s => s.updSquare sq fun q => { q with mcast := q.mcast.eraseIdx n }
        | none => s) := by
  refine congrArg Host.Outcome.next (?_ : _ = _)
  rw [hg]
  <;> rfl

/-- Settles O45: an engine's start, completions and ends by the branch that each condition opens; what its commands read and
write by how its actions run. -/
theorem engineEvents : Obligations.EngineEvents := by
  unfold Obligations.EngineEvents
  refine ⟨fun s s1 c k eng n x x1 hk => ⟨?_, markRanges_none, fun hx hstart hgroup hkind => ⟨?_, fun e hearly => ⟨?_, ?_⟩⟩,
    fun hx hstart hgroup heng hcmd => ⟨?_, ?_⟩, fun hx heng hcmd hstart => ⟨?_, ?_, ?_⟩, waveReturn_marks,
    fun sq g hg => ⟨?_, fun hclose => ⟨?_, ?_⟩⟩, fun e hs hflag => endCmd_status s c x e hs hflag⟩,
    fun j t loc w w1 h => runs_ctl h, fun j t v loc w w1 h hs => runs_putCtl h hs,
    fun w loc n v pois _ => ⟨runs_writeAt_part v pois, fun h hs => runs_writeAt_spec w loc n v pois h hs⟩,
    fun j d e src dst k v ta p w w1 w2 w3 => ⟨fun hsh hsrc => ⟨?_, fun hthr hremap hbefore =>
      runs_tileSource hsh hsrc hthr hremap hbefore⟩, fun hsrc hdst hput => runs_tileElem hsrc hdst hput⟩,
    fun s c x heng hcmd hagain => ⟨castTable_reserved heng hcmd hagain, castTable_badLengths heng hcmd hagain,
      castTable_set heng hcmd hagain⟩,
    runs_castWord, fun j w o m sq ho hm hsq => ⟨?_, runs_mma ho hm hsq⟩, ?_,
    ?_, fun j h x p ref free w w1 w2 w3 v u => ⟨fun hfull => runs_allocPage_full hfull w, runs_putFree,
      fun loc hread hput hloc => runs_putRef hread hput hloc, runs_self _ _⟩,
    fun j root t fuel n w w1 w2 u => ⟨fun h => runs_unrefUp_top fuel h u w, fun hroot hzero hnode =>
      ⟨runs_unrefUp_unheld fuel hroot hzero hnode, runs_unrefUp_held fuel hroot hzero hnode⟩⟩⟩
  · intro hhead hfree hstores hunack hlevel hsem s0 hs0
    have hexec := exec_commandStart hk hhead hfree hstores hunack hlevel hsem
    rw [startCmd_eq hs0] at hexec
    refine ⟨fun hwait => ?_, fun hbegin => ⟨fun t ht => ?_, fun hfull => ?_⟩, fun htile hmove => ?_⟩
    · rw [hexec, hwait]
      rfl
    · rw [hexec, hbegin, Option.bind_some]
      dsimp only
      rw [ht]
      rfl
    · rw [hexec, hbegin, Option.bind_some]
      dsimp only
      rw [hfull]
      rfl
    · rw [beginCmd_plain htile hmove, takeSem_time hs0]
  · exact commandComplete_performs hx hstart hgroup
  · intro hagain
    rw [commandComplete_early hx hstart hgroup hkind hearly, hagain, List.isEmpty_nil, if_pos rfl]
  · intro hagain
    rw [commandComplete_early hx hstart hgroup hkind hearly, List.isEmpty_eq_false_iff.2 hagain, if_neg Bool.false_ne_true]
  · exact fun hearly _ => commandComplete_move hx hstart hgroup heng hcmd hearly
  · exact fun e hmatched hearly => commandComplete_moved hx hstart hgroup heng hcmd hmatched hearly
  · intro hmatched htime hbad hpeer
    rw [xswapNoPair_eq hx heng hcmd hstart, if_pos ⟨hmatched, htime, hbad, hpeer⟩]
  · intro hnot
    rw [xswapNoPair_eq hx heng hcmd hstart, if_neg]
    rintro ⟨hmatched, htime, hbad, hpeer⟩
    obtain h | h | h | h := hnot
    · exact Bool.false_ne_true (hmatched.symm.trans h)
    · exact Nat.not_lt.2 htime h
    · exact Bool.false_ne_true (hbad.symm.trans h)
    · exact h hpeer
  · exact fun hgroup => commandComplete_xswap hx hstart hgroup heng hcmd
  · intro hfew hearly
    rw [exec_windowClose hg, if_pos ⟨hfew, hearly⟩]
  · intro hread
    rw [exec_windowClose hg, if_neg fun h => hclose.elim (Nat.not_le.2 h.1) (Nat.not_le.2 h.2), hread]
  · intro hread
    rw [exec_windowClose hg, if_neg fun h => hclose.elim (Nat.not_le.2 h.1) (Nat.not_le.2 h.2), hread]
  · intro hta hthr
    subst hta
    exact runs_tileSource_throttled hsh hsrc hthr
  · subst ho
    exact fun code cause => runs_mma_bad
  · intro s a b n i hs ha hb hn hd hi
    obtain ⟨-, hleft, hright, hpois, hout, -⟩ := exchange_exchanged hs ha hb hn hd
    exact ⟨hleft i hi, hright i hi, hpois i hi, fun l hla hlb => hout l (by omega) (by omega)⟩
  · intro m w w' x h hx
    obtain ⟨code, addr, rfl | rfl⟩ := hx
    · exact runs_wholeOrNone_stop (.inl rfl) h
    · exact runs_wholeOrNone_stop (.inr rfl) h

end Sys2Proof.Proofs

/-! PROOFS. Memory in its canonical form: how it is kept through folds, pairs, options and engine actions (08, 09). -/

namespace Sys2Proof.Proofs
open Sys2Proof.Machine Sys2Proof.Laws

theorem mem_foldl {α : Type} (s : State) (l : List α) (f : State → α → State) (h : ∀ s a, (f s a).mem = s.mem) :
    (l.foldl f s).mem = s.mem := by
  induction l generalizing s with
  | nil => rfl
  | cons a l ih => rw [List.foldl_cons, ih, h]

theorem safe_foldl {α : Type} {s : State} {l : List α} {f : State → α → State} (h : ∀ s a, Safe s → Safe (f s a))
    (hs : Safe s) : Safe (l.foldl f s) := by
  induction l generalizing s with
  | nil => exact hs
  | cons a l ih => exact ih (h s a hs)

section
variable {α β : Type} {a : α} {b : β} {t : State}

theorem mem_of_snd {p : α × State} (e : p = (a, t)) : t.mem = p.2.mem := by rw [e]

theorem safe_of_snd {p : α × State} (e : p = (a, t)) (h : Safe p.2) : Safe t := safe_of_mem (mem_of_snd e) h

end

theorem safe_ite {c : Prop} [Decidable c] {s t : State} (hs : Safe s) (ht : Safe t) : Safe (if c then s else t) := by
  split
  · exact hs
  · exact ht

theorem safe_ite_snd {α : Type} {c : Prop} [Decidable c] {p q : α × State} (hp : Safe p.2) (hq : Safe q.2) :
    Safe (if c then p else q).2 := by
  split
  · exact hp
  · exact hq

/-- A change of the management's registers keeps memory. -/
theorem safe_withMgmt {s : State} (m : Mgmt) (hs : Safe s) : Safe { s with mgmt := m } := hs

/-! ## Engine actions that keep memory canonical -/

/-- The action keeps memory in its canonical form, however it ends. -/
def KeepsSafe {α : Type} (m : Eng α) : Prop := ∀ w : Work, Safe w.s → Safe (m.run.run w).2.s

section
variable {α β : Type}

theorem keeps_pure (a : α) : KeepsSafe (pure a) := fun _ h => h

theorem keeps_throw (x : Stop) : KeepsSafe (throw x : Eng α) := fun _ h => h

theorem keeps_endWith (code cause : Nat) : KeepsSafe (endWith code cause : Eng α) := fun _ h => h

theorem keeps_bind {m : Eng α} {f : α → Eng β} (hm : KeepsSafe m) (hf : ∀ a, KeepsSafe (f a)) : KeepsSafe (m >>= f) := by
  intro w hw
  have hw' := hm w hw
  rw [ExceptT.run_bind, StateT.run_bind]
  generalize m.run.run w = r at hw'
  obtain ⟨_ | a, w'⟩ := r
  · exact hw'
  · exact hf a w' hw'

/-- A check that may end the action first: what follows it is the same either way. -/
theorem keeps_guard {c : Prop} [Decidable c] {m : Eng β} {n : Eng α} (hm : KeepsSafe m) (hn : KeepsSafe n) :
    KeepsSafe (if c then m >>= fun _ => n else n) := by
  split
  · exact keeps_bind hm fun _ => hn
  · exact hn

/-- An action that reads the work finds a canonical memory in it. -/
theorem keeps_get {f : Work → Eng β} (hf : ∀ w, Safe w.s → KeepsSafe (f w)) : KeepsSafe (get >>= f) :=
  fun w hw => hf w hw w hw

theorem keeps_set {v : Work} (hv : Safe v.s) : KeepsSafe (set v) := fun _ _ => hv

theorem keeps_modify {f : Work → Work} (hf : ∀ w, Safe w.s → Safe (f w).s) : KeepsSafe (modify f) := hf

theorem keeps_onState {f : State → State} (hf : ∀ s, Safe s → Safe (f s)) : KeepsSafe (onState f) := fun w hw => hf w.s hw

theorem keeps_onOut (f : CmdEnd → CmdEnd) : KeepsSafe (onOut f) := fun _ h => h

theorem keeps_count (n : Nat) : KeepsSafe (count n) := fun _ h => h

theorem keeps_markPois : KeepsSafe markPois := fun _ h => h

theorem keeps_tryCatch {m : Eng α} {f : Stop → Eng α} (hm : KeepsSafe m) (hf : ∀ x, KeepsSafe (f x)) :
    KeepsSafe (tryCatch m f) := by
  intro w hw
  have hw' : Safe (StateT.run m w).2.s := hm w hw
  show Safe ((ExceptT.tryCatch m f).run.run w).2.s
  rw [ExceptT.tryCatch, ExceptT.run_mk, StateT.run_bind]
  generalize StateT.run m w = r at hw'
  obtain ⟨x | a, w'⟩ := r
  · exact hf x w' hw'
  · exact hw'

theorem keeps_forM {l : List α} {f : α → Eng PUnit} (hf : ∀ a, KeepsSafe (f a)) : KeepsSafe (l.forM f) := by
  induction l with
  | nil => exact keeps_pure _
  | cons a l ih => exact keeps_bind (hf a) fun _ => ih

theorem keeps_foldlM {l : List α} {f : β → α → Eng β} (hf : ∀ b a, KeepsSafe (f b a)) (b : β) :
    KeepsSafe (l.foldlM f b) := by
  induction l generalizing b with
  | nil => exact keeps_pure _
  | cons a l ih => exact keeps_bind (hf b a) ih

theorem keeps_mapM {l : List α} {f : α → Eng β} (hf : ∀ a, KeepsSafe (f a)) : KeepsSafe (l.mapM f) := by
  induction l with
  | nil => exact keeps_pure _
  | cons a l ih =>
    rw [List.mapM_cons]
    exact keeps_bind (hf a) fun _ => keeps_bind ih fun _ => keeps_pure _

/-- An engine's action from a canonical state leaves one. -/
theorem safe_runEng {s : State} {m : Eng α} (hm : KeepsSafe m) (j : Option Job) (hs : Safe s) : Safe (runEng s m j).2.s :=
  hm _ hs

theorem safe_of_runEng {s : State} {m : Eng α} {j : Option Job} {r : Except Stop α} {w : Work}
    (e : runEng s m j = (r, w)) (hm : KeepsSafe m) (hs : Safe s) : Safe w.s := by
  have h := safe_runEng hm j hs
  rwa [e] at h

end

theorem wf_of_safe {s : State} (h : Safe s) : s.mem.wf = true := h

theorem safe_getD {s : State} {o : Option State} (ho : ∀ {t}, o = some t → Safe t) (hs : Safe s) :
    Safe (o.getD s) := by
  cases o with
  | none => exact hs
  | some t => exact ho rfl

/-! ## Outcomes -/

/-- Where the outcome is a next state, its memory is canonical. -/
def NextSafe : Res → Prop
  | .next t => Safe t
  | .fault _ => True
  | .refused _ => True

theorem nextSafe_next {t : State} (h : Safe t) : NextSafe (.next t) := h

theorem safe_of_nextSafe {r : Res} {t : State} (e : r = .next t) (h : NextSafe r) : Safe t := by
  rw [e] at h
  exact h

/-! ## Recursions whose steps are too long to evaluate -/

section
variable {α : Type} {P : α → Prop}

/-- The value for the number before n, where there is one, has property P. -/
def BelowHas (P : α → Prop) : (n : Nat) → Nat.below (motive := fun _ => α) n → Prop
  | 0, _ => True
  | _ + 1, b => P b.1

/-- What a recursion on a number keeps. It speaks of the recursion's step as it stands, so that a step which is too long to
evaluate need not be unfolded at a successor. -/
theorem brecOn_has {F : (n : Nat) → Nat.below (motive := fun _ => α) n → α} (h : ∀ n b, BelowHas P n b → P (F n b))
    (n : Nat) : P (Nat.brecOn (motive := fun _ => α) n F) := by
  have hgo : BelowHas P n (Nat.brecOn.go (motive := fun _ => α) n F).2 := by
    induction n with
    | zero => trivial
    | succ n ih =>
      have hn := h n _ ih
      rwa [← Nat.brecOn.eq n F] at hn
  rw [Nat.brecOn.eq]
  exact h n _ hgo

end

end Sys2Proof.Proofs

/-! PROOFS. What the state operations keep: observation, slots, accesses, replays (07, 08, 09, 10). -/

namespace Sys2Proof.Proofs
open Sys2Proof.Machine Sys2Proof.Laws

/-! ## What threads observe -/

theorem noteRead_mem (s : State) (port : Option Nat) (t loc : Nat) : (s.noteRead port t loc).mem = s.mem := rfl

theorem acquireWord_mem (s : State) (t loc : Nat) : (s.acquireWord t loc).mem = s.mem := rfl

theorem releaseWord_mem (s : State) (c t : Nat) (x : Scope) (derived : Bool) (loc : Nat) :
    (s.releaseWord c t x derived loc).mem = s.mem := rfl

theorem storeWords_mem (s : State) (t : Nat) (locs : List Nat) : (s.storeWords t locs).mem = s.mem := rfl

theorem fenceAt_mem (s : State) (c t : Nat) (x : Scope) : (s.fenceAt c t x).mem = s.mem := rfl

theorem fenceXp_mem (s : State) (t : Nat) : (s.fenceXp t).mem = s.mem := rfl

theorem observeAll_mem (s : State) (t : Nat) : (s.observeAll t).mem = s.mem := rfl

theorem carry_mem (s : State) (c t : Nat) (x : Scope) (id : Nat) : (s.carry c t x id).mem = s.mem := rfl

theorem carriedTo_mem (s : State) (id loc : Nat) : (s.carriedTo id loc).mem = s.mem := rfl

theorem acquireMsg_mem (s : State) (t id : Nat) : (s.acquireMsg t id).mem = s.mem := rfl

theorem releaseSem_mem (s : State) (c t sem : Nat) : (s.releaseSem c t sem).mem = s.mem := rfl

theorem signalSem_mem (s : State) (c ticket sem : Nat) : (s.signalSem c ticket sem).mem = s.mem := rfl

theorem acquireSem_mem (s : State) (c t sem : Nat) : (s.acquireSem c t sem).mem = s.mem := rfl

theorem releaseObj_mem (s : State) (c t : Nat) (x : Scope) (loc : Nat) : (s.releaseObj c t x loc).mem = s.mem := rfl

theorem countObj_mem (s : State) (c ticket loc : Nat) : (s.countObj c ticket loc).mem = s.mem := rfl

theorem flipObj_mem (s : State) (loc : Nat) : (s.flipObj loc).mem = s.mem := rfl

theorem newObj_mem (s : State) (loc : Nat) : (s.newObj loc).mem = s.mem := rfl

theorem acquireObj_mem (s : State) (t loc : Nat) : (s.acquireObj t loc).mem = s.mem := rfl

theorem retireBufs_mem (s : State) (c ticket : Nat) : (s.retireBufs c ticket).mem = s.mem := rfl

/-! ## Slots, faults, threads that load, frames in memory -/

theorem nextSerial_mem (s : State) : (s.nextSerial).mem = s.mem := rfl

theorem updEntry_mem (s : State) (d e : Nat) (f : Entry → Entry) : (s.updEntry d e f).mem = s.mem := rfl

theorem updLaunch_mem (s : State) (lid : Nat) (f : Entry → Entry) : (s.updLaunch lid f).mem = s.mem := rfl

theorem registerSem_mem (s : State) (w : Waiter) : (s.registerSem w).mem = s.mem := rfl

theorem sendWakes_mem (s : State) (ws : List Waiter) : (s.sendWakes ws).mem = s.mem := rfl

theorem wakeWord_mem (s : State) (loc : Nat) (kinds : List Nat) : (s.wakeWord loc kinds).mem = s.mem := rfl

theorem wakeLine_mem (s : State) (loc : Nat) : (s.wakeLine loc).mem = s.mem := rfl

theorem wakeObject_mem (s : State) (loc : Nat) : (s.wakeObject loc).mem = s.mem := rfl

theorem moveWaiters_mem (s : State) (c k : Nat) (e : Option Nat) : (s.moveWaiters c k e).mem = s.mem := rfl

theorem wakeFull_mem (s : State) (loc : Nat) : (s.wakeFull loc).mem = s.mem := rfl

theorem safe_storeFull {s : State} {loc : Nat} {v : Word} (hs : Safe s) : Safe (s.storeFull loc v) := by
  rw [State.storeFull]
  exact safe_of_mem (wakeFull_mem ..) (safe_setFull _ _ (safe_wrWord _ _ hs))

theorem linkSend_mem (s : State) (p : Nat) (x : Txn) : (s.linkSend p x).mem = s.mem := rfl

theorem unreserve_mem (s : State) (c : Nat) (m : Msg) (h : Nat) : (s.unreserve c m h).mem = s.mem := by
  rw [State.unreserve]
  split
  · exact send_mem ..
  · split
    · rfl
    · split
      · exact linkSend_mem ..
      · rfl

theorem releaseResv_mem (s : State) (c k : Nat) : (s.releaseResv c k).mem = s.mem := by
  rw [State.releaseResv]
  refine (mem_foldl _ _ _ fun t a => ?_).trans ?_
  · split
    · exact unreserve_mem ..
    · rfl
  · rfl

theorem abandon_mem (s : State) (c k : Nat) : (s.abandon c k).mem = s.mem := by
  rw [State.abandon]
  split
  · rw [updSlot_mem, updSlot_mem, releaseResv_mem]
  · rw [updSlot_mem, releaseResv_mem]

theorem both_mem (s : State) (c k : Nat) (f : Slot → Slot) : (s.both c k f).mem = s.mem := by
  rw [State.both]
  split
  · rw [updSlot_mem, updSlot_mem]
  · exact updSlot_mem ..

theorem park_mem (s : State) (c k : Nat) (kind addr : Nat) : (s.park c k kind addr).mem = s.mem := by
  rw [State.park, nextSerial_mem, both_mem, abandon_mem]

theorem sendRecord_mem (s : State) (c : Nat) (r : BitVec 256) : (s.sendRecord c r).mem = s.mem := rfl

theorem recordFor_mem (s : State) (c k : Nat) (pc lid : Nat) (f : FaultD) :
    (s.recordFor c k pc lid f).mem = s.mem := rfl

theorem leaveFor_mem (s : State) (c k : Nat) (owner maddr : Nat) : (s.leaveFor c k owner maddr).mem = s.mem := by
  rw [State.leaveFor, updSlot_mem, abandon_mem]

theorem raise_mem (s : State) (c k : Nat) (f : FaultD) : (s.raise c k f).mem = s.mem := by
  rw [State.raise]
  split
  · exact updSlot_mem ..
  · split
    · exact leaveFor_mem ..
    · rw [takeFault_mem]

theorem raiseOut_mem (s : State) (c k : Nat) (f : FaultD) : (s.raiseOut c k f).mem = s.mem := by
  rw [State.raiseOut]
  split
  · rw [raise_mem, raise_mem]
  · exact raise_mem ..

theorem makeRunnable_mem (s : State) (c k : Nat) : (s.makeRunnable c k).mem = s.mem := by
  rw [State.makeRunnable]
  exact both_mem ..

theorem resumeSlot_mem (s : State) (c k : Nat) : (s.resumeSlot c k).mem = s.mem := by
  rw [State.resumeSlot, makeRunnable_mem, both_mem]

theorem countSent_mem (s : State) (c lid : Nat) : (s.countSent c lid).mem = s.mem := by
  rw [State.countSent]
  split
  · rfl
  · exact updCore_mem ..

theorem countRecv_mem (s : State) (c lid : Nat) : (s.countRecv c lid).mem = s.mem := by
  rw [State.countRecv]
  split
  · rfl
  · exact updCore_mem ..

theorem endSlice_mem (s : State) (lid slice : Nat) (retired : Bool) :
    (s.endSlice lid slice retired).mem = s.mem := rfl

theorem loadSlot_mem (s : State) (c k : Nat) (x : Ctx) (slice : Option Nat) (pmask : BitVec 16) (migr : Nat)
    (stepping : Bool) : (s.loadSlot c k x slice pmask migr stepping).mem = s.mem := rfl

theorem pairUp_mem (s : State) (c k k' : Nat) : (s.pairUp c k k').mem = s.mem := rfl

theorem newThread_mem (s : State) (c k : Nat) : (s.newThread c k).mem = s.mem := by
  rw [State.newThread, nextSerial_mem, both_mem]

theorem loadThread_mem (s : State) (c k k' : Nat) (x : Ctx) (slice : Option Nat) (pmask : BitVec 16) (migr : Nat)
    (stepping : Bool) : (s.loadThread c k k' x slice pmask migr stepping).mem = s.mem := by
  rw [State.loadThread, newThread_mem]
  split
  · rw [pairUp_mem, loadSlot_mem, loadSlot_mem]
  · exact loadSlot_mem ..

theorem safe_dispWrite {s : State} {loc : Nat} {v : Word} (hs : Safe s) : Safe (s.dispWrite loc v) := by
  rw [State.dispWrite]
  exact safe_of_mem (touchRow_mem ..) (safe_wrWord _ _ (safe_of_mem (dropReadBufs_mem ..) hs))

theorem touchFrame_mem (s : State) (L : Nat → Option Nat) : (s.touchFrame L).mem = s.mem := by
  rw [State.touchFrame]
  exact mem_foldl _ _ _ fun t a => touchRow_mem ..

theorem safe_writeFrame {s : State} {L : Nat → Option Nat} {f : CtxFrame} (hs : Safe s) :
    Safe (s.writeFrame L f) := by
  rw [State.writeFrame]
  split
  · refine safe_setFull _ _ ?_
    refine safe_foldl (fun t a h => ?_) ?_
    · split
      · split
        · exact safe_setPois _ _ (safe_dispWrite h)
        · exact h
    · exact hs
  · refine safe_foldl (fun t a h => ?_) ?_
    · split
      · split
        · exact safe_setPois _ _ (safe_dispWrite h)
        · exact h
    · exact hs

theorem safe_barrierSet {s : State} {loc b : Nat} (hs : Safe s) : Safe (s.barrierSet loc b) := by
  rw [State.barrierSet]
  split
  · split
    · exact safe_of_mem (wakeObject_mem ..) (safe_of_mem (flipObj_mem ..) (safe_wrMem _ _ _ hs))
    · exact safe_wrMem _ _ _ hs

theorem safe_barrierPut {s : State} {loc b : Nat} (hs : Safe s) : Safe (s.barrierPut loc b) := by
  rw [State.barrierPut]
  exact safe_barrierSet (safe_of_mem (dropReadBufs_mem ..) hs)

theorem safe_barrierCount {s : State} {job : Option (Nat × Cmd)} {loc n : Nat} (hs : Safe s) :
    Safe (s.barrierCount job loc n) := by
  unfold State.barrierCount
  refine safe_barrierSet ?_
  split
  · refine safe_foldl (fun t a h => ?_) ?_
    · split
      · exact h
      · exact safe_of_mem (asyncWrite_mem ..) h
    · exact hs
  · exact hs

/-! ## Firing and the checks of an access -/

theorem translate_mem (s : State) (a : Who) (va : Nat) (kind : AKind) : (translate s a va kind).2.mem = s.mem :=
  sameButTlb_mem (sameButTlb_translate ..)

theorem translateAll_mem (a : Who) (kind : AKind) (fuel : Nat) (s : State) (ea n : Nat) :
    (translateAll a kind fuel s ea n).2.mem = s.mem := sameButTlb_mem (sameButTlb_translateAll ..)

theorem ordAccess_mem (s : State) (a : Who) (t : Word) (n u : Nat) (kind : AKind) (w32 : Bool) (lanes : Nat)
    (onView : Option Nat) : (ordAccess s a t n u kind w32 lanes onView).2.mem = s.mem :=
  sameButTlb_mem (sameButTlb_ordAccess ..)

theorem remAccess_mem (s : State) (a : Who) (t : Word) (n u : Nat) (kind : AKind) (dbg : Bool) :
    (remAccess s a t n u kind dbg).2.mem = s.mem := by
  rw [remAccess]
  split
  · rfl
  · split
    · rfl
    · rfl
    · rfl
    · rfl
    · split
      · rename_i e
        rw [mem_of_snd e, translate_mem]
      · rename_i e
        rw [mem_of_snd e, translate_mem]
      · split
        · rename_i e _
          rw [mem_of_snd e, translate_mem]
        · rename_i e _
          rw [mem_of_snd e, translate_mem]
    · split
      · rfl
      · split
        · split
          · rfl
          · split <;> rfl
        · split <;> rfl

theorem barAccess_mem (s : State) (a : Who) (t : Word) : (barAccess s a t).2.mem = s.mem := by
  rw [barAccess]
  split
  · rfl
  · split
    · split
      · rfl
      · split
        · rename_i e
          rw [mem_of_snd e, translate_mem]
        · rename_i e
          rw [mem_of_snd e, translate_mem]
        · rename_i e
          rw [mem_of_snd e, translate_mem]
    · split <;> rfl
    · rfl
    · rfl
    · rfl
    · rfl

/-! ## Loads and stores -/

theorem parkGuard_mem (s : State) (c k : Nat) (ea ticket : Nat) : (s.parkGuard c k ea ticket).mem = s.mem := by
  rw [State.parkGuard, updCore_mem, park_mem]

theorem buildSt_mem (w : Width) (rel : Bool) (l imm : Nat) (s : State) (a : Who) (t d : Tok) :
    (buildSt w rel l imm s a t d).2.mem = s.mem := by
  rw [buildSt]
  split
  · rfl
  · dsimp only
    split
    · dsimp only
      rename_i e
      rw [mem_of_snd e, ordAccess_mem]
    · split
      · split
        · dsimp only
          rename_i e _ _ _ _ _ _ _
          rw [mem_of_snd e, ordAccess_mem]
        · dsimp only
          rename_i e _ _ _ _ _ _
          rw [mem_of_snd e, ordAccess_mem]
      · dsimp only
        rename_i e _ _
        rw [mem_of_snd e, ordAccess_mem]

theorem buildWord_mem (l : Nat) (s : State) (a : Who) (t : Tok) (rel : Bool) (d : Nat) (f : Nat → SbOp) :
    (buildWord l s a t rel d f).2.mem = s.mem := by
  rw [buildWord]
  split
  · rename_i e
    rw [mem_of_snd e, ordAccess_mem]
  · rename_i e
    rw [mem_of_snd e, ordAccess_mem]

theorem buildStf_mem (l : Nat) (s : State) (a : Who) (t d : Tok) : (buildStf l s a t d).2.mem = s.mem := by
  rw [buildStf]
  split
  · rfl
  · exact buildWord_mem ..

theorem buildFeempty_mem (l : Nat) (s : State) (a : Who) (t : Tok) : (buildFeempty l s a t).2.mem = s.mem := by
  rw [buildFeempty]
  split
  · rfl
  · exact buildWord_mem ..

theorem buildNotify_mem (l : Nat) (c : Scope) (s : State) (a : Who) (t d : Tok) :
    (buildNotify l c s a t d).2.mem = s.mem := by
  rw [buildNotify]
  split
  · rfl
  · exact buildWord_mem ..

theorem buildBinit_mem (l : Nat) (s : State) (a : Who) (t d : Tok) : (buildBinit l s a t d).2.mem = s.mem := by
  rw [buildBinit]
  split
  · rfl
  · split
    · rename_i e
      rw [mem_of_snd e, barAccess_mem]
    · rename_i e
      rw [mem_of_snd e, barAccess_mem]

theorem buildRow_mem (opens : Bool) (l : Nat) (s : State) (a : Who) (t : Tok) :
    (buildRow opens l s a t).2.mem = s.mem := by
  rw [buildRow]
  split
  · rfl
  · split
    · split
      · dsimp only
        rename_i e _
        rw [mem_of_snd e, ordAccess_mem]
      · dsimp only
        rename_i e _
        rw [mem_of_snd e, ordAccess_mem]
    · dsimp only
      split
      · dsimp only
        rename_i e _
        rw [mem_of_snd e, ordAccess_mem]
      · dsimp only
        rename_i e _
        rw [mem_of_snd e, ordAccess_mem]

theorem buildRst_mem (full : Bool) (c : Scope) (l : Nat) (s : State) (a : Who) (t d : Tok) :
    (buildRst full c l s a t d).2.mem = s.mem := by
  rw [buildRst]
  split
  · rfl
  · split
    · rename_i e
      rw [mem_of_snd e, remAccess_mem]
    · rename_i e
      rw [mem_of_snd e, remAccess_mem]

theorem buildRpost_mem (l : Nat) (s : State) (a : Who) (t d : Tok) : (buildRpost l s a t d).2.mem = s.mem := by
  rw [buildRpost]
  split
  · rfl
  · split
    · rename_i e
      rw [mem_of_snd e, remAccess_mem]
    · rename_i e
      rw [mem_of_snd e, remAccess_mem]

theorem buildVst_mem (w : Width) (l : Nat) (s : State) (a : Who) (t d : Tok) :
    (buildVst w l s a t d).2.mem = s.mem := by
  rw [buildVst]
  split
  · rfl
  · split
    · dsimp only
      rename_i e
      rw [mem_of_snd e, ordAccess_mem]
    · dsimp only
      split
      · split
        · dsimp only
          rename_i e _ _ _ _ _ _ _
          rw [mem_of_snd e, ordAccess_mem]
        · dsimp only
          rename_i e _ _ _ _ _ _
          rw [mem_of_snd e, ordAccess_mem]
      · dsimp only
        rename_i e _ _
        rw [mem_of_snd e, ordAccess_mem]

theorem scatterLane_mem (w : Width) (s : State) (a : Who) (t : Word) (v : Nat) :
    (scatterLane w s a t v).2.mem = s.mem := by
  rw [scatterLane]
  split
  · rename_i e
    rw [mem_of_snd e, ordAccess_mem]
  · split
    · split
      · rename_i e _ _ _ _ _ _ _
        rw [mem_of_snd e, ordAccess_mem]
      · rename_i e _ _ _ _ _ _
        rw [mem_of_snd e, ordAccess_mem]
    · rename_i e _ _
      rw [mem_of_snd e, ordAccess_mem]

theorem scatter_mem (w : Width) (a : Who) (s : State) (l : List (Word × Nat)) : (scatter w a s l).2.mem = s.mem := by
  induction l generalizing s with
  | nil => rfl
  | cons x l ih =>
    rw [scatter]
    split
    · rename_i e
      rw [mem_of_snd e, scatterLane_mem]
    · rename_i e
      split
      · rename_i e'
        rw [mem_of_snd e', ih, mem_of_snd e, scatterLane_mem]
      · rename_i e'
        rw [mem_of_snd e', ih, mem_of_snd e, scatterLane_mem]

theorem buildVsts_mem (w : Width) (l : Nat) (s : State) (a : Who) (t x d : Tok) :
    (buildVsts w l s a t x d).2.mem = s.mem := by
  rw [buildVsts]
  split
  · rfl
  · split
    · rename_i e
      rw [mem_of_snd e, scatter_mem]
    · rename_i e
      rw [mem_of_snd e, scatter_mem]

theorem buildOf_mem {i : Instr} {s : State} {a : Who} {l r p : Tok} {q : Built × State}
    (h : buildOf i s a l r p = some q) : q.2.mem = s.mem := by
  unfold buildOf at h
  split at h <;> cases h
  · exact buildSt_mem ..
  · exact buildStf_mem ..
  · exact buildFeempty_mem ..
  · exact buildNotify_mem ..
  · exact buildBinit_mem ..
  · exact buildRst_mem ..
  · exact buildRst_mem ..
  · exact buildRpost_mem ..
  · exact buildVst_mem ..
  · exact buildVsts_mem ..

theorem fireOut_mem (s : State) (i : Instr) (x : Tok) : (s.fireOut i x).mem = s.mem := by
  rw [State.fireOut, mem_fireWith, forward_mem]

theorem atWordOf_mem (s : State) (c k i : Nat) (f : State → State) (hf : ∀ t, (f t).mem = t.mem) :
    (s.atWordOf c k i f).mem = s.mem := by
  rw [State.atWordOf]
  exact hf _

theorem safe_atWordOf {s : State} {c k i : Nat} {f : State → State} (hf : ∀ t, Safe t → Safe (f t)) (hs : Safe s) :
    Safe (s.atWordOf c k i f) := safe_of_mem (t := s.atWordOf c k i f) (s := f _) rfl (hf _ (safe_of_mem rfl hs))

theorem replay_mem (s : State) (waits : List Nat) : (s.replay waits).mem = s.mem := by
  rw [State.replay]
  split
  · rw [updSlot_mem, updCur_mem, releaseResv_mem]
  · rw [updCur_mem, releaseResv_mem]

theorem loadDone_mem (s : State) (i : Instr) (l : Nat) (remote : Bool) (t : Tok) (ls : List Nat) :
    (s.loadDone i l remote t ls).mem = s.mem := by
  rw [State.loadDone]
  split
  · exact replay_mem ..
  · rw [updF_mem, fireOut_mem]

theorem watch_mem (s : State) (ea n l : Nat) (rd wr : Bool) : (s.watch ea n l rd wr).mem = s.mem := by
  rw [State.watch]
  split
  · exact updF_mem ..
  · rfl

theorem safe_loadOp {i : Instr} {l : Nat} {f : State → Who → Tok → Tok → LoadOut × State} {s : State}
    (hf : ∀ a x y, Safe s → Safe (f s a x y).2) (hs : Safe s) : Safe (loadOp i l f s) := by
  have hfire : ∀ t n, Safe (s.fireWith i t n) := fun t n => safe_of_mem (mem_fireWith ..) hs
  unfold loadOp
  split
  · exact hs
  · exact safe_of_mem (mem_skipWord ..) hs
  · exact hfire _ _
  · exact hfire _ _
  · split
    · split
      · exact hfire _ _
      · exact hs
    dsimp only
    split
    · exact hfire _ _
    split
    · exact hs
    split
    · exact hs
    split
    · rename_i e
      exact safe_of_snd e (hf _ _ _ hs)
    · rename_i e
      exact safe_of_mem (parkGuard_mem ..) (safe_of_snd e (hf _ _ _ hs))
    · rename_i e
      have ht := safe_of_snd e (hf _ _ _ hs)
      split
      · exact ht
      · exact safe_of_mem (loadDone_mem ..) ht

theorem watchAll_mem (s : State) (l : Nat) (xs : List (Nat × Nat)) : (s.watchAll l xs).mem = s.mem := by
  rw [State.watchAll]
  split
  · exact watch_mem ..
  · rfl

theorem leave_mem (s : State) (l : Nat) (b : Built) : (s.leave l b).mem = s.mem := by
  unfold State.leave
  dsimp only
  split
  · rw [updF_mem, updF_mem]
  · split
    · rw [updF_mem, updF_mem]
    · exact parkGuard_mem ..
    · split
      · exact replay_mem ..
      · rw [updF_mem]
        split
        · exact watchAll_mem ..
        · rfl
  · rw [updF_mem]
    split
    · rfl
    · exact watch_mem ..
  · exact updF_mem ..

theorem safe_storeOp {i : Instr} {l : Nat} {f : State → Who → Tok → Tok → Tok → Built × State} {s : State}
    (hf : ∀ a x y z, Safe s → Safe (f s a x y z).2) (hs : Safe s) : Safe (storeOp i l f s) := by
  unfold storeOp
  split
  · exact hs
  · exact safe_of_mem (mem_skipWord ..) hs
  · exact safe_of_mem (updF_mem ..) hs
  · exact safe_of_mem (updF_mem ..) hs
  · split
    · rename_i e
      have ht := safe_of_snd e (hf _ _ _ _ hs)
      split
      · exact ht
      · exact safe_of_mem (leave_mem ..) ht
    · rename_i e
      exact safe_of_mem (leave_mem ..) (safe_of_snd e (hf _ _ _ _ hs))

/-! ## Replays and their moulds -/

theorem touchVa_mem (s : State) (root va : Nat) (kind : AKind) : (s.touchVa root va kind).mem = s.mem := by
  rw [State.touchVa]
  exact mem_foldl _ _ _ fun t a => touchRow_mem ..

theorem countOp_mem (s : State) (c k : Nat) : (s.countOp c k).mem = s.mem := rfl

theorem dieRecord_mem (s : State) (d cause lid : Nat) : (s.dieRecord d cause lid).mem = s.mem := rfl

theorem safe_setMouldWord {s : State} {lid off v : Nat} (hs : Safe s) : Safe (s.setMouldWord lid off v) := by
  rw [State.setMouldWord]
  split
  · exact safe_dispWrite hs
  · exact hs

theorem safe_markMould {s : State} {lid bit : Nat} (hs : Safe s) : Safe (s.markMould lid bit) := by
  rw [State.markMould]
  exact safe_setMouldWord hs

theorem safe_putEntry {s : State} {lid off : Nat} {e : MouldEntry} (hs : Safe s) : Safe (s.putEntry lid off e) := by
  rw [State.putEntry]
  exact safe_setMouldWord (safe_setMouldWord (safe_setMouldWord hs))

theorem safe_claimChunk {s : State} {lid key unit : Nat} (hs : Safe s) : Safe (s.claimChunk lid key unit) := by
  rw [State.claimChunk]
  split
  · exact safe_of_mem (dieRecord_mem ..) (safe_of_mem (updLaunch_mem ..) (safe_markMould hs))
  · exact safe_of_mem (updLaunch_mem ..) (safe_putEntry (safe_setMouldWord hs))

theorem safe_record {s : State} {lid key : Nat} {m : MouldEntry} (hs : Safe s) : Safe (s.record lid key m) := by
  rw [State.record]
  split
  · split
    · split
      · exact safe_claimChunk hs
      · split
        · exact safe_of_mem (updLaunch_mem ..) (safe_putEntry (safe_claimChunk hs))
        · exact safe_claimChunk hs
    · split
      · exact hs
      · split
        · exact safe_of_mem (updLaunch_mem ..) (safe_putEntry hs)
        · exact hs
  · split
    · split
      · exact safe_claimChunk hs
      · split
        · exact safe_of_mem (updLaunch_mem ..) (safe_putEntry (safe_claimChunk hs))
        · exact safe_claimChunk hs
    · split
      · exact hs
      · split
        · exact safe_of_mem (updLaunch_mem ..) (safe_putEntry hs)
        · exact hs

theorem met_mem (s : State) (lid key : Nat) : (s.met lid key).mem = s.mem := rfl

theorem safe_tally {s : State} {lid key : Nat} {m : MouldEntry} (hs : Safe s) {t : State}
    (h : (s.tally lid key m) = some t) : Safe t := by
  rw [State.tally] at h
  split at h
  · cases h
    exact hs
  · split at h
    · split at h
      · split at h
        · cases h
          exact safe_of_mem (met_mem ..) hs
        · cases h
      · split at h
        · cases h
          exact hs
        · cases h
    · split at h
      · cases h
      · split at h
        · cases h
          exact safe_record hs
        · cases h
          exact hs

theorem safe_tallyBank {s : State} {lid loc ident : Nat} (hs : Safe s) {t : State}
    (h : (s.tallyBank lid loc ident) = some t) : Safe t := by
  rw [State.tallyBank] at h
  split at h
  · cases h
    exact hs
  · exact safe_tally hs h

theorem safe_tallyAgent {s : State} {lid loc ident : Nat} (hs : Safe s) {t : State}
    (h : (s.tallyAgent lid loc ident) = some t) : Safe t := by
  rw [State.tallyAgent] at h
  split at h
  · exact safe_tally hs h
  · exact safe_tallyBank hs h

theorem countOrd_mem (s : State) (lid key : Nat) : (s.countOrd lid key).mem = s.mem := by
  rw [State.countOrd]
  split
  · rfl
  · exact updLaunch_mem ..

theorem safe_tallyClaim {s : State} {lid c ident : Nat} (hs : Safe s) {t : State}
    (h : (s.tallyClaim lid c ident) = some t) : Safe t := by
  rw [State.tallyClaim] at h
  obtain ⟨k, hk, rfl⟩ := Option.map_eq_some_iff.1 h
  exact safe_of_mem (countOrd_mem ..) (safe_tally hs hk)

theorem safe_tallyAnswer {s : State} {lid c : Nat} {bounced : Bool} {ident : Nat} (hs : Safe s) {t : State}
    (h : (s.tallyAnswer lid c bounced ident) = some t) : Safe t := by
  rw [State.tallyAnswer] at h
  exact safe_tally hs h

end Sys2Proof.Proofs

/-! PROOFS. What the operations of a block keep (12, 14, 15). -/

namespace Sys2Proof.Proofs
open Sys2Proof.Machine Sys2Proof.Laws

/-! ## Operations at the lock -/

theorem forceCompare_mem (s : State) : (s.forceCompare).mem = s.mem := rfl

theorem parkOn_mem (s : State) (kind addr loc : Nat) : (s.parkOn kind addr loc).mem = s.mem := by
  rw [State.parkOn]
  split
  · rw [registerSem_mem, park_mem]
  · rw [register_mem, park_mem]

theorem safe_syncOp {i : Instr} {l : Nat} {force : Bool} {f : State → Who → Tok → Tok → Perf × State} {s : State}
    (hf : ∀ a x y, Safe s → Safe (f s a x y).2) (hs : Safe s) : Safe (syncOp i l force f s) := by
  have hfire : ∀ t n, Safe (s.fireWith i t n) := fun t n => safe_of_mem (mem_fireWith ..) hs
  unfold syncOp
  split
  · exact hs
  · exact safe_of_mem (mem_skipWord ..) hs
  · exact hfire _ _
  · exact hfire _ _
  · split
    · exact hfire _ _
    split
    · split
      · exact hfire _ _
      · exact hs
    split
    · exact hfire _ _
    split
    · exact hs
    split
    · exact safe_of_mem (forceCompare_mem ..) hs
    split
    · rename_i e
      exact safe_of_snd e (hf _ _ _ hs)
    · rename_i e
      exact safe_of_mem (parkOn_mem ..) (safe_of_snd e (hf _ _ _ hs))
    · rename_i e
      exact safe_of_mem (parkGuard_mem ..) (safe_of_snd e (hf _ _ _ hs))
    · rename_i e
      have ht := safe_of_snd e (hf _ _ _ hs)
      split
      · exact ht
      · exact safe_of_mem ((updF_mem ..).trans (fireOut_mem ..)) ht
    · rename_i e
      exact safe_of_mem ((updF_mem ..).trans (fireOut_mem ..)) (safe_of_snd e (hf _ _ _ hs))

theorem resolve_mem (s : State) (l : Nat) (p : Pend) : (s.resolve l p).mem = s.mem := rfl

theorem safe_performOp {i : Instr} {l : Nat} {force : Bool} {nulled : Tok → Bool}
    {chk : State → Who → Tok → Tok → Except FaultD (Option (Nat × Nat)) × State}
    {f : State → Who → Tok → Tok → Tok → Perf × State} {s : State} (hc : ∀ a x y, Safe s → Safe (chk s a x y).2)
    (hf : ∀ a x y z, Safe s → Safe (f s a x y z).2) (hs : Safe s) : Safe (performOp i l force nulled chk f s) := by
  have hfire : ∀ t n p, Safe ((s.fireWith i t n).resolve l p) := fun t n p => safe_of_mem rfl hs
  unfold performOp
  split
  · exact hs
  · exact safe_of_mem (mem_skipWord ..) hs
  · exact hfire _ _ _
  · exact hfire _ _ _
  · split
    · exact hfire _ _ _
    split
    · split
      · exact hfire _ _ _
      · exact hs
    split
    · split
      · rename_i e
        have ht := safe_of_snd e (hc _ _ _ hs)
        split
        · exact ht
        · exact safe_of_mem ((resolve_mem ..).trans (updF_mem ..)) ht
      · rename_i e
        have ht := safe_of_mem (updF_mem _ fun f => { f with checked := true }) (safe_of_snd e (hc _ _ _ hs))
        split
        · exact safe_of_mem (watch_mem ..) ht
        · exact ht
    split
    · exact hs
    split
    · exact safe_of_mem (forceCompare_mem ..) hs
    split
    · rename_i e
      exact safe_of_snd e (hf _ _ _ _ hs)
    · rename_i e
      exact safe_of_mem (parkOn_mem ..) (safe_of_snd e (hf _ _ _ _ hs))
    · rename_i e
      exact safe_of_mem (parkGuard_mem ..) (safe_of_snd e (hf _ _ _ _ hs))
    · rename_i e
      have ht := safe_of_snd e (hf _ _ _ _ hs)
      split
      · exact ht
      · exact safe_of_mem (raiseOut_mem ..) ht
    · rename_i e
      exact safe_of_mem ((resolve_mem ..).trans ((mem_fireWith ..).trans (forward_mem ..))) (safe_of_snd e (hf _
        _ _ _ hs))

theorem safe_watched {n l : Nat} {f : State → Nat → Nat → Perf × State} {s : State} {ea loc : Nat}
    (hf : Safe s → Safe (f s ea loc).2) (hs : Safe s) : Safe (watched n l f s ea loc).2 := by
  unfold watched
  split
  · rename_i e
    exact safe_of_mem (watch_mem ..) (safe_of_snd e (hf hs))
  · exact hf hs

theorem safe_wordPerform {n : Nat} {kind : AKind} {onView : Nat} {rel : Option Scope}
    {f : State → Nat → Nat → Perf × State} {s : State} {a : Who} {t : Tok} (hf : ∀ s x y, Safe s → Safe (f s x y).2)
    (hs : Safe s) : Safe (wordPerform n kind onView rel f s a t).2 := by
  unfold wordPerform
  dsimp only
  split
  · rename_i e
    exact safe_of_snd e (safe_of_mem (ordAccess_mem ..) hs)
  · rename_i u e
    have ht := safe_of_snd e (safe_of_mem (ordAccess_mem ..) hs)
    have hgo : ∀ ea loc, Safe (match f u ea loc with
        | (.done x fl, s') => match s'.tallyBank (tswLid s.cur.ctx.tsw) loc (s.nextIdent s.cc s.ck) with
          | some s' => ((Perf.done x fl, if (vaultOf loc).isNone then s'.countOp s.cc s.ck else s') : Perf × State)
          | none => (.wait, s)
        | r => r).2 := by
      intro ea loc
      split
      · rename_i e'
        have hd := safe_of_snd e' (hf _ _ _ ht)
        split
        · rename_i e₂
          have hb := safe_tallyBank hd e₂
          dsimp only
          split
          · exact safe_of_mem (countOp_mem ..) hb
          · exact hb
        · exact hs
      · exact hf _ _ _ ht
    split
    · exact ht
    · exact ht
    · exact ht
    · cases rel with
      | some x =>
        dsimp only
        split
        · exact hgo _ _
        · exact ht
      | none => exact hgo _ _

theorem wordCheck_mem (n : Nat) (kind : AKind) (onView : Nat) (s : State) (a : Who) (t x : Tok) :
    (wordCheck n kind onView s a t x).2.mem = s.mem := by
  rw [wordCheck]
  split
  · rename_i e
    rw [mem_of_snd e, ordAccess_mem]
  · rename_i e
    rw [mem_of_snd e, ordAccess_mem]

theorem safe_putBytes {s : State} {loc n v : Nat} (hs : Safe s) : Safe (s.putBytes loc n v) := by
  rw [State.putBytes]
  exact safe_of_mem (dropReadBufs_mem ..) (safe_wrMem _ _ _ hs)

theorem safe_doLdfe {s : State} {ea loc : Nat} (hs : Safe s) : Safe (doLdfe s ea loc).2 := by
  rw [doLdfe]
  split
  · exact safe_of_mem (touchRow_mem ..) hs
  · split
    · exact safe_of_mem (touchRow_mem ..) hs
    · refine safe_of_mem (acquireWord_mem ..) ?_
      exact safe_of_mem (wakeWord_mem ..) (safe_setFull _ _ (safe_of_mem (touchRow_mem ..) hs))

theorem doLdff_mem (s : State) (ea loc : Nat) : (doLdff s ea loc).2.mem = s.mem := by
  rw [doLdff]
  split
  · exact touchRow_mem ..
  · split
    · exact touchRow_mem ..
    · rw [acquireWord_mem, touchRow_mem]

theorem doFeprobe_mem (s : State) (ea loc : Nat) : (doFeprobe s ea loc).2.mem = s.mem := by
  rw [doFeprobe]
  split <;> exact touchRow_mem ..

theorem safe_doStef {v : Word} {s : State} {ea loc : Nat} (hs : Safe s) : Safe (doStef v s ea loc).2 := by
  rw [doStef]
  split
  · exact safe_of_mem (touchRow_mem ..) hs
  · split
    · exact safe_of_mem (touchRow_mem ..) hs
    · refine safe_of_mem (releaseWord_mem ..) ?_
      exact safe_storeFull (safe_of_mem (dropReadBufs_mem ..) (safe_of_mem (touchRow_mem ..) hs))

theorem safe_amoAt {s : State} {x : AmoOp} {loc : Nat} {r p : Word} {q : Word × Nat × State} (hs : Safe s)
    (h : s.amoAt x loc r p = some q) : Safe q.2.2 := by
  have hput : ∀ v, Safe (((s.putBytes loc 8 v).wakeLine loc).touchRow loc) :=
    fun v => safe_of_mem ((touchRow_mem ..).trans (wakeLine_mem ..)) (safe_putBytes hs)
  unfold State.amoAt at h
  split at h
  · cases h
  · dsimp only at h
    generalize amoCalc x 64 _ _ _ = c at h
    obtain ⟨v, fl⟩ := c
    cases h
    exact hput v

theorem safe_doAmo {x : AmoOp} {acq rel : Bool} {r p : Word} {s : State} {ea loc : Nat} (hs : Safe s) :
    Safe (doAmo x acq rel r p s ea loc).2 := by
  unfold doAmo
  split
  · exact safe_of_mem (touchRow_mem ..) hs
  · rename_i u e
    have hu : Safe u := safe_amoAt hs e
    have hread : (if acq then u.acquireWord s.cur.tid loc else u.noteRead none s.cur.tid loc).mem = u.mem := by
      split
      · rw [acquireWord_mem]
      · rw [noteRead_mem]
    dsimp only
    split
    · exact safe_of_mem ((releaseWord_mem ..).trans hread) hu
    · exact safe_of_mem hread hu

theorem safe_lineAt {s : State} {x : AmoOp} {w : Width} {loc : Nat} {t : Tok} (hs : Safe s) {u : Tok × State}
    (h : (s.lineAt x w loc t) = some u) : Safe u.2 := by
  rw [State.lineAt] at h
  split at h
  · cases h
  · cases h
    refine safe_of_mem (touchRow_mem ..) ?_
    exact safe_of_mem (wakeLine_mem ..) (safe_of_mem (dropReadBufs_mem ..) (safe_wrMem _ _ _ hs))

theorem safe_doVamo {x : AmoOp} {w : Width} {t : Tok} {s : State} {ea loc : Nat} (hs : Safe s) :
    Safe (doVamo x w t s ea loc).2 := by
  rw [doVamo]
  split
  · exact safe_of_mem (touchRow_mem ..) hs
  · rename_i e
    exact safe_lineAt hs e

theorem doWaita_mem (r : Word) (s : State) (ea loc : Nat) : (doWaita r s ea loc).2.mem = s.mem := by
  rw [doWaita]
  split
  · exact touchRow_mem ..
  · split
    · exact touchRow_mem ..
    · rw [acquireWord_mem, touchRow_mem]

theorem safe_barPerform {rel : Option Scope} {f : State → Nat → Nat → Perf × State} {s : State} {a : Who} {t : Tok}
    (hf : ∀ s x y, Safe s → Safe (f s x y).2) (hs : Safe s) : Safe (barPerform rel f s a t).2 := by
  unfold barPerform
  split
  · rename_i e
    exact safe_of_snd e (safe_of_mem (barAccess_mem ..) hs)
  · rename_i e
    have ht := safe_of_snd e (safe_of_mem (barAccess_mem ..) hs)
    split
    · exact ht
    split
    · exact ht
    split
    · exact ht
    split
    · exact safe_of_mem (touchRow_mem ..) ht
    split
    · split
      · exact hf _ _ _ (safe_of_mem (touchRow_mem ..) ht)
      · exact ht
    · exact hf _ _ _ (safe_of_mem (touchRow_mem ..) ht)

theorem barCheck_mem (s : State) (a : Who) (t x : Tok) : (barCheck s a t x).2.mem = s.mem := by
  rw [barCheck]
  split
  · rename_i e
    rw [mem_of_snd e, barAccess_mem]
  · rename_i e
    rw [mem_of_snd e, barAccess_mem]

theorem safe_doArrive {x : Scope} {s : State} {ea loc : Nat} (hs : Safe s) : Safe (doArrive x s ea loc).2 := by
  rw [doArrive]
  split
  · exact hs
  · exact safe_of_mem (updF_mem ..) (safe_barrierPut (safe_of_mem (releaseObj_mem ..) hs))

theorem safe_doJoin {s : State} {ea loc : Nat} (hs : Safe s) : Safe (doJoin s ea loc).2 := by
  rw [doJoin]
  split
  · exact hs
  · exact safe_barrierPut hs

theorem safe_doLeave {s : State} {ea loc : Nat} (hs : Safe s) : Safe (doLeave s ea loc).2 := by
  rw [doLeave]
  split
  · exact hs
  · exact safe_barrierPut hs

theorem setGw_mem (s : State) (b : Bool) : (s.setGw b).mem = s.mem := rfl

theorem readPhase_mem (s : State) (loc : Nat) : (s.readPhase loc).mem = s.mem := rfl

theorem doBwait_mem (s : State) (ea loc : Nat) : (doBwait s ea loc).2.mem = s.mem := by
  rw [doBwait]
  split
  · rw [acquireObj_mem, setGw_mem, readPhase_mem]
  · rw [setGw_mem, readPhase_mem]

theorem doBtest_mem (s : State) (n loc : Nat) : (doBtest s n loc).2.mem = s.mem := by
  rw [doBtest]
  split
  · rw [acquireObj_mem, readPhase_mem]
  · exact readPhase_mem ..

/-! ## Loads of plain words and lanes -/

theorem notePort_mem (s : State) (acc : Machine.Acc) (ls : List Nat) : (s.notePort acc ls).mem = s.mem := by
  rw [State.notePort]
  split
  · rfl
  · rw [touchRow_mem]
    exact mem_foldl _ _ _ fun t a => noteRead_mem ..

theorem loaded_mem (s : State) (acc : Acc) (lanes l : Nat) (o : LoadOut) : (s.loaded acc lanes l o).mem = s.mem := by
  unfold State.loaded
  split
  · rw [watch_mem, notePort_mem]
  · rw [watch_mem, notePort_mem]
  · exact notePort_mem ..
  · rfl

theorem scalarLoad_mem (w : Width) (signed : Bool) (l imm : Nat) (s : State) (a : Who) (t x : Tok) :
    (scalarLoad w signed l imm s a t x).2.mem = s.mem := by
  rw [scalarLoad]
  split
  · rename_i e
    rw [mem_of_snd e, ordAccess_mem]
  · rw [loaded_mem]
    rename_i e
    rw [mem_of_snd e, ordAccess_mem]

theorem doLdAcq_mem (l i : Nat) (s : State) (a : Who) (t r : Tok) : (doLdAcq l i s a t r).2.mem = s.mem := by
  rw [doLdAcq]
  split
  · rename_i e
    rw [mem_of_snd e, scalarLoad_mem]
  · rename_i e
    rw [mem_of_snd e, scalarLoad_mem]
  · rename_i e
    rw [mem_of_snd e, scalarLoad_mem]
  · rw [acquireWord_mem]
    rename_i e
    rw [mem_of_snd e, scalarLoad_mem]

theorem safe_wordSync {l : Nat} {kind : AKind} {f : State → Nat → Nat → Perf × State} {s : State} {a : Who} {t : Tok}
    (hf : ∀ s x y, Safe s → Safe (f s x y).2) (hs : Safe s) : Safe (wordSync l kind f s a t).2 := by
  unfold wordSync
  split
  · exact safe_wordPerform (fun _ _ _ => safe_watched (hf _ _ _)) hs
  · exact hs

theorem next_execLdfe {p : Pr} {l t : Nat} {s : State} (hs : Safe s) : NextSafe (execLdfe p l t s) := by
  rw [execLdfe]
  refine nextSafe_next ?_
  refine safe_performOp (fun a x y h => ?_) (fun a x y z h => ?_) ?_
  · exact safe_of_mem (wordCheck_mem ..) hs
  · exact safe_wordPerform (fun t x y h => safe_doLdfe h) hs
  · exact hs

theorem next_execLdff {p : Pr} {l t : Nat} {s : State} (hs : Safe s) : NextSafe (execLdff p l t s) := by
  rw [execLdff]
  refine nextSafe_next ?_
  refine safe_syncOp (fun a x y h => ?_) ?_
  · exact safe_wordSync (fun t x y h => safe_of_mem (doLdff_mem ..) h) hs
  · exact hs

theorem next_execFeprobe {p : Pr} {l t : Nat} {s : State} (hs : Safe s) : NextSafe (execFeprobe p l t s) := by
  rw [execFeprobe]
  refine nextSafe_next ?_
  refine safe_syncOp (fun a x y h => ?_) ?_
  · exact safe_wordSync (fun t x y h => safe_of_mem (doFeprobe_mem ..) h) hs
  · exact hs

theorem next_execStef {p : Pr} {l : Nat} {s : State} (hs : Safe s) : NextSafe (execStef p l s) := by
  rw [execStef]
  refine nextSafe_next ?_
  refine safe_performOp (fun a x y h => ?_) (fun a x y z h => ?_) ?_
  · exact safe_of_mem (wordCheck_mem ..) hs
  · exact safe_wordPerform (fun t x y h => safe_doStef h) hs
  · exact hs

theorem next_execAmo {p : Pr} {l : Nat} {x : AmoOp} {acq rel : Bool} {t : Nat} {s : State} (hs : Safe s) :
    NextSafe (execAmo p l x acq rel t s) := by
  rw [execAmo]
  refine nextSafe_next ?_
  refine safe_performOp (fun a x y h => ?_) (fun a x y z h => ?_) ?_
  · exact safe_of_mem (wordCheck_mem ..) hs
  · exact safe_wordPerform (fun t x y h => safe_doAmo h) hs
  · exact hs

theorem next_execVamo {p : Pr} {l : Nat} {w : Width} {x : AmoOp} {t : Nat} {s : State} (hs : Safe s) :
    NextSafe (execVamo p l w x t s) := by
  rw [execVamo]
  refine nextSafe_next ?_
  refine safe_performOp (fun a x y h => ?_) (fun a x y z h => ?_) ?_
  · exact safe_of_mem (wordCheck_mem ..) hs
  · exact safe_wordPerform (fun t x y h => safe_doVamo h) hs
  · exact hs

theorem vectorLoad_mem (w : Width) (l : Nat) (s : State) (a : Who) (t x : Tok) :
    (vectorLoad w l s a t x).2.mem = s.mem := by
  rw [vectorLoad]
  split
  · rename_i e
    rw [mem_of_snd e, ordAccess_mem]
  · rw [loaded_mem]
    rename_i e
    rw [mem_of_snd e, ordAccess_mem]

theorem gatherLane_mem (w : Width) (l : Nat) (a : Who) (s : State) (t : Word) :
    (gatherLane w l a s t).2.mem = s.mem := by
  rw [gatherLane]
  split
  · rename_i e
    rw [mem_of_snd e, ordAccess_mem]
  · rw [loaded_mem]
    rename_i e
    rw [mem_of_snd e, ordAccess_mem]

theorem gatherBad_mem (w : Width) (a : Who) (s : State) (l : List (Option Word)) :
    (gatherBad w a s l).2.mem = s.mem := by
  induction l generalizing s with
  | nil => rfl
  | cons x l ih =>
    cases x with
    | none => rw [gatherBad, ih]
    | some t =>
      rw [gatherBad]
      split
      · rename_i e
        rw [mem_of_snd e, ordAccess_mem]
      · rename_i e
        split
        · rw [mem_of_snd e, ordAccess_mem]
        · rw [ih, mem_of_snd e, ordAccess_mem]

theorem gatherLanes_mem (w : Width) (l : Nat) (a : Who) (s : State) (ts : List (Option Word)) :
    (gatherLanes w l a s ts).2.mem = s.mem := by
  induction ts generalizing s with
  | nil => rfl
  | cons x ts ih =>
    cases x with
    | none =>
      rw [gatherLanes]
      split
      · rename_i e
        rw [mem_of_snd e, ih]
      · rw [ih]
    | some t =>
      rw [gatherLanes]
      split
      · rename_i e
        split
        · rename_i e'
          rw [mem_of_snd e', ih, mem_of_snd e, gatherLane_mem]
        · rw [ih, mem_of_snd e, gatherLane_mem]
      · rename_i e
        rw [mem_of_snd e, gatherLane_mem]

theorem gatherTok_mem (w : Width) (l : Nat) (s : State) (a : Who) (ts : List (Option Word)) (pad : List (Option Nat))
    : (gatherTok w l s a ts pad).2.mem = s.mem := by
  rw [gatherTok]
  split
  · rename_i e
    rw [mem_of_snd e, gatherBad_mem]
  · split
    · rename_i e
      rw [mem_of_snd e, gatherLanes_mem]
      rename_i e' _ _ _
      rw [mem_of_snd e', gatherBad_mem]
    · rename_i e
      rw [mem_of_snd e, gatherLanes_mem]
      rename_i e' _ _ _ _
      rw [mem_of_snd e', gatherBad_mem]

theorem vectorGather_mem (w : Width) (l : Nat) (s : State) (a : Who) (t r : Tok) :
    (vectorGather w l s a t r).2.mem = s.mem := by
  rw [vectorGather]
  split
  · rfl
  · exact gatherTok_mem ..

theorem vectorColumn_mem (w : Width) (l : Nat) (s : State) (a : Who) (t r : Tok) :
    (vectorColumn w l s a t r).2.mem = s.mem := by
  rw [vectorColumn]
  split
  · rfl
  · exact gatherTok_mem ..

/-! ## Words, barriers and semaphores -/

theorem next_execArrive {p : Pr} {l : Nat} {c : Scope} {t : Nat} {s : State} (hs : Safe s) :
    NextSafe (execArrive p l c t s) := by
  rw [execArrive]
  refine nextSafe_next ?_
  refine safe_performOp (fun a x y h => ?_) (fun a x y z h => ?_) ?_
  · exact safe_of_mem (barCheck_mem ..) hs
  · exact safe_barPerform (fun t x y h => safe_doArrive h) hs
  · exact hs

theorem safe_barSync {l : Nat} {f : State → Nat → Nat → Perf × State} {s : State} {a : Who} {t : Tok}
    (hf : ∀ s x y, Safe s → Safe (f s x y).2) (hs : Safe s) : Safe (barSync l f s a t).2 := by
  unfold barSync
  split
  · exact safe_barPerform (fun _ _ _ => safe_watched (hf _ _ _)) hs
  · exact hs

theorem next_execBwait {p : Pr} {l t : Nat} {s : State} (hs : Safe s) : NextSafe (execBwait p l t s) := by
  rw [execBwait]
  refine nextSafe_next ?_
  refine safe_syncOp (fun a x y h => ?_) ?_
  · exact safe_barSync (fun t x y h => safe_of_mem (doBwait_mem ..) h) hs
  · exact hs

theorem next_execBtest {p : Pr} {l t : Nat} {s : State} (hs : Safe s) : NextSafe (execBtest p l t s) := by
  rw [execBtest]
  refine nextSafe_next ?_
  refine safe_syncOp (fun a x y h => ?_) ?_
  · exact safe_barSync (fun t x y h => safe_of_mem (doBtest_mem ..) h) hs
  · exact hs

theorem next_execJoin {p : Pr} {l t : Nat} {s : State} (hs : Safe s) : NextSafe (execJoin p l t s) := by
  rw [execJoin]
  refine nextSafe_next ?_
  refine safe_performOp (fun a x y h => ?_) (fun a x y z h => ?_) ?_
  · exact safe_of_mem (barCheck_mem ..) hs
  · exact safe_barPerform (fun t x y h => safe_doJoin h) hs
  · exact hs

theorem next_execLeave {p : Pr} {l t : Nat} {s : State} (hs : Safe s) : NextSafe (execLeave p l t s) := by
  rw [execLeave]
  refine nextSafe_next ?_
  refine safe_performOp (fun a x y h => ?_) (fun a x y z h => ?_) ?_
  · exact safe_of_mem (barCheck_mem ..) hs
  · exact safe_barPerform (fun t x y h => safe_doLeave h) hs
  · exact hs

theorem safe_waitaAt {l : Nat} {r : Word} {s : State} {a : Who} {t : Tok} (hs : Safe s) :
    Safe (waitaAt l r s a t).2 := by
  rw [waitaAt]
  split
  · rename_i e
    exact safe_of_mem ((mem_of_snd e).trans (ordAccess_mem ..)) hs
  · split
    · rename_i e _ _
      exact safe_of_mem ((mem_of_snd e).trans (ordAccess_mem ..)) hs
    · rename_i e _ _ _
      exact safe_of_mem ((mem_of_snd e).trans (ordAccess_mem ..)) hs
    · rename_i e _ _
      exact safe_of_mem ((mem_of_snd e).trans (ordAccess_mem ..)) hs
    · refine safe_watched (fun h => ?_) ?_
      · exact safe_of_mem (doWaita_mem ..) h
      · rename_i e _ _
        exact safe_of_mem ((mem_of_snd e).trans (ordAccess_mem ..)) hs

theorem next_execWaita {p : Pr} {l t : Nat} {s : State} (hs : Safe s) : NextSafe (execWaita p l t s) := by
  rw [execWaita]
  refine nextSafe_next ?_
  refine safe_syncOp (fun a x y h => ?_) ?_
  · split
    · exact safe_waitaAt hs
    · exact hs
  · exact hs

theorem safe_fenceOp {i : Instr} {l kind : Nat} {c : Scope} {s : State} (hs : Safe s) :
    Safe (fenceOp i l kind c s) := by
  rw [fenceOp]
  exact safe_storeOp (fun a x y z h => hs) hs

theorem setSem_mem (s : State) (c n v : Nat) : (s.setSem c n v).mem = s.mem := rfl

theorem headTakes_mem (s : State) (c n : Nat) (ke : Nat × Nat) : (s.headTakes c n ke).mem = s.mem := by
  rw [State.headTakes]
  split
  · split
    · rw [updCore_mem, setSem_mem]
    · rfl
  · rfl

theorem wakeSem_mem (s : State) (c n : Nat) : (s.wakeSem c n).mem = s.mem := by
  rw [State.wakeSem, sendWakes_mem, updCore_mem]
  exact mem_foldl _ _ _ fun t a => headTakes_mem ..

theorem doSemwait_mem (n : Nat) (s : State) (a : Who) (sem : Nat) : (doSemwait n s a sem).2.mem = s.mem := by
  rw [doSemwait]
  split
  · rfl
  · split
    · rw [acquireSem_mem, setSem_mem]
    · rfl

theorem doSemsig_mem (n : Nat) (s : State) (sem : Nat) : (doSemsig n s sem).2.mem = s.mem := by
  rw [doSemsig]
  split
  · rfl
  · split
    · rfl
    · rw [wakeSem_mem, releaseSem_mem, setSem_mem]

theorem next_execSemsig {p : Pr} {l t : Nat} {s : State} (hs : Safe s) : NextSafe (execSemsig p l t s) := by
  rw [execSemsig]
  refine nextSafe_next ?_
  exact safe_performOp (fun a x y h => hs) (fun a x y z h => safe_of_mem (doSemsig_mem ..) hs) hs

theorem next_execSemset {p : Pr} {l : Nat} {s : State} (hs : Safe s) : NextSafe (execSemset p l s) := by
  rw [execSemset]
  refine nextSafe_next ?_
  refine safe_storeOp (fun a x y z h => ?_) ?_
  · split <;> exact hs
  · exact hs

theorem safe_queryOp {i : Instr} {f : State → Option (Word × State)} {s : State}
    (hf : ∀ {x}, Safe s → f s = some x → Safe x.2) (hs : Safe s) : Safe (queryOp i f s) := by
  have hfire : ∀ t n, Safe (s.fireWith i t n) := fun t n => safe_of_mem (mem_fireWith ..) hs
  unfold queryOp
  split
  · exact hs
  · exact safe_of_mem (mem_skipWord ..) hs
  · exact hfire _ _
  · exact hfire _ _
  split
  · split
    · exact hfire _ _
    · exact hs
  split
  · rename_i e
    exact safe_of_mem (fireOut_mem ..) (hf hs e)
  · exact hs

theorem next_execTid {p : Pr} {s1 t : Nat} {s : State} (hs : Safe s) : NextSafe (execTid p s1 t s) := by
  rw [execTid]
  refine nextSafe_next ?_
  refine safe_queryOp (fun h e => ?_) ?_
  · cases e
    exact hs
  · exact hs

theorem next_execWhereQ {p : Pr} {s1 t : Nat} {s : State} (hs : Safe s) : NextSafe (execWhereQ p s1 t s) := by
  rw [execWhereQ]
  refine nextSafe_next ?_
  refine safe_queryOp (fun h e => ?_) ?_
  · cases e
    exact hs
  · exact hs

theorem safe_timeFor {s : State} {q : Word × State} (hs : Safe s) (h : s.timeFor = some q) : Safe q.2 := by
  have hc : Safe (s.countOp s.cc s.ck) := safe_of_mem (countOp_mem ..) hs
  rw [State.timeFor] at h
  split at h
  · split at h
    · split at h
      · cases h
        exact safe_of_mem (met_mem ..) hc
      · cases h
    · split at h
      · cases h
        exact hc
      · cases h
  · obtain ⟨u, hu, rfl⟩ := Option.map_eq_some_iff.1 h
    exact safe_tally hc hu

/-! ## Exits -/

theorem fireExit_mem (s : State) (x : ExitFired) : (s.fireExit x).mem = s.mem := by
  rw [State.fireExit]
  split
  · exact updF_mem ..
  · rw [raise_mem, updF_mem]

theorem safe_exitOp {i : Instr} {g : State → Word → Except FaultD ExitFired × State} {s : State}
    (hg : ∀ x, Safe s → Safe (g s x).2) (hs : Safe s) : Safe (exitOp i g s) := by
  unfold exitOp
  split
  · exact hs
  · exact safe_of_mem (mem_skipWord ..) hs
  · exact safe_of_mem (mem_skipWord ..) hs
  · exact safe_of_mem (updF_mem ..) hs
  · split
    · exact safe_of_mem (mem_skipWord ..) hs
    split
    · rename_i e
      exact safe_of_mem (fireExit_mem ..) (safe_of_snd e (hg _ hs))
    · rename_i e
      have ht := safe_of_snd e (hg _ hs)
      split
      · exact ht
      · exact safe_of_mem (updF_mem ..) ht

theorem safe_plainExit {i : Instr} {e : ExitFired} {s : State} (hs : Safe s) : Safe (plainExit i e s) := by
  rw [plainExit]
  exact safe_exitOp (fun x h => hs) hs

theorem migrateOwner_mem (s : State) (t : Word) : (migrateOwner s t).2.mem = s.mem := by
  rw [migrateOwner]
  split
  · rfl
  · dsimp only
    split
    · split <;> rfl
    · split <;> rfl
    · split <;> rfl
    · rfl
    · split
      · rfl
      · split <;> rfl
    · split
      · dsimp only
        rename_i e
        rw [mem_of_snd e, translate_mem]
      · dsimp only
        rename_i e
        rw [mem_of_snd e, translate_mem]
      · split
        · dsimp only
          rename_i e _
          rw [mem_of_snd e, translate_mem]
        · split
          · dsimp only
            rename_i e _ _
            rw [mem_of_snd e, translate_mem]
          · dsimp only
            rename_i e _ _
            rw [mem_of_snd e, translate_mem]

theorem next_execMigrate {p : Pr} {e f : Nat} {s : State} (hs : Safe s) : NextSafe (execMigrate p e f s) := by
  rw [execMigrate]
  refine nextSafe_next ?_
  refine safe_exitOp (fun x h => ?_) ?_
  · split
    · rename_i e'
      exact safe_of_mem ((mem_of_snd e').trans (migrateOwner_mem ..)) hs
    · rename_i e'
      exact safe_of_mem ((mem_of_snd e').trans (migrateOwner_mem ..)) hs
  · exact hs

end Sys2Proof.Proofs

/-! PROOFS. What threads, power, turnovers and fetches keep (04, 06, 07). -/

namespace Sys2Proof.Proofs
open Sys2Proof.Machine Sys2Proof.Laws

/-! ## Slots, messages and wakes -/

theorem safe_entryFull {s : State} {lid e : Nat} {b : Bool} (hs : Safe s) : Safe (s.entryFull lid e b) := by
  rw [State.entryFull]
  split
  · exact safe_setFull _ _ hs
  · exact hs

theorem safe_allocEntry {s : State} {lid : Nat} (hs : Safe s) {t : Nat × State} (h : (s.allocEntry lid) = some t) :
    Safe t.2 := by
  rw [State.allocEntry] at h
  split at h
  · cases h
  · cases h
    exact safe_entryFull (safe_of_mem (updLaunch_mem ..) hs)

theorem safe_freeEntry {s : State} {lid e : Nat} (hs : Safe s) : Safe (s.freeEntry lid e) := by
  rw [State.freeEntry]
  exact safe_entryFull (safe_of_mem (updLaunch_mem ..) hs)

theorem updQueue_mem (s : State) (d q : Nat) (f : QueueSt → QueueSt) : (s.updQueue d q f).mem = s.mem := rfl

theorem noteAges_mem (s : State) (d : Nat) : (s.noteAges d).mem = s.mem := by
  rw [State.noteAges, updDie_mem]
  exact mem_foldl _ _ _ fun t a => updQueue_mem ..

theorem noteAllAges_mem (s : State) : (s.noteAllAges).mem = s.mem := by
  rw [State.noteAllAges]
  exact mem_foldl _ _ _ fun t a => noteAges_mem ..

theorem forcedEnd_mem (s : State) (lid status : Nat) : (s.forcedEnd lid status).mem = s.mem := by
  rw [State.forcedEnd]
  split
  · rw [noteAllAges_mem, updLaunch_mem]
  · rfl

theorem reserveEnd_mem (s : State) (lid : Nat) : (s.reserveEnd lid).mem = s.mem := by
  rw [State.reserveEnd]
  split
  · rw [forcedEnd_mem, dieRecord_mem, updLaunch_mem]
  · rfl

theorem safe_writeBack {s : State} {x : Stored} (hs : Safe s) : Safe (s.writeBack x) := by
  rw [State.writeBack]
  split
  · exact safe_writeFrame hs
  · exact hs

theorem safe_keep {s : State} {c : Nat} {x : Stored} (hs : Safe s) {t : State} (h : (s.keep c x) = some t) :
    Safe t := by
  rw [State.keep] at h
  split at h
  · cases h
    exact safe_of_mem (updCore_mem ..) hs
  · split at h
    · cases h
      exact safe_of_mem (updCore_mem ..) (safe_writeBack hs)
    · split at h
      · cases h
        exact safe_writeBack hs
      · cases h

theorem safe_takeContext {s : State} {c lid : Nat} {entry : Option Nat} {key : Nat} (hs : Safe s) :
    Safe (s.takeContext c lid entry key).2 := by
  unfold State.takeContext
  split
  · refine safe_freeEntry ?_
    refine safe_of_mem (updCore_mem ..) ?_
    split
    · exact safe_of_mem (touchFrame_mem ..) hs
    · exact hs
  · refine safe_of_mem (updCore_mem ..) ?_
    split
    · exact safe_of_mem (touchFrame_mem ..) hs
    · exact hs

theorem safe_editStored {s : State} {c lid : Nat} {entry : Option Nat} {key : Nat} {f : Ctx → Ctx} (hs : Safe s) :
    Safe (s.editStored c lid entry key f) := by
  rw [State.editStored]
  split
  · dsimp only
    exact safe_of_mem (updCore_mem ..) hs
  · split
    · dsimp only
      split
      · split
        · exact hs
        · exact safe_dispWrite hs
      · split
        · exact safe_dispWrite hs
        · exact safe_dispWrite (safe_dispWrite hs)
    · exact hs

theorem safe_setNext {s : State} {c : Nat} {r : RunRef} {n : Nat} (hs : Safe s) : Safe (s.setNext c r n) := by
  rw [State.setNext]
  split
  · exact safe_of_mem (updCore_mem ..) hs
  · split
    · split
      · exact hs
      · exact safe_dispWrite hs
    · exact hs

theorem safe_relink {s : State} {c : Nat} (hs : Safe s) : Safe (s.relink c) := by
  rw [State.relink]
  exact safe_foldl (fun t a h => safe_setNext h) hs

theorem loadFrame_mem (s : State) (c k : Nat) (f : CtxFrame) (migr : Nat) (stepping : Bool) :
    (s.loadFrame c k f migr stepping).mem = s.mem := by
  rw [State.loadFrame]
  split
  · rw [updSlot_mem, updSlot_mem, loadSlot_mem]
  · rw [observeAll_mem, newThread_mem, updSlot_mem, loadSlot_mem]

theorem startMsg_mem (s : State) (c k k' : Nat) (m : Msg) : (s.startMsg c k k' m).mem = s.mem := by
  rw [State.startMsg, acquireMsg_mem, loadThread_mem]

theorem dropResvAt_mem (s : State) (c h : Nat) : (s.dropResvAt c h).mem = s.mem := by
  rw [State.dropResvAt]
  split
  · rw [updSlot_mem, updCore_mem]
  · exact updCore_mem ..

theorem dropResv_mem (s : State) (c h : Nat) (twin : Bool) : (s.dropResv c h twin).mem = s.mem := by
  rw [State.dropResv]
  split
  · rw [dropResvAt_mem, dropResvAt_mem]
  · exact dropResvAt_mem ..

theorem startQueued_mem (s : State) (c k k' : Nat) (m : Msg) : (s.startQueued c k k' m).mem = s.mem := by
  rw [State.startQueued, startMsg_mem]
  split
  · rw [dropResv_mem, updCore_mem]
  · exact updCore_mem ..

theorem cutRecord_mem (s : State) (c k lid : Nat) (entry : Option Nat) (mine : Bool) :
    (s.cutRecord c k lid entry mine).mem = s.mem := by
  rw [State.cutRecord]
  split
  · rw [updSlot_mem, updLaunch_mem]
  · rfl

theorem safe_restore {s : State} {c k k' : Nat} {r : RunRef} (hs : Safe s) : Safe (s.restore c k k' r) := by
  rw [State.restore]
  split
  · dsimp only
    split
    · refine safe_of_mem (pairUp_mem ..) ?_
      refine safe_of_mem (cutRecord_mem ..) ?_
      refine safe_of_mem (loadFrame_mem ..) ?_
      refine safe_takeContext ?_
      refine safe_of_mem (cutRecord_mem ..) ?_
      refine safe_of_mem (loadFrame_mem ..) ?_
      rename_i e _ _ _
      exact safe_of_snd e (safe_takeContext (safe_of_mem (updCore_mem ..) hs))
    · refine safe_of_mem (cutRecord_mem ..) ?_
      refine safe_of_mem (loadFrame_mem ..) ?_
      rename_i e _ _
      exact safe_of_snd e (safe_takeContext (safe_of_mem (updCore_mem ..) hs))

theorem safe_serveOnce {s : State} {c : Nat} (hs : Safe s) {t : State} (h : (s.serveOnce c) = some t) : Safe t := by
  rw [State.serveOnce] at h
  split at h
  · split at h
    · dsimp only at h
      split at h
      · cases h
      · obtain ⟨k, hk, rfl⟩ := Option.map_eq_some_iff.1 h
        exact safe_restore hs
    · dsimp only at h
      obtain ⟨k, hk, rfl⟩ := Option.map_eq_some_iff.1 h
      exact safe_of_mem (startQueued_mem ..) hs
  · dsimp only at h
    split at h
    · cases h
    · obtain ⟨k, hk, rfl⟩ := Option.map_eq_some_iff.1 h
      exact safe_restore hs
  · dsimp only at h
    obtain ⟨k, hk, rfl⟩ := Option.map_eq_some_iff.1 h
    exact safe_of_mem (startQueued_mem ..) hs
  · cases h

theorem safe_serveMany {n c : Nat} {s : State} (hs : Safe s) : Safe (State.serveMany n c s) := by
  induction n generalizing s with
  | zero => exact hs
  | succ n ih =>
    rw [State.serveMany]
    split
    · rename_i e
      exact ih (safe_serveOnce hs e)
    · exact hs

theorem askSpill_mem (s : State) (c k : Nat) : (s.askSpill c k).mem = s.mem := by
  rw [State.askSpill]
  split <;> exact updSlot_mem ..

theorem wantSlot_mem (s : State) (c : Nat) : (s.wantSlot c).mem = s.mem := by
  rw [State.wantSlot]
  split
  · rfl
  · dsimp only
    split
    · split
      · split
        · rw [askSpill_mem]
          split
          · split
            · exact askSpill_mem ..
            · rfl
          · rfl
        · split
          · split
            · exact askSpill_mem ..
            · rfl
          · rfl
      · split
        · split
          · exact askSpill_mem ..
          · rfl
        · rfl
    · split
      · split
        · exact askSpill_mem ..
        · rfl
      · rfl

theorem safe_serveCore {s : State} {c : Nat} (hs : Safe s) : Safe (s.serveCore c) := by
  rw [State.serveCore]
  split
  · split
    · exact hs
    · exact safe_of_mem (askExit_mem ..) hs
  · exact safe_of_mem (wantSlot_mem ..) (safe_serveMany hs)

theorem safe_servePair {s : State} {c : Nat} (hs : Safe s) : Safe (s.servePair c) := by
  rw [State.servePair]
  split
  · exact safe_serveCore hs
  · exact safe_serveCore (safe_serveCore hs)

theorem safe_freeSlot {s : State} {c k : Nat} (hs : Safe s) : Safe (s.freeSlot c k) := by
  rw [State.freeSlot]
  exact safe_servePair (safe_of_mem (noteQuiet_mem ..) (safe_of_mem (updSlot_mem ..) hs))

theorem sliceOver_mem (s : State) (c lid : Nat) (slice : Option Nat) (retired : Bool) :
    (s.sliceOver c lid slice retired).mem = s.mem := by
  unfold State.sliceOver
  split
  · rfl
  · split
    · rfl
    · split
      · exact endSlice_mem ..
      · exact send_mem ..

theorem safe_endThread {s : State} {c k : Nat} {retired : Bool} (hs : Safe s) : Safe (s.endThread c k retired) := by
  rw [State.endThread]
  refine safe_freeSlot ?_
  split
  · refine safe_freeSlot ?_
    refine safe_of_mem (dropWaiters_mem ..) ?_
    refine safe_of_mem (abandon_mem ..) ?_
    refine safe_of_mem (sliceOver_mem ..) ?_
    exact safe_of_mem (dropWaiters_mem ..) (safe_of_mem (abandon_mem ..) hs)
  · refine safe_of_mem (sliceOver_mem ..) ?_
    exact safe_of_mem (dropWaiters_mem ..) (safe_of_mem (abandon_mem ..) hs)

theorem freezeWith_mem (s : State) (c k : Nat) (cause pc : Nat) : (s.freezeWith c k cause pc).mem = s.mem := by
  rw [State.freezeWith, freezeFor_mem]

theorem forceAt_mem (s : State) (c k : Nat) : (s.forceAt c k).mem = s.mem := by
  rw [State.forceAt]
  exact both_mem ..

theorem doFreeze_mem (s : State) (c k : Nat) : (s.doFreeze c k).mem = s.mem := by
  rw [State.doFreeze]
  split
  · rw [forceAt_mem, updSlot_mem]
  · exact freezeWith_mem ..

theorem doPark8_mem (s : State) (c k : Nat) : (s.doPark8 c k).mem = s.mem := by
  rw [State.doPark8]
  split
  · rw [forceAt_mem, updSlot_mem]
  · rw [both_mem, park_mem, dropWaiters_mem]

theorem safe_doKill {s : State} {c k : Nat} (hs : Safe s) : Safe (s.doKill c k) := by
  rw [State.doKill]
  split
  · exact safe_of_mem (forceAt_mem ..) (safe_of_mem (updSlot_mem ..) hs)
  · exact safe_endThread hs

theorem spillOut_mem (s : State) (c k e : Nat) (mate : Option Nat) : (s.spillOut c k e mate).mem = s.mem := by
  unfold State.spillOut
  dsimp only
  split
  · rw [updSlot_mem, updSlot_mem, moveWaiters_mem, abandon_mem]
  · rw [updSlot_mem, moveWaiters_mem, abandon_mem]

theorem safe_htPark {s : State} {c k : Nat} (hs : Safe s) : Safe (s.htPark c k) := by
  rw [State.htPark]
  split
  · exact safe_of_mem (forceAt_mem ..) (safe_of_mem (updSlot_mem ..) hs)
  · dsimp only
    split
    · refine safe_of_mem (nextSerial_mem ..) ?_
      exact safe_of_mem (both_mem ..) (safe_of_mem (abandon_mem ..) hs)
    · split
      · split
        · refine safe_of_mem (spillOut_mem ..) ?_
          rename_i e
          refine safe_allocEntry ?_ e
          rename_i e' _ _ _ _
          refine safe_allocEntry ?_ e'
          refine safe_of_mem (nextSerial_mem ..) ?_
          exact safe_of_mem (both_mem ..) (safe_of_mem (abandon_mem ..) hs)
        · refine safe_of_mem (nextSerial_mem ..) ?_
          exact safe_of_mem (both_mem ..) (safe_of_mem (abandon_mem ..) hs)
      · refine safe_of_mem (spillOut_mem ..) ?_
        rename_i e _
        refine safe_allocEntry ?_ e
        refine safe_of_mem (nextSerial_mem ..) ?_
        exact safe_of_mem (both_mem ..) (safe_of_mem (abandon_mem ..) hs)

theorem safe_yieldSpill {s : State} {c k : Nat} (hs : Safe s) {t : State} (h : (s.yieldSpill c k) = some t) :
    Safe t := by
  rw [State.yieldSpill] at h
  split at h
  · cases h
  · split at h
    · cases h
    · split at h
      · obtain ⟨k', hk', rfl⟩ := Option.map_eq_some_iff.1 h
        refine safe_of_mem (spillOut_mem ..) ?_
        refine safe_allocEntry ?_ hk'
        rename_i e _
        exact safe_allocEntry hs e
      · cases h
        refine safe_of_mem (spillOut_mem ..) ?_
        rename_i e _
        exact safe_allocEntry hs e

theorem safe_htDue {s : State} {c k : Nat} (hs : Safe s) : Safe (s.htDue c k) := by
  rw [State.htDue]
  split
  · exact safe_htPark (safe_of_mem (updSlot_mem ..) hs)
  · exact safe_of_mem (updSlot_mem ..) hs

theorem safe_applyStop {s : State} {c k : Nat} (hs : Safe s) : Safe (s.applyStop c k) := by
  rw [State.applyStop]
  split
  · refine safe_htDue ?_
    split
    · exact safe_endThread hs
    · refine safe_getD (fun e => ?_) ?_
      · exact safe_yieldSpill (safe_of_mem (updSlot_mem ..) hs) e
      · exact safe_of_mem (updSlot_mem ..) hs
    · split
      · exact safe_of_mem (updSlot_mem ..) hs
      · exact safe_of_mem (doPark8_mem ..) hs
    · exact safe_doKill hs
    · exact safe_of_mem (doFreeze_mem ..) hs
    · exact hs
  · split
    · exact safe_endThread hs
    · refine safe_getD (fun e => ?_) ?_
      · exact safe_yieldSpill (safe_of_mem (updSlot_mem ..) hs) e
      · exact safe_of_mem (updSlot_mem ..) hs
    · split
      · exact safe_of_mem (updSlot_mem ..) hs
      · exact safe_of_mem (doPark8_mem ..) hs
    · exact safe_doKill hs
    · exact safe_of_mem (doFreeze_mem ..) hs
    · exact hs

theorem cmdResume_mem {s : State} {c k : Nat} {t : State} (h : (s.cmdResume c k) = some t) : t.mem = s.mem := by
  rw [State.cmdResume] at h
  split at h
  · split at h
    · cases h
      exact resumeSlot_mem ..
    · cases h

theorem safe_cmdRetire {s : State} {c k : Nat} (hs : Safe s) {t : State} (h : (s.cmdRetire c k) = some t) :
    Safe t := by
  rw [State.cmdRetire] at h
  split at h
  · dsimp only at h
    split at h
    · cases h
      exact safe_endThread hs
    · cases h

theorem safe_cmdKill {s : State} {c k : Nat} (hs : Safe s) {t : State} (h : (s.cmdKill c k) = some t) : Safe t := by
  rw [State.cmdKill] at h
  split at h
  · dsimp only at h
    split at h
    · cases h
    · cases h
      exact safe_doKill hs

theorem cmdFreeze_mem {s : State} {c k : Nat} {t : State} (h : (s.cmdFreeze c k) = some t) : t.mem = s.mem := by
  rw [State.cmdFreeze] at h
  split at h
  · dsimp only at h
    split at h
    · cases h
      exact doFreeze_mem ..
    · cases h

theorem cmdStep_mem {s : State} {c k : Nat} {t : State} (h : (s.cmdStep c k) = some t) : t.mem = s.mem := by
  rw [State.cmdStep] at h
  split at h
  · split at h
    · cases h
      rw [both_mem, resumeSlot_mem]
    · cases h

theorem cmdPark_mem {s : State} {c k : Nat} {t : State} (h : (s.cmdPark c k) = some t) : t.mem = s.mem := by
  rw [State.cmdPark] at h
  split at h
  · dsimp only at h
    split at h
    · cases h
      exact doPark8_mem ..
    · cases h

theorem safe_orSame {s : State} {r : Option State} (hr : ∀ {t}, r = some t → Safe t) (hs : Safe s) :
    Safe (orSame s r) := by
  cases r with
  | none => exact hs
  | some t => exact hr rfl

theorem next_execScmdResume {c k : Nat} {s : State} (hs : Safe s) : NextSafe (execScmdResume c k s) := by
  rw [execScmdResume]
  refine nextSafe_next ?_
  exact safe_of_mem (askExit_mem ..) (safe_orSame (fun e => safe_of_mem (cmdResume_mem e) hs) hs)

theorem next_execRetire {c k : Nat} {s : State} (hs : Safe s) : NextSafe (execRetire c k s) := by
  rw [execRetire]
  refine nextSafe_next ?_
  exact safe_of_mem (askExit_mem ..) (safe_orSame (fun e => safe_cmdRetire hs e) hs)

theorem next_execFreeze {c k : Nat} {s : State} (hs : Safe s) : NextSafe (execFreeze c k s) := by
  rw [execFreeze]
  refine nextSafe_next ?_
  exact safe_of_mem (askExit_mem ..) (safe_orSame (fun e => safe_of_mem (cmdFreeze_mem e) hs) hs)

theorem next_execStep {c k : Nat} {s : State} (hs : Safe s) : NextSafe (execStep c k s) := by
  rw [execStep]
  refine nextSafe_next ?_
  exact safe_of_mem (askExit_mem ..) (safe_orSame (fun e => safe_of_mem (cmdStep_mem e) hs) hs)

theorem underHt_mem (s : State) (c k : Nat) : (s.underHt c k).mem = s.mem := by
  rw [State.underHt]
  split
  · rw [nextSerial_mem, updSlot_mem]
  · rfl

theorem slotLoaded_mem (s : State) (c k : Nat) : (s.slotLoaded c k).mem = s.mem := by
  rw [State.slotLoaded]
  split
  · rfl
  · dsimp only
    split
    · rw [underHt_mem, freezeWith_mem, updSlot_mem, updSlot_mem]
    · split
      · rw [underHt_mem]
        split
        · rw [updSlot_mem, updSlot_mem]
        · split
          · rw [sendRecord_mem, updSlot_mem, updSlot_mem, updSlot_mem]
          · rw [freezeWith_mem, updSlot_mem]
      · rw [underHt_mem, nextSerial_mem, updSlot_mem, updSlot_mem]
      · split
        · rw [nextSerial_mem, updSlot_mem, updSlot_mem]
        · rw [updSlot_mem, updSlot_mem]

theorem next_execSlotLoadComplete {c k : Nat} {s : State} (hs : Safe s) : NextSafe (execSlotLoadComplete c k s) := by
  rw [execSlotLoadComplete]
  exact nextSafe_next (safe_of_mem (slotLoaded_mem ..) hs)

theorem safe_answerSpill {s : State} {c k : Nat} (hs : Safe s) : Safe (s.answerSpill c k) := by
  rw [State.answerSpill]
  split
  · exact hs
  · split
    · exact safe_of_mem (forceAt_mem ..) hs
    · split
      · exact hs
      · split
        · exact safe_of_mem (reserveEnd_mem ..) (safe_of_mem (updSlot_mem ..) hs)
        · split
          · split
            · exact safe_of_mem (reserveEnd_mem ..) (safe_of_mem (updSlot_mem ..) hs)
            · refine safe_of_mem (spillOut_mem ..) ?_
              rename_i e
              refine safe_allocEntry ?_ e
              rename_i e' _ _ _ _
              exact safe_allocEntry hs e'
          · refine safe_of_mem (spillOut_mem ..) ?_
            rename_i e _
            exact safe_allocEntry hs e

theorem next_execReserveEntryAllocation {c k : Nat} {s : State} (hs : Safe s) :
    NextSafe (execReserveEntryAllocation c k s) := by
  rw [execReserveEntryAllocation]
  refine nextSafe_next ?_
  split
  · exact safe_answerSpill (safe_of_mem (wantSlot_mem ..) hs)
  · exact safe_of_mem (wantSlot_mem ..) hs

theorem safe_enlist {s : State} {c : Nat} {r : RunRef} (hs : Safe s) : Safe (s.enlist c r) := by
  rw [State.enlist]
  exact safe_relink (safe_of_mem (updCore_mem ..) hs)

theorem safe_spilledOut {s : State} {c k e : Nat} (hs : Safe s) : Safe (s.spilledOut c k e) := by
  have hkeep : ∀ {u : State} (c x), Safe u → Safe (match u.keep c x with | some t => t | none => u) := by
    intro u c x hu
    split
    · rename_i e
      exact safe_keep hu e
    · exact hu
  rw [State.spilledOut]
  have hn := safe_of_mem (nextSerial_mem _) (hkeep c { frame := s.frameOf c k c 0, entry := some e, key :=
    s.serial } hs)
  generalize State.nextSerial _ = u at hn ⊢
  have hlist : ∀ r : RunRef, Safe (if r.kind = 0 ∧ ¬ r.ht then u.enlist c r
      else u.updCore c fun y => { y with spilled := y.spilled ++ [r] }) := by
    intro r
    split
    · exact safe_enlist hn
    · exact safe_of_mem (updCore_mem ..) hn
  split
  · exact safe_freeSlot (safe_freeSlot (safe_of_mem (nextSerial_mem _) (hkeep _ _ (hlist _))))
  · exact safe_freeSlot (hlist _)

theorem next_execSlotOutComplete {c k : Nat} {s : State} (hs : Safe s) : NextSafe (execSlotOutComplete c k s) := by
  rw [execSlotOutComplete]
  refine nextSafe_next ?_
  split
  · exact hs
  · split
    · exact hs
    · split
      · exact safe_freeSlot (safe_of_mem (countSent_mem ..) (safe_of_mem (send_mem ..) hs))
      · split
        · exact hs
        · exact safe_spilledOut hs
      · exact safe_freeSlot hs

theorem safe_deliverWake {s : State} {w : Waiter} (hs : Safe s) : Safe (s.deliverWake w) := by
  rw [State.deliverWake]
  split
  · dsimp only
    split
    · exact safe_of_mem (makeRunnable_mem ..) (safe_of_mem (both_mem ..) hs)
    · exact hs
  · dsimp only
    split
    · exact safe_of_mem (both_mem ..) hs
    · split
      · split
        · refine safe_of_mem (updCore_mem ..) ?_
          split
          · exact safe_editStored (safe_editStored hs)
          · exact safe_editStored hs
        · refine safe_serveCore ?_
          refine safe_enlist ?_
          refine safe_of_mem (updCore_mem ..) ?_
          split
          · exact safe_editStored (safe_editStored hs)
          · exact safe_editStored hs
      · exact hs

theorem next_execThreadWake {n : Nat} {s : State} (hs : Safe s) : NextSafe (execThreadWake n s) := by
  rw [execThreadWake]
  refine nextSafe_next ?_
  split
  · exact safe_deliverWake (safe_of_mem (dropPacket_mem ..) hs)
  · exact hs

theorem next_execWaiterRetryTimer {c n : Nat} {s : State} (hs : Safe s) : NextSafe (execWaiterRetryTimer c n s) := by
  rw [execWaiterRetryTimer]
  refine nextSafe_next ?_
  split
  · split
    · exact safe_deliverWake (safe_of_mem (updCore_mem ..) hs)
    · exact hs
  · exact hs

theorem reserveAt_mem {s : State} {c : Nat} {twin : Bool} {t : Nat × State} (h : (s.reserveAt c twin) = some t) :
    t.2.mem = s.mem := by
  rw [State.reserveAt] at h
  split at h
  · cases h
    dsimp only
    split
    · split
      · rw [updSlot_mem, updCore_mem]
        split
        · rw [updSlot_mem, updCore_mem]
        · exact updCore_mem ..
      · rw [updCore_mem]
        split
        · rw [updSlot_mem, updCore_mem]
        · exact updCore_mem ..
    · split
      · rw [updSlot_mem, updCore_mem]
      · exact updCore_mem ..
  · cases h

theorem answered_mem (s : State) (m : Msg) (h : Option Nat) : (s.answered m h).mem = s.mem := by
  rw [State.answered]
  split
  · rw [updF_mem, fireOut_mem]
  · rfl

theorem next_execReservationRelease {n : Nat} {s : State} (hs : Safe s) : NextSafe (execReservationRelease n s) := by
  rw [execReservationRelease]
  refine nextSafe_next ?_
  split
  · exact safe_servePair (safe_of_mem (dropResv_mem ..) (safe_of_mem (dropPacket_mem ..) hs))
  · exact hs

theorem safe_countLate {s : State} {lid : Nat} (hs : Safe s) : Safe (s.countLate lid) := by
  rw [State.countLate]
  split
  · exact safe_wrMem _ _ _ hs
  · exact hs

theorem countDiscard_mem (s : State) (lid : Nat) : (s.countDiscard lid).mem = s.mem := rfl

theorem safe_acceptMsg {s : State} {c : Nat} {m : Msg} {handle : Option Nat} (hs : Safe s) {t : State}
    (h : (s.acceptMsg c m handle) = some t) : Safe t := by
  unfold State.acceptMsg at h
  dsimp only at h
  split at h
  · split at h
    · cases h
      exact safe_of_mem (startMsg_mem ..) (safe_of_mem (dropResv_mem ..) hs)
    · split at h
      · split at h
        · cases h
          exact safe_serveCore (safe_of_mem (updCore_mem ..) hs)
        · cases h
          exact safe_serveCore (safe_of_mem (updCore_mem ..) (safe_of_mem (dropResv_mem ..) hs))
      · split at h
        · cases h
          exact safe_serveCore (safe_of_mem (updCore_mem ..) hs)
        · cases h
          exact safe_serveCore (safe_of_mem (updCore_mem ..) (safe_of_mem (dropResv_mem ..) hs))
  · split at h
    · cases h
      exact safe_of_mem (startMsg_mem ..) hs
    · split at h
      · split at h
        · cases h
          exact safe_serveCore (safe_of_mem (updCore_mem ..) hs)
        · cases h
      · split at h
        · cases h
          exact safe_serveCore (safe_of_mem (updCore_mem ..) hs)
        · cases h

theorem next_execReservationRequest {n : Nat} {s : State} (hs : Safe s) : NextSafe (execReservationRequest n s) := by
  rw [execReservationRequest]
  refine nextSafe_next ?_
  split
  · dsimp only
    split
    · exact hs
    · split
      · exact safe_of_mem (dropPacket_mem ..) hs
      · split
        · exact hs
        · refine safe_atWordOf (fun t h => ?_) ?_
          · exact safe_of_mem (answered_mem ..) h
          · rename_i e
            refine safe_tallyAnswer ?_ e
            split
            · dsimp only
              rename_i e'
              exact safe_of_mem (reserveAt_mem e') (safe_of_mem (dropPacket_mem ..) hs)
            · dsimp only
              exact safe_of_mem (dropPacket_mem ..) hs
  · exact hs

theorem next_execMessageArrival {n : Nat} {s : State} (hs : Safe s) : NextSafe (execMessageArrival n s) := by
  rw [execMessageArrival]
  refine nextSafe_next ?_
  split
  · split
    · exact safe_of_mem (askExit_mem ..) hs
    · dsimp only
      split
      · split
        · refine safe_servePair ?_
          exact safe_of_mem (dropResv_mem ..) (safe_countLate (safe_of_mem (dropPacket_mem ..) hs))
        · exact safe_countLate (safe_of_mem (dropPacket_mem ..) hs)
      · split
        · refine safe_servePair ?_
          refine safe_of_mem (dropResv_mem ..) ?_
          exact safe_of_mem (countDiscard_mem ..) (safe_of_mem (dropPacket_mem ..) hs)
        · exact safe_of_mem (countDiscard_mem ..) (safe_of_mem (dropPacket_mem ..) hs)
      · split
        · split
          · refine safe_servePair ?_
            refine safe_of_mem (dropResv_mem ..) ?_
            exact safe_of_mem (updLaunch_mem ..) (safe_of_mem (dropPacket_mem ..) hs)
          · exact safe_of_mem (updLaunch_mem ..) (safe_of_mem (dropPacket_mem ..) hs)
        · split
          · exact hs
          · split
            · refine safe_of_mem (countRecv_mem ..) ?_
              rename_i e
              obtain ⟨k, hk, e⟩ := Option.bind_eq_some_iff.1 e
              exact safe_tallyClaim (safe_acceptMsg (safe_of_mem (dropPacket_mem ..) hs) hk) e
            · exact hs
  · exact hs

theorem next_execMigrationArrival {n : Nat} {s : State} (hs : Safe s) : NextSafe (execMigrationArrival n s) := by
  rw [execMigrationArrival]
  refine nextSafe_next ?_
  split
  · split
    · exact hs
    · split
      · exact safe_of_mem (askExit_mem ..) hs
      · dsimp only
        split
        · exact safe_of_mem (updLaunch_mem ..) (safe_of_mem (dropPacket_mem ..) hs)
        · split
          · exact hs
          · split
            · refine safe_of_mem (countRecv_mem ..) ?_
              refine safe_of_mem (loadFrame_mem ..) ?_
              rename_i e _ _ _
              exact safe_tallyClaim (safe_of_mem (dropPacket_mem ..) hs) e
            · split
              · split
                · exact hs
                · refine safe_serveCore ?_
                  refine safe_of_mem (countRecv_mem ..) ?_
                  refine safe_of_mem (nextSerial_mem ..) ?_
                  refine safe_enlist ?_
                  rename_i e
                  refine safe_keep ?_ e
                  rename_i e' _ _ _ _ _
                  exact safe_tallyClaim (safe_of_mem (dropPacket_mem ..) hs) e'
              · split
                · refine safe_of_mem (reserveEnd_mem ..) ?_
                  rename_i e _ _ _ _ _
                  exact safe_tallyClaim (safe_of_mem (dropPacket_mem ..) hs) e
                · split
                  · exact hs
                  · refine safe_serveCore ?_
                    refine safe_of_mem (countRecv_mem ..) ?_
                    refine safe_of_mem (nextSerial_mem ..) ?_
                    refine safe_enlist ?_
                    rename_i e
                    refine safe_keep ?_ e
                    rename_i e' _ _
                    refine safe_allocEntry ?_ e'
                    rename_i e₂ _ _ _ _ _ _ _ _
                    exact safe_tallyClaim (safe_of_mem (dropPacket_mem ..) hs) e₂
  · exact hs

/-! ## Power -/

theorem retarget_mem (s : State) (sq : Nat) : (s.retarget sq).mem = s.mem := by
  rw [State.retarget]
  split
  · rfl
  · exact updSquare_mem ..

theorem retargetDie_mem (s : State) (d : Nat) : (s.retargetDie d).mem = s.mem := by
  rw [State.retargetDie]
  exact mem_foldl _ _ _ fun t a => retarget_mem ..

theorem writeOpreq_mem (s : State) (c : Nat) (v : Word) : (s.writeOpreq c v).mem = s.mem := by
  rw [State.writeOpreq]
  split
  · rfl
  · split
    · exact updCore_mem ..
    · rw [retarget_mem, updCore_mem]

theorem writeSqctl_mem (s : State) (sq : Nat) (v : Word) : (s.writeSqctl sq v).mem = s.mem := by
  rw [State.writeSqctl]
  split
  · rfl
  · split
    · exact updSquare_mem ..
    · rw [retarget_mem, updSquare_mem]

theorem writeDmgcfg_mem (s : State) (d : Nat) (v : Word) : (s.writeDmgcfg d v).mem = s.mem := by
  rw [State.writeDmgcfg]
  split
  · rfl
  · exact updDie_mem ..

theorem next_execPowerMeasurement {mw : Nat} {s : State} (hs : Safe s) : NextSafe (execPowerMeasurement mw s) := by
  rw [execPowerMeasurement]
  refine nextSafe_next ?_
  dsimp only [Safe]
  exact wf_of_safe hs

theorem safe_htRelease {s : State} {t : Nat × Nat × Nat × Option RunRef} (hs : Safe s) : Safe (s.htRelease t) := by
  rw [State.htRelease]
  split
  · dsimp only
    split
    · exact safe_of_mem (makeRunnable_mem ..) (safe_of_mem (both_mem ..) hs)
    · exact safe_of_mem (both_mem ..) hs
  · dsimp only
    split
    · refine safe_serveCore ?_
      refine safe_enlist ?_
      refine safe_of_mem (updCore_mem ..) ?_
      split
      · exact safe_editStored (safe_editStored hs)
      · exact safe_editStored hs
    · refine safe_of_mem (updCore_mem ..) ?_
      split
      · exact safe_editStored (safe_editStored hs)
      · exact safe_editStored hs

theorem next_execDamageWindow {d : Nat} {s : State} (hs : Safe s) : NextSafe (execDamageWindow d s) := by
  rw [execDamageWindow]
  refine nextSafe_next ?_
  split
  · exact safe_foldl (fun t a h => safe_htRelease h) (safe_of_mem (updDistrict_mem ..) hs)
  · exact safe_of_mem (updDistrict_mem ..) hs

theorem next_execHardThresholdPark {d : Nat} {s : State} (hs : Safe s) : NextSafe (execHardThresholdPark d s) := by
  rw [execHardThresholdPark]
  refine nextSafe_next ?_
  split
  · exact hs
  · split
    · exact safe_htPark hs
    · exact hs

theorem next_execIdleEntry {sq : Nat} {s : State} (hs : Safe s) : NextSafe (execIdleEntry sq s) := by
  rw [execIdleEntry]
  refine nextSafe_next ?_
  split
  · exact safe_of_mem (updSquare_mem ..) hs
  · exact hs

theorem safe_leaveIdle {s : State} {sq : Nat} (hs : Safe s) : Safe (s.leaveIdle sq) := by
  rw [State.leaveIdle]
  exact safe_foldl (fun t a h => safe_serveCore h) (safe_of_mem (updSquare_mem ..) hs)

theorem next_execHeartbeatTimeout {d : Nat} {s : State} (hs : Safe s) : NextSafe (execHeartbeatTimeout d s) := by
  rw [execHeartbeatTimeout]
  refine nextSafe_next ?_
  split
  · exact safe_of_mem (retargetDie_mem ..) (safe_of_mem (updDie_mem ..) hs)
  · exact hs

theorem signIn_mem (s : State) (d : Nat) : (s.signIn d).mem = s.mem := by
  rw [State.signIn, retargetDie_mem]
  refine (mem_foldl _ _ _ fun t a => ?_).trans ?_
  · dsimp only
    split
    · rfl
    · exact updSquare_mem ..
  · refine (mem_foldl _ _ _ fun t a => ?_).trans ?_
    · dsimp only
      split
      · rfl
      · exact updCore_mem ..
    · exact updDie_mem ..

theorem next_execPcsign {d : Nat} {v : Word} {s : State} (hs : Safe s) : NextSafe (execPcsign d v s) := by
  rw [execPcsign]
  refine nextSafe_next ?_
  split
  · exact safe_of_mem (signIn_mem ..) hs
  · exact hs

theorem dropRange_mem (s : State) (lo hi : Nat) : (s.dropRange lo hi).mem = s.mem := rfl

theorem safe_clearLayer {s : State} {c n : Nat} (hs : Safe s) : Safe (s.clearLayer c n) := by
  rw [State.clearLayer]
  exact safe_clearMem _ _ hs

theorem next_execVlpwrWrite {c : Nat} {v : Word} {s : State} (hs : Safe s) : NextSafe (execVlpwrWrite c v s) := by
  rw [execVlpwrWrite]
  refine nextSafe_next ?_
  split
  · exact hs
  · exact safe_of_mem (askExit_mem ..) (safe_of_mem (updVault_mem ..) hs)

theorem next_execLayerPowerOnComplete {c n : Nat} {s : State} (hs : Safe s) :
    NextSafe (execLayerPowerOnComplete c n s) := by
  rw [execLayerPowerOnComplete]
  refine nextSafe_next ?_
  split
  · exact safe_clearLayer (safe_of_mem (updVault_mem ..) hs)
  · exact hs

theorem next_execLayerPowerOffComplete {c n : Nat} {s : State} (hs : Safe s) :
    NextSafe (execLayerPowerOffComplete c n s) := by
  rw [execLayerPowerOffComplete]
  refine nextSafe_next ?_
  split
  · exact safe_clearLayer (safe_of_mem (updVault_mem ..) hs)
  · exact hs

theorem next_execRowTimeout {c b : Nat} {s : State} (hs : Safe s) : NextSafe (execRowTimeout c b s) := by
  rw [execRowTimeout]
  refine nextSafe_next ?_
  split
  · split
    · exact safe_of_mem (updVault_mem ..) hs
    · exact hs
  · exact hs

theorem next_execCamreqWrite {c : Nat} {v : Word} {s : State} (hs : Safe s) : NextSafe (execCamreqWrite c v s) := by
  rw [execCamreqWrite]
  refine nextSafe_next ?_
  split
  · exact hs
  · exact safe_of_mem (askExit_mem ..) (safe_of_mem (updVault_mem ..) hs)

/-! ## The module and its turnovers -/

theorem safe_putWord {s : State} {loc : Nat} {v : Word} (hs : Safe s) : Safe (s.putWord loc v) := by
  rw [State.putWord]
  exact safe_of_mem (dropReadBufs_mem ..) (safe_wrWord _ _ hs)

theorem safe_setQueueWord {s : State} {d q i : Nat} {v : Word} (hs : Safe s) : Safe (s.setQueueWord d q i v) := by
  rw [State.setQueueWord]
  split
  · exact safe_of_mem (touchRow_mem ..) (safe_putWord hs)
  · exact hs

theorem safe_clearEn {s : State} {d q : Nat} (hs : Safe s) : Safe (s.clearEn d q) := by
  rw [State.clearEn]
  split
  · exact safe_setQueueWord hs
  · exact hs

/-- The queues are cleared first; nothing after that writes memory. -/
theorem quiesce_mem (s : State) : s.quiesce.mem = (allQueues.foldl (fun s q => s.clearEn q.1 q.2) s).mem := by
  unfold State.quiesce
  generalize allQueues.foldl (fun s q => s.clearEn q.1 q.2) s = u
  as_aux_lemma => rfl

theorem safe_quiesce {s : State} (hs : Safe s) : Safe s.quiesce :=
  safe_of_mem (quiesce_mem s) (safe_foldl (fun _ _ h => safe_clearEn h) hs)

theorem holdSvcs_mem (s : State) (held : Bool) : (holdSvcs s held).mem = s.mem := by
  rw [holdSvcs]

theorem beginTurnover_mem (s : State) (tenant : Word) : (s.beginTurnover tenant).mem = s.quiesce.mem := by
  unfold State.beginTurnover
  generalize s.quiesce = u
  as_aux_lemma => rfl

theorem safe_beginTurnover {s : State} (tenant : Word) (hs : Safe s) : Safe (s.beginTurnover tenant) :=
  safe_of_mem (beginTurnover_mem s tenant) (safe_quiesce hs)

theorem safe_turnStep {s : State} {ph : Phase} {n : Nat} {f : State → State} (hf : Safe s → Safe (f s)) (hs : Safe s)
    : Safe (s.turnStep ph n f) := by
  unfold State.turnStep
  split
  · exact hs
  split
  · exact safe_of_mem rfl hs
  · exact hf hs

theorem next_execTurnoverCmd {v : Word} {s : State} (hs : Safe s) : NextSafe (execTurnoverCmd v s) := by
  rw [execTurnoverCmd]
  refine nextSafe_next ?_
  split
  · exact safe_beginTurnover _ hs
  · exact hs

theorem safe_comeUp (s : State) : Safe s.comeUp :=
  safe_foldl (fun _ _ h => safe_of_mem (updVault_mem ..) h) (wf_of_safe (s := { agenda := [] }) rfl)

theorem next_execModuleResetRelease {s : State} (hs : Safe s) : NextSafe (execModuleResetRelease s) := by
  rw [execModuleResetRelease]
  refine nextSafe_next ?_
  split
  · exact safe_of_mem rfl (safe_comeUp s)
  · exact hs

theorem enableSquare_mem (s : State) (sq : Nat) : (s.enableSquare sq).mem = s.mem := rfl

theorem next_execSquareEnableStep {s : State} (hs : Safe s) : NextSafe (execSquareEnableStep s) := by
  rw [execSquareEnableStep]
  refine nextSafe_next ?_
  split
  · split
    · exact hs
    · split
      · refine safe_foldl (fun t a h => ?_) ?_
        · exact safe_of_mem (enableSquare_mem ..) h
        · split
          · exact safe_of_mem (holdSvcs_mem ..) hs
          · exact hs
      · exact safe_beginTurnover _ hs
  · exact hs

theorem safe_shutDown (s : State) (code detail : Nat) : Safe (s.shutDown code detail) := by
  rw [State.shutDown]
  rfl

theorem next_execThermalShutdown {die t : Nat} {s : State} (hs : Safe s) :
    NextSafe (execThermalShutdown die t s) := by
  rw [execThermalShutdown]
  refine nextSafe_next ?_
  split
  · exact safe_shutDown ..
  · exact hs

theorem next_execFlowShutdown {ml ms : Nat} {s : State} (hs : Safe s) : NextSafe (execFlowShutdown ml ms s) := by
  rw [execFlowShutdown]
  refine nextSafe_next ?_
  split
  · exact safe_shutDown ..
  · exact hs

theorem next_execModuleRestart {s : State} (hs : Safe s) : NextSafe (execModuleRestart s) := by
  rw [execModuleRestart]
  refine nextSafe_next ?_
  split <;> exact hs

theorem next_execConfigStoreUpdate {img : ConfigImage} {sigOk : Bool} {s : State} (hs : Safe s) :
    NextSafe (execConfigStoreUpdate img sigOk s) := by
  rw [execConfigStoreUpdate]
  refine nextSafe_next ?_
  split <;> exact hs

theorem next_execTurnoverScrub {bad : List RowName} {s : State} (hs : Safe s) :
    NextSafe (execTurnoverScrub bad s) := by
  rw [execTurnoverScrub]
  refine nextSafe_next ?_
  refine safe_turnStep (fun h => ?_) ?_
  · exact safe_foldl (fun t a h => safe_of_mem (updVault_mem ..) h) (safe_clearMem _ _ hs)
  · exact hs

theorem next_execTurnoverClear {s : State} (hs : Safe s) : NextSafe (execTurnoverClear s) := by
  rw [execTurnoverClear]
  refine nextSafe_next ?_
  refine safe_turnStep (fun h => ?_) ?_
  · dsimp only [Safe]
    exact wf_of_safe (safe_clearMem _ _ hs)
  · exact hs

theorem retireRow_mem (s : State) (r : RowName) : (s.retireRow r).mem = s.mem := by
  rw [State.retireRow]
  split
  · exact updVault_mem ..
  · split
    · dsimp only
      exact updVault_mem ..
    · dsimp only
      exact updVault_mem ..

theorem failRow_mem (s : State) (r : RowName) (again : Bool) : (s.failRow r again).mem = s.mem := by
  rw [State.failRow]
  split
  · dsimp only
    split
    · rw [retireRow_mem]
      dsimp only
      exact updVault_mem ..
    · dsimp only
      exact updVault_mem ..
  · exact retireRow_mem ..

theorem next_execTurnoverHealth {bad badAgain badSpare : List RowName} {s : State} (hs : Safe s) :
    NextSafe (execTurnoverHealth bad badAgain badSpare s) := by
  rw [execTurnoverHealth]
  refine nextSafe_next ?_
  refine safe_turnStep (fun h => ?_) ?_
  · refine safe_foldl (fun t a h => ?_) ?_
    · exact safe_of_mem (failRow_mem ..) h
    · exact safe_foldl (fun t a h => safe_of_mem (updVault_mem ..) h) (safe_clearMem _ _ hs)
  · exact hs

theorem hardwareControl_mem (s : State) : (s.hardwareControl).mem = s.mem := by
  rw [State.hardwareControl]
  refine (mem_foldl _ _ _ fun t a => ?_).trans ?_
  · rw [retargetDie_mem, updDie_mem]
  · rfl

theorem next_execTurnoverFirmware {sc pc : FwImage} {s : State} (hs : Safe s) :
    NextSafe (execTurnoverFirmware sc pc s) := by
  rw [execTurnoverFirmware]
  refine nextSafe_next ?_
  have hu : Safe (if s.mgmt.phase = .tested then s.hardwareControl else s) :=
    safe_ite (safe_of_mem (hardwareControl_mem _) hs) hs
  refine safe_turnStep (fun hu => ?_) hu
  exact safe_ite (safe_of_mem (holdSvcs_mem ..) (safe_withMgmt _ hu)) (safe_withMgmt _ hu)

/-! ## Registers from outside -/

theorem csrWrite_mem (s : State) (c n : Nat) (v : Word) : (s.csrWrite c n v).mem = s.mem := by
  unfold State.csrWrite
  dsimp only
  simp only [apply_ite State.mem, updCore_mem, updVault_mem, updDie_mem, updPort_mem, writeOpreq_mem, writeSqctl_mem,
    writeDmgcfg_mem, signIn_mem, ite_self]

theorem safe_scmd {s : State} {c k : Nat} {v : Word} (hs : Safe s) : Safe (s.scmd c k v) := by
  rw [State.scmd]
  split
  · exact safe_orSame (fun e => safe_of_mem (cmdResume_mem e) hs) hs
  · exact safe_orSame (fun e => safe_cmdRetire hs e) hs
  · exact safe_orSame (fun e => safe_cmdKill hs e) hs
  · exact safe_orSame (fun e => safe_of_mem (cmdFreeze_mem e) hs) hs
  · exact safe_orSame (fun e => safe_of_mem (cmdStep_mem e) hs) hs
  · exact hs

theorem safe_debugWrite {s : State} {c o : Nat} {v : Word} (hs : Safe s) : Safe (s.debugWrite c o v) := by
  rw [State.debugWrite]
  split
  · dsimp only
    split
    · split
      · exact safe_of_mem (updSlot_mem ..) hs
      · exact hs
    · split
      · exact safe_scmd hs
      · exact hs
  · split
    · exact safe_of_mem (updCore_mem ..) hs
    · split
      · exact safe_of_mem (updCore_mem ..) hs
      · split
        · exact hs
        · split
          · exact safe_of_mem (updVault_mem ..) hs
          · split
            · exact safe_of_mem (updVault_mem ..) hs
            · split
              · exact safe_of_mem (updVault_mem ..) hs
              · exact hs

theorem next_execDebugContextWrite {c o : Nat} {v : Word} {s : State} (hs : Safe s) :
    NextSafe (execDebugContextWrite c o v s) := by
  rw [execDebugContextWrite]
  refine nextSafe_next ?_
  split
  · exact safe_of_mem (askExit_mem ..) (safe_debugWrite hs)
  · exact hs

theorem mgmtWrite_mem (s : State) (o : Nat) (v : Word) : (s.mgmtWrite o v).mem = s.mem := by
  rw [State.mgmtWrite]
  split
  · rfl
  · split <;> rfl

theorem next_execRegisterWrite {c num : Nat} {v : Word} {s : State} (hs : Safe s) :
    NextSafe (execRegisterWrite c num v s) := by
  rw [execRegisterWrite]
  refine nextSafe_next ?_
  split
  · exact safe_of_mem (csrWrite_mem ..) hs
  · split
    · exact safe_of_mem (askExit_mem ..) (safe_debugWrite hs)
    · exact safe_of_mem (mgmtWrite_mem ..) hs

/-! ## Fetching a block -/

theorem fetchLocs_mem (a : Who) (fuel : Nat) (s : State) (ea n : Nat) : (fetchLocs a fuel s ea n).2.mem = s.mem := by
  induction fuel generalizing s ea n with
  | zero => rfl
  | succ fuel ih =>
    rw [fetchLocs]
    split
    · rfl
    split
    · rfl
    dsimp only
    split
    · rename_i e
      exact (mem_of_snd e).trans (translate_mem ..)
    · rename_i e
      exact (mem_of_snd e).trans (translate_mem ..)
    · rename_i e
      split
      · exact (mem_of_snd e).trans (translate_mem ..)
      split
      · rename_i e'
        rw [mem_of_snd e', ih, mem_of_snd e, translate_mem]
      · rename_i e'
        rw [mem_of_snd e', ih, mem_of_snd e, translate_mem]

theorem fetchStage_mem (s : State) (a : Who) (off n skip : Nat) : (s.fetchStage a off n skip).2.mem = s.mem := by
  rw [State.fetchStage]
  split
  · rfl
  · split
    · rename_i e
      rw [mem_of_snd e, fetchLocs_mem]
    · split
      · rename_i e _
        rw [mem_of_snd e, fetchLocs_mem]
      · split
        · refine (mem_foldl _ _ _ fun t a => ?_).trans ?_
          · exact touchRow_mem ..
          · rename_i e _ _ _ _
            rw [mem_of_snd e, fetchLocs_mem]
        · refine (mem_foldl _ _ _ fun t a => ?_).trans ?_
          · exact touchRow_mem ..
          · rename_i e _ _ _
            rw [mem_of_snd e, fetchLocs_mem]

theorem fetchBlock_mem (s : State) (a : Who) (pc : Word) : (s.fetchBlock a pc).2.mem = s.mem := by
  rw [State.fetchBlock]
  split
  · rfl
  · split
    · dsimp only
      rename_i e
      rw [mem_of_snd e, fetchStage_mem]
    · dsimp only
      rename_i e
      rw [mem_of_snd e, fetchStage_mem]
    · dsimp only
      split
      · dsimp only
        rename_i e _ _ _
        rw [mem_of_snd e, fetchStage_mem]
      · split
        · dsimp only
          rename_i e
          rw [mem_of_snd e, fetchStage_mem]
          rename_i e' _ _ _ _ _
          rw [mem_of_snd e', fetchStage_mem]
        · dsimp only
          rename_i e
          rw [mem_of_snd e, fetchStage_mem]
          rename_i e' _ _ _ _
          rw [mem_of_snd e', fetchStage_mem]
        · split
          · dsimp only
            rename_i e _ _ _
            rw [mem_of_snd e, fetchStage_mem]
            rename_i e' _ _ _ _ _ _ _ _
            rw [mem_of_snd e', fetchStage_mem]
          · dsimp only
            rename_i e _ _
            rw [mem_of_snd e, fetchStage_mem]
            rename_i e' _ _ _ _ _ _ _
            rw [mem_of_snd e', fetchStage_mem]

theorem buildFrame_mem (s : State) (c k : Nat) (pc : Word) : (s.buildFrame c k pc).2.mem = s.mem := by
  rw [State.buildFrame]
  split
  · rename_i e
    rw [mem_of_snd e, fetchBlock_mem]
  · rename_i e
    rw [mem_of_snd e, fetchBlock_mem]
  · rename_i e
    rw [mem_of_snd e, fetchBlock_mem]

theorem enterExec_mem (s : State) (c k : Nat) (f : Frame) : (s.enterExec c k f).mem = s.mem := by
  rw [State.enterExec]
  split
  · rw [raise_mem, nextSerial_mem, updSlot_mem]
  · split
    · rw [raise_mem, nextSerial_mem, updSlot_mem]
    · rw [nextSerial_mem, updSlot_mem]

theorem next_execBlockFetch {c k : Nat} {s : State} (hs : Safe s) : NextSafe (execBlockFetch c k s) := by
  rw [execBlockFetch]
  refine nextSafe_next ?_
  split
  · exact hs
  · split
    · split
      · rename_i e
        exact safe_of_mem ((mem_of_snd e).trans (buildFrame_mem ..)) hs
      · refine safe_of_mem (enterExec_mem ..) ?_
        rename_i e
        exact safe_of_mem ((mem_of_snd e).trans (buildFrame_mem ..)) hs
    · split
      · rename_i e
        exact safe_of_mem ((mem_of_snd e).trans (buildFrame_mem ..)) hs
      · refine safe_of_mem (updSlot_mem ..) ?_
        rename_i e
        exact safe_of_mem ((mem_of_snd e).trans (buildFrame_mem ..)) hs
    · split
      · rename_i e
        exact safe_of_mem ((mem_of_snd e).trans (buildFrame_mem ..)) hs
      · refine safe_of_mem (updSlot_mem ..) ?_
        rename_i e
        exact safe_of_mem ((mem_of_snd e).trans (buildFrame_mem ..)) hs
    · exact hs

theorem next_execFaultRaiseTimeout {c k : Nat} {s : State} (hs : Safe s) :
    NextSafe (execFaultRaiseTimeout c k s) := by
  rw [execFaultRaiseTimeout]
  refine nextSafe_next ?_
  split
  · split
    · exact safe_of_mem (raise_mem ..) hs
    · exact hs
  · exact hs

theorem next_execNoProgressTimeout {c k : Nat} {s : State} (hs : Safe s) :
    NextSafe (execNoProgressTimeout c k s) := by
  rw [execNoProgressTimeout]
  refine nextSafe_next ?_
  split
  · exact safe_of_mem (raise_mem ..) hs
  · exact hs

end Sys2Proof.Proofs

/-! PROOFS. What engine commands keep (16). -/

namespace Sys2Proof.Proofs
open Sys2Proof.Machine Sys2Proof.Laws

/-! ## Engine actions on words and tiles -/

theorem keeps_engAddr (j : Job) (t : Word) (n u : Nat) (kind : AKind) : KeepsSafe (engAddr j t n u kind) := by
  rw [engAddr]
  refine keeps_get fun w h => ?_
  split
  · exact keeps_throw _
  · exact keeps_pure _

theorem keeps_engVirt (j : Job) (ea : Nat) (kind : AKind) : KeepsSafe (engVirt j ea kind) := by
  rw [engVirt]
  refine keeps_get fun w h => ?_
  split
  refine keeps_bind ?_ fun x1 => ?_
  · refine keeps_set ?_
    rename_i e
    exact safe_of_mem ((mem_of_snd e).trans (translate_mem ..)) h
  · split
    · exact keeps_throw _
    · exact keeps_endWith _ _
    · split
      · exact keeps_endWith _ _
      · split
        · exact keeps_throw _
        · exact keeps_pure _

theorem keeps_engLoc (j : Job) (ea : Nat) (kind : AKind) : KeepsSafe (engLoc j ea kind) := by
  rw [engLoc]
  refine keeps_get fun w h => ?_
  split
  · exact keeps_throw _
  · exact keeps_endWith _ _
  · exact keeps_pure _
  · exact keeps_pure _
  · exact keeps_engVirt _ _ _
  · split
    · exact keeps_endWith _ _
    · split
      · split
        · exact keeps_throw _
        · exact keeps_pure _
      · exact keeps_throw _

theorem keeps_engPlace (j : Job) (t : Word) (n u : Nat) (kind : AKind) : KeepsSafe (engPlace j t n u kind) := by
  rw [engPlace]
  exact keeps_bind (keeps_engAddr _ _ _ _ _) fun x => keeps_engLoc _ _ _

theorem keeps_readAt (loc n : Nat) : KeepsSafe (readAt loc n) := by
  rw [readAt]
  refine keeps_bind ?_ fun x => ?_
  · exact keeps_onState fun s1 h1 => safe_of_mem (touchRow_mem ..) h1
  · exact keeps_get fun w1 h1 => keeps_bind (keeps_set h1) fun x2 => keeps_pure _

theorem keeps_writeAt (loc n v : Nat) (pois : Bool) : KeepsSafe (writeAt loc n v pois) := by
  rw [writeAt]
  refine keeps_get fun w hw => ?_
  split
  · exact keeps_bind keeps_markPois fun _ => keeps_pure _
  refine keeps_guard keeps_markPois (keeps_bind (keeps_onState fun s hs => ?_) fun _ => keeps_pure _)
  dsimp only
  have hv := safe_of_mem (touchRow_mem _ loc) (safe_setPois loc pois (safe_wrMem loc n v hs))
  split
  · exact safe_of_mem (asyncWrite_mem ..) hv
  · exact hv

theorem keeps_readData (j : Job) (t : Word) (n : Nat) : KeepsSafe (readData j t n) := by
  rw [readData]
  refine keeps_foldlM (fun b a => ?_) _
  refine keeps_bind (keeps_engPlace _ _ _ _ _) fun x1 => ?_
  refine keeps_bind (keeps_readAt _ _) fun x2 => ?_
  split
  exact keeps_pure _

theorem keeps_ctl (j : Job) (t : Word) : KeepsSafe (ctl j t) := by
  rw [ctl]
  refine keeps_bind (keeps_engPlace _ _ _ _ _) fun x => ?_
  refine keeps_bind (keeps_readAt _ _) fun x1 => ?_
  split
  split
  · exact keeps_endWith _ _
  · exact keeps_pure _

theorem keeps_ctlHead (j : Job) (t : Word) (al : Nat) : KeepsSafe (ctlHead j t al) := by
  rw [ctlHead]
  refine keeps_bind (keeps_engAddr _ _ _ _ _) fun x => ?_
  split
  · exact keeps_endWith _ _
  · exact keeps_pure _

theorem keeps_ctls (j : Job) (t : Word) (n : Nat) : KeepsSafe (ctls j t n) := by
  rw [ctls]
  exact keeps_mapM fun a => keeps_ctl _ _

theorem keeps_putCtl (j : Job) (t v : Word) : KeepsSafe (putCtl j t v) := by
  rw [putCtl]
  refine keeps_bind (keeps_engPlace _ _ _ _ _) fun x => ?_
  refine keeps_bind (keeps_writeAt _ _ _ _) fun x1 => ?_
  refine keeps_get fun w2 h2 => ?_
  split
  · exact keeps_count _
  · exact keeps_pure _

theorem keeps_barrierOf (j : Job) (on : Bool) (t : Word) : KeepsSafe (barrierOf j on t) := by
  rw [barrierOf]
  split
  · exact keeps_pure _
  · refine keeps_bind (keeps_engPlace _ _ _ _ _) fun x => ?_
    refine keeps_get fun w1 h1 => ?_
    split
    · exact keeps_pure _
    · exact keeps_endWith _ _

theorem keeps_countBar (bar : Option Nat) (n : Nat) : KeepsSafe (countBar bar n) := by
  unfold countBar
  split
  · split
    · exact keeps_pure _
    · refine keeps_modify fun w h => ?_
      refine safe_barrierCount ?_
      split
      · exact safe_of_mem (countObj_mem ..) h
      · exact h
  · exact keeps_pure _

theorem keeps_countBytes (bar : Option Nat) (n : Nat) : KeepsSafe (countBytes bar n) := by
  rw [countBytes]
  exact keeps_bind (keeps_count _) fun _ => keeps_countBar _ _

theorem keeps_eitherRead (loc n : Nat) : KeepsSafe (eitherRead loc n) := by
  rw [eitherRead]
  refine keeps_bind (keeps_readAt _ _) fun x => ?_
  split
  refine keeps_get fun w1 h1 => ?_
  dsimp only
  split
  · exact keeps_pure _
  · exact keeps_bind (keeps_onState fun s3 h3 => h3) fun x2 => keeps_pure _

theorem keeps_tileSource (j : Job) (d : Nat) (ta : Bool) (e : Nat) : KeepsSafe (tileSource j d ta e) := by
  rw [tileSource]
  split
  · refine keeps_bind ?_ fun x => ?_
    · exact keeps_modify fun w1 h1 => h1
    · split
      · exact keeps_pure _
      · exact keeps_throw _
      · exact keeps_pure _
  · refine keeps_bind (keeps_engPlace _ _ _ _ _) fun x => ?_
    refine keeps_get fun w1 h1 => ?_
    dsimp only
    split
    · refine keeps_bind (keeps_endWith _ _) fun _ => ?_
      split
      · exact keeps_bind (keeps_modify fun w4 h4 => h4) fun x3 => keeps_eitherRead _ _
      · exact keeps_eitherRead _ _
    · split
      · exact keeps_bind (keeps_modify fun w3 h3 => h3) fun x2 => keeps_eitherRead _ _
      · exact keeps_eitherRead _ _

theorem keeps_tileElem (j : Job) (d : Nat) (ta : Bool) (bar : Option Nat) (e : Nat) :
    KeepsSafe (tileElem j d ta bar e) := by
  rw [tileElem]
  refine keeps_bind (keeps_tileSource _ _ _ _) fun x => ?_
  split
  refine keeps_bind (keeps_engPlace _ _ _ _ _) fun x1 => ?_
  refine keeps_bind (keeps_writeAt _ _ _ _) fun x2 => ?_
  exact keeps_bind (keeps_countBytes _ _) fun _ => keeps_modify fun w4 h4 => h4

theorem keeps_tileAgain (j : Job) (d e : Nat) : KeepsSafe (tileAgain j d e) := by
  rw [tileAgain]
  refine keeps_bind (keeps_engPlace _ _ _ _ _) fun x => ?_
  refine keeps_bind (keeps_readAt _ _) fun x1 => ?_
  split
  refine keeps_bind (keeps_engPlace _ _ _ _ _) fun x2 => ?_
  exact keeps_bind (keeps_writeAt _ _ _ _) fun _ => keeps_pure _

theorem keeps_putProg (j : Job) (t : Word) (pcmd done : Nat) (rv : Bool) : KeepsSafe (putProg j t pcmd done rv) := by
  rw [putProg]
  refine keeps_tryCatch ?_ fun x => ?_
  · exact keeps_putCtl _ _ _
  · split
    · exact keeps_throw _
    · exact keeps_onOut _

theorem keeps_runTile (j : Job) (cmd d from_ : Nat) : KeepsSafe (runTile j cmd d from_) := by
  rw [runTile]
  refine keeps_get fun w hw => ?_
  extract_lets t total jp
  have hjp : ∀ u, KeepsSafe (jp u) := fun u => by
    refine keeps_bind (keeps_barrierOf _ _ _) fun b => keeps_bind (keeps_modify fun w hw => hw) fun _ => ?_
    refine keeps_bind (keeps_tryCatch (keeps_forM fun e => keeps_tileElem _ _ _ _ _) fun x => keeps_get fun w hw
      => ?_)
      fun _ => keeps_putProg _ _ _ _ _
    exact keeps_guard (keeps_putProg _ _ _ _ _) (keeps_throw _)
  split
  · exact keeps_bind (keeps_throw _) hjp
  · exact hjp ()

theorem keeps_readTile (j : Job) : KeepsSafe (readTile j) := by
  rw [readTile]
  split
  · refine keeps_bind (keeps_endWith _ _) fun x => ?_
    dsimp only
    refine keeps_bind (keeps_ctlHead _ _ _) fun _ => ?_
    refine keeps_bind (keeps_ctls _ _ _) fun x2 => ?_
    split
    · exact keeps_endWith _ _
    · exact keeps_pure _
  · dsimp only
    refine keeps_bind (keeps_ctlHead _ _ _) fun _ => ?_
    refine keeps_bind (keeps_ctls _ _ _) fun x1 => ?_
    split
    · exact keeps_endWith _ _
    · exact keeps_pure _

theorem keeps_runResume (j : Job) (d : Nat) : KeepsSafe (runResume j d) := by
  rw [runResume]
  split
  · exact keeps_endWith _ _
  · split
    · exact keeps_endWith _ _
    · split
      · exact keeps_putProg _ _ _ _ _
      · exact keeps_runTile _ _ _ _

theorem keeps_dealEnds (j : Job) (o : Nat) : KeepsSafe (dealEnds j o) := by
  rw [dealEnds]
  exact keeps_mapM fun a => keeps_engPlace _ _ _ _ _

theorem keeps_dealSource (j : Job) (o : Nat) : KeepsSafe (dealSource j o) := by
  rw [dealSource]
  refine keeps_bind (keeps_dealEnds _ _) fun x => ?_
  refine keeps_get fun w1 h1 => ?_
  split
  · exact keeps_bind (keeps_modify fun w3 h3 => h3) fun x2 => keeps_readData _ _ _
  · exact keeps_readData _ _ _

theorem keeps_dealThrottle (j : Job) (o b : Nat) : KeepsSafe (dealThrottle j o b) := by
  rw [dealThrottle]
  refine keeps_tryCatch ?_ fun x => ?_
  · refine keeps_forM fun a1 => ?_
    refine keeps_bind (keeps_dealEnds _ _) fun x2 => ?_
    refine keeps_get fun w3 h3 => ?_
    split
    · exact keeps_endWith _ _
    · exact keeps_pure _
  · split
    · exact keeps_throw _
    · exact keeps_throw _
    · exact keeps_pure _

theorem keeps_dealAgain (j : Job) (o : Nat) : KeepsSafe (dealAgain j o) := by
  rw [dealAgain]
  refine keeps_bind (keeps_readData _ _ _) fun x => ?_
  split
  exact keeps_bind (keeps_writeAt _ _ _ _) fun _ => keeps_pure _

theorem keeps_runDeal (j : Job) : KeepsSafe (runDeal j) := by
  rw [runDeal]
  refine keeps_guard (keeps_endWith _ _) (keeps_forM fun a => keeps_guard (keeps_dealThrottle _ _ _) ?_)
  refine keeps_forM fun b => keeps_bind (keeps_dealSource _ _) fun v => ?_
  exact keeps_bind (keeps_writeAt _ _ _ _) fun k => keeps_count _

theorem safe_exchange {s : State} {a b n : Nat} (hs : Safe s) : Safe (s.exchange a b n) := by
  rw [State.exchange]
  refine safe_foldl (fun t a h => ?_) ?_
  · exact safe_setPois _ _ (safe_wrMem _ _ _ (safe_setPois _ _ (safe_wrMem _ _ _ h)))
  · exact hs

/-! ## The matrix unit and the caster -/

theorem keeps_runMma (j : Job) : KeepsSafe (runMma j) := by
  rw [runMma]
  refine keeps_get fun w hw => ?_
  dsimp only
  split
  · exact keeps_endWith _ _
  · refine keeps_bind (keeps_onOut _) fun _ => keeps_guard (keeps_endWith _ _) ?_
    refine keeps_bind (keeps_onState fun s hs => safe_of_mem (updCore_mem ..) hs) fun _ => ?_
    split
    · exact keeps_forM fun i => keeps_bind (keeps_writeAt _ _ _ _) fun k => keeps_count _
    · exact keeps_pure _

theorem keeps_castWord (loc mask v : Nat) : KeepsSafe (castWord loc mask v) := by
  rw [castWord]
  split
  · exact keeps_bind (keeps_writeAt _ _ _ _) fun _ => keeps_pure _
  · refine keeps_forM fun a => ?_
    dsimp only
    split
    · exact keeps_get fun w1 h1 => keeps_bind (keeps_writeAt _ _ _ _) fun _ => keeps_pure _
    · exact keeps_pure _

theorem keeps_castBlock (base done : Nat) (es : List Nat) : KeepsSafe (castBlock base done es) := by
  rw [castBlock]
  exact keeps_bind (keeps_forM fun a1 => keeps_castWord _ _ _) fun x => keeps_count _

theorem keeps_readCoded (j : Job) (t : Word) : KeepsSafe (readCoded j t) := by
  rw [readCoded]
  exact keeps_bind (keeps_ctl _ _) fun x => keeps_bind (keeps_ctls _ _ _) fun x1 => keeps_pure _

theorem castBlocks_step (j : Job) (tables : Nat → Word) (base need : Nat) (bar : Option Nat) (n : Nat)
    (b : Nat.below (motive := fun _ => Word → Nat → Eng Unit) n)
    (hb : BelowHas (fun f => ∀ t done, KeepsSafe (f t done)) n b) (t : Word) (done : Nat) : KeepsSafe
    (castBlocks._f j tables base need bar n b t done) := by
  have hrc := keeps_readCoded
  have hcb := keeps_castBlock
  have hcnt := keeps_countBar
  delta castBlocks._f
  revert hrc hcb hcnt
  generalize readCoded = rc, castBlock = cb, countBar = cnt, codedBlock = cd
  as_aux_lemma =>
    intro hrc hcb hcnt
    split
    · exact keeps_pure _
    · split
      · exact keeps_pure _
      refine keeps_bind (hrc _ _) fun ws => ?_
      dsimp only
      split
      · exact keeps_endWith _ _
      refine keeps_bind (hcb _ _ _) fun _ => keeps_bind (keeps_forM fun x => ?_) fun _ => hb _ _
      split
      · exact hcnt _ _
      · exact keeps_pure _

theorem keeps_castBlocks (j : Job) (tables : Nat → Word) (base need : Nat) (bar : Option Nat) (n : Nat) (t : Word)
    (done : Nat) : KeepsSafe (castBlocks j tables base need bar n t done) := by
  delta castBlocks
  exact brecOn_has (α := Word → Nat → Eng Unit) (P := fun f => ∀ t done, KeepsSafe (f t done))
    (castBlocks_step j tables base need bar) n t done

theorem keeps_runCastDec (j : Job) : KeepsSafe (runCastDec j) := by
  rw [runCastDec]
  split
  · refine keeps_bind (keeps_endWith _ _) fun x => ?_
    refine keeps_bind (keeps_ctlHead _ _ _) fun _ => ?_
    refine keeps_bind (keeps_barrierOf _ _ _) fun x2 => ?_
    exact keeps_get fun w3 h3 => keeps_castBlocks _ _ _ _ _ _ _ _
  · refine keeps_bind (keeps_ctlHead _ _ _) fun _ => ?_
    refine keeps_bind (keeps_barrierOf _ _ _) fun x1 => ?_
    exact keeps_get fun w2 h2 => keeps_castBlocks _ _ _ _ _ _ _ _

theorem keeps_runCastPlane (j : Job) : KeepsSafe (runCastPlane j) := by
  unfold runCastPlane
  extract_lets f n c off src raw go
  have hgo : ∀ u, KeepsSafe (go u) := by
    intro u
    refine keeps_bind (keeps_barrierOf _ _ _) fun bar => keeps_forM fun g => ?_
    refine keeps_bind (keeps_mapM fun e => ?_) fun es => ?_
    · split
      · exact keeps_bind (keeps_readData _ _ _) fun _ => keeps_pure _
      · exact keeps_readData _ _ _
    · extract_lets fill
      have hfill : ∀ xs, KeepsSafe (fill xs) := fun xs =>
        keeps_forM fun i => keeps_bind (keeps_writeAt _ _ _ _) fun k => keeps_countBytes _ _
      split
      · exact keeps_bind (keeps_mapM fun b => keeps_readData _ _ _) hfill
      · exact keeps_bind (keeps_pure _) hfill
  split
  · exact keeps_bind (keeps_endWith _ _) hgo
  · exact hgo ()

theorem keeps_runCastTable (j : Job) : KeepsSafe (runCastTable j) := by
  rw [runCastTable]
  split
  · exact keeps_endWith _ _
  · split
    · exact keeps_endWith _ _
    · exact keeps_onState fun s h => h

/-! ## KV pages, the tree of prefixes, page moves -/

theorem keeps_wholeOrNone {m : Eng Unit} (hm : KeepsSafe m) : KeepsSafe (wholeOrNone m) := by
  rw [wholeOrNone]
  refine keeps_get fun w h => ?_
  have hw := hm w h
  split
  · rename_i e
    rw [e] at hw
    split
    · exact keeps_throw _
    · exact keeps_throw _
    · exact keeps_throw _
    · exact keeps_throw _
    · exact keeps_bind (keeps_set hw) fun _ => keeps_throw _
  · rename_i e
    rw [e] at hw
    exact keeps_set hw

theorem keeps_needDesc (b : Bool) : KeepsSafe (needDesc b) := by
  rw [needDesc]
  split
  · exact keeps_pure _
  · exact keeps_endWith _ _

theorem keeps_needVault (j : Job) (t : Word) (kind : AKind) : KeepsSafe (needVault j t kind) := by
  rw [needVault]
  refine keeps_bind (keeps_engPlace _ _ _ _ _) fun x => ?_
  split
  · exact keeps_pure _
  · exact keeps_endWith _ _

theorem keeps_readPool (j : Job) (t : Word) : KeepsSafe (readPool j t) := by
  rw [readPool]
  refine keeps_bind (keeps_ctlHead _ _ _) fun _ => ?_
  refine keeps_bind (keeps_ctls _ _ _) fun x1 => ?_
  refine keeps_bind (keeps_needDesc _) fun _ => ?_
  exact keeps_bind (keeps_ctlHead _ _ _) fun _ => keeps_pure _

theorem keeps_readPage (j : Job) (x : Pool) (p : Nat) : KeepsSafe (readPage j x p) := by
  rw [readPage]
  refine keeps_bind (keeps_ctlHead _ _ _) fun _ => ?_
  refine keeps_bind (keeps_ctls _ _ _) fun x1 => ?_
  exact keeps_bind (keeps_ctls _ _ _) fun x2 => keeps_bind (keeps_needDesc _) fun _ => keeps_pure _

theorem keeps_putPage0 (j : Job) (x : Pool) (p ref : Nat) (fill live : Nat) :
    KeepsSafe (putPage0 j x p ref fill live) := by
  rw [putPage0]
  exact keeps_putCtl _ _ _

theorem keeps_putBitmap (j : Job) (x : Pool) (p bm : Nat) : KeepsSafe (putBitmap j x p bm) := by
  rw [putBitmap]
  exact keeps_forM fun a => keeps_putCtl _ _ _

theorem keeps_putRef (j : Job) (x : Pool) (p ref : Nat) : KeepsSafe (putRef j x p ref) := by
  rw [putRef]
  refine keeps_bind (keeps_ctl _ _) fun x => ?_
  refine keeps_bind (keeps_putCtl _ _ _) fun _ => ?_
  refine keeps_bind (keeps_engPlace _ _ _ _ _) fun x2 => ?_
  refine keeps_onState fun s3 h3 => ?_
  exact safe_of_mem (wakeLine_mem ..) (safe_of_mem (dropReadBufs_mem ..) h3)

theorem keeps_putFree (j : Job) (x : Pool) (p : Nat) (free : Bool) : KeepsSafe (putFree j x p free) := by
  rw [putFree]
  exact keeps_bind (keeps_ctl _ _) fun x => keeps_putCtl _ _ _

theorem keeps_freeIn (j : Job) (x : Pool) (v : Nat) : KeepsSafe (freeIn j x v) := by
  rw [freeIn]
  exact keeps_bind (keeps_ctls _ _ _) fun x => keeps_pure _

theorem keeps_takePage (j : Job) (x : Pool) (p kfmt : Nat) : KeepsSafe (takePage j x p kfmt) := by
  rw [takePage]
  refine keeps_bind (keeps_putFree _ _ _ _) fun _ => ?_
  refine keeps_bind (keeps_putPage0 _ _ _ _ _ _) fun _ => ?_
  refine keeps_bind (keeps_putCtl _ _ _) fun _ => ?_
  exact keeps_bind (keeps_forM fun a4 => keeps_putCtl _ _ _) fun x3 => keeps_putBitmap _ _ _ _

theorem keeps_readChain (j : Job) (t : Word) : KeepsSafe (readChain j t) := by
  rw [readChain]
  refine keeps_bind (keeps_ctlHead _ _ _) fun _ => ?_
  refine keeps_bind (keeps_needVault _ _ _) fun _ => ?_
  refine keeps_bind (keeps_ctls _ _ _) fun x2 => ?_
  refine keeps_bind (keeps_needDesc _) fun _ => ?_
  refine keeps_bind (keeps_readPool _ _) fun x4 => ?_
  exact keeps_bind (keeps_ctls _ _ _) fun x5 => keeps_bind (keeps_needDesc _) fun _ => keeps_pure _

theorem keeps_putChain (j : Job) (c : Chain) (npg nextv : Nat) : KeepsSafe (putChain j c npg nextv) := by
  rw [putChain]
  exact keeps_putCtl _ _ _

theorem keeps_putChainEntry (j : Job) (c : Chain) (n : Nat) (e : Word) : KeepsSafe (putChainEntry j c n e) := by
  rw [putChainEntry]
  exact keeps_putCtl _ _ _

theorem keeps_findPage (j : Job) (c : Chain) (x : Pool) (m k : Nat) : KeepsSafe (findPage j c x m k) := by
  induction m generalizing j c x k with
  | zero =>
    rw [findPage]
    exact keeps_endWith _ _
  | succ n ih =>
    rw [findPage]
    refine keeps_bind (keeps_freeIn _ _ _) fun x => ?_
    split
    · exact keeps_pure _
    · exact ih _ _ _ _

theorem keeps_allocPage (j : Job) (c : Chain) (x : Pool) : KeepsSafe (allocPage j c x) := by
  rw [allocPage]
  split
  · refine keeps_bind (keeps_endWith _ _) fun x => ?_
    refine keeps_bind (keeps_findPage _ _ _ _ _) fun x1 => ?_
    refine keeps_bind (keeps_takePage _ _ _ _) fun _ => ?_
    refine keeps_bind (keeps_putChainEntry _ _ _ _) fun _ => ?_
    exact keeps_bind (keeps_putChain _ _ _ _) fun _ => keeps_pure _
  · refine keeps_bind (keeps_findPage _ _ _ _ _) fun x => ?_
    refine keeps_bind (keeps_takePage _ _ _ _) fun _ => ?_
    refine keeps_bind (keeps_putChainEntry _ _ _ _) fun _ => ?_
    exact keeps_bind (keeps_putChain _ _ _ _) fun _ => keeps_pure _

theorem keeps_copyWords (j : Job) (src dst : Word) (n : Nat) : KeepsSafe (copyWords j src dst n) := by
  rw [copyWords]
  refine keeps_forM fun a => ?_
  refine keeps_bind (keeps_engPlace _ _ _ _ _) fun x1 => ?_
  refine keeps_bind (keeps_readAt _ _) fun x2 => ?_
  split
  refine keeps_bind (keeps_engPlace _ _ _ _ _) fun x3 => ?_
  exact keeps_bind (keeps_writeAt _ _ _ _) fun _ => keeps_pure _

theorem keeps_copyPage (j : Job) (c : Chain) (x : Pool) (p : Nat) (g : Page) : KeepsSafe (copyPage j c x p g) := by
  rw [copyPage]
  refine keeps_bind (keeps_ctls _ _ _) fun x => ?_
  refine keeps_bind (keeps_findPage _ _ _ _ _) fun x1 => ?_
  refine keeps_bind (keeps_takePage _ _ _ _) fun _ => ?_
  refine keeps_bind (keeps_putPage0 _ _ _ _ _ _) fun _ => ?_
  refine keeps_bind (keeps_putBitmap _ _ _ _) fun _ => ?_
  refine keeps_bind ?_ fun x5 => ?_
  · exact keeps_forM fun a6 => keeps_putCtl _ _ _
  · exact keeps_bind (keeps_copyWords _ _ _ _) fun _ => keeps_pure _

theorem keeps_swapPage (j : Job) (c : Chain) (x : Pool) (n p q : Nat) (g : Page) :
    KeepsSafe (swapPage j c x n p q g) := by
  rw [swapPage]
  refine keeps_bind (keeps_putChainEntry _ _ _ _) fun _ => ?_
  refine keeps_bind (keeps_putChain _ _ _ _) fun _ => ?_
  split
  · exact keeps_bind (keeps_endWith _ _) fun _ => keeps_putRef _ _ _ _
  · exact keeps_putRef _ _ _ _

theorem keeps_putToken (j : Job) (x : Pool) (p : Nat) (g : Page) (data : List (Nat × Bool)) (id : Nat) :
    KeepsSafe (putToken j x p g data id) := by
  rw [putToken]
  refine keeps_bind ?_ fun x => ?_
  · refine keeps_forM fun a1 => ?_
    refine keeps_bind (keeps_engPlace _ _ _ _ _) fun x2 => ?_
    exact keeps_bind (keeps_writeAt _ _ _ _) fun _ => keeps_pure _
  · refine keeps_bind (keeps_engPlace _ _ _ _ _) fun x1 => ?_
    refine keeps_bind (keeps_writeAt _ _ _ _) fun _ => ?_
    exact keeps_bind (keeps_putBitmap _ _ _ _) fun _ => keeps_putPage0 _ _ _ _ _ _

theorem keeps_runKvAlloc (j : Job) : KeepsSafe (runKvAlloc j) := by
  rw [runKvAlloc]
  refine keeps_wholeOrNone ?_
  refine keeps_bind (keeps_needDesc _) fun _ => ?_
  refine keeps_bind (keeps_readChain _ _) fun x2 => ?_
  split
  exact keeps_bind (keeps_allocPage _ _ _) fun x3 => keeps_count _

theorem keeps_freeEntries (j : Job) (c : Chain) (x : Pool) (m : Nat) : KeepsSafe (freeEntries j c x m) := by
  induction m generalizing j c x with
  | zero =>
    rw [freeEntries]
    exact keeps_putChain _ _ _ _
  | succ n ih =>
    rw [freeEntries]
    refine keeps_bind (keeps_ctl _ _) fun x => ?_
    dsimp only
    split
    · refine keeps_bind (keeps_putChain _ _ _ _) fun _ => ?_
      refine keeps_bind (keeps_endWith _ _) fun _ => ?_
      refine keeps_bind (keeps_putRef _ _ _ _) fun _ => ?_
      split
      · exact keeps_bind (keeps_putFree _ _ _ _) fun _ => keeps_bind (keeps_count _) fun _ => ih _ _ _
      · exact keeps_bind (keeps_count _) fun _ => ih _ _ _
    · refine keeps_bind (keeps_putRef _ _ _ _) fun _ => ?_
      split
      · exact keeps_bind (keeps_putFree _ _ _ _) fun _ => keeps_bind (keeps_count _) fun _ => ih _ _ _
      · exact keeps_bind (keeps_count _) fun _ => ih _ _ _

theorem keeps_runKvFree (j : Job) : KeepsSafe (runKvFree j) := by
  rw [runKvFree]
  refine keeps_wholeOrNone ?_
  refine keeps_bind (keeps_needDesc _) fun _ => ?_
  refine keeps_bind (keeps_readChain _ _) fun x2 => ?_
  split
  refine keeps_bind ?_ fun x3 => ?_
  · exact keeps_forM fun a4 => keeps_bind (keeps_readPage _ _ _) fun _ => keeps_pure _
  · exact keeps_freeEntries _ _ _ _

theorem keeps_runKvAppend (j : Job) : KeepsSafe (runKvAppend j) := by
  rw [runKvAppend]
  refine keeps_wholeOrNone ?_
  refine keeps_bind (keeps_readChain _ _) fun x1 => ?_
  split
  dsimp only
  refine keeps_bind ?_ fun x2 => ?_
  · exact keeps_mapM fun a3 => keeps_readData _ _ _
  · split
    · refine keeps_bind (keeps_pure _) fun x3 => ?_
      split
      · refine keeps_bind (keeps_allocPage _ _ _) fun x4 => ?_
        exact keeps_bind (keeps_putToken _ _ _ _ _ _) fun _ => keeps_count _
      · split
        · refine keeps_bind (keeps_copyPage _ _ _ _ _) fun x4 => ?_
          refine keeps_bind (keeps_putToken _ _ _ _ _ _) fun _ => ?_
          exact keeps_bind (keeps_swapPage _ _ _ _ _ _ _) fun _ => keeps_count _
        · exact keeps_bind (keeps_putToken _ _ _ _ _ _) fun _ => keeps_count _
    · refine keeps_bind (keeps_readPage _ _ _) fun x3 => ?_
      split
      · refine keeps_bind (keeps_allocPage _ _ _) fun x4 => ?_
        exact keeps_bind (keeps_putToken _ _ _ _ _ _) fun _ => keeps_count _
      · split
        · refine keeps_bind (keeps_copyPage _ _ _ _ _) fun x4 => ?_
          refine keeps_bind (keeps_putToken _ _ _ _ _ _) fun _ => ?_
          exact keeps_bind (keeps_swapPage _ _ _ _ _ _ _) fun _ => keeps_count _
        · exact keeps_bind (keeps_putToken _ _ _ _ _ _) fun _ => keeps_count _

theorem keeps_runKvEvict (j : Job) : KeepsSafe (runKvEvict j) := by
  rw [runKvEvict]
  refine keeps_wholeOrNone (keeps_bind (keeps_needDesc _) fun _ => keeps_bind (keeps_readChain _ _) fun x => ?_)
  split
  extract_lets n w p0 checked
  have hchecked : ∀ u, KeepsSafe (checked u) := fun u => by
    refine keeps_bind (keeps_needDesc _) fun _ => keeps_bind (keeps_readPage _ _ _) fun g => ?_
    extract_lets ref live out stay packed
    have hpacked : ∀ p, KeepsSafe (packed p) := fun p => by
      refine keeps_bind (keeps_forM fun q => ?_) fun _ => ?_
      · split
        · exact keeps_pure _
        · exact keeps_copyWords _ _ _ _
      · refine keeps_bind (keeps_putBitmap _ _ _ _) fun _ => ?_
        exact keeps_bind (keeps_putPage0 _ _ _ _ _ _) fun _ => keeps_count _
    split
    · refine keeps_bind (keeps_copyPage _ _ _ _ _) fun q => keeps_bind (keeps_swapPage _ _ _ _ _ _ _) fun _ => ?_
      exact keeps_bind (keeps_pure _) hpacked
    · exact keeps_bind (keeps_pure _) hpacked
  split
  · exact keeps_bind (keeps_endWith _ _) hchecked
  · exact hchecked ()

theorem keeps_readTree (j : Job) (t : Word) : KeepsSafe (readTree j t) := by
  rw [readTree]
  refine keeps_bind (keeps_ctlHead _ _ _) fun _ => ?_
  refine keeps_bind (keeps_needVault _ _ _) fun _ => ?_
  refine keeps_bind (keeps_ctls _ _ _) fun x2 => ?_
  refine keeps_bind (keeps_needDesc _) fun _ => ?_
  exact keeps_bind (keeps_readPool _ _) fun x4 => keeps_pure _

theorem keeps_readNode (j : Job) (root t : Word) : KeepsSafe (readNode j root t) := by
  rw [readNode]
  refine keeps_bind (keeps_ctlHead _ _ _) fun _ => ?_
  refine keeps_bind (keeps_needVault _ _ _) fun _ => ?_
  refine keeps_bind (keeps_ctls _ _ _) fun x2 => ?_
  dsimp only
  split
  · exact keeps_bind (keeps_endWith _ _) fun _ => keeps_pure _
  · exact keeps_pure _

theorem keeps_putNode0 (j : Job) (t : Word) (ntok ref : Nat) : KeepsSafe (putNode0 j t ntok ref) := by
  rw [putNode0]
  exact keeps_putCtl _ _ _

theorem keeps_tokId (j : Job) (t : Word) : KeepsSafe (tokId j t) := by
  rw [tokId]
  refine keeps_bind (keeps_engPlace _ _ _ _ _) fun x => ?_
  refine keeps_bind (keeps_readAt _ _) fun x1 => ?_
  split
  split
  · exact keeps_endWith _ _
  · exact keeps_pure _

theorem keeps_sameIds (j : Job) (a b : Word) (m : Nat) : KeepsSafe (sameIds j a b m) := by
  induction m generalizing j a b with
  | zero =>
    rw [sameIds]
    exact keeps_pure _
  | succ n ih =>
    rw [sameIds]
    refine keeps_bind (keeps_tokId _ _) fun x => ?_
    refine keeps_bind (keeps_tokId _ _) fun x1 => ?_
    split
    · exact ih _ _ _
    · exact keeps_pure _

theorem keeps_findChild (j : Job) (x : Pool) (root ids : Word) (left m : Nat) (v : Word) :
    KeepsSafe (findChild j x root ids left m v) := by
  induction m generalizing j x root ids left v with
  | zero =>
    rw [findChild]
    exact keeps_pure _
  | succ n ih =>
    rw [findChild]
    split
    · exact keeps_pure _
    · refine keeps_bind (keeps_readNode _ _ _) fun x => ?_
      refine keeps_bind (keeps_needDesc _) fun _ => ?_
      dsimp only
      split
      · refine keeps_bind (keeps_pure _) fun x2 => ?_
        split
        · exact keeps_pure _
        · exact ih _ _ _ _ _ _
      · refine keeps_bind (keeps_sameIds _ _ _ _) fun x2 => ?_
        split
        · exact keeps_pure _
        · exact ih _ _ _ _ _ _

theorem keeps_endMatch (j : Job) (query : Word) (d : Nat) (node : Word) (cause : Nat) :
    KeepsSafe (endMatch j query d node cause) := by
  rw [endMatch]
  refine keeps_bind (keeps_putCtl _ _ _) fun _ => ?_
  refine keeps_bind (keeps_putCtl _ _ _) fun _ => ?_
  split
  · exact keeps_pure _
  · exact keeps_endWith _ _

theorem keeps_matchLoop (j : Job) (x : Pool) (root query ids : Word) (nq m : Nat) (arg : Chain) (node : PfxNode)
    (y10 y11 : Nat) : KeepsSafe (matchLoop j x root query ids nq m arg node y10 y11) := by
  induction m generalizing j x root query ids nq arg node y10 y11 with
  | zero =>
    rw [matchLoop]
    exact keeps_endMatch _ _ _ _ _
  | succ n ih =>
    rw [matchLoop]
    refine keeps_bind (keeps_findChild _ _ _ _ _ _ _) fun x => ?_
    split
    · exact keeps_endMatch _ _ _ _ _
    · refine keeps_bind (keeps_readPage _ _ _) fun x1 => ?_
      split
      · exact keeps_endMatch _ _ _ _ _
      · split
        · exact keeps_endMatch _ _ _ _ _
        · refine keeps_bind (keeps_putNode0 _ _ _ _) fun _ => ?_
          refine keeps_bind (keeps_putRef _ _ _ _) fun _ => ?_
          refine keeps_bind (keeps_putChainEntry _ _ _ _) fun _ => ?_
          refine keeps_bind (keeps_putChain _ _ _ _) fun _ => ?_
          refine keeps_bind (keeps_count _) fun _ => ?_
          split
          · exact keeps_endMatch _ _ _ _ _
          · exact ih _ _ _ _ _ _ _ _ _ _

theorem keeps_runPfxMatch (j : Job) : KeepsSafe (runPfxMatch j) := by
  rw [runPfxMatch]
  refine keeps_wholeOrNone ?_
  refine keeps_bind (keeps_needDesc _) fun _ => ?_
  refine keeps_bind (keeps_readTree _ _) fun x2 => ?_
  refine keeps_bind (keeps_ctlHead _ _ _) fun _ => ?_
  refine keeps_bind (keeps_ctls _ _ _) fun x4 => ?_
  refine keeps_bind (keeps_needDesc _) fun _ => ?_
  refine keeps_bind (keeps_readChain _ _) fun x6 => ?_
  exact keeps_bind (keeps_readNode _ _ _) fun x7 => keeps_matchLoop _ _ _ _ _ _ _ _ _ _ _

theorem keeps_insertNode (j : Job) (t : Machine.Tree) (node : PfxNode) (free e : Word) (g : Page) :
    KeepsSafe (insertNode j t node free e g) := by
  rw [insertNode]
  refine keeps_guard (keeps_endWith _ _) (keeps_bind (keeps_readNode _ _ _) fun n => keeps_guard (keeps_endWith _
    _) ?_)
  refine keeps_bind (keeps_putCtl _ _ _) fun _ => ?_
  refine keeps_bind (keeps_putNode0 _ _ _ _) fun _ => ?_
  iterate 5 refine keeps_bind (keeps_putCtl _ _ _) fun _ => ?_
  exact keeps_bind (keeps_putRef _ _ _ _) fun _ => keeps_bind (keeps_count _) fun _ => keeps_pure _

theorem keeps_insertNodes (j : Job) (t : Machine.Tree) (ws : List Word) (node : PfxNode) (v : Word) :
    KeepsSafe (insertNodes j t ws node v) := by
  induction ws generalizing j t node v with
  | nil =>
    rw [insertNodes]
    exact keeps_pure _
  | cons x xs ih =>
    rw [insertNodes]
    refine keeps_bind (keeps_readPage _ _ _) fun x => ?_
    split
    · exact keeps_pure _
    · refine keeps_bind (keeps_insertNode _ _ _ _ _ _) fun x1 => ?_
      split
      split
      · exact keeps_pure _
      · exact ih _ _ _ _

theorem keeps_insertFrom (j : Job) (t : Machine.Tree) (ws : List Word) (node : PfxNode) :
    KeepsSafe (insertFrom j t ws node) := by
  induction ws generalizing j t node with
  | nil =>
    rw [insertFrom]
    exact keeps_pure _
  | cons x xs ih =>
    rw [insertFrom]
    refine keeps_bind (keeps_readPage _ _ _) fun x => ?_
    refine keeps_bind (keeps_findChild _ _ _ _ _ _ _) fun x1 => ?_
    split
    · split
      · exact keeps_pure _
      · exact ih _ _ _
    · exact keeps_insertNodes _ _ _ _ _

theorem keeps_runPfxInsert (j : Job) : KeepsSafe (runPfxInsert j) := by
  rw [runPfxInsert]
  refine keeps_wholeOrNone ?_
  refine keeps_bind (keeps_needDesc _) fun _ => ?_
  refine keeps_bind (keeps_readTree _ _) fun x2 => ?_
  refine keeps_bind (keeps_readChain _ _) fun x3 => ?_
  split
  exact keeps_bind (keeps_readNode _ _ _) fun x4 => keeps_insertFrom _ _ _ _

theorem keeps_unrefUp (j : Job) (root : Word) (m : Nat) (v : Word) : KeepsSafe (unrefUp j root m v) := by
  induction m generalizing j root v with
  | zero =>
    rw [unrefUp]
    exact keeps_pure _
  | succ n ih =>
    rw [unrefUp]
    split
    · exact keeps_pure _
    · refine keeps_bind (keeps_readNode _ _ _) fun x => ?_
      split
      · refine keeps_bind (keeps_endWith _ _) fun _ => ?_
        exact keeps_bind (keeps_putNode0 _ _ _ _) fun _ => ih _ _ _
      · exact keeps_bind (keeps_putNode0 _ _ _ _) fun _ => ih _ _ _

theorem keeps_unlink (j : Job) (t next : Word) (m : Nat) (v : Word) : KeepsSafe (unlink j t next m v) := by
  induction m generalizing j t next v with
  | zero =>
    rw [unlink]
    exact keeps_pure _
  | succ n ih =>
    rw [unlink]
    refine keeps_bind (keeps_ctl _ _) fun x => ?_
    split
    · exact keeps_putCtl _ _ _
    · split
      · exact keeps_pure _
      · exact ih _ _ _ _

theorem keeps_freeUp (j : Job) (t : Machine.Tree) (root : Word) (fuel : Nat) (tok : Word) :
    KeepsSafe (freeUp j t root fuel tok) := by
  induction fuel generalizing tok with
  | zero =>
    rw [freeUp]
    exact keeps_pure _
  | succ n ih =>
    rw [freeUp]
    split
    · exact keeps_pure _
    refine keeps_bind (keeps_readNode _ _ _) fun x => ?_
    split
    · exact keeps_pure _
    refine keeps_bind (keeps_needDesc _) fun _ => keeps_bind (keeps_unlink _ _ _ _ _) fun _ => ?_
    refine keeps_bind (keeps_readPage _ _ _) fun g => keeps_guard (keeps_endWith _ _) ?_
    refine keeps_bind (keeps_putRef _ _ _ _) fun _ => keeps_guard (keeps_putFree _ _ _ _) ?_
    refine keeps_bind (keeps_ctl _ _) fun v => keeps_bind (keeps_putCtl _ _ _) fun _ => ?_
    exact keeps_bind (keeps_putCtl _ _ _) fun _ => ih _

theorem keeps_runPfxUnref (j : Job) : KeepsSafe (runPfxUnref j) := by
  rw [runPfxUnref]
  refine keeps_wholeOrNone ?_
  refine keeps_bind (keeps_needDesc _) fun _ => ?_
  refine keeps_bind (keeps_readTree _ _) fun x2 => ?_
  refine keeps_bind ?_ fun x3 => ?_
  · exact keeps_modify fun w4 h4 => h4
  · split
    · refine keeps_bind (keeps_readNode _ _ _) fun x4 => ?_
      split
      · refine keeps_bind (keeps_endWith _ _) fun _ => ?_
        exact keeps_bind (keeps_putNode0 _ _ _ _) fun _ => keeps_freeUp _ _ _ _ _
      · exact keeps_bind (keeps_putNode0 _ _ _ _) fun _ => keeps_freeUp _ _ _ _ _
    · exact keeps_bind (keeps_unrefUp _ _ _ _) fun _ => keeps_freeUp _ _ _ _ _

theorem rehome_mem (s : State) (lo new size : Nat) : (s.rehome lo new size).mem = s.mem := rfl

theorem dropPage_mem (s : State) (lo size : Nat) : (s.dropPage lo size).mem = s.mem := rfl

theorem dropFrame_mem (s : State) (lo size : Nat) : (s.dropFrame lo size).mem = s.mem := rfl

theorem keeps_runPromote (j : Job) : KeepsSafe (runPromote j) := by
  rw [runPromote]
  refine keeps_bind (keeps_engAddr _ _ _ _ _) fun x => keeps_guard (keeps_endWith _ _) (keeps_get fun w hw => ?_)
  split
  · exact keeps_endWith _ _
  · refine keeps_bind (keeps_needDesc _) fun _ => ?_
    dsimp only
    split
    · exact keeps_endWith _ _
    split
    · exact keeps_throw _
    refine keeps_bind (keeps_forM fun a => keeps_bind (keeps_readAt _ _) fun x =>
      keeps_bind (keeps_writeAt _ _ _ _) fun _ => keeps_onState fun s hs => safe_setFull _ _ hs) fun _ => ?_
    split
    · exact keeps_bind (keeps_count _) fun _ => keeps_pure _
    · refine keeps_bind (keeps_onState fun s hs => ?_) fun _ => keeps_bind (keeps_count _) fun _ => keeps_pure _
      refine safe_of_mem ((dropFrame_mem ..).trans ((dropPage_mem ..).trans (rehome_mem ..))) ?_
      exact safe_of_mem (touchRow_mem ..) (safe_of_mem (dropReadBufs_mem ..) (safe_wrMem _ _ _ hs))

theorem keeps_runRequant (j : Job) : KeepsSafe (runRequant j) := by
  rw [runRequant]
  refine keeps_bind (keeps_needDesc _) fun _ => keeps_bind (keeps_ctl _ _) fun e => ?_
  refine keeps_bind (keeps_readPool _ _) fun x => keeps_bind (keeps_needDesc _) fun _ => ?_
  refine keeps_bind (keeps_readPage _ _ _) fun g => keeps_bind (keeps_needDesc _) fun _ => ?_
  refine keeps_guard (keeps_endWith _ _) (keeps_bind (keeps_engPlace _ _ _ _ _) fun base => keeps_get fun w hw => ?_)
  refine keeps_guard (keeps_throw _) (keeps_bind (keeps_ctls _ _ _) fun ids => keeps_bind (keeps_freeIn _ _ _)
    fun o => ?_)
  split
  · exact keeps_endWith _ _
  refine keeps_bind (keeps_takePage _ _ _ _) fun _ => keeps_bind (keeps_putPage0 _ _ _ _ _ _) fun _ => ?_
  refine keeps_bind (keeps_putBitmap _ _ _ _) fun _ => keeps_bind (keeps_forM fun i => keeps_putCtl _ _ _) fun _ => ?_
  refine keeps_bind (keeps_forM fun s => ?_) fun _ => ?_
  · refine keeps_bind (keeps_mapM fun i => keeps_bind (keeps_engPlace _ _ _ _ _) fun loc => keeps_readAt _ _) fun
      ws => ?_
    refine keeps_forM fun i => keeps_bind (keeps_engPlace _ _ _ _ _) fun loc => ?_
    exact keeps_bind (keeps_writeAt _ _ _ _) fun _ => keeps_pure _
  split
  · exact keeps_bind (keeps_count _) fun _ => keeps_pure _
  refine keeps_bind (keeps_putCtl _ _ _) fun _ => keeps_bind (keeps_engPlace _ _ _ _ _) fun to_ => ?_
  refine keeps_bind (keeps_onState fun s hs => ?_) fun _ => keeps_bind (keeps_count _) fun _ => keeps_pure _
  exact safe_of_mem ((dropFrame_mem ..).trans (dropPage_mem ..)) hs

/-! ## The life of a command -/

theorem commandOp_mem (i : Instr) (eng cmd : Nat) (c : Long) (s : State) : (commandOp i eng cmd c s).mem = s.mem := by
  rw [commandOp]
  split
  · rfl
  · exact mem_skipWord ..
  · rw [updF_mem, mem_fireWith]
  · rw [updF_mem, mem_fireWith]
  · split
    · rw [updF_mem, mem_fireWith]
    · split
      · split
        · rw [updF_mem, mem_fireWith]
        · rfl
      · rw [updF_mem, fireOut_mem, updCore_mem]

theorem safe_releaseCmd {s : State} {c : Nat} {x : Cmd} (hs : Safe s) : Safe (s.releaseCmd c x) := by
  rw [State.releaseCmd]
  refine safe_of_mem (nextSerial_mem ..) ?_
  refine safe_of_mem (updCore_mem ..) ?_
  exact safe_setFull _ _ (safe_of_mem (dropReadBufs_mem ..) (safe_wrWord _ _ hs))

theorem safe_endCmd {s : State} {c : Nat} {x : Cmd} {e : CmdEnd} {silent : Bool} (hs : Safe s) :
    Safe (s.endCmd c x e silent) := by
  rw [State.endCmd]
  refine safe_of_mem (noteQuiet_mem ..) ?_
  refine safe_of_mem (wakeGuard_mem ..) ?_
  dsimp only [Safe]
  refine wf_of_safe ?_
  refine safe_of_mem (retireBufs_mem ..) ?_
  refine safe_of_mem (updCore_mem ..) ?_
  refine safe_storeFull ?_
  refine safe_of_mem (dropReadBufs_mem ..) ?_
  split
  · refine safe_of_mem (wakeSem_mem ..) ?_
    refine safe_of_mem (signalSem_mem ..) ?_
    exact safe_of_mem (setSem_mem ..) (safe_of_mem (cmdRecord_mem ..) hs)
  · exact safe_of_mem (cmdRecord_mem ..) hs

theorem joinGroup_mem (s : State) (c : Nat) (x : Cmd) : (s.joinGroup c x).mem = s.mem := by
  rw [State.joinGroup]
  split
  · rfl
  · dsimp only
    split <;> exact updSquare_mem ..

theorem safe_groupVals {j : Job} {ta : Bool} {es : List Nat} {w : Work} (hw : Safe w.s) :
    Safe (groupVals j ta es w).2.2.s := by
  induction es generalizing w with
  | nil => exact hw
  | cons e es ih =>
    have he := keeps_tileSource j j.c.desc.toNat ta e w hw
    rw [groupVals]
    split
    · rename_i h
      rw [h] at he
      exact ih he
    · rename_i h
      rw [h] at he
      exact he

theorem safe_readGroup {s : State} {ms : List (Nat × Nat)} {t : State} (hs : Safe s) (h : s.readGroup ms = some t) :
    Safe t := by
  rw [State.readGroup] at h
  dsimp only at h
  split at h
  · cases h
    exact hs
  · rename_i j _ _
    have hw := fun ta => safe_groupVals (j := j) (ta := ta) (es := List.range (tdTotal j.c.desc.toNat)) (w := { s
      := s }) hs
    split at h
    · cases h
      exact safe_foldl (fun _ _ h => safe_of_mem (updCore_mem ..) h) (hw _)
    · cases h
      exact safe_foldl (fun _ _ h => safe_of_mem (updCore_mem ..) h) (hw _)
    · cases h

theorem next_execMulticastWindowClose {sq n : Nat} {s : State} (hs : Safe s) :
    NextSafe (execMulticastWindowClose sq n s) := by
  rw [execMulticastWindowClose]
  refine nextSafe_next ?_
  split
  · split
    · exact hs
    · split
      · refine safe_of_mem (updSquare_mem ..) ?_
        rename_i e
        exact safe_readGroup hs e
      · exact hs
  · exact hs

theorem startMove_mem {s : State} {c : Nat} {x : Cmd} {q : State × Cmd} (h : s.startMove c x = some q) :
    q.1.mem = s.mem := by
  unfold State.startMove at h
  dsimp only at h
  generalize hp : (if x.cmd = 2 then _ else _ : State × Cmd) = p at h
  have hu : p.1.mem = s.mem := by
    rw [← hp]
    split <;> rfl
  split at h
  · cases h
  · cases h
    exact hu
  · split at h
    · cases h
      exact hu
    · cases h
      exact (updVault_mem ..).trans hu

theorem safe_beginCmd {s : State} {c : Nat} {x : Cmd} {q : State × Cmd} (hs : Safe s) (h : s.beginCmd c x = some q) :
    Safe q.1 := by
  unfold State.beginCmd at h
  dsimp only at h
  split at h
  · split at h
    · rename_i e
      cases h
      exact safe_of_runEng e (keeps_readTile _) hs
    · cases h
    · rename_i e
      cases h
      exact safe_of_runEng e (keeps_readTile _) hs
  · split at h
    · exact safe_of_mem (startMove_mem h) hs
    · cases h
      exact hs

theorem markRanges_mem {s : State} {c : Nat} {x : Cmd} {t : State} (h : (s.markRanges c x) = some t) :
    t.mem = s.mem := by
  rw [State.markRanges] at h
  split at h
  · cases h
    exact updCore_mem ..
  · split at h
    · cases h
      rfl
    · split at h
      · cases h
      · cases h
        exact updCore_mem ..

theorem safe_startCmd {s : State} {c : Nat} {x : Cmd} {t : State} (hs : Safe s) (h : s.startCmd c x = some t) :
    Safe t := by
  rw [State.startCmd] at h
  dsimp only at h
  obtain ⟨q, hq, h⟩ := Option.bind_eq_some_iff.1 h
  obtain ⟨u, hu, rfl⟩ := Option.map_eq_some_iff.1 h
  have hq1 : Safe q.1 := by
    refine safe_beginCmd ?_ hq
    split
    · exact safe_of_mem (setSem_mem ..) hs
    · exact hs
  have hu1 : Safe u := safe_of_mem ((markRanges_mem hu).trans (updCore_mem ..)) hq1
  split
  · exact safe_of_mem (joinGroup_mem ..) hu1
  · exact hu1

theorem next_execEngineCommandStart {c k eng : Nat} {s : State} (hs : Safe s) :
    NextSafe (execEngineCommandStart c k eng s) := by
  rw [execEngineCommandStart]
  refine nextSafe_next ?_
  split
  · exact hs
  · dsimp only
    split
    · exact safe_getD (fun e => safe_startCmd hs e) hs
    · exact hs

theorem keeps_runCmd (j : Job) : KeepsSafe (runCmd j) := by
  unfold runCmd
  split
  · exact keeps_runMma _
  · exact keeps_runDeal _
  · exact keeps_runResume _ _
  · exact keeps_runTile _ _ _ _
  · exact keeps_runCastDec _
  · exact keeps_runCastPlane _
  · exact keeps_runCastTable _
  · exact keeps_runKvAlloc _
  · exact keeps_runKvFree _
  · exact keeps_runKvAppend _
  · exact keeps_runKvEvict _
  · exact keeps_runPfxMatch _
  · exact keeps_runPfxInsert _
  · exact keeps_runPfxUnref _
  · exact keeps_pure _

theorem keeps_againCmd (j : Job) : KeepsSafe (againCmd j) := by
  rw [againCmd]
  refine keeps_forM fun a => ?_
  split
  · exact keeps_dealAgain _ _
  · exact keeps_tileAgain _ _ _

theorem safe_finish {w : Work} {c : Nat} {x : Cmd} {e : CmdEnd} (hw : Safe w.s) : Safe (w.finish c x e) := by
  rw [Work.finish]
  generalize (if w.rows.isEmpty = true then x.again else w.rows) = again
  split
  · exact safe_endCmd hw
  · exact safe_of_mem (updCore_mem ..) hw

theorem safe_performCmd {s : State} {c : Nat} {x : Cmd} (hs : Safe s) : Safe (s.performCmd c x) := by
  rw [State.performCmd]
  split
  · refine safe_finish ?_
    rename_i e
    exact safe_of_runEng e (keeps_runCmd _) hs
  · exact hs
  · refine safe_finish ?_
    rename_i e
    exact safe_of_runEng e (keeps_runCmd _) hs

theorem safe_againAndEnd {s : State} {c : Nat} {x : Cmd} {e : CmdEnd} (hs : Safe s) : Safe (s.againAndEnd c x e) := by
  rw [State.againAndEnd]
  split
  · exact hs
  · split
    · exact hs
    · refine safe_endCmd ?_
      rename_i e'
      exact safe_of_runEng e' (keeps_againCmd _) hs

theorem safe_xswapDone {s : State} {c : Nat} {x : Cmd} (hs : Safe s) : Safe (s.xswapDone c x) := by
  rw [State.xswapDone]
  exact safe_endCmd hs

theorem safe_completeXswap {s : State} {c : Nat} {x : Cmd} (hs : Safe s) : Safe (s.completeXswap c x) := by
  rw [State.completeXswap]
  split
  · exact safe_endCmd hs
  · split
    · exact safe_xswapDone hs
    · split
      · refine safe_xswapDone ?_
        refine safe_of_mem (updCore_mem ..) ?_
        refine safe_foldl (fun t a h => ?_) ?_
        · exact safe_of_mem (asyncWrite_mem ..) (safe_of_mem (asyncWrite_mem ..) h)
        · exact safe_exchange hs
      · exact hs

theorem next_execXswapNoPair {c n : Nat} {s : State} (hs : Safe s) : NextSafe (execXswapNoPair c n s) := by
  rw [execXswapNoPair]
  refine nextSafe_next ?_
  split
  · split
    · exact safe_endCmd hs
    · exact hs
  · exact hs

theorem safe_completeMove {s : State} {c : Nat} {x : Cmd} (hs : Safe s) : Safe (s.completeMove c x) := by
  rw [State.completeMove]
  split
  · split
    · exact safe_endCmd hs
    · exact hs
  · have hm : KeepsSafe (if x.cmd = 1 then runPromote ⟨c, x⟩ else runRequant ⟨c, x⟩) := by
      split
      · exact keeps_runPromote _
      · exact keeps_runRequant _
    split
    · rename_i e
      exact safe_of_mem (updCore_mem ..) (safe_of_mem rfl (safe_of_runEng e hm hs))
    · rename_i e
      exact safe_endCmd (safe_of_runEng e hm hs)
    · exact hs
    · rename_i e
      exact safe_endCmd (safe_of_runEng e hm hs)

theorem next_execInvalidationWaveReturn {c n : Nat} {s : State} (hs : Safe s) :
    NextSafe (execInvalidationWaveReturn c n s) := by
  rw [execInvalidationWaveReturn]
  refine nextSafe_next ?_
  split
  · split
    · exact safe_of_mem (updCore_mem ..) hs
    · exact hs
  · exact hs

theorem next_execEngineCommandComplete {c n : Nat} {s : State} (hs : Safe s) :
    NextSafe (execEngineCommandComplete c n s) := by
  rw [execEngineCommandComplete]
  refine nextSafe_next ?_
  split
  · exact hs
  · split
    · exact hs
    · split
      · exact safe_completeXswap hs
      · split
        · split
          · exact safe_completeMove hs
          · split
            · exact safe_endCmd hs
            · exact safe_againAndEnd hs
        · split
          · exact safe_completeMove hs
          · exact safe_performCmd hs

theorem safe_dropCmds {s : State} {lid : Nat} (hs : Safe s) : Safe (s.dropCmds lid) := by
  rw [State.dropCmds]
  exact safe_foldl (fun t a h => safe_foldl (fun t a h => safe_endCmd h) h) hs

end Sys2Proof.Proofs

/-! PROOFS. What store buffers, remote operations, commits, twins and cuts keep (02, 09, 10, 12). -/

namespace Sys2Proof.Proofs
open Sys2Proof.Machine Sys2Proof.Laws

/-! ## Store buffers and remote operations -/

theorem answerAt_mem (s : State) (c k : Nat) (n i : Nat) (t : Tok) : (s.answerAt c k n i t).mem = s.mem := by
  rw [State.answerAt]
  split
  · rfl
  · refine (atWordOf_mem _ _ _ _ _ fun t => ?_).trans ?_
    · dsimp only
      split
      · split
        · rw [resolve_mem, mem_fireWith, forward_mem, updF_mem]
        · split
          · rw [loadDone_mem, updF_mem]
          · rw [fireOut_mem, updF_mem]
      · exact updF_mem ..
    · rfl

theorem answer_mem (s : State) (op : RemOp) (t : Tok) : (s.answer op t).mem = s.mem := by
  rw [State.answer]
  exact answerAt_mem ..

theorem refuse_mem (s : State) (op : RemOp) (cause : Nat) : (s.refuse op cause).mem = s.mem := by
  rw [State.refuse]
  split
  · rfl
  · split
    · exact answer_mem ..
    · exact raiseOut_mem ..

theorem countRem_mem (s : State) (c k : Nat) (op : RemOp) : (s.countRem c k op).mem = s.mem := by
  rw [State.countRem]
  split
  · exact countOp_mem ..
  · rfl

theorem issue_mem (s : State) (op : RemOp) : (s.issue op).mem = s.mem := by
  rw [State.issue, updF_mem, nextSerial_mem, send_mem, countRem_mem]

theorem remoteLoad_mem (l : Nat) (s : State) (a : Who) (t x : Tok) : (remoteLoad l s a t x).2.mem = s.mem := by
  rw [remoteLoad]
  split
  · dsimp only
    rename_i e
    rw [mem_of_snd e, remAccess_mem]
  · dsimp only
    split
    · dsimp only
      rename_i e _
      rw [mem_of_snd e, remAccess_mem]
    · split
      · dsimp only
        rw [watch_mem]
        rename_i e _ _ _ _
        rw [mem_of_snd e, remAccess_mem]
      · dsimp only
        rename_i e _ _ _ _ _
        rw [mem_of_snd e, remAccess_mem]
      · split
        · dsimp only
          rename_i e _ _ _ _
          rw [mem_of_snd e, remAccess_mem]
        · dsimp only
          rw [issue_mem, updF_mem, watch_mem]
          rename_i e _ _ _ _
          rw [mem_of_snd e, remAccess_mem]

theorem remCheck_mem (n : Nat) (s : State) (a : Who) (t x : Tok) : (remCheck n s a t x).2.mem = s.mem := by
  rw [remCheck]
  split
  · rename_i e
    rw [mem_of_snd e, remAccess_mem]
  · rename_i e
    rw [mem_of_snd e, remAccess_mem]

theorem remSend_mem (n l : Nat) (f : RemOp → RemOp) (kind : RemKind) (s : State) (a : Who) (t : Tok) :
    (remSend n l f kind s a t).2.mem = s.mem := by
  rw [remSend]
  split
  · rfl
  · split
    · rename_i e
      rw [mem_of_snd e, remAccess_mem]
    · rw [issue_mem]
      rename_i e
      rw [mem_of_snd e, remAccess_mem]

theorem next_execRamo {p : Pr} {l : Nat} {x : AmoOp} {t : Nat} {s : State} (hs : Safe s) :
    NextSafe (execRamo p l x t s) := by
  rw [execRamo]
  refine nextSafe_next ?_
  refine safe_performOp (fun a x y h => ?_) (fun a x y z h => ?_) ?_
  · exact safe_of_mem (remCheck_mem ..) hs
  · exact safe_of_mem (remSend_mem ..) hs
  · exact hs

theorem next_execRcas {l t : Nat} {s : State} (hs : Safe s) : NextSafe (execRcas l t s) := by
  rw [execRcas]
  refine nextSafe_next ?_
  refine safe_performOp (fun a x y h => ?_) (fun a x y z h => ?_) ?_
  · exact safe_of_mem (remCheck_mem ..) hs
  · exact safe_of_mem (remSend_mem ..) hs
  · exact hs

theorem next_execRoadd {p : Pr} {l : Nat} {y : RoTy} {s : State} (hs : Safe s) : NextSafe (execRoadd p l y s) := by
  rw [execRoadd]
  refine nextSafe_next ?_
  refine safe_performOp (fun a x y h => ?_) (fun a x y z h => ?_) ?_
  · exact safe_of_mem (remCheck_mem ..) hs
  · exact safe_of_mem (remSend_mem ..) hs
  · exact hs

theorem next_execRvamo {p : Pr} {l : Nat} {o : AmoOp} {w : Width} {t : Nat} {s : State} (hs : Safe s) :
    NextSafe (execRvamo p l o w t s) := by
  rw [execRvamo]
  refine nextSafe_next ?_
  refine safe_performOp (fun a x y h => ?_) (fun a x y z h => ?_) ?_
  · exact safe_of_mem (remCheck_mem ..) hs
  · exact safe_of_mem (remSend_mem ..) hs
  · exact hs

theorem safe_roWrite {s : State} {ty : RoTy} {loc : Nat} {r : Word} (hs : Safe s) : Safe (s.roWrite ty loc r) := by
  unfold State.roWrite
  exact safe_of_mem (touchRow_mem ..) (safe_putBytes hs)

theorem safe_roApply {s : State} {key : Nat} {op : RemOp} (hs : Safe s) {t : State} (h : (s.roApply key op) = some t)
    : Safe t := by
  rw [State.roApply] at h
  split at h
  · split at h
    · cases h
      exact safe_of_mem (touchRow_mem ..) hs
    · dsimp only at h
      refine safe_tallyAgent ?_ h
      dsimp only [Safe]
      exact wf_of_safe (safe_roWrite hs)
  · cases h
    exact hs

theorem safe_roDrain {n key low : Nat} {s : State} (hs : Safe s) : Safe (State.roDrain n key low s) := by
  induction n generalizing s with
  | zero => exact hs
  | succ n ih =>
    rw [State.roDrain]
    split
    · split
      · rename_i e
        refine ih (safe_roApply ?_ e)
        exact safe_of_mem (s := s) rfl hs
      · exact hs
    · exact hs

theorem safe_roDue {s : State} {key lid : Nat} (hs : Safe s) : Safe (s.roDue key lid) := by
  rw [State.roDue]
  exact safe_roDrain hs

theorem next_execRoaddApply {key : Nat} {s : State} (hs : Safe s) : NextSafe (execRoaddApply key s) := by
  rw [execRoaddApply]
  exact nextSafe_next (safe_roDue hs)

theorem safe_roAccept {s : State} {op : RemOp} {loc : Nat} (hs : Safe s) : Safe (s.roAccept op loc).2 := by
  rw [State.roAccept]
  split
  · dsimp only
    exact safe_of_mem (touchRow_mem ..) (safe_roDue hs)
  · split
    · dsimp only
      exact safe_roDue hs
    · dsimp only
      split
      · split
        · dsimp only
          rename_i e
          exact safe_roApply (safe_roDue hs) e
        · split
          · dsimp only
            exact safe_roDue hs
          · dsimp only
            exact safe_roDue hs
      · split
        · dsimp only
          exact safe_roDue hs
        · dsimp only
          exact safe_roDue hs

theorem safe_amoOut {s : State} {r : Option (Word × Nat × State)} {op : RemOp} (hr : ∀ x, r = some x → Safe x.2.2)
    (hs : Safe s) : Safe (amoOut s r op).2 := by
  unfold amoOut
  split
  · exact safe_of_mem (touchRow_mem ..) hs
  · exact hs
  · exact safe_of_mem (noteRead_mem ..) (hr _ rfl)
  · exact hr _ rfl

theorem safe_remAt {s : State} {op : RemOp} {loc : Nat} (hs : Safe s) : Safe (s.remAt op loc).2 := by
  rw [State.remAt]
  split
  · exact hs
  · split
    · exact hs
    · split
      · dsimp only
        split
        · dsimp only
          exact safe_of_mem (touchRow_mem ..) hs
        · dsimp only
          exact safe_of_mem (noteRead_mem ..) (safe_of_mem (touchRow_mem ..) hs)
      · dsimp only
        refine safe_of_mem (touchRow_mem ..) ?_
        exact safe_of_mem (storeWords_mem ..) (safe_of_mem (dropReadBufs_mem ..) (safe_wrWord _ _ hs))
      · dsimp only
        refine safe_of_mem (touchRow_mem ..) ?_
        exact safe_of_mem (storeWords_mem ..) (safe_of_mem (dropReadBufs_mem ..) (safe_wrWord _ _ hs))
      · dsimp only
        refine safe_of_mem (touchRow_mem ..) ?_
        exact safe_of_mem (carriedTo_mem ..) (safe_storeFull (safe_of_mem (dropReadBufs_mem ..) hs))
      · exact safe_amoOut (fun x e => safe_amoAt hs e) hs
      · exact safe_amoOut (fun x e => safe_amoAt hs e) hs
      · exact safe_roAccept hs
      · split
        · dsimp only
          exact safe_of_mem (touchRow_mem ..) hs
        · dsimp only
          rename_i e
          exact safe_lineAt hs e

theorem safe_remPlace {s : State} {op : RemOp} (hs : Safe s) : Safe (s.remPlace op).2 := by
  rw [State.remPlace]
  split
  · exact hs
  · split
    · exact safe_of_mem (askExit_mem ..) hs
    · split
      · exact safe_debugWrite hs
      · exact hs
      · exact hs
  · split
    · split
      · split
        · rename_i e
          refine safe_tallyAgent ?_ e
          rename_i e' _ _ _
          exact safe_of_snd e' (safe_remAt hs)
        · exact hs
      · rename_i e _
        exact safe_of_snd e (safe_remAt hs)
    · exact safe_remAt hs

theorem ackWrite_mem (s : State) (op : RemOp) : (s.ackWrite op).mem = s.mem := rfl

theorem popSent_mem (s : State) (c : Nat) : (s.popSent c).mem = s.mem := rfl

theorem conclude_mem (s : State) (op : RemOp) (r : RemOut) : (s.conclude op r).mem = s.mem := by
  have hack : (if op.kind != RemKind.rpost && onDie op.core op.place then s.popSent op.core else s.ackWrite
    op).mem = s.mem := by
    split
    · exact popSent_mem ..
    · exact ackWrite_mem ..
  have hask : (match r with
      | .done t => s.answer op t
      | .bad cause => s.refuse op cause
      | .wait => s).mem = s.mem := by
    cases r with
    | done t => exact answer_mem ..
    | bad cause => exact refuse_mem ..
    | wait => rfl
  have hpost : ∀ u : State, u.mem = s.mem → (match r with
      | .bad cause =>
        if op.kind = RemKind.rpost ∧ cause = 0x84 then u else u.recordFor op.core op.slot op.pc.toNat op.lid
          (remFault op cause)
      | _ => u).mem = s.mem := by
    intro u hu
    split
    · split
      · exact hu
      · exact (recordFor_mem ..).trans hu
    · exact hu
  unfold State.conclude
  split
  · exact hpost _ hack
  · exact hpost _ hack
  · exact hpost _ hack
  all_goals exact hask

theorem outstand_mem (s : State) (p : Nat) (x : Outstanding) : (s.outstand p x).mem = s.mem := rfl

theorem toPeer_mem (s : State) (op : RemOp) (pkg : Nat) : (s.toPeer op pkg).mem = s.mem := by
  rw [State.toPeer]
  split
  · exact conclude_mem ..
  · split
    · exact conclude_mem ..
    · dsimp only
      split
      · exact outstand_mem ..
      · rw [linkSend_mem, outstand_mem]

theorem reply_mem (s : State) (p op : Nat) (tag status : Nat) (data : List Byte) :
    (s.reply p op tag status data).mem = s.mem := rfl

theorem sendPack_mem (s : State) (g : Gather) : (s.sendPack g).mem = s.mem := by
  rw [State.sendPack]
  split
  · exact mem_foldl _ _ _ fun t a => conclude_mem ..
  · exact reply_mem ..

theorem gatherPost_mem (s : State) (agent src : Nat) (op : RemOp) : (s.gatherPost agent src op).mem = s.mem := by
  rw [State.gatherPost]
  split
  · dsimp only
    split
    · exact sendPack_mem ..
    · rfl
  · rfl

theorem next_execPackGatherTimeout {agent src : Nat} {s : State} (hs : Safe s) :
    NextSafe (execPackGatherTimeout agent src s) := by
  rw [execPackGatherTimeout]
  refine nextSafe_next ?_
  split
  · split
    · exact safe_of_mem (sendPack_mem ..) hs
    · exact hs
  · exact hs

theorem opPerformed_mem (s : State) (op : RemOp) (r : RemOut) : (s.opPerformed op r).mem = s.mem := by
  unfold State.opPerformed
  split
  · exact gatherPost_mem ..
  · exact conclude_mem ..

theorem next_execRemoteOperation {n : Nat} {s : State} (hs : Safe s) : NextSafe (execRemoteOperation n s) := by
  rw [execRemoteOperation]
  refine nextSafe_next ?_
  split
  · dsimp only
    split
    · exact safe_of_mem (toPeer_mem ..) (safe_of_mem (dropPacket_mem ..) hs)
    · split
      · split
        · exact safe_of_mem (askExit_mem ..) hs
        · exact hs
      · refine safe_of_mem (opPerformed_mem ..) ?_
        rename_i e
        exact safe_of_snd e (safe_remPlace (safe_of_mem (dropPacket_mem ..) hs))
  · exact hs

theorem entryRecord_mem (s : State) (c : Nat) (e : SbEntry) (cause : Nat) :
    (s.entryRecord c e cause).mem = s.mem := rfl

theorem rowControl_mem (s : State) (opens : Bool) (loc : Nat) : (s.rowControl opens loc).mem = s.mem := by
  rw [State.rowControl]
  split
  · rfl
  · split
    · exact touchRow_mem ..
    · exact updVault_mem ..

theorem safe_wordStore {s : State} {e : SbEntry} {loc : Nat} {f : State → State} {t : State}
    (hf : Safe s → Safe (f s)) (hs : Safe s) (h : s.wordStore e loc f = some t) : Safe t := safe_tallyBank (hf hs) h

theorem publish_mem (s : State) (c : Nat) (e : SbEntry) (locs : List Nat) : (s.publish c e locs).mem = s.mem := by
  rw [State.publish]
  split
  · exact mem_foldl _ _ _ fun t a => releaseWord_mem ..
  · exact storeWords_mem ..

theorem safe_writeData {s : State} {c : Nat} {e : SbEntry} (hs : Safe s) : Safe (s.writeData c e) := by
  rw [State.writeData]
  split
  · split
    · refine safe_foldl (fun t a h => ?_) ?_
      · exact safe_of_mem (entryRecord_mem ..) h
      · refine safe_of_mem (publish_mem ..) ?_
        refine safe_foldl (fun t a h => ?_) ?_
        · exact safe_of_mem (touchRow_mem ..) h
        · refine safe_of_mem (dropReadBufs_mem ..) ?_
          rename_i e' _
          exact safe_of_snd e' (safe_writeCells _ hs)
    · refine safe_of_mem (entryRecord_mem ..) ?_
      refine safe_foldl (fun t a h => ?_) ?_
      · exact safe_of_mem (entryRecord_mem ..) h
      · refine safe_of_mem (publish_mem ..) ?_
        refine safe_foldl (fun t a h => ?_) ?_
        · exact safe_of_mem (touchRow_mem ..) h
        · refine safe_of_mem (dropReadBufs_mem ..) ?_
          rename_i e' _
          exact safe_of_snd e' (safe_writeCells _ hs)

theorem safe_perform {s : State} {c : Nat} {e : SbEntry} {t : State} (hs : Safe s) (h : s.perform c e = some t) :
    Safe t := by
  have hoff : ∀ n, Safe (s.entryRecord c e n) := fun n => safe_of_mem (entryRecord_mem ..) hs
  unfold State.perform at h
  generalize e.op = op at h
  cases op with
  | data ps =>
    cases h
    exact safe_foldl (fun _ _ h => safe_writeData h) hs
  | stf loc v =>
    dsimp only at h
    split at h
    · obtain rfl := Option.some.inj h
      exact hoff _
    · refine safe_wordStore (fun hs => ?_) hs h
      exact safe_of_mem ((touchRow_mem ..).trans (publish_mem ..)) (safe_storeFull (safe_of_mem (dropReadBufs_mem
        ..) hs))
  | feempty loc =>
    dsimp only at h
    split at h
    · obtain rfl := Option.some.inj h
      exact hoff _
    split at h
    · obtain rfl := Option.some.inj h
      exact safe_of_mem ((entryRecord_mem ..).trans (touchRow_mem ..)) hs
    · refine safe_wordStore (fun hs => ?_) hs h
      exact safe_of_mem ((touchRow_mem ..).trans (wakeWord_mem ..)) (safe_setFull _ _ hs)
  | notify loc v x =>
    dsimp only at h
    split at h
    · obtain rfl := Option.some.inj h
      exact hoff _
    · obtain rfl := Option.some.inj h
      exact safe_of_mem ((touchRow_mem ..).trans ((wakeWord_mem ..).trans ((publish_mem ..).trans
        (dropReadBufs_mem ..))))
        (safe_wrWord _ _ hs)
  | binit loc a b =>
    dsimp only at h
    split at h
    · obtain rfl := Option.some.inj h
      exact hoff _
    · generalize (leBytes 32 (binitImage a b)).zipIdx.map _ = cs at h
      obtain rfl := Option.some.inj h
      exact safe_of_mem ((touchRow_mem ..).trans ((wakeObject_mem ..).trans ((newObj_mem ..).trans ((publish_mem
        ..).trans
        (dropReadBufs_mem ..))))) (safe_writeCells cs hs)
  | semset sem n =>
    obtain rfl := Option.some.inj h
    exact safe_of_mem ((wakeSem_mem ..).trans (setSem_mem ..)) hs
  | row opens loc =>
    obtain rfl := Option.some.inj h
    split
    · exact hoff _
    · exact safe_of_mem (rowControl_mem ..) hs
  | fence kind x =>
    obtain rfl := Option.some.inj h
    split
    · exact safe_of_mem (fenceAt_mem ..) hs
    split
    · exact safe_of_mem (fenceXp_mem ..) hs
    · exact hs
  | remote op x =>
    obtain rfl := Option.some.inj h
    exact hs

theorem await_mem (s : State) (c : Nat) (e : SbEntry) : (s.await c e).mem = s.mem := by
  rw [State.await]
  split <;> rfl

theorem post_mem (s : State) (c : Nat) (e : SbEntry) : (s.post c e).mem = s.mem := by
  rw [State.post]
  split
  · dsimp only
    split
    · rw [updCore_mem, await_mem]
    · rw [send_mem, await_mem]
  · rfl

theorem safe_drainHead {s : State} {c : Nat} (hs : Safe s) {t : State} (h : (s.drainHead c) = some t) : Safe t := by
  rw [State.drainHead] at h
  split at h
  · cases h
  · split at h
    · cases h
    · dsimp only at h
      split at h
      · cases h
        split
        · refine safe_of_mem (updCore_mem ..) ?_
          refine safe_of_mem (send_mem ..) ?_
          split
          · exact safe_of_mem (carry_mem ..) hs
          · exact hs
        · refine safe_of_mem (await_mem ..) ?_
          refine safe_of_mem (updCore_mem ..) ?_
          refine safe_of_mem (send_mem ..) ?_
          split
          · exact safe_of_mem (carry_mem ..) hs
          · exact hs
      · obtain ⟨k, hk, rfl⟩ := Option.map_eq_some_iff.1 h
        exact safe_of_mem (updCore_mem ..) (safe_perform hs hk)

theorem dispatchMsg_mem (s : State) (c : Nat) (o : Outgoing) : (s.dispatchMsg c o).mem = s.mem := by
  rw [State.dispatchMsg]
  split
  · rw [send_mem, carry_mem, updCore_mem]
  · split
    · split
      · rw [linkSend_mem, carry_mem, updCore_mem]
      · rw [countRecv_mem, carry_mem, updCore_mem]
    · rw [countRecv_mem, carry_mem, updCore_mem]

theorem next_execStoreBufferDrain {c : Nat} {s : State} (hs : Safe s) : NextSafe (execStoreBufferDrain c s) := by
  rw [execStoreBufferDrain]
  refine nextSafe_next ?_
  split
  · rename_i e
    exact safe_drainHead hs e
  · split
    · exact safe_of_mem (dispatchMsg_mem ..) hs
    · exact safe_of_mem (send_mem ..) (safe_of_mem (updCore_mem ..) hs)
    · exact hs

/-! ## SEND, SPAWN, CALLAT -/

theorem askResv_mem (s : State) (m : Msg) : (s.askResv m).mem = s.mem := by
  rw [State.askResv]
  split
  · rw [send_mem, updF_mem, countOp_mem]
  · split
    · split
      · split
        · rw [outstand_mem, updF_mem, countOp_mem]
        · rw [linkSend_mem, outstand_mem, updF_mem, countOp_mem]
      · rw [answered_mem, updF_mem, countOp_mem]
    · rw [answered_mem, updF_mem, countOp_mem]

theorem messageOp_mem (i : Instr) (l kind : Nat) (s : State) : (messageOp i l kind s).mem = s.mem := by
  rw [messageOp]
  split
  · rfl
  · exact mem_skipWord ..
  · dsimp only
    rw [updF_mem, mem_fireWith]
  · dsimp only
    rw [updF_mem, mem_fireWith]
  · split
    · dsimp only
      rw [updF_mem, mem_fireWith]
    · split
      · rfl
      · dsimp only
        split
        · rw [updF_mem, mem_fireWith, updF_mem]
        · split
          · split
            · rw [updF_mem, mem_fireWith]
            · split
              · rw [updF_mem, mem_fireWith]
              · rfl
          · split
            · rw [updF_mem, mem_fireWith]
            · exact askResv_mem ..

theorem countFor_mem (s : State) (r : BitVec 256) (lid : Nat) : (s.countFor r lid).mem = s.mem := by
  rw [State.countFor]
  split
  · rw [forcedEnd_mem, updLaunch_mem]
  · exact updLaunch_mem ..

theorem countFault_mem (s : State) (r : BitVec 256) : (s.countFault r).mem = s.mem := by
  rw [State.countFault]
  split
  · rfl
  · exact mem_foldl _ _ _ fun t a => countFor_mem ..

theorem safe_ringRecord {s : State} {q : Nat} {r : BitVec 256} (hs : Safe s) : Safe (s.ringRecord q r) := by
  rw [State.ringRecord]
  split
  · exact safe_wrWord _ _ hs
  · exact safe_storeFull (safe_foldl (fun t a h => safe_wrWord _ _ h) hs)

theorem next_execFaultRecord {q : Nat} {s : State} (hs : Safe s) : NextSafe (execFaultRecord q s) := by
  rw [execFaultRecord]
  refine nextSafe_next ?_
  split
  · split
    · exact safe_ringRecord (safe_of_mem (countFault_mem ..) (safe_of_mem (dropPacket_mem ..) hs))
    · exact hs
  · exact hs

/-! ## The commit of a block -/

theorem sinkMeets_mem (s : State) (p : Pend) : (s.sinkMeets p).2.mem = s.mem := by
  unfold State.sinkMeets
  split
  · split
    · rfl
    · exact parkGuard_mem ..
    · split <;> rfl
  · rfl
  · rfl

theorem sinkState_mem (s : State) (j : Nat) (x : Instr) : (s.sinkState j x).2.mem = s.mem := by
  rw [State.sinkState]
  split
  · split
    · rfl
    · split
      · rfl
      · split
        · rename_i e
          exact (buildOf_mem e).trans rfl
        · rw [sinkMeets_mem]
          rename_i e
          exact (buildOf_mem e).trans rfl
        · rfl
  · rfl

theorem sinksReady_mem (s : State) (l : List (Nat × Instr)) : (s.sinksReady l).2.mem = s.mem := by
  induction l generalizing s with
  | nil => rfl
  | cons a l ih =>
    have here : ∀ {r : Option (Option FaultD)} {t : State},
        State.sinkState { s with cursor := { s.cursor with word := a.1 } } a.1 a.2 = (r, t) → t.mem = s.mem :=
      fun e => (mem_of_snd e).trans (sinkState_mem ..)
    rw [State.sinksReady]
    split
    · rename_i e
      exact here e
    · rename_i e
      rw [updF_mem, here e]
    · rename_i e
      rw [ih, here e]

theorem next_execBlockLock {c k : Nat} {s : State} (hs : Safe s) : NextSafe (execBlockLock c k s) := by
  rw [execBlockLock]
  refine nextSafe_next ?_
  split
  · exact hs
  · split
    · exact hs
    · split
      · exact hs
      · split
        · exact safe_of_mem (updFrame_mem ..) hs
        · split
          · exact safe_of_mem (forceAt_mem ..) hs
          · split
            · exact hs
            · dsimp only
              split
              · exact safe_of_mem (updFrame_mem ..) (safe_of_mem (sinksReady_mem ..) hs)
              · exact safe_of_mem (sinksReady_mem ..) hs

theorem stampEntry_mem (s : State) (c k : Nat) (e : SbEntry) : (s.stampEntry c k e).2.mem = s.mem := by
  rw [State.stampEntry, nextSerial_mem]
  split
  · exact countOp_mem ..
  · rfl

theorem gate_mem (s : State) (c k : Nat) (e : SbEntry) : (s.gate c k e).mem = s.mem := rfl

theorem stampMsg_mem (s : State) (c k : Nat) (m : Msg) : (s.stampMsg c k m).2.mem = s.mem := by
  rw [State.stampMsg]
  split
  · exact countOp_mem ..
  · rfl

theorem outMsg_mem (s : State) (c : Nat) (o : Outgoing) : (s.outMsg c o).mem = s.mem := by
  rw [State.outMsg, nextSerial_mem, countSent_mem, updCore_mem]

theorem commitPend_mem (s : State) (c k : Nat) (p : Pend) : (s.commitPend c k p).mem = s.mem := by
  unfold State.commitPend
  dsimp only
  split
  · split
    · rw [gate_mem, stampEntry_mem]
    · rw [updCore_mem, stampEntry_mem]
  · split
    · rw [gate_mem, stampEntry_mem]
    · rw [post_mem, stampEntry_mem]
  · split
    · rw [nextSerial_mem, updSlot_mem, stampMsg_mem]
    · rw [outMsg_mem, stampMsg_mem]
  · rfl
  · rfl
  · rfl
  · rfl

theorem safe_commitCmds {s : State} {c k : Nat} {cmds : List Cmd} (hs : Safe s) : Safe (s.commitCmds c k cmds) := by
  rw [State.commitCmds]
  split
  · exact hs
  · split
    · refine safe_foldl (fun t a h => ?_) ?_
      · exact safe_of_mem (nextSerial_mem ..) (safe_of_mem (updSlot_mem ..) h)
      · exact hs
    · exact safe_foldl (fun t a h => safe_releaseCmd h) hs

theorem nextFrame_mem (s : State) (c k : Nat) (keep : Bool) : (s.nextFrame c k keep).mem = s.mem := by
  rw [State.nextFrame]
  split
  · exact enterExec_mem ..
  · exact updSlot_mem ..

theorem migrateAway_mem (s : State) (c k owner : Nat) : (s.migrateAway c k owner).mem = s.mem := by
  rw [State.migrateAway, leaveFor_mem]
  split
  · split
    · exact updSlot_mem ..
    · split
      · exact updSlot_mem ..
      · rfl
  · split
    · split
      · exact updSlot_mem ..
      · split
        · exact updSlot_mem ..
        · rfl
    · split
      · exact updSlot_mem ..
      · split
        · exact updSlot_mem ..
        · rfl

theorem safe_afterCommit {s : State} {c k : Nat} {e : ExitFired} {keep : Bool} (hs : Safe s) :
    Safe (s.afterCommit c k e keep) := by
  rw [State.afterCommit]
  split
  · exact safe_endThread (safe_of_mem (updSlot_mem ..) hs)
  · split
    · exact safe_of_mem (freezeFor_mem ..) (safe_of_mem (updSlot_mem ..) hs)
    · split
      · exact safe_endThread (safe_of_mem (updSlot_mem ..) hs)
      · exact safe_of_mem (migrateAway_mem ..) (safe_of_mem (updSlot_mem ..) hs)
      · split
        · exact safe_of_mem (freezeWith_mem ..) (safe_of_mem (updSlot_mem ..) hs)
        · split
          · exact safe_applyStop (safe_of_mem (updSlot_mem ..) hs)
          · split
            · split
              · refine safe_getD (fun e => ?_) ?_
                · exact safe_yieldSpill (safe_of_mem (updSlot_mem ..) hs) e
                · exact safe_of_mem (updSlot_mem ..) hs
              · exact safe_of_mem (nextFrame_mem ..) hs
            · exact safe_of_mem (nextFrame_mem ..) hs

theorem afterTwin_mem (s : State) (c k : Nat) (f : Frame) (cmds : List Cmd) (e : ExitFired) (keep : Bool) :
    (s.afterTwin c k f cmds e keep).mem = s.mem := by
  rw [State.afterTwin, nextFrame_mem, updSlot_mem]

theorem safe_commitBlock {s : State} {c k : Nat} {f : Frame} {e : ExitFired} {cmds : List Cmd} (hs : Safe s) :
    Safe (s.commitBlock c k f e cmds) := by
  rw [State.commitBlock]
  split
  · refine safe_of_mem (afterTwin_mem ..) ?_
    refine safe_of_mem (updSlot_mem ..) ?_
    refine safe_commitCmds ?_
    refine safe_foldl (fun t a h => ?_) ?_
    · exact safe_of_mem (commitPend_mem ..) h
    · exact safe_of_mem (updSlot_mem ..) hs
  · refine safe_afterCommit ?_
    refine safe_of_mem (updSlot_mem ..) ?_
    refine safe_commitCmds ?_
    refine safe_foldl (fun t a h => ?_) ?_
    · exact safe_of_mem (commitPend_mem ..) h
    · exact safe_of_mem (updSlot_mem ..) hs

theorem next_execBlockCommit {c k : Nat} {s : State} (hs : Safe s) : NextSafe (execBlockCommit c k s) := by
  rw [execBlockCommit]
  refine nextSafe_next ?_
  split
  · exact safe_applyStop hs
  · split
    · exact hs
    · split
      · exact safe_of_mem (raise_mem ..) hs
      · dsimp only
        split
        · exact hs
        · split
          · split
            · exact safe_of_mem (forceAt_mem ..) hs
            · exact safe_of_mem (updFrame_mem ..) hs
          · exact safe_commitBlock hs
      · exact hs

/-! ## Twins -/

theorem safe_pairFault {s : State} {c k detail : Nat} {d : FaultD} (hs : Safe s) :
    Safe (s.pairFault c k detail d) := by
  rw [State.pairFault]
  split
  · split
    · refine safe_applyStop ?_
      refine safe_of_mem (updSlot_mem ..) ?_
      refine safe_of_mem (sendRecord_mem ..) ?_
      refine safe_of_mem (nextSerial_mem ..) ?_
      refine safe_of_mem (both_mem ..) ?_
      exact safe_of_mem (dropWaiters_mem ..) (safe_of_mem (abandon_mem ..) hs)
    · refine safe_of_mem (sendRecord_mem ..) ?_
      refine safe_of_mem (nextSerial_mem ..) ?_
      refine safe_of_mem (both_mem ..) ?_
      exact safe_of_mem (dropWaiters_mem ..) (safe_of_mem (abandon_mem ..) hs)
  · split
    · refine safe_applyStop ?_
      refine safe_of_mem (updSlot_mem ..) ?_
      refine safe_of_mem (sendRecord_mem ..) ?_
      refine safe_of_mem (nextSerial_mem ..) ?_
      refine safe_of_mem (both_mem ..) ?_
      exact safe_of_mem (dropWaiters_mem ..) (safe_of_mem (abandon_mem ..) hs)
    · refine safe_of_mem (sendRecord_mem ..) ?_
      refine safe_of_mem (nextSerial_mem ..) ?_
      refine safe_of_mem (both_mem ..) ?_
      exact safe_of_mem (dropWaiters_mem ..) (safe_of_mem (abandon_mem ..) hs)

theorem safe_ungate {s : State} {c : Nat} {g : Gated} {t : State} (hs : Safe s) (h : s.ungate c g = some t) :
    Safe t := by
  cases g with
  | store e =>
    rw [State.ungate.eq_def] at h
    dsimp only at h
    split at h
    · cases h
      exact safe_of_mem ((nextSerial_mem ..).trans (post_mem ..)) hs
    split at h
    · cases h
      exact safe_of_mem ((nextSerial_mem ..).trans (updCore_mem ..)) hs
    · cases h
  | cmd x =>
    rw [State.ungate] at h
    split at h
    · cases h
    · cases h
      exact safe_releaseCmd hs
  | msg o =>
    cases h
    exact safe_of_mem (outMsg_mem ..) hs

theorem safe_releaseGated {s : State} {c : Nat} {gs : List Gated} (hs : Safe s) : Safe (s.releaseGated c gs).1 := by
  induction gs generalizing s with
  | nil => exact hs
  | cons g gs ih =>
    rw [State.releaseGated]
    split
    · rename_i e
      exact ih (safe_ungate hs e)
    · exact hs

theorem answerTwin_mem (s : State) (asks : List (Nat × Nat × Nat × Nat)) (r : Nat) :
    (s.answerTwin asks r).mem = s.mem := by
  rw [State.answerTwin]
  refine (mem_foldl _ _ _ fun t a => ?_).trans ?_
  · split
    · exact answerAt_mem ..
  · rfl

theorem twinReload_mem (s : State) (c k mism : Nat) : (s.twinReload c k mism).mem = s.mem := by
  rw [State.twinReload, both_mem, abandon_mem]
  refine (mem_foldl _ _ _ fun t a => ?_).trans ?_
  · split
    · exact unreserve_mem ..
    · rfl
  · rfl

theorem safe_twinPass {s : State} {c k : Nat} {t u : TwinState} (hs : Safe s) : Safe (s.twinPass c k t u) := by
  rw [State.twinPass]
  split
  rename_i e
  have hr := safe_releaseGated (c := c) (gs := t.items) hs
  rw [e] at hr
  split
  · exact safe_of_mem (updSlot_mem ..) hr
  · have hb := safe_of_mem ((answerTwin_mem _ t.asks 0).trans (both_mem _ c k Slot.checkpoint)) hr
    split
    · split
      · exact safe_pairFault hb
      · exact hb
    · split
      · exact safe_applyStop hb
      · exact hb

theorem safe_compareTwin {s : State} {c k : Nat} {t u : TwinState} (hs : Safe s) : Safe (s.compareTwin c k t u) := by
  rw [State.compareTwin]
  split
  · exact safe_twinPass hs
  · split
    · refine safe_of_mem (answerTwin_mem ..) ?_
      exact safe_pairFault (safe_of_mem (both_mem ..) (safe_of_mem (twinReload_mem ..) hs))
    · split
      · exact safe_twinPass hs
      · split
        · exact safe_of_mem (answerTwin_mem ..) (safe_pairFault (safe_of_mem (twinReload_mem ..) hs))
        · exact safe_applyStop (safe_of_mem (answerTwin_mem ..) (safe_of_mem (twinReload_mem ..) hs))

theorem next_execTwinComparison {c k : Nat} {s : State} (hs : Safe s) : NextSafe (execTwinComparison c k s) := by
  rw [execTwinComparison]
  refine nextSafe_next ?_
  split
  · exact hs
  · split
    · split
      · split
        · exact safe_compareTwin hs
        · exact hs
      · exact hs
    · exact hs

/-! ## Cuts -/

theorem msix_mem (s : State) (q v : Nat) : (s.msix q v).mem = s.mem := rfl

theorem safe_respondOnce {s : State} {q : Nat} {t : State} (hs : Safe s) (h : s.respondOnce q = some t) : Safe t := by
  have hws : ∀ (a : Nat) (ws : List (Word × Nat)), Safe (ws.foldl (fun s x => s.wrWord (a + 8 * x.2) x.1) s) :=
    fun a ws => safe_foldl (fun _ _ h => safe_wrWord _ _ h) hs
  unfold State.respondOnce at h
  dsimp only at h
  split at h
  · split at h
    · cases h
      split
      · exact safe_of_mem ((msix_mem ..).trans (updSvc_mem ..)) (safe_wrWord _ _ (hws _ _))
      · exact safe_of_mem (updSvc_mem ..) (safe_wrWord _ _ (hws _ _))
    · cases h
  · cases h

theorem flushRsps_step (n : Nat) (b : Nat.below (motive := fun _ => Nat → State → State) n)
    (hb : BelowHas (fun f => ∀ q s, Safe s → Safe (f q s)) n b) (q : Nat) (s : State) (hs : Safe s) : Safe
    (State.flushRsps._f n b q s) := by
  have hr : ∀ {s q t}, Safe s → State.respondOnce s q = some t → Safe t := safe_respondOnce
  delta State.flushRsps._f
  revert hr
  generalize State.respondOnce = r
  as_aux_lemma =>
    intro hr
    split
    · exact hs
    · split
      · rename_i e
        exact hb _ _ (hr hs e)
      · exact hs

theorem safe_flushRsps {n q : Nat} {s : State} (hs : Safe s) : Safe (State.flushRsps n q s) := by
  delta State.flushRsps
  exact brecOn_has (α := Nat → State → State) (P := fun f => ∀ q s, Safe s → Safe (f q s)) flushRsps_step n q s hs

theorem safe_respond {s : State} {q n : Nat} {w0 : Word} {r w2 : Nat} (hs : Safe s) :
    Safe (s.respond q n w0 r w2) := by
  rw [State.respond]
  exact safe_flushRsps (safe_of_mem (updSvc_mem ..) hs)

theorem haltSlot_mem (s : State) (c k : Nat) : (s.haltSlot c k).mem = s.mem := by
  rw [State.haltSlot]
  split
  · rfl
  · split
    · exact forceAt_mem ..
    · rw [both_mem]
      split
      · exact abandon_mem ..
      · rfl

theorem haltAt_mem (s : State) (sq lid : Nat) : (s.haltAt sq lid).mem = s.mem := by
  rw [State.haltAt]
  exact mem_foldl _ _ _ fun t a => (mem_foldl _ _ _ fun t a => haltSlot_mem ..).trans rfl

theorem reached_mem (s : State) (sq lid : Nat) : (s.reached sq lid).mem = s.mem := by
  rw [State.reached, haltAt_mem, updLaunch_mem]

theorem safe_sweepAt {s : State} {sq lid : Nat} (hs : Safe s) : Safe (s.sweepAt sq lid) := by
  rw [State.sweepAt]
  refine safe_of_mem (updLaunch_mem ..) ?_
  refine safe_foldl (fun t a h => ?_) ?_
  · split
    · exact safe_servePair (safe_of_mem (dropResv_mem ..) h)
    · exact h
  · exact hs

theorem sendMarkers_mem (s : State) (sq lid : Nat) : (s.sendMarkers sq lid).mem = s.mem := by
  rw [State.sendMarkers]
  refine (mem_foldl _ _ _ fun t a => ?_).trans ?_
  · exact mem_foldl _ _ _ fun t a => send_mem ..
  · exact updLaunch_mem ..

theorem safe_writeItems {s : State} {l : List CutItem} {lid : Nat} (hs : Safe s) :
    Safe (State.writeItems l lid s).1 := by
  induction l generalizing s with
  | nil => exact hs
  | cons x xs ih =>
    rw [State.writeItems]
    split
    · exact hs
    · rename_i e
      exact ih (safe_of_mem (updLaunch_mem ..) (safe_writeFrame (safe_allocEntry hs e)))

theorem safe_cutWrite {s : State} {sq lid : Nat} (hs : Safe s) : Safe (s.cutWrite sq lid) := by
  rw [State.cutWrite]
  split
  · have hw := safe_writeItems (l := s.cutItems sq lid) (lid := lid) hs
    split
    rename_i e
    rw [e] at hw
    exact safe_of_mem ((send_mem ..).trans (updLaunch_mem ..)) hw
  · exact hs

theorem next_execCutOrder {n : Nat} {s : State} (hs : Safe s) : NextSafe (execCutOrder n s) := by
  rw [execCutOrder]
  refine nextSafe_next ?_
  split
  · split
    · exact safe_of_mem (dropPacket_mem ..) hs
    · dsimp only
      split
      · refine safe_cutWrite ?_
        refine safe_of_mem (sendMarkers_mem ..) ?_
        exact safe_sweepAt (safe_of_mem (dropPacket_mem ..) (safe_of_mem (reached_mem ..) hs))
      · exact safe_of_mem (reached_mem ..) hs
  · exact hs

theorem next_execCutMarker {n : Nat} {s : State} (hs : Safe s) : NextSafe (execCutMarker n s) := by
  rw [execCutMarker]
  refine nextSafe_next ?_
  split
  · split
    · exact safe_of_mem (dropPacket_mem ..) hs
    · split
      · exact hs
      · refine safe_cutWrite ?_
        refine safe_of_mem (reached_mem ..) ?_
        exact safe_of_mem (updLaunch_mem ..) (safe_of_mem (dropPacket_mem ..) hs)
  · exact hs

theorem deliverHeld_mem (s : State) (lid : Nat) : (s.deliverHeld lid).mem = s.mem := by
  rw [State.deliverHeld]
  exact mem_foldl _ _ _ fun t a => (mem_foldl _ _ _ fun t a => send_mem ..).trans (updPort_mem ..)

theorem safe_storeBack {s : State} {lid : Nat} (hs : Safe s) : Safe (s.storeBack lid) := by
  rw [State.storeBack]
  refine safe_foldl (fun t a h => ?_) ?_
  · exact safe_relink h
  · dsimp only [Safe]
    refine wf_of_safe ?_
    refine safe_of_mem (updLaunch_mem ..) ?_
    exact safe_foldl (fun t a h => safe_foldl (fun t a h => safe_writeBack h) h) hs

theorem safe_answerCut {s : State} {lid lack : Nat} (hs : Safe s) : Safe (s.answerCut lid lack) := by
  rw [State.answerCut]
  refine safe_of_mem (updLaunch_mem ..) ?_
  split
  · refine safe_respond ?_
    split
    · exact safe_of_mem (answerAt_mem ..) hs
    · exact hs
  · split
    · exact safe_of_mem (answerAt_mem ..) hs
    · exact hs

theorem safe_cutDone {s : State} {lid : Nat} (hs : Safe s) : Safe (s.cutDone lid) := by
  rw [State.cutDone]
  refine safe_foldl (fun t a h => ?_) ?_
  · exact safe_freeSlot h
  · refine safe_foldl (fun t a h => ?_) ?_
    · exact safe_of_mem (updSlot_mem ..) (safe_of_mem (abandon_mem ..) h)
    · refine safe_of_mem (updLaunch_mem ..) ?_
      refine safe_storeBack ?_
      refine safe_foldl (fun t a h => ?_) ?_
      · split
        · exact safe_of_mem (countRecv_mem ..) h
        · exact safe_of_mem (countRecv_mem ..) h
        · exact h
      · exact hs

theorem safe_cutAbandoned {s : State} {lid : Nat} (hs : Safe s) : Safe (s.cutAbandoned lid) := by
  rw [State.cutAbandoned]
  refine safe_of_mem (deliverHeld_mem ..) ?_
  refine safe_foldl (fun t a h => ?_) ?_
  · exact safe_of_mem (send_mem ..) h
  · refine safe_foldl (fun t a h => ?_) ?_
    · exact safe_of_mem (updSlot_mem ..) h
    · exact safe_of_mem (updLaunch_mem ..) (safe_foldl (fun t a h => safe_freeEntry h) hs)

theorem next_execRouterReport {n : Nat} {s : State} (hs : Safe s) : NextSafe (execRouterReport n s) := by
  rw [execRouterReport]
  refine nextSafe_next ?_
  split
  · split
    · exact safe_of_mem (dropPacket_mem ..) hs
    · dsimp only
      split
      · exact safe_of_mem (updLaunch_mem ..) (safe_of_mem (dropPacket_mem ..) hs)
      · split
        · refine safe_answerCut ?_
          exact safe_cutDone (safe_of_mem (updLaunch_mem ..) (safe_of_mem (dropPacket_mem ..) hs))
        · refine safe_answerCut ?_
          exact safe_cutAbandoned (safe_of_mem (updLaunch_mem ..) (safe_of_mem (dropPacket_mem ..) hs))
  · exact hs

theorem beginCut_mem (s : State) (lid : Nat) : (s.beginCut lid).mem = s.mem := by
  rw [State.beginCut]
  split
  · exact updLaunch_mem ..
  · dsimp only
    exact updLaunch_mem ..

theorem safe_placeReserve {s : State} {lid : Nat} {es : List Nat} (hs : Safe s) : Safe (s.placeReserve lid es) := by
  rw [State.placeReserve]
  exact safe_foldl (fun t a h => safe_serveCore h) (safe_foldl (fun t a h => safe_enlist h) hs)

theorem safe_resumeLaunch {s : State} {lid : Nat} (hs : Safe s) : Safe (s.resumeLaunch lid) := by
  rw [State.resumeLaunch]
  refine safe_of_mem (deliverHeld_mem ..) ?_
  refine safe_placeReserve ?_
  split
  · split
    · refine safe_of_mem (updLaunch_mem ..) ?_
      exact safe_setMouldWord (safe_markMould (safe_of_mem (updLaunch_mem ..) hs))
    · refine safe_of_mem (dieRecord_mem ..) ?_
      exact safe_of_mem (updLaunch_mem ..) (safe_of_mem (updLaunch_mem ..) hs)
  · exact safe_of_mem (updLaunch_mem ..) hs

end Sys2Proof.Proofs

/-! PROOFS. What system instructions, launches and the dispenser keep (05, 16). -/

namespace Sys2Proof.Proofs
open Sys2Proof.Machine Sys2Proof.Laws

/-! ## System instructions -/

theorem safe_sysOp {i : Instr} {l : Nat} {f : State → Who → Tok → Tok → Perf × State} {s : State}
    (hf : ∀ a x y, Safe s → Safe (f s a x y).2) (hs : Safe s) : Safe (sysOp i l f s) :=
  safe_performOp (fun _ _ _ h => h) (fun a x y _ => hf a x y) hs

theorem doneWord_mem (n : Nat) (s : State) : (doneWord n s).2.mem = s.mem := rfl

theorem doCsrrd_mem (s : State) (a : Who) (x y : Tok) : (doCsrrd s a x y).2.mem = s.mem := by
  rw [doCsrrd]
  split
  · rfl
  · split <;> rfl

theorem writeTsw_mem (s : State) (v : Word) : (s.writeTsw v).mem = s.mem := by
  rw [State.writeTsw]
  split
  · rfl
  · exact updF_mem ..

theorem doCsrwr_mem (s : State) (a : Who) (x y : Tok) : (doCsrwr s a x y).2.mem = s.mem := by
  rw [doCsrwr]
  split
  · rfl
  · split
    · exact writeTsw_mem ..
    · exact csrWrite_mem ..

theorem safe_shadowDoes {i : Instr} {g : State → Tok → Tok → State} {s t : State}
    (hg : ∀ x y, Safe t → Safe (g t x y)) (ht : Safe t) : Safe (shadowDoes i g s t) := by
  unfold shadowDoes
  split
  · split
    · exact hg _ _ ht
    · exact ht
  · exact ht

theorem next_execCsrwr {p : Pr} {l t : Nat} {s : State} (hs : Safe s) : NextSafe (execCsrwr p l t s) := by
  rw [execCsrwr]
  refine nextSafe_next ?_
  refine safe_shadowDoes (fun x y h => ?_) ?_
  · split
    · exact safe_of_mem (writeTsw_mem ..) h
    · exact h
  · exact safe_sysOp (fun a x y h => safe_of_mem (doCsrwr_mem ..) hs) hs

theorem safe_imagePerform {kind : AKind} {f : State → Nat → Nat → Perf × State} {s : State} {a : Who} {t : Tok}
    (hf : ∀ s x y, Safe s → Safe (f s x y).2) (hs : Safe s) : Safe (imagePerform kind f s a t).2 := by
  unfold imagePerform
  split
  · rename_i e
    exact safe_of_snd e (safe_of_mem (ordAccess_mem ..) hs)
  · rename_i e
    have ht := safe_of_snd e (safe_of_mem (ordAccess_mem ..) hs)
    split
    · exact ht
    · exact ht
    · exact ht
    · exact hf _ _ _ ht

theorem imageCheck_mem (kind : AKind) (l : Nat) (s : State) (a : Who) (t x : Tok) :
    (imageCheck kind l s a t x).2.mem = s.mem := by
  rw [imageCheck]
  split
  · rename_i e
    rw [mem_of_snd e, ordAccess_mem]
  · rw [watch_mem]
    rename_i e
    rw [mem_of_snd e, ordAccess_mem]

theorem doSegld_mem (k : Nat) (s : State) (ea loc : Nat) : (doSegld k s ea loc).2.mem = s.mem := by
  rw [doSegld]
  split
  · rfl
  · dsimp only
    split
    · rfl
    · dsimp only
      rw [updF_mem, touchRow_mem]
      split
      · exact updSlot_mem ..
      · rfl

theorem takeImage_mem (s : State) (k : Nat) : (s.takeImage k).mem = s.mem := by
  rw [State.takeImage]
  split
  · rw [updCur_mem, updF_mem]
  · rfl

theorem next_execSegld {p : Pr} {l t : Nat} {s : State} (hs : Safe s) : NextSafe (execSegld p l t s) := by
  rw [execSegld]
  refine nextSafe_next ?_
  refine safe_shadowDoes (fun x y h => ?_) ?_
  · exact safe_of_mem (takeImage_mem ..) h
  · refine safe_performOp (fun a x y h => ?_) (fun a x y z h => ?_) ?_
    · exact safe_of_mem (imageCheck_mem ..) hs
    · exact safe_imagePerform (fun t x y h => safe_of_mem (doSegld_mem ..) h) hs
    · exact hs

theorem safe_doSegst {k : Nat} {s : State} {n loc : Nat} (hs : Safe s) : Safe (doSegst k s n loc).2 := by
  rw [doSegst]
  refine safe_of_mem (touchRow_mem ..) ?_
  exact safe_of_mem (dropReadBufs_mem ..) (safe_wrWord _ _ (safe_wrWord _ _ hs))

theorem next_execSegst {p : Pr} {l t : Nat} {s : State} (hs : Safe s) : NextSafe (execSegst p l t s) := by
  rw [execSegst]
  refine nextSafe_next ?_
  refine safe_performOp (fun a x y h => ?_) (fun a x y z h => ?_) ?_
  · exact safe_of_mem (imageCheck_mem ..) hs
  · exact safe_imagePerform (fun t x y h => safe_doSegst h) hs
  · exact hs

theorem safe_slotCmd {own : Bool} {f : State → Nat → Nat → Option State} {s : State} {a : Who} {x y : Tok}
    (hf : ∀ {c k t}, Safe s → f s c k = some t → Safe t) (hs : Safe s) : Safe (slotCmd own f s a x y).2 := by
  unfold slotCmd
  split
  · exact hs
  split
  · exact hs
  split
  · rename_i e
    exact hf hs e
  · exact hs

theorem next_execWake {p : Pr} {l t : Nat} {s : State} (hs : Safe s) : NextSafe (execWake p l t s) := by
  rw [execWake]
  refine nextSafe_next ?_
  refine safe_sysOp (fun a x y h => ?_) ?_
  · exact safe_slotCmd (fun h e => safe_of_mem (cmdResume_mem e) hs) hs
  · exact hs

theorem next_execSlotpark {p : Pr} {l t : Nat} {s : State} (hs : Safe s) : NextSafe (execSlotpark p l t s) := by
  rw [execSlotpark]
  refine nextSafe_next ?_
  exact safe_sysOp (fun a x y h => safe_slotCmd (fun h e => safe_of_mem (cmdPark_mem e) hs) hs) hs

theorem safe_doSlotfree {s : State} {a : Who} {x y : Tok} (hs : Safe s) : Safe (doSlotfree s a x y).2 := by
  rw [doSlotfree]
  split
  · exact safe_slotCmd (fun h e => safe_cmdRetire hs e) hs
  · exact safe_slotCmd (fun h e => safe_cmdKill hs e) hs

theorem translateBoth_mem (a : Who) (s : State) (ea n : Nat) : (translateBoth a s ea n).2.mem = s.mem := by
  rw [translateBoth]
  split
  · rename_i e
    rw [mem_of_snd e, translateAll_mem]
  · split
    · rename_i e
      rw [mem_of_snd e, translateAll_mem]
      rename_i e' _ _ _
      rw [mem_of_snd e', translateAll_mem]
    · rename_i e
      rw [mem_of_snd e, translateAll_mem]
      rename_i e' _ _ _
      rw [mem_of_snd e', translateAll_mem]

theorem swapLocs_mem (s : State) (a : Who) (t : Word) : (swapLocs s a t).2.mem = s.mem := by
  rw [swapLocs]
  split
  · rfl
  · split
    · rfl
    · dsimp only
      split
      · dsimp only
        rename_i e
        rw [mem_of_snd e, translateBoth_mem]
      · split
        · dsimp only
          rename_i e
          rw [mem_of_snd e, translateBoth_mem]
          rename_i e' _ _ _
          rw [mem_of_snd e', translateBoth_mem]
        · split
          · dsimp only
            rename_i e _
            rw [mem_of_snd e, translateBoth_mem]
            rename_i e' _ _ _ _
            rw [mem_of_snd e', translateBoth_mem]
          · dsimp only
            rename_i e _
            rw [mem_of_snd e, translateBoth_mem]
            rename_i e' _ _ _ _
            rw [mem_of_snd e', translateBoth_mem]

theorem safe_swapOne {s : State} {c k : Nat} {ls : List Nat} {f : CtxFrame} {shadow : Bool} (hs : Safe s) :
    Safe (s.swapOne c k ls f shadow) := by
  rw [State.swapOne]
  split
  · refine safe_of_mem (updSlot_mem ..) ?_
    refine safe_of_mem (loadFrame_mem ..) ?_
    split
    · exact safe_setFull _ _ (safe_of_mem (touchFrame_mem ..) (safe_of_mem (dropWaiters_mem ..) hs))
    · dsimp only [Safe]
      refine wf_of_safe ?_
      refine safe_of_mem (wakeWord_mem ..) ?_
      exact safe_writeFrame (safe_of_mem (touchFrame_mem ..) (safe_of_mem (dropWaiters_mem ..) hs))
  · split
    · exact safe_setFull _ _ (safe_of_mem (touchFrame_mem ..) (safe_of_mem (dropWaiters_mem ..) hs))
    · dsimp only [Safe]
      refine wf_of_safe ?_
      refine safe_of_mem (wakeWord_mem ..) ?_
      exact safe_writeFrame (safe_of_mem (touchFrame_mem ..) (safe_of_mem (dropWaiters_mem ..) hs))

theorem safe_frameGate {s : State} {a : Who} {t : Word} {ls : List Nat} {f : State → Perf × State}
    (hf : Safe s → Safe (f s).2) (hs : Safe s) : Safe (frameGate s a t ls f).2 := by
  unfold frameGate
  split
  · exact hs
  · exact hs
  · exact hs
  · exact hf hs

theorem safe_ctxswap {s : State} {a : Who} {t : Word} {ls : List Nat} {c k : Nat} (hs : Safe s) :
    Safe (s.ctxswap a t ls c k).2 := by
  have hdone (n : Nat) : Safe (doneWord n s).2 := safe_of_mem (doneWord_mem ..) hs
  rw [State.ctxswap]
  refine safe_ite_snd (hdone _) (safe_ite_snd (hdone _) (safe_ite_snd (hdone _) ?_))
  refine safe_ite_snd (safe_of_mem (updSlot_mem ..) hs) (safe_ite_snd (safe_of_mem (forceAt_mem ..) hs) ?_)
  refine safe_ite_snd ?_ ?_
  · refine safe_of_mem (doneWord_mem ..) (safe_ite ?_ (safe_freeSlot ?_))
    · exact safe_swapOne (safe_of_mem (abandon_mem ..) hs)
    · exact safe_swapOne (safe_of_mem (abandon_mem ..) hs)
  · have hread (u : State) (h : u.mem = (swapLocs s a (t + 320)).2.mem) : Safe u :=
      safe_of_mem (h.trans (swapLocs_mem ..)) hs
    split
    · rename_i e
      exact hread _ (mem_of_snd e)
    · rename_i e
      exact safe_of_mem (doneWord_mem ..) (hread _ (mem_of_snd e))
    · rename_i e _
      exact safe_of_mem (doneWord_mem ..) (hread _ (mem_of_snd e))
    · rename_i e _
      refine safe_frameGate (fun hu => ?_) (hread _ (mem_of_snd e))
      have hdone' (n : Nat) := safe_of_mem (doneWord_mem n _) hu
      refine safe_ite_snd (hdone' _) (safe_ite_snd (hdone' _) (safe_of_mem (doneWord_mem ..) ?_))
      refine safe_ite (safe_of_mem (pairUp_mem ..) ?_) (safe_freeSlot (safe_freeSlot ?_))
      · exact safe_swapOne (safe_swapOne (safe_of_mem (abandon_mem ..) hu))
      · exact safe_swapOne (safe_swapOne (safe_of_mem (abandon_mem ..) hu))

theorem safe_doCtxswap {s : State} {a : Who} {x y : Tok} (hs : Safe s) : Safe (doCtxswap s a x y).2 := by
  rw [doCtxswap]
  split
  · exact safe_of_mem (doneWord_mem ..) hs
  · split
    · rename_i e
      exact safe_of_mem ((mem_of_snd e).trans (swapLocs_mem ..)) hs
    · refine safe_of_mem (doneWord_mem ..) ?_
      rename_i e
      exact safe_of_mem ((mem_of_snd e).trans (swapLocs_mem ..)) hs
    · refine safe_frameGate (fun h => ?_) ?_
      · split
        · exact safe_ctxswap h
      · rename_i e
        exact safe_of_mem ((mem_of_snd e).trans (swapLocs_mem ..)) hs

theorem ctxswapCheck_mem (s : State) (a : Who) (x y : Tok) : (ctxswapCheck s a x y).2.mem = s.mem := by
  rw [ctxswapCheck]
  split
  · rfl
  · split
    · rename_i e
      rw [mem_of_snd e, swapLocs_mem]
    · rename_i e
      rw [mem_of_snd e, swapLocs_mem]
    · rename_i e
      rw [mem_of_snd e, swapLocs_mem]

theorem next_execCtxswap {p : Pr} {l t : Nat} {s : State} (hs : Safe s) : NextSafe (execCtxswap p l t s) := by
  rw [execCtxswap]
  refine nextSafe_next ?_
  refine safe_performOp (fun a x y h => ?_) (fun a x y z h => ?_) ?_
  · exact safe_of_mem (ctxswapCheck_mem ..) hs
  · exact safe_doCtxswap hs
  · exact hs

theorem doTlbinv_mem (s : State) (who : Who) (x y : Tok) : (doTlbinv s who x y).2.mem = s.mem := by
  rw [doTlbinv]
  split
  · rfl
  · exact mem_foldl _ _ _ fun t a => updCore_mem ..

theorem asks_mem (s : State) : (s.asks).mem = s.mem := rfl

theorem doMarker_mem (s : State) (a : Who) (x y : Tok) : (doMarker s a x y).2.mem = s.mem := by
  rw [doMarker]
  split
  · rfl
  · split
    · exact doneWord_mem ..
    · split
      · exact doneWord_mem ..
      · split
        · rfl
        · split
          · rw [doneWord_mem, beginCut_mem]
          · rw [beginCut_mem, updLaunch_mem, asks_mem]

theorem doQwave_mem (s : State) (a : Who) (x y : Tok) : (doQwave s a x y).2.mem = s.mem := rfl

theorem doTwin_mem (s : State) (a : Who) (x y : Tok) : (doTwin s a x y).2.mem = s.mem := by
  rw [doTwin]
  split
  · rfl
  · split
    · exact doneWord_mem ..
    · split
      · dsimp only
        split
        · exact doneWord_mem ..
        · split
          · exact doneWord_mem ..
          · dsimp only
            rw [updSlot_mem, forceAt_mem, asks_mem]

theorem doScrub_mem (s : State) (a : Who) (x y : Tok) : (doScrub s a x y).2.mem = s.mem := by
  rw [doScrub]
  split
  · rfl
  · split
    · exact doneWord_mem ..
    · split
      · rfl
      · rw [updVault_mem, asks_mem]

theorem safe_fillPattern {s : State} {c n : Nat} (hs : Safe s) : Safe (s.fillPattern c n) := by
  induction n with
  | zero => exact hs
  | succ n ih => exact safe_setFull _ _ (safe_wrWord _ _ ih)

theorem next_execScrubPassComplete {c : Nat} {bad : List RowName} {s : State} (hs : Safe s) :
    NextSafe (execScrubPassComplete c bad s) := by
  rw [execScrubPassComplete]
  refine nextSafe_next ?_
  split
  · exact hs
  · dsimp only
    split
    · refine safe_of_mem (answerAt_mem ..) ?_
      exact safe_of_mem (dropRange_mem ..) (safe_fillPattern (safe_of_mem (updVault_mem ..) hs))
    · split
      · refine safe_of_mem (answerAt_mem ..) ?_
        exact safe_of_mem (updVault_mem ..) (safe_of_mem (updVault_mem ..) hs)
      · exact safe_of_mem (answerAt_mem ..) (safe_clearMem _ _ (safe_of_mem (updVault_mem ..) hs))

/-! ## Launches -/

theorem touchPrepare_mem (s : State) (root : Nat) (r : LaunchRec) : (s.touchPrepare root r).mem = s.mem := by
  rw [State.touchPrepare]
  exact mem_foldl _ _ _ fun t a => touchVa_mem ..

theorem safe_setDone {s : State} {lid i : Nat} {v : Word} (hs : Safe s) : Safe (s.setDone lid i v) := by
  rw [State.setDone]
  split
  · exact safe_dispWrite (safe_of_mem (touchVa_mem ..) hs)
  · exact hs

theorem dropGuests_mem (s : State) (lid : Nat) : (s.dropGuests lid).mem = s.mem := by
  rw [State.dropGuests]
  refine (mem_foldl _ _ _ fun t a => ?_).trans ?_
  · rw [updDie_mem]
    exact mem_foldl _ _ _ fun t a => updEntry_mem ..
  · rfl

theorem safe_complete {s : State} {lid status : Nat} (hs : Safe s) : Safe (s.complete lid status) := by
  rw [State.complete]
  refine safe_of_mem (noteAllAges_mem ..) ?_
  refine safe_of_mem (updLaunch_mem ..) ?_
  refine safe_of_mem (dropGuests_mem ..) ?_
  split
  · split
    · refine safe_of_mem (msix_mem ..) ?_
      split
      · refine safe_of_mem (touchRow_mem ..) ?_
        refine safe_storeFull ?_
        refine safe_of_mem (dropReadBufs_mem ..) ?_
        exact safe_setDone (safe_foldl (fun t a h => safe_setDone h) hs)
      · exact safe_setDone (safe_foldl (fun t a h => safe_setDone h) hs)
    · split
      · refine safe_of_mem (touchRow_mem ..) ?_
        refine safe_storeFull ?_
        refine safe_of_mem (dropReadBufs_mem ..) ?_
        exact safe_setDone (safe_foldl (fun t a h => safe_setDone h) hs)
      · exact safe_setDone (safe_foldl (fun t a h => safe_setDone h) hs)
  · split
    · refine safe_of_mem (touchRow_mem ..) ?_
      refine safe_storeFull ?_
      refine safe_of_mem (dropReadBufs_mem ..) ?_
      exact safe_setDone (safe_foldl (fun t a h => safe_setDone h) hs)
    · exact safe_setDone (safe_foldl (fun t a h => safe_setDone h) hs)

theorem safe_freeSlots {n d q : Nat} {s : State} (hs : Safe s) : Safe (State.freeSlots n d q s) := by
  induction n generalizing s with
  | zero => exact hs
  | succ n ih =>
    rw [State.freeSlots]
    split
    · exact hs
    · split
      · refine ih (safe_of_mem (updQueue_mem ..) (safe_dispWrite ?_))
        split
        · exact safe_setFull _ _ hs
        · exact hs
      · exact hs

theorem safe_prepare {s : State} {d q e n v : Nat} {x : Desc} (hs : Safe s) : Safe (s.prepare d q e n v x) := by
  have hw (s : State) (f : Entry → Entry) (hs : Safe s) : Safe (s.updEntry d e f).nextSerial :=
    safe_of_mem ((nextSerial_mem ..).trans (updEntry_mem ..)) hs
  rw [State.prepare]
  refine safe_ite ?_ ?_
  · exact safe_of_mem ((dieRecord_mem ..).trans (updEntry_mem ..)) (safe_dispWrite (hw _ _ hs))
  split
  · exact safe_complete (hw _ _ hs)
  refine safe_ite (safe_complete (hw _ _ hs)) (safe_ite (safe_complete (hw _ _ hs)) ?_)
  have hz : ∀ (u : State) (lid : Nat), Safe u → Safe (((List.range 6).foldl (fun s i => s.setDone lid (i + 1) 0)
      (u.setDone lid 0 (word 0x0F))).setDone lid 7 (word n)) := fun u lid hu =>
    safe_setDone (safe_foldl (fun t i h => safe_setDone h) (safe_setDone hu))
  dsimp only
  split
  · exact safe_setFull _ _ (safe_dispWrite (hz _ _ (safe_of_mem (updEntry_mem ..) (hw _ _ hs))))
  · exact hz _ _ (safe_of_mem (updEntry_mem ..) (hw _ _ hs))

theorem safe_readRecord {s : State} {d q : Nat} {e n : Nat} {x : Desc} (hs : Safe s) :
    Safe (s.readRecord d q e n x) := by
  rw [State.readRecord]
  split
  · exact hs
  · refine safe_freeSlots ?_
    refine safe_of_mem (updQueue_mem ..) ?_
    refine safe_prepare ?_
    refine safe_of_mem (touchPrepare_mem ..) ?_
    exact safe_of_mem (touchVa_mem ..) (safe_of_mem (touchRow_mem ..) hs)

theorem next_execDispenserReadRecord {die q ahead : Nat} {s : State} (hs : Safe s) :
    NextSafe (execDispenserReadRecord die q ahead s) := by
  rw [execDispenserReadRecord]
  refine nextSafe_next ?_
  split
  · exact hs
  · split
    · exact safe_of_mem (updQueue_mem ..) hs
    · dsimp only
      split
      · split
        · split
          · exact hs
          · exact safe_of_mem (dieRecord_mem ..) (safe_of_mem (updQueue_mem ..) hs)
        · split
          · exact safe_of_mem (updQueue_mem ..) hs
          · refine safe_of_mem (dieRecord_mem ..) ?_
            exact safe_of_mem (updQueue_mem ..) (safe_of_mem (updQueue_mem ..) hs)
      · split
        · split
          · split
            · exact hs
            · exact safe_of_mem (dieRecord_mem ..) (safe_of_mem (updDie_mem ..) hs)
          · split
            · exact safe_of_mem (updDie_mem ..) hs
            · split
              · exact safe_of_mem (updDie_mem ..) hs
              · split
                · split
                  · exact safe_readRecord (safe_of_mem (updDie_mem ..) hs)
                  · exact safe_of_mem (updDie_mem ..) hs
                · split
                  · exact safe_readRecord (safe_of_mem (updDie_mem ..) hs)
                  · exact safe_of_mem (updDie_mem ..) hs
        · split
          · split
            · exact safe_of_mem (updQueue_mem ..) hs
            · refine safe_of_mem (dieRecord_mem ..) ?_
              exact safe_of_mem (updDie_mem ..) (safe_of_mem (updQueue_mem ..) hs)
          · split
            · exact safe_of_mem (updDie_mem ..) (safe_of_mem (updQueue_mem ..) hs)
            · split
              · exact safe_of_mem (updDie_mem ..) (safe_of_mem (updQueue_mem ..) hs)
              · split
                · split
                  · exact safe_readRecord (safe_of_mem (updDie_mem ..) (safe_of_mem (updQueue_mem ..) hs))
                  · exact safe_of_mem (updDie_mem ..) (safe_of_mem (updQueue_mem ..) hs)
                · split
                  · exact safe_readRecord (safe_of_mem (updDie_mem ..) (safe_of_mem (updQueue_mem ..) hs))
                  · exact safe_of_mem (updDie_mem ..) (safe_of_mem (updQueue_mem ..) hs)

theorem next_execEntryReuseDelay {die e : Nat} {s : State} (hs : Safe s) :
    NextSafe (execEntryReuseDelay die e s) := by
  rw [execEntryReuseDelay]
  refine nextSafe_next ?_
  split
  · exact safe_of_mem (updEntry_mem ..) hs
  · exact hs

theorem loadMould_mem (s : State) (lid : Nat) : (s.loadMould lid).mem = s.mem := by
  rw [State.loadMould]
  split
  · rw [dieRecord_mem, updLaunch_mem]
  · exact updLaunch_mem ..

theorem safe_fromCut {s : State} {lid : Nat} (hs : Safe s) : Safe (s.fromCut lid) := by
  rw [State.fromCut]
  split
  · exact safe_placeReserve (safe_of_mem (updLaunch_mem ..) hs)
  · exact hs

theorem checkDraining_mem (s : State) (lid : Nat) : (s.checkDraining lid).mem = s.mem := by
  rw [State.checkDraining]
  split
  · exact updLaunch_mem ..
  · rfl

theorem safe_activate {s : State} {lid : Nat} (hs : Safe s) : Safe (s.activate lid) := by
  rw [State.activate]
  refine safe_of_mem (noteAges_mem ..) ?_
  refine safe_of_mem (checkDraining_mem ..) ?_
  split
  · refine safe_fromCut ?_
    refine safe_of_mem (loadMould_mem ..) ?_
    split
    · exact safe_of_mem (updLaunch_mem ..) hs
    · split
      · exact safe_of_mem (updLaunch_mem ..) (safe_of_mem (updLaunch_mem ..) hs)
      · exact safe_of_mem (dieRecord_mem ..) (safe_of_mem (updLaunch_mem ..) hs)
  · split
    · exact safe_of_mem (updLaunch_mem ..) hs
    · split
      · exact safe_of_mem (updLaunch_mem ..) (safe_of_mem (updLaunch_mem ..) hs)
      · exact safe_of_mem (dieRecord_mem ..) (safe_of_mem (updLaunch_mem ..) hs)

theorem next_execRecordTake {die e : Nat} {s : State} (hs : Safe s) : NextSafe (execRecordTake die e s) := by
  rw [execRecordTake]
  refine nextSafe_next ?_
  split
  · exact hs
  · split
    · exact hs
    · exact safe_complete hs
    · exact safe_activate hs

theorem next_execSliceEndReport {n : Nat} {s : State} (hs : Safe s) : NextSafe (execSliceEndReport n s) := by
  rw [execSliceEndReport]
  refine nextSafe_next ?_
  split
  · dsimp only
    split
    · exact safe_of_mem (endSlice_mem ..) (safe_of_mem (dropPacket_mem ..) hs)
    · exact safe_of_mem (dropPacket_mem ..) hs
  · exact hs

theorem wavePass_mem (s : State) (lid unit : Nat) : (s.wavePass lid unit).mem = s.mem := rfl

theorem next_execQuiescenceWave {lid unit : Nat} {s : State} (hs : Safe s) :
    NextSafe (execQuiescenceWave lid unit s) := by
  rw [execQuiescenceWave]
  refine nextSafe_next ?_
  split
  · exact hs
  · refine safe_of_mem (wavePass_mem ..) ?_
    split
    · exact hs
    · exact safe_of_mem (updLaunch_mem ..) hs

theorem next_execQuiescenceWaveReturn {die e : Nat} {s : State} (hs : Safe s) :
    NextSafe (execQuiescenceWaveReturn die e s) := by
  rw [execQuiescenceWaveReturn]
  refine nextSafe_next ?_
  split
  · exact hs
  · refine safe_of_mem (updEntry_mem ..) ?_
    exact safe_foldl (fun t a h => safe_of_mem (wavePass_mem ..) h) hs

theorem next_execLaunchEnd {die e : Nat} {s : State} (hs : Safe s) : NextSafe (execLaunchEnd die e s) := by
  rw [execLaunchEnd]
  refine nextSafe_next ?_
  split
  · exact safe_of_mem (updEntry_mem ..) hs
  · exact hs

theorem next_execLaunchCompletion {die e : Nat} {s : State} (hs : Safe s) :
    NextSafe (execLaunchCompletion die e s) := by
  rw [execLaunchCompletion]
  refine nextSafe_next ?_
  split
  · exact hs
  · split
    · exact safe_complete hs
    · split
      · exact safe_complete hs
      · exact hs

theorem giveBack_mem (s : State) (lid : Nat) : (s.giveBack lid).mem = s.mem := by
  rw [State.giveBack]
  refine (mem_foldl _ _ _ fun t a => ?_).trans ?_
  · refine (mem_foldl _ _ _ fun t a => ?_).trans ?_
    · split
      · rfl
      · exact linkSend_mem ..
    · rfl
  · refine (mem_foldl _ _ _ fun t a => ?_).trans ?_
    · refine (mem_foldl _ _ _ fun t a => ?_).trans ?_
      · split
        · split
          · exact unreserve_mem ..
          · rfl
        · rfl
      · rfl
    · refine (mem_foldl _ _ _ fun t a => ?_).trans ?_
      · split
        · split
          · exact send_mem ..
          · rfl
        · rfl
      · rfl

/-- Each part of a killed launch leaves in turn; none writes memory but the answer of its suspension. -/
theorem safe_killLaunch {s : State} {lid : Nat} (hs : Safe s) : Safe (s.killLaunch lid) := by
  have hslots (u : State) (ss : List (Nat × Nat)) (hu : Safe u) : Safe (ss.foldl (fun s e => s.freeSlot e.1 e.2)
      (ss.foldl (fun s e => (s.abandon e.1 e.2).updSlot e.1 e.2 fun x => { x with slice := none }) u)) :=
    safe_foldl (fun t e h => safe_freeSlot h)
      (safe_foldl (fun t e h => safe_of_mem ((updSlot_mem ..).trans (abandon_mem ..)) h) hu)
  rw [State.killLaunch]
  refine safe_of_mem (updLaunch_mem ..) ?_
  generalize hu : List.foldl (fun (s : State) e => s.freeEntry lid e) _ _ = u
  replace hu : Safe u := hu ▸ safe_foldl (fun t e h => safe_freeEntry h) (hslots _ _ (safe_dropCmds
    (safe_foldl (fun t c h => safe_relink h) (safe_of_mem (giveBack_mem ..) hs))))
  have hv : Safe (match (u.entry lid).cutAsk with
      | some (c, k, m, i) => u.answerAt c k m i (.val 1)
      | none => u) := by
    split
    · exact safe_of_mem (answerAt_mem ..) hu
    · exact hu
  split
  · exact safe_respond hv
  · exact hv

theorem next_execKillWaveReturn {die e : Nat} {s : State} (hs : Safe s) : NextSafe (execKillWaveReturn die e s) := by
  rw [execKillWaveReturn]
  refine nextSafe_next ?_
  split
  · exact hs
  · split
    · exact safe_killLaunch hs
    · exact safe_foldl (fun t a h => safe_of_mem (forceAt_mem ..) (safe_of_mem (updSlot_mem ..) h)) hs

theorem safe_abortLaunch {s : State} {lid : Nat} (hs : Safe s) : Safe (s.abortLaunch lid).2 := by
  rw [State.abortLaunch]
  split
  · exact hs
  · split
    · dsimp only
      exact safe_complete hs
    · dsimp only
      exact safe_of_mem (forcedEnd_mem ..) hs

/-! ## The dispenser -/

theorem next_execGuestOffer {die e guest : Nat} {s : State} (hs : Safe s) :
    NextSafe (execGuestOffer die e guest s) := by
  rw [execGuestOffer]
  refine nextSafe_next ?_
  split
  · exact hs
  · split
    · exact hs
    · refine safe_of_mem (updEntry_mem ..) ?_
      refine safe_of_mem (updQueue_mem ..) ?_
      exact safe_of_mem (updDie_mem ..) (safe_of_mem (updEntry_mem ..) hs)

theorem updGuest_mem (s : State) (d n : Nat) (f : Guest → Guest) : (s.updGuest d n f).mem = s.mem := rfl

theorem next_execGuestBatchClaim {die g : Nat} {s : State} (hs : Safe s) :
    NextSafe (execGuestBatchClaim die g s) := by
  rw [execGuestBatchClaim]
  refine nextSafe_next ?_
  split
  · exact hs
  · dsimp only
    split
    · exact hs
    · refine safe_of_mem (noteAges_mem ..) ?_
      refine safe_of_mem (noteAges_mem ..) ?_
      exact safe_of_mem (updGuest_mem ..) (safe_of_mem (updEntry_mem ..) hs)

theorem wrrPick_mem (s : State) (d cls c : Nat) : (s.wrrPick d cls c).2.mem = s.mem := by
  rw [State.wrrPick]
  split
  · rfl
  · dsimp only
    split
    · dsimp only
      exact mem_foldl _ _ _ fun t a => updQueue_mem ..
    · rfl

theorem pickFrom_mem (s : State) (d c : Nat) (ls : List Nat) : (s.pickFrom d c ls).2.mem = s.mem := by
  induction ls generalizing s with
  | nil => rfl
  | cons cls ls ih =>
    rw [State.pickFrom]
    split
    · rename_i e
      rw [mem_of_snd e, wrrPick_mem]
    · rename_i e
      rw [ih, mem_of_snd e, wrrPick_mem]

theorem startSlice_mem (s : State) (d c : Nat) (x : Served) : (s.startSlice d c x).mem = s.mem := by
  rw [State.startSlice]
  split
  · rfl
  · rw [send_mem]
    split
    · exact (mem_foldl _ _ _ fun t a => updDie_mem ..).trans (updLaunch_mem ..)
    · split
      · exact updLaunch_mem ..
      · exact updGuest_mem ..

theorem countWithheld_mem (s : State) (d : Nat) : (s.countWithheld d).mem = s.mem := by
  rw [State.countWithheld]
  split
  · rfl
  · exact mem_foldl _ _ _ fun t a => updLaunch_mem ..

theorem spillRequests_mem (s : State) (d : Nat) : (s.spillRequests d).mem = s.mem := by
  rw [State.spillRequests]
  refine (mem_foldl _ _ _ fun t a => ?_).trans ?_
  · refine (mem_foldl _ _ _ fun t a => ?_).trans ?_
    · split
      · rfl
      · exact send_mem ..
    · rfl
  · rfl

theorem maskRecords_mem (s : State) (d : Nat) : (s.maskRecords d).mem = s.mem := by
  rw [State.maskRecords]
  refine (mem_foldl _ _ _ fun t a => ?_).trans ?_
  · dsimp only
    split
    · split
      · split
        · rw [dieRecord_mem, updLaunch_mem, dieRecord_mem, updLaunch_mem]
        · rw [dieRecord_mem, updLaunch_mem]
      · split
        · rw [dieRecord_mem, updLaunch_mem]
        · rfl
    · split
      · rw [dieRecord_mem, updLaunch_mem]
      · rfl
  · rfl

theorem meshCycle_mem (s : State) (d : Nat) : (s.meshCycle d).mem = s.mem := by
  rw [State.meshCycle, spillRequests_mem, countWithheld_mem, updDie_mem, updDie_mem]

theorem noGrant_mem (s : State) (d : Nat) : (s.noGrant d).mem = s.mem := by
  rw [State.noGrant, updDie_mem, maskRecords_mem]

theorem grantTo_mem (s : State) (d n : Nat) (cls q : Nat) (x : Served) : (s.grantTo d n cls q x).mem = s.mem := by
  rw [State.grantTo, noteAges_mem]
  split
  · split
    · rw [updDie_mem, updQueue_mem, startSlice_mem, updDie_mem]
    · rw [updQueue_mem, startSlice_mem, updDie_mem]
  · split
    · rw [updDie_mem, updQueue_mem, startSlice_mem, updDie_mem]
    · rw [updQueue_mem, startSlice_mem, updDie_mem]

theorem grantNext_mem (s : State) (d fuel : Nat) : (s.grantNext d fuel).mem = s.mem := by
  induction fuel generalizing s with
  | zero =>
    have h0 : s.grantNext d 0 = s.noGrant d := rfl
    rw [h0, noGrant_mem]
  | succ fuel ih =>
    rw [grantNext_succ, grantTry.eq_def]
    split
    · exact noGrant_mem ..
    · have hcore : ∀ n, (atCore s d n).mem = s.mem := fun n => updDie_mem ..
      split
      · rename_i e
        rw [ih, passOver, updDie_mem, mem_of_snd e, pickFrom_mem, hcore]
      · rename_i e
        split
        · rw [mem_of_snd e, pickFrom_mem, hcore]
        · rw [grantTo_mem, mem_of_snd e, pickFrom_mem, hcore]

theorem next_execGrant {die : Nat} {s : State} (hs : Safe s) : NextSafe (execGrant die s) := by
  rw [execGrant]
  refine nextSafe_next ?_
  refine safe_of_mem (grantNext_mem ..) ?_
  split
  · exact hs
  · exact safe_of_mem (meshCycle_mem ..) hs

theorem refuseStart_mem (s : State) (d lid i : Nat) : (s.refuseStart d lid i).mem = s.mem := by
  rw [State.refuseStart, noteAges_mem]
  split
  · exact updLaunch_mem ..
  · exact updDie_mem ..

theorem safe_tallyStart {s : State} {d lid : Nat} {i c k : Nat} (hs : Safe s) : Safe (s.tallyStart d lid i c k) := by
  rw [State.tallyStart]
  split
  · split
    · split
      · exact safe_of_mem (met_mem ..) (safe_of_mem (updDie_mem ..) hs)
      · exact safe_of_mem (updDie_mem ..) hs
    · exact safe_of_mem (updDie_mem ..) hs
  · split
    · exact safe_record (safe_of_mem (updDie_mem ..) hs)
    · exact safe_of_mem (updDie_mem ..) hs

theorem next_execStartMessage {n : Nat} {s : State} (hs : Safe s) : NextSafe (execStartMessage n s) := by
  rw [execStartMessage]
  refine nextSafe_next ?_
  split
  · dsimp only
    split
    · exact safe_of_mem (dropPacket_mem ..) hs
    · split
      · exact safe_of_mem (refuseStart_mem ..) (safe_of_mem (dropPacket_mem ..) hs)
      · split
        · exact safe_of_mem (askExit_mem ..) hs
        · split
          · exact hs
          · split
            · exact safe_of_mem (refuseStart_mem ..) (safe_of_mem (dropPacket_mem ..) hs)
            · refine safe_of_mem (checkDraining_mem ..) ?_
              refine safe_of_mem (loadThread_mem ..) ?_
              exact safe_of_mem (updLaunch_mem ..) (safe_tallyStart (safe_of_mem (dropPacket_mem ..) hs))
  · exact hs

theorem next_execCdisChange {die : Nat} {s : State} (hs : Safe s) : NextSafe (execCdisChange die s) := by
  rw [execCdisChange]
  refine nextSafe_next ?_
  split
  · exact hs
  · split
    · exact hs
    · split
      · exact hs
      · dsimp only
        split
        · exact safe_of_mem (dieRecord_mem ..) (safe_setFull _ _ (safe_of_mem (touchRow_mem ..) hs))
        · exact safe_of_mem (updDie_mem ..) (safe_setFull _ _ (safe_of_mem (touchRow_mem ..) hs))

theorem next_execSpillRequest {core lid : Nat} {s : State} (hs : Safe s) :
    NextSafe (execSpillRequest core lid s) := by
  rw [execSpillRequest]
  refine nextSafe_next ?_
  split
  · exact hs
  · dsimp only
    split
    · exact safe_of_mem (dropPacket_mem ..) hs
    · split
      · exact safe_answerSpill (safe_of_mem (askSpill_mem ..) (safe_of_mem (dropPacket_mem ..) hs))
      · split
        · exact safe_of_mem (reserveEnd_mem ..) (safe_of_mem (dropPacket_mem ..) hs)
        · exact safe_of_mem (dropPacket_mem ..) hs

theorem next_execReplayDivergence {die e unit : Nat} {s : State} (hs : Safe s) :
    NextSafe (execReplayDivergence die e unit s) := by
  rw [execReplayDivergence]
  refine nextSafe_next ?_
  split
  · exact hs
  · dsimp only
    split
    · split
      · exact safe_of_mem (updLaunch_mem ..) (safe_of_mem (dieRecord_mem ..) (safe_markMould hs))
      · exact hs
    · split
      · exact safe_of_mem (updLaunch_mem ..) (safe_of_mem (dieRecord_mem ..) (safe_markMould hs))
      · exact hs

end Sys2Proof.Proofs

/-! PROOFS. What the link, the host and the agenda keep (02, 03). -/

namespace Sys2Proof.Proofs
open Sys2Proof.Machine Sys2Proof.Laws

/-! ## The Burmir link -/

theorem accept_mem (s : State) (p : Nat) (x : Txn) : (s.accept p x).mem = s.mem := rfl

theorem countErr_mem (s : State) (p : Nat) : (s.countErr p).mem = s.mem := rfl

theorem logEvent_mem (s : State) (code detail : Nat) : (s.logEvent code detail).mem = s.mem := rfl

theorem next_execLinkTraining {p : Nat} {lanes : BitVec 16} {s : State} (hs : Safe s) :
    NextSafe (execLinkTraining p lanes s) := by
  rw [execLinkTraining]
  refine nextSafe_next ?_
  split
  · exact hs
  · split
    · split
      · exact safe_of_mem (updPort_mem ..) hs
      · exact safe_of_mem (logEvent_mem ..) (safe_of_mem (updPort_mem ..) hs)
    · exact safe_of_mem (logEvent_mem ..) (safe_of_mem (updPort_mem ..) hs)

theorem recvFor_mem (s : State) (m : Nat × Nat × Nat) : (s.recvFor m).mem = s.mem := by
  rw [State.recvFor]
  exact countRecv_mem ..

theorem endRequest_mem (s : State) (x : Outstanding) : (s.endRequest x).mem = s.mem := by
  rw [State.endRequest]
  split
  · exact conclude_mem ..
  · split
    · refine (atWordOf_mem _ _ _ _ _ fun t => ?_).trans ?_
      · split
        · split
          · exact answered_mem ..
          · rfl
        · rfl
      · rfl
    · rfl
  · rfl

theorem complPcie_mem (s : State) (c : PcieCpl) : (s.complPcie c).mem = s.mem := rfl

theorem adapterPut_mem (s : State) (p : Nat) (x : Txn) : (s.adapterPut p x).mem = s.mem := rfl

theorem adapterLose_mem (s : State) (x : Txn) : (s.adapterLose x).mem = s.mem := by
  rw [State.adapterLose]
  split
  · exact complPcie_mem ..
  · rfl

theorem adapterPump_mem (s : State) : (s.adapterPump).mem = s.mem := by
  rw [State.adapterPump]
  refine (mem_foldl _ _ _ fun t a => ?_).trans ?_
  · dsimp only
    split
    · rfl
    · split
      · exact adapterLose_mem ..
      · exact adapterPut_mem ..
      · rfl
  · rfl

theorem portDown_mem (s : State) (p : Nat) : (s.portDown p).mem = s.mem := by
  rw [State.portDown]
  split
  · rfl
  · dsimp only
    rw [logEvent_mem]
    refine (mem_foldl _ _ _ fun t a => ?_).trans ?_
    · split
      · rfl
      · exact freezeWith_mem ..
    · rw [adapterPump_mem]
      dsimp only
      refine (mem_foldl _ _ _ fun t a => ?_).trans ?_
      · exact send_mem ..
      · refine (mem_foldl _ _ _ fun t a => ?_).trans ?_
        · exact recvFor_mem ..
        · refine (mem_foldl _ _ _ fun t a => ?_).trans ?_
          · exact endRequest_mem ..
          · dsimp only
            exact updPort_mem ..

theorem acked_mem (s : State) (p k seq : Nat) : (s.acked p k seq).mem = s.mem := by
  rw [State.acked]
  split
  · rfl
  · exact (mem_foldl _ _ _ fun t a => recvFor_mem ..).trans (updPort_mem ..)

theorem next_execLinkControlFlit {p : Nat} {cls : FlitClass} {kind seq : Nat} {s : State} (hs : Safe s) :
    NextSafe (execLinkControlFlit p cls kind seq s) := by
  rw [execLinkControlFlit]
  refine nextSafe_next ?_
  split
  · exact hs
  · split
    · exact safe_of_mem (acked_mem ..) hs
    · split
      · dsimp only
        split
        · exact safe_of_mem (portDown_mem ..) (safe_of_mem (updPort_mem ..) hs)
        · exact safe_of_mem (updPort_mem ..) hs
      · exact safe_of_mem (updPort_mem ..) hs

theorem next_execBusyReplay {p : Nat} {cls : FlitClass} {s : State} (hs : Safe s) :
    NextSafe (execBusyReplay p cls s) := by
  rw [execBusyReplay]
  refine nextSafe_next ?_
  split
  · split
    · exact safe_of_mem (updPort_mem ..) hs
    · exact hs
  · exact hs

theorem next_execLinkAckTimeout {p : Nat} {cls : FlitClass} {s : State} (hs : Safe s) :
    NextSafe (execLinkAckTimeout p cls s) := by
  rw [execLinkAckTimeout]
  refine nextSafe_next ?_
  split
  · exact safe_of_mem (portDown_mem ..) hs
  · exact hs

theorem next_execFlitDiscard {p : Nat} {hdr : BitVec 64} {lo hi : BitVec 256} {space : Bool} {s : State} (hs : Safe s)
    : NextSafe (execFlitDiscard p hdr lo hi space s) := by
  rw [execFlitDiscard]
  refine nextSafe_next ?_
  split
  · exact hs
  · split
    · exact safe_of_mem (updPort_mem ..) hs
    · split <;> exact safe_of_mem (updPort_mem ..) hs

theorem next_execBusyRepeatTimer {p : Nat} {cls : FlitClass} {s : State} (hs : Safe s) :
    NextSafe (execBusyRepeatTimer p cls s) := by
  rw [execBusyRepeatTimer]
  refine nextSafe_next ?_
  split
  · split
    · exact safe_of_mem (updPort_mem ..) hs
    · exact hs
  · exact hs

theorem safe_recordTxn {s : State} {lid p : Nat} {x : Txn} (hs : Safe s) : Safe (s.recordTxn lid p x) := by
  rw [State.recordTxn]
  split
  · exact hs
  · refine safe_foldl (fun t a h => ?_) ?_
    · exact safe_record h
    · refine safe_of_mem (updPort_mem ..) ?_
      split
      · split
        · exact hs
        · exact safe_claimChunk hs
      · split
        · exact hs
        · exact safe_claimChunk hs

theorem metMany_mem (s : State) (lid key n : Nat) : (s.metMany lid key n).mem = s.mem := by
  induction n generalizing s with
  | zero => rfl
  | succ n ih => rw [State.metMany, ih, met_mem]

theorem safe_response {s : State} {lid p : Nat} {x : Txn} {f : State → Nat → Nat → State} {t : State}
    (hf : ∀ s a b, Safe s → Safe (f s a b)) (hs : Safe s) (h : s.response lid p x f = some t) : Safe t := by
  rw [State.response] at h
  split at h
  · split at h
    · cases h
      exact hf _ _ _ (safe_of_mem (metMany_mem ..) hs)
    · split at h
      · cases h
        exact hf _ _ _ (safe_of_mem (accept_mem ..) hs)
      · cases h
  · cases h
    exact hf _ _ _ (safe_recordTxn (safe_of_mem (accept_mem ..) hs))

theorem settle_mem (s : State) (p : Nat) (x : Outstanding) : (s.settle p x).mem = s.mem := rfl

theorem next_execRmtrsp {p tag status : Nat} {v : BitVec 512} {s : State} (hs : Safe s) :
    NextSafe (execRmtrsp p tag status v s) := by
  rw [execRmtrsp]
  refine nextSafe_next ?_
  split
  · split
    · split
      · exact hs
      · refine safe_getD (fun e => safe_response (fun u st d hu => ?_) ?_ e) (safe_of_mem rfl hs)
        · exact safe_of_mem (conclude_mem ..) (safe_of_mem (settle_mem ..) hu)
        · exact safe_of_mem rfl hs
    · exact hs
  · exact hs

theorem next_execPack {p core count : Nat} {s : State} (hs : Safe s) : NextSafe (execPack p core count s) := by
  rw [execPack]
  refine nextSafe_next ?_
  split
  · exact hs
  · refine safe_getD (fun e => safe_response (fun u _ d hu => safe_foldl (fun u x hu => ?_) hu) hs e) hs
    split
    · exact safe_of_mem (conclude_mem ..) (safe_of_mem (settle_mem ..) hu)
    · exact safe_of_mem (settle_mem ..) hu

theorem safe_resvAnswer {s : State} {p c : Nat} {k n : Nat} {i d : Nat} (hs : Safe s) {t : State}
    (h : (s.resvAnswer p c k n i d) = some t) : Safe t := by
  rw [State.resvAnswer] at h
  split at h
  · cases h
    split
    · exact hs
    · exact safe_of_mem (linkSend_mem ..) hs
  · dsimp only at h
    split at h
    · cases h
      exact hs
    · obtain ⟨k', hk', rfl⟩ := Option.map_eq_some_iff.1 h
      exact safe_atWordOf (fun t h => safe_of_mem (answered_mem ..) h) (safe_tallyAnswer hs hk')

theorem next_execRsvrsp {p tag : Nat} {d : Word} {s : State} (hs : Safe s) : NextSafe (execRsvrsp p tag d s) := by
  rw [execRsvrsp]
  refine nextSafe_next ?_
  split
  · split
    · dsimp only
      split
      · split
        · exact hs
        · refine safe_response (fun u st v hu => safe_getD (fun e => ?_) hu) hs ‹_›
          obtain ⟨w, hw, rfl⟩ := Option.map_eq_some_iff.mp e
          exact safe_of_mem (settle_mem ..) (safe_resvAnswer hu hw)
      · exact hs
    · exact hs
  · exact hs

theorem next_execRequestTimeout {p tag : Nat} {s : State} (hs : Safe s) : NextSafe (execRequestTimeout p tag s) := by
  rw [execRequestTimeout]
  refine nextSafe_next ?_
  split
  · split
    · exact safe_of_mem (endRequest_mem ..) (safe_of_mem (settle_mem ..) hs)
    · exact hs
  · exact hs

theorem next_execRmt {p : Nat} {x : Txn} {op : RemOp} {s : State} (hs : Safe s) : NextSafe (execRmt p x op s) := by
  rw [execRmt]
  refine nextSafe_next ?_
  split
  · exact hs
  · split
    · split
      · exact safe_of_mem (countErr_mem ..) (safe_of_mem (accept_mem ..) hs)
      · exact safe_of_mem (reply_mem ..) (safe_of_mem (accept_mem ..) hs)
    · split
      · dsimp only
        split
        · exact safe_of_mem (gatherPost_mem ..) (safe_of_mem (accept_mem ..) hs)
        · exact safe_of_mem (reply_mem ..) (safe_of_mem (accept_mem ..) hs)
      · split
        · dsimp only
          split
          · exact safe_of_mem (gatherPost_mem ..) (safe_of_mem (accept_mem ..) hs)
          · exact safe_of_mem (reply_mem ..) (safe_of_mem (accept_mem ..) hs)
        · split
          · exact hs
          · dsimp only
            split
            · refine safe_of_mem (gatherPost_mem ..) ?_
              rename_i e _
              exact safe_of_snd e (safe_remAt (safe_of_mem (accept_mem ..) hs))
            · refine safe_of_mem (reply_mem ..) ?_
              rename_i e _
              exact safe_of_snd e (safe_remAt (safe_of_mem (accept_mem ..) hs))
          · dsimp only
            split
            · refine safe_of_mem (gatherPost_mem ..) ?_
              rename_i e _
              exact safe_of_snd e (safe_remAt (safe_of_mem (accept_mem ..) hs))
            · refine safe_of_mem (reply_mem ..) ?_
              rename_i e _
              exact safe_of_snd e (safe_remAt (safe_of_mem (accept_mem ..) hs))

theorem next_execRsv {p : Nat} {x : Txn} {s : State} (hs : Safe s) : NextSafe (execRsv p x s) := by
  have ha : Safe (s.accept p x) := safe_of_mem (accept_mem ..) hs
  have hr (op tag status : Nat) (data : List Byte) : Safe ((s.accept p x).reply p op tag status data) :=
    safe_of_mem (reply_mem ..) ha
  rw [execRsv]
  refine nextSafe_next ?_
  refine safe_ite hs (safe_ite (hr ..) (safe_ite (hr ..) ?_))
  split
  · exact hr ..
  · rename_i e
    exact safe_of_mem (reply_mem ..) (safe_of_mem (updPort_mem ..) (safe_of_mem (reserveAt_mem e) ha))

theorem next_execUnrsv {p : Nat} {x : Txn} {s : State} (hs : Safe s) : NextSafe (execUnrsv p x s) := by
  rw [execUnrsv]
  refine nextSafe_next ?_
  split
  · exact hs
  · dsimp only
    split
    · exact safe_of_mem (countErr_mem ..) (safe_of_mem (accept_mem ..) hs)
    · split
      · exact safe_of_mem (send_mem ..) (safe_of_mem (updPort_mem ..) (safe_of_mem (accept_mem ..) hs))
      · exact safe_of_mem (accept_mem ..) hs

theorem importMsg_mem (s : State) (p : Nat) (m : Msg) (rhnd : Nat) : (s.importMsg p m rhnd).mem = s.mem := by
  rw [State.importMsg]
  split
  · split
    · rw [updPort_mem, send_mem, updPort_mem, updPort_mem]
    · rw [send_mem, updPort_mem, updPort_mem]
  · split
    · rw [updPort_mem, updPort_mem]
    · rw [send_mem, updPort_mem]

theorem next_execMsg {p : Nat} {x : Txn} {replayed : Bool} {s : State} (hs : Safe s) :
    NextSafe (execMsg p x replayed s) := by
  rw [execMsg]
  refine nextSafe_next ?_
  split
  · exact hs
  · split
    · dsimp only
      split
      · split
        · exact safe_of_mem (importMsg_mem ..) (safe_of_mem (metMany_mem ..) hs)
        · exact hs
      · exact hs
    · split
      · exact safe_of_mem (countErr_mem ..) (safe_of_mem (accept_mem ..) hs)
      · split
        · exact safe_of_mem (countErr_mem ..) (safe_of_mem (accept_mem ..) hs)
        · split
          · exact safe_of_mem (countErr_mem ..) (safe_of_mem (accept_mem ..) hs)
          · split
            · split
              · exact safe_of_mem (updPort_mem ..) hs
              · exact safe_of_mem (countErr_mem ..) (safe_of_mem (accept_mem ..) hs)
            · exact safe_of_mem (importMsg_mem ..) (safe_recordTxn (safe_of_mem (accept_mem ..) hs))

/-! ## The host -/

theorem safe_logTxn {s : State} {x : Txn} {status : Nat} (hs : Safe s) : Safe (s.logTxn x status) := by
  rw [State.logTxn]
  exact safe_wrWord _ _ (safe_wrWord _ _ (safe_wrWord _ _ hs))

theorem safe_hostWrite {s : State} {loc : Nat} {bs : List Byte} (hs : Safe s) : Safe (s.hostWrite loc bs).2 := by
  rw [State.hostWrite]
  split
  · refine safe_of_mem (touchRow_mem ..) ?_
    refine safe_of_mem (dropReadBufs_mem ..) ?_
    rename_i e
    exact safe_of_snd e (safe_writeCells _ hs)

theorem safe_hostStf {s : State} {loc : Nat} {bs : List Byte} (hs : Safe s) : Safe (s.hostStf loc bs).2 := by
  rw [State.hostStf]
  split
  · split
    · rename_i e _
      exact safe_of_snd e (safe_hostWrite hs)
    · refine safe_storeFull ?_
      rename_i e _
      exact safe_of_snd e (safe_hostWrite hs)

theorem safe_hostPut {s : State} {stf : Bool} {loc : Nat} {bs : List Byte} (hs : Safe s) :
    Safe (s.hostPut stf loc bs).2 := by
  rw [State.hostPut]
  split
  · exact safe_hostStf hs
  · exact safe_hostWrite hs

theorem safe_writeRspack {s : State} {q v : Nat} (hs : Safe s) : Safe (s.writeRspack q v) := by
  rw [State.writeRspack]
  split
  · exact hs
  · exact safe_flushRsps (safe_putWord hs)

theorem safe_portWrite {s : State} {stf : Bool} {q n : Nat} {bs : List Byte} (hs : Safe s) :
    Safe (s.portWrite stf q n bs).2 := by
  rw [State.portWrite]
  split
  · exact safe_hostPut hs
  · dsimp only
    split
    · exact safe_storeFull (safe_writeRspack hs)
    · exact safe_writeRspack hs

theorem hostTakes_mem (s : State) (p : Nat) (x : Txn) : (s.hostTakes p x).mem = s.mem := by
  rw [State.hostTakes, adapterPump_mem, accept_mem]

theorem hostEnded_mem (s : State) (q : Nat) : (s.hostEnded q).mem = s.mem := rfl

/-- What the state that a turn of the host keeps is. -/
def turnAfter (s : State) : HostTurn → State
  | .waits => s
  | .goesOn _ t => t
  | .done t => t

theorem safe_hostGoesOn {s : State} {q : Nat} {f : HostPart → State → HostTurn}
    (hf : ∀ p t, Safe t → Safe (turnAfter t (f p t))) (hs : Safe s) : Safe (s.hostGoesOn q f) := by
  have ht := hf (s.svc q).part s hs
  unfold State.hostGoesOn
  split
  · exact hs
  · rename_i e
    rw [e] at ht
    exact safe_of_mem (updSvc_mem ..) ht
  · rename_i e
    rw [e] at ht
    exact safe_of_mem (hostEnded_mem ..) ht

theorem safe_hostServes {s : State} {p : Nat} {x : Txn} {f : HostPart → State → HostTurn} {other : State → State}
    (hf : ∀ p t, Safe t → Safe (turnAfter t (f p t))) (ho : Safe s → Safe (other s)) (hs : Safe s) : Safe
    (s.hostServes p x f other) := by
  unfold State.hostServes
  dsimp only
  split
  · exact hs
  split
  · exact safe_hostGoesOn hf hs
  split
  · exact ho hs
  split
  · exact hs
  have ht := safe_of_mem ((updSvc_mem _ x.qtr fun v => { v with inFlight := (s.svc x.qtr).inFlight ++ [(p, x)]
    }).trans
    (hostTakes_mem s p x)) hs
  split
  · exact safe_hostGoesOn hf ht
  · exact ht

theorem safe_logBad {s : State} {x : Txn} (hs : Safe s) : Safe (s.logBad x) := by
  rw [State.logBad]
  split
  · exact safe_logTxn hs
  · exact hs

theorem safe_hostAtomic {s : State} {x : Txn} {loc : Nat} (hs : Safe s) : Safe (s.hostAtomic x loc).2.2 := by
  rw [State.hostAtomic]
  split
  · rename_i e
    exact safe_amoAt hs e
  · exact hs

theorem safe_addReqcnt {s : State} {x : Txn} (hs : Safe s) : Safe (s.addReqcnt x).2.2 := by
  rw [State.addReqcnt]
  exact safe_of_mem (wakeLine_mem ..) (safe_storeFull (safe_of_mem (dropReadBufs_mem ..) hs))

theorem safe_portAtomic {s : State} {x : Txn} {n : Nat} (hs : Safe s) : Safe (s.portAtomic x n).2.2 := by
  rw [State.portAtomic]
  split
  · split
    · exact safe_addReqcnt hs
    · exact hs
  · split
    · exact safe_hostAtomic hs
    · split
      · exact safe_of_mem (wakeLine_mem ..) (safe_writeRspack hs)
      · exact safe_logTxn hs

theorem reject_mem (s : State) (p row : Nat) (x : Txn) : (s.reject p row x).mem = s.mem := by
  rw [State.reject]
  split
  · exact reply_mem ..
  · exact countErr_mem ..

theorem notHost_mem (s : State) (p row : Nat) (x : Txn) : (s.notHost p row x).mem = s.mem := by
  rw [State.notHost]
  split
  · rfl
  · rw [reject_mem, accept_mem]

theorem safe_hostAt {s u : State} {x : Txn} {kind : AKind} {port mem bad : Nat → HostTurn}
    (hport : ∀ n, Safe (turnAfter u (port n))) (hmem : ∀ n, Safe (turnAfter u (mem n)))
    (hbad : ∀ n, Safe (turnAfter u (bad n))) (hu : Safe u) : Safe (turnAfter u (s.hostAt x kind port mem bad)) := by
  unfold State.hostAt
  split
  · exact hbad _
  · exact hu
  · exact hport _
  · split
    · exact hbad _
    split
    · exact hu
    · exact hmem _

theorem safe_hostLoad {p : Nat} {x : Txn} {a : HostPart} {s : State} (hs : Safe s) :
    Safe (turnAfter s (hostLoad p x a s)) := by
  have hreply : ∀ {u : State} (t st : Nat) (bs : List Byte), Safe u → Safe (u.reply p 0x80 t st bs) :=
    fun _ _ _ h => safe_of_mem (reply_mem ..) h
  unfold hostLoad
  refine safe_hostAt (fun n => ?_) (fun n => ?_) (fun n => ?_) hs
  · split
    · exact hreply _ _ _ hs
    · dsimp only
      split
      · exact hs
      · exact hreply _ _ _ hs
  · have ht := safe_of_mem (touchRow_mem s (n + (wordPiece x.addr x.len a.done).1)) hs
    dsimp only
    split
    · exact ht
    · exact hreply _ _ _ ht
  · exact hreply _ _ _ hs

theorem safe_hostStore {p : Nat} {x : Txn} {a : HostPart} {s : State} (hs : Safe s) :
    Safe (turnAfter s (hostStore p x a s)) := by
  have hfin : ∀ {u : State} (st : Nat), Safe u →
      Safe (if x.op = 2 then u.reply p 0x81 x.tag st [] else if st = 0 then u else u.logTxn x st) := by
    intro u st hu
    split
    · exact safe_of_mem (reply_mem ..) hu
    split
    · exact hu
    · exact safe_logTxn hu
  have hnext : ∀ {r : Nat × State} (m : Bool), Safe r.2 → Safe (turnAfter s
      (if m then HostTurn.goesOn ⟨a.done + 1, [], max a.st r.1⟩ r.2 else .done (if x.op = 2 then
        r.2.reply p 0x81 x.tag (max a.st r.1) [] else if max a.st r.1 = 0 then r.2 else r.2.logTxn x (max a.st
          r.1)))) := by
    intro r m hr
    split
    · exact hr
    · exact hfin _ hr
  unfold hostStore
  refine safe_hostAt (fun n => ?_) (fun n => ?_) (fun n => ?_) hs
  · split
    · exact hnext _ (safe_portWrite hs)
    · refine hfin _ ?_
      split
      · exact safe_logTxn hs
      · exact hs
  · exact hnext _ (safe_hostPut hs)
  · exact hfin _ hs

theorem safe_hostAmo {p : Nat} {x : Txn} {a : HostPart} {s : State} (hs : Safe s) :
    Safe (turnAfter s (hostAmo p x a s)) := by
  have hreply : ∀ {u : State} (t st : Nat) (bs : List Byte), Safe u → Safe (u.reply p 0x82 t st bs) :=
    fun _ _ _ h => safe_of_mem (reply_mem ..) h
  unfold hostAmo
  exact safe_hostAt (fun n => hreply _ _ _ (safe_portAtomic hs)) (fun n => hreply _ _ _ (safe_hostAtomic hs))
    (fun n => hreply _ _ _ hs) hs

theorem safe_hostTxn {p row : Nat} {x : Txn} {a : HostPart} {s : State} (hs : Safe s) :
    Safe (turnAfter s (hostTxn p row x a s)) := by
  unfold hostTxn
  split
  · exact safe_of_mem (reject_mem ..) (safe_logBad hs)
  split
  · exact safe_hostLoad hs
  split
  · exact safe_hostStore hs
  · exact safe_hostAmo hs

theorem safe_hostOp {s : State} {p row : Nat} {x : Txn} (hs : Safe s) : Safe (s.hostOp p row x) := by
  unfold State.hostOp
  split
  · exact hs
  · exact safe_hostServes (fun _ _ h => safe_hostTxn h) (fun h => safe_of_mem (notHost_mem ..) h) hs

theorem next_execRd {p : Nat} {x : Txn} {s : State} (hs : Safe s) : NextSafe (execRd p x s) := by
  rw [execRd]
  exact nextSafe_next (safe_hostOp hs)

theorem next_execWr {p : Nat} {x : Txn} {s : State} (hs : Safe s) : NextSafe (execWr p x s) := by
  rw [execWr]
  exact nextSafe_next (safe_hostOp hs)

theorem next_execWrp {p : Nat} {x : Txn} {s : State} (hs : Safe s) : NextSafe (execWrp p x s) := by
  rw [execWrp]
  exact nextSafe_next (safe_hostOp hs)

theorem next_execWrf {p : Nat} {x : Txn} {s : State} (hs : Safe s) : NextSafe (execWrf p x s) := by
  rw [execWrf]
  exact nextSafe_next (safe_hostOp hs)

theorem next_execHostAmo {p : Nat} {x : Txn} {s : State} (hs : Safe s) : NextSafe (execHostAmo p x s) := by
  rw [execHostAmo]
  exact nextSafe_next (safe_hostOp hs)

theorem next_execReqcntAdd {p : Nat} {x : Txn} {s : State} (hs : Safe s) : NextSafe (execReqcntAdd p x s) := by
  rw [execReqcntAdd]
  refine nextSafe_next ?_
  split
  · exact safe_hostOp hs
  · exact hs

theorem next_execRspackWrite {p : Nat} {x : Txn} {s : State} (hs : Safe s) : NextSafe (execRspackWrite p x s) := by
  rw [execRspackWrite]
  refine nextSafe_next ?_
  split
  · exact safe_hostOp hs
  · exact hs

theorem adapterSend_mem (s : State) (q : Nat) (x : Txn) : (s.adapterSend q x).mem = s.mem := by
  rw [State.adapterSend]
  split
  · exact adapterLose_mem ..
  · split
    · rfl
    · exact adapterPut_mem ..

theorem writePiece_mem (s : State) (w : HostWindow) (a : Nat) (bs : List Byte) :
    (s.writePiece w a bs).mem = s.mem := by
  rw [State.writePiece]
  split
  · rfl
  · split
    · exact adapterSend_mem ..
    · split
      · rw [adapterSend_mem, adapterSend_mem]
      · exact adapterSend_mem ..

theorem safe_mgmtStore {s : State} {o : Nat} {bs : List Byte} (hs : Safe s) : Safe (s.mgmtStore o bs) := by
  rw [State.mgmtStore]
  dsimp only [Safe]
  refine wf_of_safe ?_
  refine safe_foldl (fun t a h => ?_) ?_
  · split
    · split
      · exact safe_beginTurnover _ h
      · exact h
    · exact safe_of_mem (mgmtWrite_mem ..) h
  · exact hs

theorem next_execPcieMemoryWrite {w : HostWindow} {addr : Nat} {data : List Byte} {s : State} (hs : Safe s) :
    NextSafe (execPcieMemoryWrite w addr data s) := by
  rw [execPcieMemoryWrite]
  refine nextSafe_next ?_
  split
  · exact safe_mgmtStore hs
  · exact safe_foldl (fun t a h => safe_of_mem (writePiece_mem ..) h) hs

theorem next_execPcieMemoryRead {w : HostWindow} {addr len : Nat} {s : State} (hs : Safe s) :
    NextSafe (execPcieMemoryRead w addr len s) := by
  rw [execPcieMemoryRead]
  refine nextSafe_next ?_
  split
  · exact safe_of_mem (complPcie_mem ..) hs
  · refine safe_foldl (fun t a h => ?_) ?_
    · split
      · exact safe_of_mem (complPcie_mem ..) h
      · exact safe_of_mem (adapterSend_mem ..) h
    · exact hs

theorem next_execPcieAtomicop {w : HostWindow} {addr : Nat} {kind : PcieAtomic} {n : Nat} {a b : Word} {s : State}
    (hs : Safe s) : NextSafe (execPcieAtomicop w addr kind n a b s) := by
  rw [execPcieAtomicop]
  refine nextSafe_next ?_
  split
  · exact safe_of_mem (complPcie_mem ..) hs
  · split
    · exact safe_of_mem (complPcie_mem ..) hs
    · exact safe_of_mem (adapterSend_mem ..) hs

theorem hostResponse_mem (p op tag : Nat) (s : State) : (hostResponse p op tag s).mem = s.mem := by
  rw [hostResponse]
  split
  · rfl
  · split
    · rfl
    · dsimp only
      split
      · exact updPort_mem ..
      · rw [adapterPump_mem, complPcie_mem]
        dsimp only
        exact updPort_mem ..

theorem adapterDid_mem (s : State) (p tag st : Nat) : (s.adapterDid p tag st).mem = s.mem := rfl

theorem next_execFrameTableEntryWrite {n : Nat} {s : State} (hs : Safe s) :
    NextSafe (execFrameTableEntryWrite n s) := by
  rw [execFrameTableEntryWrite]
  refine nextSafe_next ?_
  split
  · split <;> exact safe_of_mem (adapterDid_mem ..) hs
  · exact hs

theorem next_execMsiXTrigger {n : Nat} {s : State} (hs : Safe s) : NextSafe (execMsiXTrigger n s) := by
  rw [execMsiXTrigger]
  refine nextSafe_next ?_
  split
  · exact hs
  · exact hs
  · split <;> exact safe_of_mem (adapterDid_mem ..) hs

theorem safe_serve {code q : Nat} {f : State → Nat → List Word → Option (Nat × Nat) × State} {s : State}
    {waits : List Word → Bool} (hf : ∀ s n ws, Safe s → Safe (f s n ws).2) (hs : Safe s) : Safe
    (serve code q f s waits) := by
  have htaken : ∀ n, Safe (s.updSvc q fun x => { x with taken := n }) := fun n => safe_of_mem (updSvc_mem ..) hs
  unfold serve
  split
  · exact hs
  · dsimp only
    split
    · exact safe_respond (htaken _)
    split
    · exact hs
    split
    · exact safe_respond (htaken _)
    split
    · exact hs
    split
    · rename_i e
      exact safe_respond (safe_of_snd e (hf _ _ _ (htaken _)))
    · rename_i e
      exact safe_of_snd e (hf _ _ _ (htaken _))

theorem safe_queueOff {s : State} {d k : Nat} (hs : Safe s) : Safe (s.queueOff d k) := by
  rw [State.queueOff]
  exact safe_of_mem (updDie_mem ..) (safe_clearEn hs)

theorem safe_doQsetup {q : Nat} {s : State} {n : Nat} {ws : List Word} (hs : Safe s) :
    Safe (doQsetup q s n ws).2 := by
  rw [doQsetup]
  split
  · exact hs
  · dsimp only
    exact safe_setQueueWord (safe_foldl (fun t a h => safe_setQueueWord h) (safe_queueOff hs))

theorem safe_doQdisable {q : Nat} {s : State} {n : Nat} {ws : List Word} (hs : Safe s) :
    Safe (doQdisable q s n ws).2 := by
  rw [doQdisable]
  split
  · exact hs
  · exact safe_queueOff hs

theorem doFramemap_mem (s : State) (n : Nat) (ws : List Word) : (doFramemap s n ws).2.mem = s.mem := by
  rw [doFramemap]
  split
  · rfl
  · split
    · rfl
    · exact mem_foldl _ _ _ fun t a => updSvc_mem ..

theorem safe_doAbort {q : Nat} {s : State} {n : Nat} {ws : List Word} (hs : Safe s) :
    Safe (doAbort q s n ws).2 := by
  rw [doAbort]
  split
  · exact hs
  · split
    · rename_i e
      exact safe_of_snd e (safe_abortLaunch hs)

theorem doSuspend_mem (q : Nat) (s : State) (n : Nat) (ws : List Word) : (doSuspend q s n ws).2.mem = s.mem := by
  rw [doSuspend]
  split
  · rfl
  · dsimp only
    split
    · rfl
    · split
      · rfl
      · split
        · rfl
        · split
          · dsimp only
            exact beginCut_mem ..
          · dsimp only
            rw [beginCut_mem, updLaunch_mem]

theorem safe_doResume {q : Nat} {s : State} {n : Nat} {ws : List Word} (hs : Safe s) :
    Safe (doResume q s n ws).2 := by
  rw [doResume]
  split
  · exact hs
  · split
    · exact safe_resumeLaunch hs
    · exact hs

theorem next_execTurnover {q : Nat} {s : State} (hs : Safe s) : NextSafe (execTurnover q s) := by
  rw [execTurnover]
  refine nextSafe_next ?_
  split
  · dsimp only
    split
    · exact safe_beginTurnover _ (safe_serve (fun t n ws h => h) hs)
    · exact safe_serve (fun t n ws h => h) hs
  · exact hs

/-! ## Choices of the agenda -/

theorem atWord_mem (s : State) (i : Nat) : (s.atWord i).mem = s.mem := rfl

theorem noteSkipped_mem (s : State) (g : Option (Nat × Nat)) (c : Nat) : (s.noteSkipped g c).mem = s.mem := by
  rw [State.noteSkipped]
  exact mem_foldl _ _ _ fun t a => updSlot_mem ..

theorem noteIssued_mem (t : State) (c : Nat) (ws : List (Nat × Nat)) : (t.noteIssued c ws).mem = t.mem := by
  rw [State.noteIssued]
  exact mem_foldl _ _ _ fun t a => updFrame_mem ..

theorem issueCycle_mem (s : State) (q : Nat) : (s.issueCycle q).mem = s.mem := by
  rw [State.issueCycle]
  split
  · rw [updSquare_mem]
    refine (mem_foldl _ _ _ fun t a => ?_).trans ?_
    · rw [noteIssued_mem, noteSkipped_mem]
    · rfl
  · refine (mem_foldl _ _ _ fun t a => ?_).trans ?_
    · rw [noteIssued_mem, noteSkipped_mem]
    · rfl

theorem rescan_mem (s : State) : (s.rescan).mem = s.mem := rfl

theorem idleTick_mem (s : State) : (s.idleTick).mem = s.mem := rfl

theorem safe_choose {s : State} {ch : Choice} (hs : Safe s) : Safe (s.choose ch) := by
  unfold State.choose
  split
  · exact hs
  · exact hs
  · exact safe_of_mem (updCore_mem ..) hs
  · split
    · split
      · exact safe_of_mem (takeBuf_mem ..) hs
      · exact hs
    · exact hs
  · exact safe_of_mem (issueCycle_mem ..) hs
  · exact hs
  · exact safe_of_mem (updVault_mem ..) hs
  · exact safe_setPois _ _ hs
  · exact safe_of_mem (updSlot_mem ..) hs
  · exact safe_of_mem (updSlot_mem ..) hs
  · exact hs

end Sys2Proof.Proofs

/-! PROOFS. Every step keeps memory in its canonical form (08, 09). -/

namespace Sys2Proof.Proofs
open Sys2Proof.Machine Sys2Proof.Laws

/-- What class C computes leaves memory as it is: its frame is that of the obligation on class C. -/
theorem next_of_compute {i : Instr} {s : State} (hc : i.shape.cls = .compute)
    (hq : ∀ p a b, i ≠ .tid p a b ∧ i ≠ .whereQ p a b ∧ i ≠ .time p a b) (hs : Safe s) : NextSafe (exec i s) := by
  cases e : exec i s with
  | next t =>
    obtain ⟨ht, -⟩ := computeFrame.1 i s t hc hq e
    exact safe_of_mem (by rw [ht]) hs
  | fault f => trivial
  | refused r => trivial

/-- What every instruction and every event keeps, case by case. -/
theorem next_exec {i : Instr} {s : State} (hs : Safe s) : NextSafe (exec i s) := by
  cases i with
  | ld | ldS => exact nextSafe_next (safe_loadOp (fun a x y h => safe_of_mem (scalarLoad_mem ..) hs) hs)
  | ldDAcq => exact nextSafe_next (safe_syncOp (fun a x y h => safe_of_mem (doLdAcq_mem ..) hs) hs)
  | st => exact nextSafe_next (safe_storeOp (fun a x y z h => safe_of_mem (buildSt_mem ..) hs) hs)
  | ldfe => exact next_execLdfe hs
  | ldff => exact next_execLdff hs
  | feprobe => exact next_execFeprobe hs
  | stef => exact next_execStef hs
  | stf => exact nextSafe_next (safe_storeOp (fun a x y z h => safe_of_mem (buildStf_mem ..) hs) hs)
  | feempty => exact nextSafe_next (safe_storeOp (fun a x y z h => safe_of_mem (buildFeempty_mem ..) hs) hs)
  | amo => exact next_execAmo hs
  | binit => exact nextSafe_next (safe_storeOp (fun a x y z h => safe_of_mem (buildBinit_mem ..) hs) hs)
  | arrive => exact next_execArrive hs
  | bwait => exact next_execBwait hs
  | btest => exact next_execBtest hs
  | join => exact next_execJoin hs
  | leave => exact next_execLeave hs
  | waita => exact next_execWaita hs
  | notify => exact nextSafe_next (safe_storeOp (fun a x y z h => safe_of_mem (buildNotify_mem ..) hs) hs)
  | fence | fenceXp | fenceLoop => exact nextSafe_next (safe_fenceOp hs)
  | rowopen | rowclose => exact nextSafe_next (safe_storeOp (fun a x y z h => safe_of_mem (buildRow_mem ..) hs) hs)
  | semwait => exact nextSafe_next (safe_syncOp (fun a x y h => safe_of_mem (doSemwait_mem ..) hs) hs)
  | semsig => exact next_execSemsig hs
  | semset => exact next_execSemset hs
  | rld => exact nextSafe_next (safe_loadOp (fun a x y h => safe_of_mem (remoteLoad_mem ..) hs) hs)
  | rst | rstf => exact nextSafe_next (safe_storeOp (fun a x y z h => safe_of_mem (buildRst_mem ..) hs) hs)
  | rpost => exact nextSafe_next (safe_storeOp (fun a x y z h => safe_of_mem (buildRpost_mem ..) hs) hs)
  | ramo => exact next_execRamo hs
  | rcas => exact next_execRcas hs
  | roadd => exact next_execRoadd hs
  | rvamo => exact next_execRvamo hs
  | spawn | callat | send => exact nextSafe_next (safe_of_mem (messageOp_mem ..) hs)
  | tid => exact next_execTid hs
  | whereQ => exact next_execWhereQ hs
  | time => exact nextSafe_next (safe_queryOp (fun h e => safe_timeFor hs e) hs)
  | br | call | loop | trap | doneX | yieldX | breakX => exact nextSafe_next (safe_plainExit hs)
  | bri | ret => exact nextSafe_next (safe_exitOp (fun x h => hs) hs)
  | migrate => exact next_execMigrate hs
  | vld => exact nextSafe_next (safe_loadOp (fun a x y h => safe_of_mem (vectorLoad_mem ..) hs) hs)
  | vst => exact nextSafe_next (safe_storeOp (fun a x y z h => safe_of_mem (buildVst_mem ..) hs) hs)
  | vldg => exact nextSafe_next (safe_loadOp (fun a x y h => safe_of_mem (vectorGather_mem ..) hs) hs)
  | vsts => exact nextSafe_next (safe_storeOp (fun a x y z h => safe_of_mem (buildVsts_mem ..) hs) hs)
  | vtld => exact nextSafe_next (safe_loadOp (fun a x y h => safe_of_mem (vectorColumn_mem ..) hs) hs)
  | vamo => exact next_execVamo hs
  | csrrd => exact nextSafe_next (safe_syncOp (fun a x y h => safe_of_mem (doCsrrd_mem ..) hs) hs)
  | csrwr => exact next_execCsrwr hs
  | segld => exact next_execSegld hs
  | segst => exact next_execSegst hs
  | wake => exact next_execWake hs
  | ctxswap => exact next_execCtxswap hs
  | slotpark => exact next_execSlotpark hs
  | slotfree => exact nextSafe_next (safe_sysOp (fun a x y h => safe_doSlotfree hs) hs)
  | tlbinv => exact nextSafe_next (safe_sysOp (fun a x y h => safe_of_mem (doTlbinv_mem ..) hs) hs)
  | marker => exact nextSafe_next (safe_sysOp (fun a x y h => safe_of_mem (doMarker_mem ..) hs) hs)
  | qwave => exact nextSafe_next (safe_sysOp (fun a x y h => safe_of_mem (doQwave_mem ..) hs) hs)
  | twin => exact nextSafe_next (safe_sysOp (fun a x y h => safe_of_mem (doTwin_mem ..) hs) hs)
  | scrub => exact nextSafe_next (safe_sysOp (fun a x y h => safe_of_mem (doScrub_mem ..) hs) hs)
  | mma | tileLd | tileSt | tileCp | tileDeal | tileResume | castDec | castPlane | castTable | xswap
  | pgPromote | pgRequant | kvAlloc | kvFree | kvAppend | kvEvict | pfxMatch | pfxInsert | pfxUnref =>
    exact nextSafe_next (safe_of_mem (commandOp_mem ..) hs)
  | moduleResetRelease => exact next_execModuleResetRelease hs
  | squareEnableStep => exact next_execSquareEnableStep hs
  | thermalShutdown => exact next_execThermalShutdown hs
  | flowShutdown => exact next_execFlowShutdown hs
  | moduleRestart => exact next_execModuleRestart hs
  | configStoreUpdate => exact next_execConfigStoreUpdate hs
  | linkTraining => exact next_execLinkTraining hs
  | linkControlFlit => exact next_execLinkControlFlit hs
  | busyRepeatTimer => exact next_execBusyRepeatTimer hs
  | linkAckTimeout => exact next_execLinkAckTimeout hs
  | portDown => exact nextSafe_next (safe_of_mem (portDown_mem ..) hs)
  | rd => exact next_execRd hs
  | wr => exact next_execWr hs
  | wrp => exact next_execWrp hs
  | wrf => exact next_execWrf hs
  | hostAmo => exact next_execHostAmo hs
  | reqcntAdd => exact next_execReqcntAdd hs
  | rspackWrite => exact next_execRspackWrite hs
  | rmt => exact next_execRmt hs
  | rsv => exact next_execRsv hs
  | unrsv => exact next_execUnrsv hs
  | msg => exact next_execMsg hs
  | rdrsp | ack | amorsp => exact nextSafe_next (safe_of_mem (hostResponse_mem ..) hs)
  | rmtrsp => exact next_execRmtrsp hs
  | pack => exact next_execPack hs
  | rsvrsp => exact next_execRsvrsp hs
  | packGatherTimeout => exact next_execPackGatherTimeout hs
  | pcieMemoryWrite => exact next_execPcieMemoryWrite hs
  | pcieMemoryRead => exact next_execPcieMemoryRead hs
  | pcieAtomicop => exact next_execPcieAtomicop hs
  | frameTableEntryWrite => exact next_execFrameTableEntryWrite hs
  | msiXTrigger => exact next_execMsiXTrigger hs
  | qsetup => exact nextSafe_next (safe_serve (fun t n ws h => safe_doQsetup h) hs)
  | qdisable => exact nextSafe_next (safe_serve (fun t n ws h => safe_doQdisable h) hs)
  | framemap => exact nextSafe_next (safe_serve (fun t n ws h => safe_of_mem (doFramemap_mem ..) h) hs)
  | abort => exact nextSafe_next (safe_serve (fun t n ws h => safe_doAbort h) hs)
  | suspend => exact nextSafe_next (safe_serve (fun t n ws h => safe_of_mem (doSuspend_mem ..) h) hs)
  | resume => exact nextSafe_next (safe_serve (fun t n ws h => safe_doResume h) hs)
  | turnover => exact next_execTurnover hs
  | turnoverCmd => exact next_execTurnoverCmd hs
  | turnoverScrub => exact next_execTurnoverScrub hs
  | turnoverClear => exact next_execTurnoverClear hs
  | turnoverHealth => exact next_execTurnoverHealth hs
  | turnoverFirmware => exact next_execTurnoverFirmware hs
  | turnoverAttest => exact nextSafe_next (safe_turnStep (fun h => hs) hs)
  | dispenserReadRecord => rw [exec]; exact next_execDispenserReadRecord hs
  | recordTake => exact next_execRecordTake hs
  | guestOffer => rw [exec]; exact next_execGuestOffer hs
  | guestBatchClaim => exact next_execGuestBatchClaim hs
  | grant => exact next_execGrant hs
  | startMessage => exact next_execStartMessage hs
  | cdisChange => rw [exec]; exact next_execCdisChange hs
  | sliceEndReport => exact next_execSliceEndReport hs
  | quiescenceWave => exact next_execQuiescenceWave hs
  | quiescenceWaveReturn => exact next_execQuiescenceWaveReturn hs
  | launchEnd => exact next_execLaunchEnd hs
  | launchCompletion => exact next_execLaunchCompletion hs
  | killWaveReturn => exact next_execKillWaveReturn hs
  | spillRequest => exact next_execSpillRequest hs
  | reserveEntryAllocation => exact next_execReserveEntryAllocation hs
  | messageArrival => exact next_execMessageArrival hs
  | migrationArrival => exact next_execMigrationArrival hs
  | reservationRequest => exact next_execReservationRequest hs
  | reservationRelease => exact next_execReservationRelease hs
  | slotOutComplete => exact next_execSlotOutComplete hs
  | threadWake => exact next_execThreadWake hs
  | waiterRetryTimer => exact next_execWaiterRetryTimer hs
  | blockFetch => exact next_execBlockFetch hs
  | blockLock => exact next_execBlockLock hs
  | blockCommit => exact next_execBlockCommit hs
  | faultRaiseTimeout => exact next_execFaultRaiseTimeout hs
  | noProgressTimeout => exact next_execNoProgressTimeout hs
  | storeBufferDrain => exact next_execStoreBufferDrain hs
  | remoteOperation => exact next_execRemoteOperation hs
  | roaddApply => exact next_execRoaddApply hs
  | faultRecord => exact next_execFaultRecord hs
  | cutOrder => exact next_execCutOrder hs
  | cutMarker => exact next_execCutMarker hs
  | routerReport => exact next_execRouterReport hs
  | twinComparison => exact next_execTwinComparison hs
  | replayDivergence => exact next_execReplayDivergence hs
  | multicastWindowClose => exact next_execMulticastWindowClose hs
  | engineCommandStart => exact next_execEngineCommandStart hs
  | engineCommandComplete => exact next_execEngineCommandComplete hs
  | xswapNoPair => exact next_execXswapNoPair hs
  | invalidationWaveReturn => exact next_execInvalidationWaveReturn hs
  | remapComplete | refresh | layerThrottleSample => exact nextSafe_next (safe_of_mem (updVault_mem ..) hs)
  | layerPowerOnComplete => exact next_execLayerPowerOnComplete hs
  | rowTimeout => exact next_execRowTimeout hs
  | transitionComplete | currentEstimate => exact nextSafe_next (safe_of_mem (updSquare_mem ..) hs)
  | powerMeasurement => exact next_execPowerMeasurement hs
  | damageSample => exact nextSafe_next (safe_of_mem (updDistrict_mem ..) hs)
  | damageWindow => exact next_execDamageWindow hs
  | hardThresholdPark => exact next_execHardThresholdPark hs
  | idleEntry => exact next_execIdleEntry hs
  | idleExit => exact nextSafe_next (safe_foldl (fun t a h => safe_leaveIdle h) (safe_of_mem (updDie_mem ..) hs))
  | heartbeatTimeout => exact next_execHeartbeatTimeout hs
  | pchb => exact nextSafe_next (safe_of_mem (updDie_mem ..) hs)
  | pcsign => exact next_execPcsign hs
  | vlpwrWrite => exact next_execVlpwrWrite hs
  | camreqWrite => exact next_execCamreqWrite hs
  | debugContextWrite => exact next_execDebugContextWrite hs
  | scmdResume => exact next_execScmdResume hs
  | retire => exact next_execRetire hs
  | kill => exact nextSafe_next (safe_of_mem (askExit_mem ..) (safe_orSame (fun e => safe_cmdKill hs e) hs))
  | freeze => exact next_execFreeze hs
  | step => exact next_execStep hs
  | registerWrite => exact next_execRegisterWrite hs
  | flitDiscard => exact next_execFlitDiscard hs
  | busyReplay => exact next_execBusyReplay hs
  | requestTimeout => exact next_execRequestTimeout hs
  | entryReuseDelay => exact next_execEntryReuseDelay hs
  | slotLoadComplete => exact next_execSlotLoadComplete hs
  | layerPowerOffComplete => exact next_execLayerPowerOffComplete hs
  | scrubPassComplete => exact next_execScrubPassComplete hs
  | _ => exact next_of_compute rfl (by simp) hs

/-! ## Steps that are due -/

/-- A due step keeps memory canonical, where it is taken. -/
def DueSafe (f : Due) : Prop := ∀ s, Safe s → NextSafe (f s)

theorem packetDue_safe (n : Nat) (x : Packet) : DueSafe (packetDue n x) := by
  intro s hs
  cases x with
  | start => exact next_execStartMessage hs
  | msg => exact next_execMessageArrival hs
  | migr => exact next_execMigrationArrival hs
  | resvReq => exact next_execReservationRequest hs
  | resvRel => exact next_execReservationRelease hs
  | remote => exact next_execRemoteOperation hs
  | sliceEnd => exact next_execSliceEndReport hs
  | wake => exact next_execThreadWake hs
  | fault => exact next_execFaultRecord hs
  | cutOrder => exact next_execCutOrder hs
  | cutMarker => exact next_execCutMarker hs
  | cutReport => exact next_execRouterReport hs
  | spill => exact next_execSpillRequest hs
  | claim => exact next_execStartMessage hs

/-- The host transactions that a port has in flight. -/
theorem hostDue_safe (x : Nat × Txn) (f : Due)
    (h : f ∈ [execRd x.1 x.2, execWr x.1 x.2, execWrp x.1 x.2, execWrf x.1 x.2, execHostAmo x.1 x.2]) : DueSafe f
      := by
  intro s hs
  simp only [List.mem_cons, List.not_mem_nil, or_false] at h
  obtain rfl | rfl | rfl | rfl | rfl := h
  · exact next_execRd hs
  · exact next_execWr hs
  · exact next_execWrp hs
  · exact next_execWrf hs
  · exact next_execHostAmo hs

theorem adapterDue_safe (p tag : Nat) (f : Due)
    (h : f ∈ [execFrameTableEntryWrite (8 * tag + p), execMsiXTrigger (8 * tag + p), execRmtrsp p tag 0 0]) :
    DueSafe f := by
  intro s hs
  simp only [List.mem_cons, List.not_mem_nil, or_false] at h
  obtain rfl | rfl | rfl := h
  · exact next_execFrameTableEntryWrite hs
  · exact next_execMsiXTrigger hs
  · exact next_execRmtrsp hs

theorem linkDue_safe {s : State} {f : Due} (h : f ∈ s.linkDue) : DueSafe f := by
  simp only [State.linkDue, List.mem_append, List.mem_flatMap, List.mem_map] at h
  obtain (⟨e, -, x, -, h⟩ | ⟨g, -, rfl⟩) | ⟨x, -, h⟩ := h
  · exact adapterDue_safe _ _ f h
  · exact fun _ hs => next_execPackGatherTimeout hs
  · exact hostDue_safe x f (List.mem_of_mem_drop (List.mem_of_mem_take h))

/-- The steps of the cursor's slot. -/
theorem slotDue_safe (c k : Nat) (f : Due) (h : f ∈ [execSlotLoadComplete c k, execBlockLock c k, execBlockCommit
  c k] ∨
      f ∈ [execTwinComparison c k, execStoreBufferDrain c, execSlotOutComplete c k, execReserveEntryAllocation c k]) :
    DueSafe f := by
  intro s hs
  simp only [List.mem_cons, List.not_mem_nil, or_false] at h
  obtain (rfl | rfl | rfl) | (rfl | rfl | rfl | rfl) := h
  · exact next_execSlotLoadComplete hs
  · exact next_execBlockLock hs
  · exact next_execBlockCommit hs
  · exact next_execTwinComparison hs
  · exact next_execStoreBufferDrain hs
  · exact next_execSlotOutComplete hs
  · exact next_execReserveEntryAllocation hs

theorem moduleDue_safe (c k : Nat) (f : Due)
    (h : f ∈ [execModuleResetRelease, execSquareEnableStep, execTurnoverClear, execFaultRaiseTimeout c k]) :
    DueSafe f := by
  intro s hs
  simp only [List.mem_cons, List.not_mem_nil, or_false] at h
  obtain rfl | rfl | rfl | rfl := h
  · exact next_execModuleResetRelease hs
  · exact next_execSquareEnableStep hs
  · exact next_execTurnoverClear hs
  · exact next_execFaultRaiseTimeout hs

theorem dueList_safe {s : State} {f : Due} (h : f ∈ s.dueList) : DueSafe f := by
  simp only [State.dueList, List.mem_append] at h
  obtain (((((((h | h) | h) | h) | h) | h) | h) | h) | h := h
  · exact slotDue_safe _ _ f (.inl h)
  · split at h
    · obtain rfl := List.mem_singleton.mp h
      exact fun _ hs => next_execBlockFetch hs
    · simp at h
  · exact slotDue_safe _ _ f (.inr h)
  · obtain ⟨e, -, rfl⟩ := List.mem_map.mp h
    exact packetDue_safe _ _
  · exact linkDue_safe h
  · obtain ⟨e, -, rfl⟩ := List.mem_map.mp h
    exact fun _ hs => next_execEngineCommandStart hs
  · obtain ⟨e, -, rfl⟩ := List.mem_map.mp h
    exact fun _ hs => next_execEngineCommandComplete hs
  · obtain ⟨e, -, rfl⟩ := List.mem_map.mp h
    exact fun _ hs => next_execRoaddApply hs
  · exact moduleDue_safe _ _ f h

theorem on_eq {f : Due} {s : State} {r : Res} (h : f.on s = some r) : r = f s := by
  rw [Due.on] at h
  split at h
  · split at h
    · cases h
    · rename_i e _
      rw [e]
      exact (Option.some.inj h).symm
  · exact (Option.some.inj h).symm

theorem next_dueStep {s : State} (hs : Safe s) {r : Res} (h : s.dueStep = some r) : NextSafe r := by
  obtain ⟨f, hf, hr⟩ := List.exists_of_findSome?_eq_some h
  rw [on_eq hr]
  exact dueList_safe hf s hs

/-! ## A step -/

/-- What the head of the agenda, a ready word, a due step and the passing of time keep. -/
theorem next_step {s : State} (hs : Safe s) : NextSafe (step s) := by
  rw [step]
  split
  · exact next_exec hs
  · dsimp only
    split
    · exact next_exec hs
    · exact hs
  · exact safe_choose hs
  · split
    · exact next_exec (safe_of_mem (atWord_mem ..) hs)
    · have hr : Safe s.rescan := safe_of_mem (rescan_mem s) hs
      cases e : s.rescan.dueStep with
      | none => exact safe_of_mem (idleTick_mem s) hs
      | some r => exact next_dueStep hr e

/-- Settles O60: each instruction, each event, each due step and each choice of the agenda keeps memory canonical. -/
theorem stepKeepsMemoryCanonical : Obligations.StepKeepsMemoryCanonical := by
  intro s t hs e
  exact safe_of_nextSafe e (next_step hs)

end Sys2Proof.Proofs
